-- ==== Sys2Proof/Word.lean ====
section
/-!
DEFINITION. The word types of the Pelris PX4 (01_notation.md R21, R22): bit vectors for what the
manual numbers bit by bit. Everything computed over them stands in the files under Machine/.
-/
namespace Sys2Proof

/-- One byte of memory or of a payload. -/
abbrev Byte := BitVec 8
/-- A 64-bit register of a control-core context, or a 64-bit word of memory. -/
abbrev Word := BitVec 64
/-- The number of a control-core register, x0 to x31 (14_control_core.md R272). -/
abbrev Reg := BitVec 5
/-- One 32-bit lane of a WIDE payload (01_notation.md R23). -/
abbrev Lane := BitVec 32
/-- The 64 bytes of a WIDE payload (02_tokens.md R31). -/
abbrev Wide := BitVec 512
/-- A colour number (02_tokens.md R28). -/
abbrev Colour := BitVec 9
/-- A world number (24_trust.md R392). -/
abbrev World := BitVec 6

end Sys2Proof
end

