-- ==== Sys2Proof/Syntax.lean ====
section
/-!
DEFINITION. The syntax of every step of the Pelris PX4 that spec/opcode_table.json lists: the
control-core instructions of 03_formats.md R70, the fabric operators of R64, and the device's other
steps (95_what_each_step_holds.md). A step that the device takes by itself names, in its arguments,
which pending piece of work it acts on; a step that comes from outside carries the outside data.
Numbers of places are plain naturals: a cluster `ck` is 16 * die + cluster, a tile `tk` is
192 * ck + 16 * y + x, a slice `sk` is 64 * die + 16 * quadrant + slice, a station `st` is
16 * die + 4 * quadrant + station; `k` counts the pending items of a list from 0.
-/
namespace Sys2Proof

/-- The twelve named scopes, codes 0x0 to 0xB (01_notation.md R16). -/
inductive Scope where
  | self | tile | clus | quad | die | pkg | host | peer | colour | group | engine | world
  deriving DecidableEq, Repr

/-- The ports of an operator, codes 0 to 3 (02_tokens.md R28). -/
inductive Port where
  | l | r | g | c
  deriving DecidableEq, Repr

/-- Tag operations, codes 0 to 6 (01_notation.md R13, 02_tokens.md R30). -/
inductive TagOp where
  | keep | inc | zero | iterl | push | pop | ctxl
  deriving DecidableEq, Repr

/-- Element types, codes 0 to 14 (03_formats.md R61). -/
inductive EType where
  | ord | i32 | ui32 | f32 | bf16 | f16 | e4m3 | e5m2 | i8 | q16n | bits | n8 | n16 | n32 | n64
  deriving DecidableEq, Repr

/-- A valid destination field (01_notation.md R14); an absent one (V = 0) is `none` of an Option. -/
structure Dest where
  dx : BitVec 5
  dy : BitVec 5
  slot : BitVec 6
  port : Port
  narrow : Bool
  deriving DecidableEq, Repr

/-- FLAGS of an operator word (03_formats.md R60). -/
structure OpFlags where
  brk : Bool
  order : Bool
  stall : BitVec 2
  commit : Bool
  deriving DecidableEq, Repr

/-- The fields of an operator word beside its OPC (03_formats.md R59). -/
structure OpFields where
  arityN : BitVec 2
  arityG : Bool
  tagop : TagOp
  etype : EType
  sub : BitVec 8
  dest0 : Option Dest
  dest1 : Option Dest
  dest2 : Option Dest
  imm : BitVec 32
  flags : OpFlags
  deriving DecidableEq, Repr

/-- A lease holder (06_slices.md R123): a tile's stash, or a control-core context. -/
inductive Holder where
  | tile (tk : Nat)
  | context (ck ctx : Nat)
  deriving DecidableEq, Repr

/-- TDISP states of a virtual function (24_trust.md R400). -/
inductive Tdisp where
  | configUnlocked | configLocked | run | error
  deriving DecidableEq, Repr

/-- An access of a host function (26_host_and_package.md R415, R418): the stream it arrived on
(24_trust.md R405; 0 is the clear or the link stream), its byte offset, its size in bytes, and for a
write the bytes written. -/
structure HostAccess where
  stream : Nat
  offset : Nat
  size : Nat
  write : Option (List Byte)
  deriving DecidableEq, Repr

/-- One end's answer when a die-to-die link trains (24_trust.md R404). -/
structure LinkAnswer where
  link : Nat
  nonceA : BitVec 128
  nonceB : BitVec 128
  answer : BitVec 128
  deriving DecidableEq, Repr

/-- What one step of bring-up works on (26_host_and_package.md R420 to R422). -/
inductive BootInput where
  /-- PERST_N asserted: the boot starts over. -/
  | perst
  /-- Stage 1: the bytes of the two copies of the boot image in the flash. -/
  | image (copy0 copy1 : List Byte)
  /-- Stage 2: whether the PLLs locked. -/
  | pll (locked : Bool)
  /-- Stage 3: the boot secret and the answers of the link ends. -/
  | links (secret : BitVec 256) (answers : List LinkAnswer)
  /-- Stage 4: the stacks that failed training. -/
  | stacks (failed : BitVec 8)
  /-- Stage 5: the device firmware, or nothing where it does not load. -/
  | firmware (code : Option (List Byte))
  /-- Stage 6: whether the tables were cleared and worlds 0 and 1 set up. -/
  | tables (ok : Bool)
  /-- Stage 7: the host link is enabled. -/
  | hostLink
  deriving DecidableEq, Repr

/-- Where an error of 25_reliability.md R407 strikes. `code` is the structure code 1 to 7; `unit` is
the tile, cluster, slice, stop, port or stack; `item` is the granule, matching-store entry, flit,
line unit or page within it; `header` tells a mesh header error from a payload error. -/
structure ErrorPlace where
  code : Nat
  unit : Nat
  bank : Nat
  item : Nat
  header : Bool
  deriving DecidableEq, Repr

/-- Every step of the opcode table, one constructor per row. -/
inductive Instr where
  /-- ADD (R280). Adds xa and xb, wrapped to 64 bits, into xd. -/
  | add (xd xa xb : Reg)
  /-- SUB (R280). Subtracts xb from xa, wrapped to 64 bits, into xd. -/
  | sub (xd xa xb : Reg)
  /-- MUL (R280). Writes the low 64 bits of the signed product to xd. -/
  | mul (xd xa xb : Reg)
  /-- MULH (R280). Writes the high 64 bits of the signed product to xd. -/
  | mulh (xd xa xb : Reg)
  /-- MULHU (R280). Writes the high 64 bits of the unsigned product to xd. -/
  | mulhu (xd xa xb : Reg)
  /-- DIV (R280). Writes the signed quotient to xd, following R79. -/
  | div (xd xa xb : Reg)
  /-- DIVU (R280). Writes the unsigned quotient to xd, following R79. -/
  | divu (xd xa xb : Reg)
  /-- REM (R280). Writes the signed remainder to xd, following R79. -/
  | rem (xd xa xb : Reg)
  /-- REMU (R280). Writes the unsigned remainder to xd, following R79. -/
  | remu (xd xa xb : Reg)
  /-- AND (R280). Writes the bitwise AND of xa and xb to xd. -/
  | and (xd xa xb : Reg)
  /-- OR (R280). Writes the bitwise OR of xa and xb to xd. -/
  | or (xd xa xb : Reg)
  /-- XOR (R280). Writes the bitwise exclusive OR of xa and xb to xd. -/
  | xor (xd xa xb : Reg)
  /-- SLL (R280). Shifts xa left by xb modulo 64 into xd. -/
  | sll (xd xa xb : Reg)
  /-- SRL (R280). Shifts xa right logically by xb modulo 64 into xd. -/
  | srl (xd xa xb : Reg)
  /-- SRA (R280). Shifts xa right arithmetically by xb modulo 64 into xd. -/
  | sra (xd xa xb : Reg)
  /-- SLT (R280). Sets xd to 1 if xa is less than xb as signed values, otherwise to 0. -/
  | slt (xd xa xb : Reg)
  /-- SLTU (R280). Sets xd to 1 if xa is less than xb as unsigned values, otherwise to 0. -/
  | sltu (xd xa xb : Reg)
  /-- ADDI (R280). Adds the sign-extended immediate to xa, wrapped to 64 bits, into xd. -/
  | addi (xd xa : Reg) (imm : BitVec 32)
  /-- ANDI (R280). Writes the bitwise AND of xa and the immediate to xd. -/
  | andi (xd xa : Reg) (imm : BitVec 32)
  /-- ORI (R280). Writes the bitwise OR of xa and the immediate to xd. -/
  | ori (xd xa : Reg) (imm : BitVec 32)
  /-- XORI (R280). Writes the bitwise exclusive OR of xa and the immediate to xd. -/
  | xori (xd xa : Reg) (imm : BitVec 32)
  /-- SLLI (R280). Shifts xa left by the immediate modulo 64 into xd. -/
  | slli (xd xa : Reg) (imm : BitVec 32)
  /-- SRLI (R280). Shifts xa right logically by the immediate modulo 64 into xd. -/
  | srli (xd xa : Reg) (imm : BitVec 32)
  /-- SRAI (R280). Shifts xa right arithmetically by the immediate modulo 64 into xd. -/
  | srai (xd xa : Reg) (imm : BitVec 32)
  /-- SLTI (R280). Sets xd to 1 if xa is less than the immediate as signed values, otherwise to 0. -/
  | slti (xd xa : Reg) (imm : BitVec 32)
  /-- LI (R280). Writes the sign-extended immediate to xd. -/
  | li (xd : Reg) (imm : BitVec 32)
  /-- LIH (R280). Replaces bits [63:32] of xd with the immediate and keeps bits [31:0]. -/
  | lih (xd : Reg) (imm : BitVec 32)
  /-- BEQ (R281). Branches if xa equals xb. -/
  | beq (xa xb : Reg) (off : BitVec 32)
  /-- BNE (R281). Branches if xa differs from xb. -/
  | bne (xa xb : Reg) (off : BitVec 32)
  /-- BLT (R281). Branches if xa is less than xb as signed values. -/
  | blt (xa xb : Reg) (off : BitVec 32)
  /-- BGE (R281). Branches if xa is greater than or equal to xb as signed values. -/
  | bge (xa xb : Reg) (off : BitVec 32)
  /-- BLTU (R281). Branches if xa is less than xb as unsigned values. -/
  | bltu (xa xb : Reg) (off : BitVec 32)
  /-- BGEU (R281). Branches if xa is greater than or equal to xb as unsigned values. -/
  | bgeu (xa xb : Reg) (off : BitVec 32)
  /-- JAL (R281). Links PC + 8 into xd and jumps by the offset. -/
  | jal (xd : Reg) (off : BitVec 32)
  /-- JALR (R281). Links and jumps to xa + imm, and traps if the target is misaligned. -/
  | jalr (xd xa : Reg) (imm : BitVec 32)
  /-- LDX_B (R283). Loads a sign-extended byte into xd. -/
  | ldxB (xd xa : Reg) (imm : BitVec 32) (sc : Option Scope)
  /-- LDX_BU (R283). Loads a zero-extended byte into xd. -/
  | ldxBu (xd xa : Reg) (imm : BitVec 32) (sc : Option Scope)
  /-- LDX_H (R283). Loads a sign-extended halfword into xd. -/
  | ldxH (xd xa : Reg) (imm : BitVec 32) (sc : Option Scope)
  /-- LDX_HU (R283). Loads a zero-extended halfword into xd. -/
  | ldxHu (xd xa : Reg) (imm : BitVec 32) (sc : Option Scope)
  /-- LDX_W (R283). Loads a sign-extended word into xd. -/
  | ldxW (xd xa : Reg) (imm : BitVec 32) (sc : Option Scope)
  /-- LDX_WU (R283). Loads a zero-extended word into xd. -/
  | ldxWu (xd xa : Reg) (imm : BitVec 32) (sc : Option Scope)
  /-- LDX_D (R283). Loads a doubleword into xd. -/
  | ldxD (xd xa : Reg) (imm : BitVec 32) (sc : Option Scope)
  /-- STX_B (R283). Stores a byte, written through to its home. -/
  | stxB (xb xa : Reg) (imm : BitVec 32) (sc : Option Scope)
  /-- STX_H (R283). Stores a halfword, written through to its home. -/
  | stxH (xb xa : Reg) (imm : BitVec 32) (sc : Option Scope)
  /-- STX_W (R283). Stores a word, written through to its home. -/
  | stxW (xb xa : Reg) (imm : BitVec 32) (sc : Option Scope)
  /-- STX_D (R283). Stores a doubleword, written through to its home. -/
  | stxD (xb xa : Reg) (imm : BitVec 32) (sc : Option Scope)
  /-- AMO_ADD (R284). Atomically adds xb to the 8-byte word at xa and returns the old value. -/
  | amoAdd (xd xb xa : Reg) (sc : Option Scope)
  /-- AMO_SWAP (R284). Atomically swaps xb into the 8-byte word at xa and returns the old value. -/
  | amoSwap (xd xb xa : Reg) (sc : Option Scope)
  /-- AMO_CAS (R284). Atomically compares the word with xd, stores xb on a match, and returns the old value. -/
  | amoCas (xd xb xa : Reg) (sc : Option Scope)
  /-- FENCE (R285). Performs a release and then an acquire at its scope. -/
  | fence (sc : Scope)
  /-- REL (R285). Performs a release at its scope. -/
  | rel (sc : Scope)
  /-- ACQ (R285). Performs an acquire at its scope and drops leased copies. -/
  | acq (sc : Scope)
  /-- CSPAWN (R286). Checks a continuation record, releases, writes its join word and appends the record to its queue. -/
  | cspawn (xa : Reg) (imm : BitVec 32)
  /-- CJOIN (R287). Releases at PKG and atomically decrements a join word. -/
  | cjoin (xa : Reg)
  /-- CEND (R287). Ends the record once its stores are sent and makes the context idle. -/
  | cend
  /-- CYIELD (R287). Appends a continuation at PC + 8 and ends the record. -/
  | cyield
  /-- SSPEC (R288). Binds a memory stream, pushed stream or link to a port of a launch context. -/
  | sspec (xa : Reg) (imm : BitVec 32)
  /-- SBAR (R291). Waits until every stream bound to the named context has finished. -/
  | sbar (imm : BitVec 32)
  /-- SCOND (R292). Checks ownership and the held launch, then waits on a context's streams. -/
  | scond (xa : Reg) (imm : BitVec 32) (sc : Option Scope)
  /-- GLOAD (R293). Reads, checks, places, allocates and installs a graph image as a new launch context. -/
  | gload (xd xa : Reg) (imm : BitVec 32)
  /-- GSPLICE (R294). Checks a successor image and sends SPLICE tokens behind a predecessor. -/
  | gsplice (xa xb : Reg)
  /-- GFREE (R295). Frees an ended launch context or cancels a held one. -/
  | gfree (xa : Reg)
  /-- JSUB (R296). Submits a 64-byte job card to the cluster's job scheduler. -/
  | jsub (xa : Reg)
  /-- GJOIN (R297). Enrols a tile in a multicast group descriptor. -/
  | gjoin (xa : Reg) (imm : BitVec 32)
  /-- GLEAVE (R297). Removes a tile from a multicast group descriptor. -/
  | gleave (xa : Reg) (imm : BitVec 32)
  /-- COLQ (R298). Sets one limit of a colour (floor, age, policy, spill base, ring or quota) in every cluster. -/
  | colq (xa xb : Reg) (imm : BitVec 32)
  /-- COLRET (R299). Starts the retirement of a colour. -/
  | colret (xa : Reg)
  /-- EVWAIT (R300). Parks until NOTIFY of a ring is cleared, then returns PROD and acquires. -/
  | evwait (xd xa : Reg)
  /-- EVARM (R300). Sets NOTIFY on a ring. -/
  | evarm (xa : Reg)
  /-- BINIT (R301). Initialises a barrier object and sets its granule FULL. -/
  | binit (xa xb : Reg)
  /-- BARV (R301). Releases, then performs an arrival of xb bytes at a barrier object. -/
  | barv (xa xb : Reg) (sc : Option Scope)
  /-- BWAIT (R301). Waits on a barrier phase, then returns PHASE and acquires. -/
  | bwait (xd xa xb : Reg) (sc : Option Scope)
  /-- ONEW (R357). Creates an object at its home die, reclaiming weak candidates if needed. -/
  | onew (xd xa : Reg) (imm : BitVec 32)
  /-- ONAME (R360). Binds a 32-byte key to a strong handle's object. -/
  | oname (xa xb : Reg)
  /-- OFIND (R360). Looks up a key and returns a weak handle. -/
  | ofind (xd xa : Reg)
  /-- OUP (R358). Upgrades a handle to strong. -/
  | oup (xd xa : Reg)
  /-- OREL (R358). Releases a strong or weak reference, destroying the object at zero. -/
  | orel (xa : Reg)
  /-- OWEAK (R358). Takes a new weak reference. -/
  | oweak (xd xa : Reg)
  /-- OPRIO (R361). Sets an object's reclaim priority and prefetch colour. -/
  | oprio (xa : Reg) (imm : BitVec 32)
  /-- ODISC (R363). Discards an object's lines without write-back. -/
  | odisc (xa : Reg)
  /-- TRAP (R302). Traps with cause TRAP and the given code. -/
  | trap (imm : BitVec 16)
  /-- ERET (R279). Returns from a trap handler to CCEPC. -/
  | eret
  /-- CSRRD (R302). Reads a system register into xd. -/
  | csrrd (xd : Reg) (csr : BitVec 16)
  /-- CSRWR (R302). Writes xa to a system register. -/
  | csrwr (csr : BitVec 16) (xa : Reg)
  /-- WFE (R302). Waits until MMINVC.BUSY falls or 1,024 FCLK cycles pass. -/
  | wfe
  /-- HALT (R302). Ends the record and, in world 0, takes the context out of service. -/
  | halt
  /-- SNAP (R379). Injects markers to snapshot the world's running launches in the cluster. -/
  | snap (imm : BitVec 16)
  /-- FREEZE (R377). Freezes world W in place by scanning its state out. -/
  | freeze (xa : Reg)
  /-- THAW (R378). Thaws world W by writing its saved state back. -/
  | thaw (xa : Reg)
  /-- CONST (R195). Emits the immediate as its result. -/
  | const (f : OpFields)
  /-- PASS (R195). Forwards L to every destination. -/
  | pass (f : OpFields)
  /-- REPL (R195). Converts a narrow value and replicates it into all 16 wide lanes. -/
  | repl (f : OpFields)
  /-- STEER (R196). Sends L to DEST0 or DEST1 by a predicate, and to DEST2 always. -/
  | steer (f : OpFields)
  /-- MERGE (R197). Forwards the operand that the predicate selects. -/
  | merge (f : OpFields)
  /-- AMERGE (R197). Forwards each arriving token from either port. -/
  | amerge (f : OpFields)
  /-- LCARRY_ENTRY (R198). Enters a loop on L and pushes its level. -/
  | lcarryEntry (f : OpFields)
  /-- LCARRY_BACK_EDGE (R198). Continues or leaves the loop on R and C. -/
  | lcarryBackEdge (f : OpFields)
  /-- LCARRY_EOS_RELEASE (R198). Once ACTIVE is zero, emits the held EOS to DEST2. -/
  | lcarryEosRelease (f : OpFields)
  /-- SELECT (R195). Forwards L or R by a predicate. -/
  | select (f : OpFields)
  /-- TAGSET (R199). Sets the current ITER field. -/
  | tagset (f : OpFields)
  /-- TAGINC (R199). Adds the immediate to the current ITER field. -/
  | taginc (f : OpFields)
  /-- TAGCOPY (R199). Sets the ITER field from L's value. -/
  | tagcopy (f : OpFields)
  /-- LVPUSH (R199). Pushes the nesting level. -/
  | lvpush (f : OpFields)
  /-- LVPOP (R199). Pops the nesting level and consumes EOS at level PL. -/
  | lvpop (f : OpFields)
  /-- EOSGEN (R200). Forwards data and emits EOS after the Nth token. -/
  | eosgen (f : OpFields)
  /-- EOSWAIT (R201). Passes L and holds its EOS until R has ended. -/
  | eoswait (f : OpFields)
  /-- SINK (R202). Consumes tokens and reports EOS at level 0 to the launch-end detector. -/
  | sink (f : OpFields)
  /-- DROP (R202). Consumes data tokens and forwards EOS. -/
  | drop (f : OpFields)
  /-- GATE (R203). Forwards L if its guard is true. -/
  | gate (f : OpFields)
  /-- OJOIN (R203). Joins guards and ORDER tokens into one token. -/
  | ojoin (f : OpFields)
  /-- CFGREQ (R204). Sends a CFGREQ to the fabric manager and holds L. -/
  | cfgreq (f : OpFields)
  /-- GCOAL (R205). Loads the table rows for an index token as sequenced chunks. -/
  | gcoal (f : OpFields)
  /-- GREORD (R206). Forwards chunks in sequence order. -/
  | greord (f : OpFields)
  /-- NADD (R207). Narrow add, wrapped to the type's width. -/
  | nadd (f : OpFields)
  /-- NSUB (R207). Narrow subtract, wrapped to the type's width. -/
  | nsub (f : OpFields)
  /-- NNEG (R207). Narrow negate, wrapped to the type's width. -/
  | nneg (f : OpFields)
  /-- NABS (R207). Narrow absolute value, wrapped to the type's width. -/
  | nabs (f : OpFields)
  /-- NMIN (R207). Forwards the narrow operand with the smaller value. -/
  | nmin (f : OpFields)
  /-- NMAX (R207). Forwards the narrow operand with the larger value. -/
  | nmax (f : OpFields)
  /-- NSHL (R207). Shifts a narrow value left by SUB digits. -/
  | nshl (f : OpFields)
  /-- NMULK (R207). Multiplies a narrow value by a signed immediate. -/
  | nmulk (f : OpFields)
  /-- NCEQ (R208). Narrow equality comparison. -/
  | nceq (f : OpFields)
  /-- NCNE (R208). Narrow inequality comparison. -/
  | ncne (f : OpFields)
  /-- NCLT (R208). Narrow less-than comparison. -/
  | nclt (f : OpFields)
  /-- NCLE (R208). Narrow less-or-equal comparison. -/
  | ncle (f : OpFields)
  /-- NTOB_W (R209). Wraps a narrow value into the two's-complement range of its type. -/
  | ntobW (f : OpFields)
  /-- NTOB_S (R209). Saturates a narrow value into the two's-complement range of its type. -/
  | ntobS (f : OpFields)
  /-- BTON (R209). Converts binary lanes to a narrow token. -/
  | bton (f : OpFields)
  /-- VADD_I32 (R215). Adds lanes, wrapped to 32 bits. -/
  | vaddI32 (f : OpFields)
  /-- VADDSAT_I32 (R215). Adds lanes with saturation. -/
  | vaddsatI32 (f : OpFields)
  /-- VSUB_I32 (R215). Subtracts lanes, wrapped to 32 bits. -/
  | vsubI32 (f : OpFields)
  /-- VSUBSAT_I32 (R215). Subtracts lanes with saturation. -/
  | vsubsatI32 (f : OpFields)
  /-- VMUL_I32 (R215). Multiplies lanes, giving the low 32 bits. -/
  | vmulI32 (f : OpFields)
  /-- VMULH_I32 (R215). Multiplies lanes, giving the signed high 32 bits. -/
  | vmulhI32 (f : OpFields)
  /-- VMULHU_I32 (R215). Multiplies lanes, giving the unsigned high 32 bits. -/
  | vmulhuI32 (f : OpFields)
  /-- VMIN_I32 (R216). Signed lane minimum. -/
  | vminI32 (f : OpFields)
  /-- VMAX_I32 (R216). Signed lane maximum. -/
  | vmaxI32 (f : OpFields)
  /-- VMINU_I32 (R216). Unsigned lane minimum. -/
  | vminuI32 (f : OpFields)
  /-- VMAXU_I32 (R216). Unsigned lane maximum. -/
  | vmaxuI32 (f : OpFields)
  /-- VAND (R216). Bitwise AND of the payloads. -/
  | vand (f : OpFields)
  /-- VOR (R216). Bitwise OR of the payloads. -/
  | vor (f : OpFields)
  /-- VXOR (R216). Bitwise exclusive OR of the payloads. -/
  | vxor (f : OpFields)
  /-- VNOT (R216). Bitwise complement of L. -/
  | vnot (f : OpFields)
  /-- VSHL (R217). Shifts lanes left. -/
  | vshl (f : OpFields)
  /-- VSHR (R217). Shifts lanes right logically. -/
  | vshr (f : OpFields)
  /-- VSRA (R217). Shifts lanes right arithmetically. -/
  | vsra (f : OpFields)
  /-- VCEQ_I32 (R218). Lane equality mask. -/
  | vceqI32 (f : OpFields)
  /-- VCNE_I32 (R218). Lane inequality mask. -/
  | vcneI32 (f : OpFields)
  /-- VCLT_I32 (R218). Signed lane less-than mask. -/
  | vcltI32 (f : OpFields)
  /-- VCLE_I32 (R218). Signed lane less-or-equal mask. -/
  | vcleI32 (f : OpFields)
  /-- VCLTU_I32 (R218). Unsigned lane less-than mask. -/
  | vcltuI32 (f : OpFields)
  /-- VCLEU_I32 (R218). Unsigned lane less-or-equal mask. -/
  | vcleuI32 (f : OpFields)
  /-- VFADD_F32 (R219). FP32 lane add. -/
  | vfaddF32 (f : OpFields)
  /-- VFSUB_F32 (R219). FP32 lane subtract. -/
  | vfsubF32 (f : OpFields)
  /-- VFMUL_F32 (R219). FP32 lane multiply. -/
  | vfmulF32 (f : OpFields)
  /-- VFMA_F32 (R219). FP32 fused multiply-add with one rounding. -/
  | vfmaF32 (f : OpFields)
  /-- VFDIV_F32 (R219). FP32 lane divide. -/
  | vfdivF32 (f : OpFields)
  /-- VFRCP_F32 (R220). FP32 reciprocal. -/
  | vfrcpF32 (f : OpFields)
  /-- VFRSQ_F32 (R220). FP32 reciprocal square root. -/
  | vfrsqF32 (f : OpFields)
  /-- VFSQRT_F32 (R220). FP32 square root. -/
  | vfsqrtF32 (f : OpFields)
  /-- VFEXP2_F32 (R220). FP32 base-2 exponential. -/
  | vfexp2F32 (f : OpFields)
  /-- VFLOG2_F32 (R220). FP32 base-2 logarithm. -/
  | vflog2F32 (f : OpFields)
  /-- VFMIN_F32 (R221). FP32 lane minimum. -/
  | vfminF32 (f : OpFields)
  /-- VFMAX_F32 (R221). FP32 lane maximum. -/
  | vfmaxF32 (f : OpFields)
  /-- VFCEQ_F32 (R222). FP32 equality mask. -/
  | vfceqF32 (f : OpFields)
  /-- VFCLT_F32 (R222). FP32 less-than mask. -/
  | vfcltF32 (f : OpFields)
  /-- VFCLE_F32 (R222). FP32 less-or-equal mask. -/
  | vfcleF32 (f : OpFields)
  /-- VFCUN_F32 (R222). FP32 unordered mask. -/
  | vfcunF32 (f : OpFields)
  /-- VCVT_F32_BF16 (R223). Widens part p of BF16 to FP32. -/
  | vcvtF32Bf16 (f : OpFields)
  /-- VCVT_BF16_F32 (R223). Packs FP32 lanes to BF16 with RNE. -/
  | vcvtBf16F32 (f : OpFields)
  /-- VCVTSR_BF16_F32 (R224). Packs FP32 lanes to BF16 with stochastic rounding. -/
  | vcvtsrBf16F32 (f : OpFields)
  /-- VCVT_F32_F16 (R223). Widens part p of FP16 to FP32. -/
  | vcvtF32F16 (f : OpFields)
  /-- VCVT_F16_F32 (R223). Packs FP32 lanes to FP16. -/
  | vcvtF16F32 (f : OpFields)
  /-- VCVT_F32_E4M3 (R223). Widens part p of E4M3 to FP32. -/
  | vcvtF32E4m3 (f : OpFields)
  /-- VCVT_E4M3_F32 (R223). Converts FP32 into part p of E4M3. -/
  | vcvtE4m3F32 (f : OpFields)
  /-- VCVT_F32_E5M2 (R223). Widens part p of E5M2 to FP32. -/
  | vcvtF32E5m2 (f : OpFields)
  /-- VCVT_E5M2_F32 (R223). Converts FP32 into part p of E5M2. -/
  | vcvtE5m2F32 (f : OpFields)
  /-- VCVT_I32_F32 (R223). Truncates FP32 to INT32 with saturation. -/
  | vcvtI32F32 (f : OpFields)
  /-- VCVTN_I32_F32 (R223). Rounds FP32 half-even to INT32 with saturation. -/
  | vcvtnI32F32 (f : OpFields)
  /-- VCVT_F32_I32 (R223). Converts INT32 to FP32. -/
  | vcvtF32I32 (f : OpFields)
  /-- VCVT_I8_I32 (R223). Saturates INT32 into part p of INT8. -/
  | vcvtI8I32 (f : OpFields)
  /-- VQDEC (R225). Decodes part p of Q16N codes to FP32. -/
  | vqdec (f : OpFields)
  /-- VQENC (R225). Encodes FP32 lanes into part p of Q16N codes. -/
  | vqenc (f : OpFields)
  /-- VRSUM_F32 (R226). Pairwise FP32 sum of the lanes. -/
  | vrsumF32 (f : OpFields)
  /-- VRMAX_F32 (R226). Pairwise FP32 maximum of the lanes. -/
  | vrmaxF32 (f : OpFields)
  /-- VRMIN_F32 (R226). Pairwise FP32 minimum of the lanes. -/
  | vrminF32 (f : OpFields)
  /-- VRSUM_I32 (R226). Wrapped INT32 sum of the lanes. -/
  | vrsumI32 (f : OpFields)
  /-- VPERM (R227). Permutes lanes or bytes by a selector. -/
  | vperm (f : OpFields)
  /-- VROT (R228). Rotates lanes toward lower lane numbers. -/
  | vrot (f : OpFields)
  /-- VCX (R229). Performs one bitonic compare-exchange stage. -/
  | vcx (f : OpFields)
  /-- LDV (R238). Loads 64 bytes. -/
  | ldv (f : OpFields)
  /-- STV (R238). Stores the active bytes of 64. -/
  | stv (f : OpFields)
  /-- LD8 (R238). Loads a byte as a narrow token. -/
  | ld8 (f : OpFields)
  /-- LD16 (R238). Loads 2 bytes as a narrow token. -/
  | ld16 (f : OpFields)
  /-- LD32 (R238). Loads 4 bytes as a narrow token. -/
  | ld32 (f : OpFields)
  /-- LD64 (R238). Loads 8 bytes as a narrow token. -/
  | ld64 (f : OpFields)
  /-- ST8 (R238). Stores a narrow value wrapped to 1 byte. -/
  | st8 (f : OpFields)
  /-- ST16 (R238). Stores a narrow value wrapped to 2 bytes. -/
  | st16 (f : OpFields)
  /-- ST32 (R238). Stores a narrow value wrapped to 4 bytes. -/
  | st32 (f : OpFields)
  /-- ST64 (R238). Stores a narrow value wrapped to 8 bytes. -/
  | st64 (f : OpFields)
  /-- LDFE_C (R239). Waits for FULL, reads the block and sets it EMPTY. -/
  | ldfeC (f : OpFields)
  /-- LDFE_K (R239). Waits for FULL and reads the block. -/
  | ldfeK (f : OpFields)
  /-- STF (R239). Waits for EMPTY, writes the block and sets it FULL. -/
  | stf (f : OpFields)
  /-- LDG (R242). Asks for a multicast group load and emits its status. -/
  | ldg (f : OpFields)
  /-- LDH_V (R244). Loads through a strong handle. -/
  | ldhV (f : OpFields)
  /-- STH_V (R244). Stores through a strong handle. -/
  | sthV (f : OpFields)
  /-- LDW_V (R245). Loads through a weak handle, or reads gone. -/
  | ldwV (f : OpFields)
  /-- AADD_I32 (R241). Atomic INT32 add on a block. -/
  | aaddI32 (f : OpFields)
  /-- AADD_F32 (R241). Atomic FP32 add on a block. -/
  | aaddF32 (f : OpFields)
  /-- AMIN_I32 (R241). Atomic signed minimum on a block. -/
  | aminI32 (f : OpFields)
  /-- AMAX_I32 (R241). Atomic signed maximum on a block. -/
  | amaxI32 (f : OpFields)
  /-- AAND (R241). Atomic AND on a block. -/
  | aand (f : OpFields)
  /-- AOR (R241). Atomic OR on a block. -/
  | aor (f : OpFields)
  /-- AXCHG (R241). Atomic exchange on a block. -/
  | axchg (f : OpFields)
  /-- ACAS (R241). Atomic compare-and-swap on a block. -/
  | acas (f : OpFields)
  /-- HUP (R246). Upgrades a handle at the object's home. -/
  | hup (f : OpFields)
  /-- HREL (R246). Releases a handle's reference at the object's home. -/
  | hrel (f : OpFields)
  /-- FENCE_S (R247). Fabric fence: write-back, release and acquire, then emits ORDER. -/
  | fenceS (f : OpFields)
  /-- MMA_E4M3 (R258). FP8 E4M3 matrix multiply-accumulate. -/
  | mmaE4m3 (f : OpFields)
  /-- MMA_E5M2 (R258). FP8 E5M2 matrix multiply-accumulate. -/
  | mmaE5m2 (f : OpFields)
  /-- MMA_E4E5 (R258). Mixed E4M3 by E5M2 matrix multiply-accumulate. -/
  | mmaE4e5 (f : OpFields)
  /-- MMA_BF16 (R258). BF16 matrix multiply-accumulate. -/
  | mmaBf16 (f : OpFields)
  /-- MMA_I8 (R258). INT8 matrix multiply-accumulate. -/
  | mmaI8 (f : OpFields)
  /-- MMA_Q16N (R258). Q16N by E4M3 unscaled partials. -/
  | mmaQ16n (f : OpFields)
  /-- SCALC (R259). Applies block and superblock scales into an accumulator. -/
  | scalc (f : OpFields)
  /-- ACCZ (R260). Zeroes an accumulator. -/
  | accz (f : OpFields)
  /-- ACCRD (R260). Reads an accumulator row, or the whole accumulator into a buffer. -/
  | accrd (f : OpFields)
  /-- ACCWR (R260). Writes a row of an accumulator. -/
  | accwr (f : OpFields)
  /-- XSORT (R261). Sorts the 16 key lanes and emits keys and indices. -/
  | xsort (f : OpFields)
  /-- ASCAN (R269). Scores a query against the tile's visible keys. -/
  | ascan (f : OpFields)
  /-- ARED (R270). Merges two attention triple groups. -/
  | ared (f : OpFields)
  /-- ANORM (R270). Normalises a triple group into eight tokens. -/
  | anorm (f : OpFields)
  /-- KVAPP (R265). Appends a quarter of a position's K or V data. -/
  | kvapp (f : OpFields)
  /-- KVSEQ_READ (R266). Reads a sequence descriptor. -/
  | kvseqRead (f : OpFields)
  /-- KVSEQ_OPEN (R266). Opens a sequence. -/
  | kvseqOpen (f : OpFields)
  /-- KVSEQ_ADVANCE (R266). Advances LEN. -/
  | kvseqAdvance (f : OpFields)
  /-- KVSEQ_DRAFT (R266). Sets ND. -/
  | kvseqDraft (f : OpFields)
  /-- KVTRIM (R267). Clears drafts and truncates a sequence. -/
  | kvtrim (f : OpFields)
  /-- SBAR_RETIRE (R291). The awaited streams have finished, so sbar acquires at PKG and completes. -/
  | sbarRetire (ck ctx : Nat)
  /-- SCOND_RETIRE (R292). At retirement, reads the predicate word and releases or cancels the held launch. -/
  | scondRetire (ck ctx : Nat)
  /-- CARD_ACCEPT (R178). The window has a free entry, so the scheduler checks the card and accepts it with its edges. -/
  | cardAccept (ck ctx : Nat)
  /-- NARROW_BEAT_EMIT (R210). The narrow unit emits the next result beat once its inputs are held. -/
  | narrowBeatEmit (tk : Nat)
  /-- VECTOR_RESULT_EMIT (R214). A vector firing's result falls due and leaves the unit. -/
  | vectorResultEmit (tk : Nat)
  /-- MEMORY_RESULT_ARRIVAL (R237). A memory access's answer arrives and the result is emitted. -/
  | memoryResultArrival (tk k : Nat)
  /-- WALK_COMPLETE (R235). A page walk returns a translation or a fault for a waiting tag. -/
  | walkComplete (tk k : Nat)
  /-- FE_TIMEOUT (R240). A parked full/empty access reaches its stall age and leaves the wait list. -/
  | feTimeout (tk k : Nat)
  /-- FE_RESEND (R170). A full/empty access refused by a full wait list is resent 16 cycles later. -/
  | feResend (tk k : Nat)
  /-- ARRAY_FIRING_END (R253). A cell-array firing's last busy cycle ends; it emits and advances buffers. -/
  | arrayFiringEnd (tk : Nat)
  /-- ADMIT (R47). An entry port admits a token under its quota and stamps colour and CTX. -/
  | admitToken (ck k : Nat)
  /-- CREDIT_RETURN (R48). A returned credit arrives and decrements the in-flight count. -/
  | creditReturn (ck k : Nat)
  /-- TOKEN_ARRIVAL (R39). A token arrives and fills its reserved matching-store entry. -/
  | tokenArrival (ck k : Nat)
  /-- EXIT_DELIVERY (R49). An exit port passes a token to its binding or discards it as unbound. -/
  | exitDelivery (ck k : Nat)
  /-- EXIT_REORDER_AGE_RELEASE (R250). The oldest held token of a colour reaches stall age, and NEXT jumps. -/
  | exitReorderAgeRelease (ck k : Nat)
  /-- STALL_AGE_EXPIRY (R50). An entry reaches its colour's stall age and is purged or spilled. -/
  | stallAgeExpiry (tk : Nat)
  /-- SPILL_ACK (R56). A spill write is acknowledged, so the directory entry is made and the entry freed. -/
  | spillAck (tk k : Nat)
  /-- SPILL_READBACK (R57). A spilled operand's read-back completes and it re-enters. -/
  | spillReadback (tk k : Nat)
  /-- BINDING_ACTIVATE (R315). A binding's port falls free and its stream starts. -/
  | bindingActivate (ck k : Nat)
  /-- STREAM_ELEMENT_READ (R290). A memory stream reads an element for admission. -/
  | streamElementRead (ck k : Nat)
  /-- PUSH_LINE_READ (R131). A push generator reads a line at its ordering point. -/
  | pushLineRead (sk k : Nat)
  /-- PUSH_ELEMENT_DELIVER (R131). A push generator delivers an element once it is admitted. -/
  | pushElementDeliver (sk k : Nat)
  /-- SLICE_READ (R124). A read is served at a line's ordering point with a lease. -/
  | sliceRead (k : Nat)
  /-- SLICE_WRITE (R125). A write or atomic is performed at the ordering point. -/
  | sliceWrite (k : Nat)
  /-- CONFLICT_QUEUE_LOCK (R121). A queued request takes a line lock when the line unlocks. -/
  | conflictQueueLock (sk k : Nat)
  /-- PTS_ADVANCE (R123). A lease holder's clock advances every 16 FCLK cycles. -/
  | ptsAdvance (holder : Holder)
  /-- RDLINE (R100). The base die reads, corrects and decrypts a line. -/
  | rdline (sk k : Nat)
  /-- WRLINE (R100). The base die encrypts and writes a line. -/
  | wrline (sk k : Nat)
  /-- WRMASK (R100). The base die encrypts and writes masked units. -/
  | wrmask (sk k : Nat)
  /-- KEYSET (R100). Installs a key in a slot. -/
  | keyset (holder colour : Nat)
  /-- KEYKILL (R100). Overwrites a key slot with zeros. -/
  | keykill (holder colour : Nat)
  /-- LINE_FILL (R121). A miss's fill returns and is installed, releasing the lock. -/
  | lineFill (sk k : Nat)
  /-- SLICE_EPOCH_END (R129). A slice epoch ends and ways move between worlds. -/
  | sliceEpochEnd (sk : Nat)
  /-- SLWAY_WRITE (R128). Writes a world's way floor and ceiling, or is ignored with ERR. -/
  | slwayWrite (world sk w : Nat) (value : BitVec 64)
  /-- SLWAYC_WRITE (R127). Sets FREEZE or clears ERR of way allocation. -/
  | slwaycWrite (world sk : Nat) (value : BitVec 64)
  /-- GROUP_REQUEST (R135). The group agent reads the descriptor, checks a member's request and translates its key. -/
  | groupRequest (ck k : Nat)
  /-- GROUP_ASK (R136). An ask reaches the home slice, allocating or updating a hold entry. -/
  | groupAsk (sk k : Nat)
  /-- GROUP_QUEUE_ADMIT (R136). A queued group ask gets a freed hold entry. -/
  | groupQueueAdmit (sk : Nat)
  /-- GROUP_TIMER_EXPIRY (R136). A hold entry's timer reaches zero and the line is read once. -/
  | groupTimerExpiry (sk k : Nat)
  /-- GROUP_FILL (R137). The fill is written to members and askers complete. -/
  | groupFill (ck k : Nat)
  /-- RELEASE_PROBE (R155). A slice acknowledges a release probe after earlier requests pass. -/
  | releaseProbe (k sk : Nat)
  /-- HUB_PROBE_FORWARD (R155). A remote hub forwards a probe to its slices and answers. -/
  | hubProbeForward (k die : Nat)
  /-- RELEASE_COMPLETE (R155). The last probe answer arrives and the release completes. -/
  | releaseComplete (k : Nat)
  /-- FLIT_PROMOTION (R146). A head flit's age reaches PROMO and it is promoted. -/
  | flitPromotion (ck k : Nat)
  /-- MSHCTL_WRITE (R147). Writes mesh weights and promotion threshold, or sets ERR. -/
  | mshctlWrite (world ck : Nat) (value : BitVec 64)
  /-- STCSEL_WRITE (R156). Selects a colour for a counter pair and clears it. -/
  | stcselWrite (world st k : Nat) (value : BitVec 64)
  /-- BARRIER_ARRIVAL (R174). An arrival adds bytes to a barrier object, advancing phases and waking waiters. -/
  | barrierArrival (ck k : Nat)
  /-- CARD_ISSUE (R179). A card whose edges have completed issues to a free channel. -/
  | cardIssue (ck : Nat)
  /-- CARD_COMPLETE (R187). A card's last write is acknowledged; the record is written and JOIN is decremented. -/
  | cardComplete (ck k : Nat)
  /-- EVENT_RECORD_WRITE (R189). The event unit writes a record, clears NOTIFY and wakes waiters. -/
  | eventRecordWrite (k : Nat)
  /-- RECORD_POP (R311). An idle context pops the next runnable record. -/
  | recordPop (ck : Nat)
  /-- JOIN_REREAD (R310). The scheduler rereads a join word, making its record runnable at zero. -/
  | joinReread (ck k : Nat)
  /-- LAUNCH_END (R319). A launch's end conditions hold; LAUNCH_END is written and JOIN decremented. -/
  | launchEnd (ck ctx : Nat)
  /-- SPLICE_TOKEN (R320). A SPLICE token stores a word in a slot's pending register. -/
  | spliceToken (ck k : Nat)
  /-- SPLICE_INSTALL (R321). A closed slot installs its pending successor word. -/
  | spliceInstall (tk k : Nat)
  /-- SPLICE_REGISTER_WRITE (R322). A tile writes the successor's registers once its predecessor slots close. -/
  | spliceRegisterWrite (tk : Nat)
  /-- CFGREQ_SERVE (R325). The fabric manager places or reuses a library instance for a CFGREQ. -/
  | cfgreqServe (die k : Nat)
  /-- CFG_WAIT_RETRY (R326). A held CFGREQ is retried when a die context ends or is freed. -/
  | cfgWaitRetry (die k : Nat)
  /-- PLANE_SWAP (R329). A tile drains, saves registers and changes its active plane. -/
  | planeSwap (tk : Nat)
  /-- SWAP_DRAIN_EXPIRY (R329). 4,096 FCLK cycles pass and the remaining WAIT entries are acted on. -/
  | swapDrainExpiry (tk : Nat)
  /-- MMINV_RANGE (R111). Invalidates a colour's translations over a page range. -/
  | mminvRange (ck ctx : Nat)
  /-- MMINV_COLOUR (R111). Invalidates every translation of a colour. -/
  | mminvColour (ck ctx : Nat)
  /-- MMINV_WORLD (R111). Invalidates every colour of the named colour's world. -/
  | mminvWorld (ck ctx : Nat)
  /-- MMINV_DISCARD (R117). Drops a range's lines without write-back. -/
  | mminvDiscard (ck ctx : Nat)
  /-- INVALIDATION_COMPLETE (R111). Every home is clear and BUSY falls. -/
  | invalidationComplete (ck ctx : Nat)
  /-- COLOUR_RETIRE_DROP (R113). After the colour-wide invalidation, lines of the retiring colour are dropped. -/
  | colourRetireDrop (colour : Nat)
  /-- COLOUR_FREE (R113). Every line is dropped, KEYKILL is issued and the colour is FREE. -/
  | colourFree (colour : Nat)
  /-- PAGER_FAULT_TOKEN (R371). A NOT_MAPPED fault token reaches the pager and joins a pending entry. -/
  | pagerFaultToken (k : Nat)
  /-- PAGER_SERVICE (R371). The pager maps the page, writes SERVICED and releases waiters. -/
  | pagerService (die k : Nat)
  /-- PGRETRY_WRITE (R373). Makes the pager serve a colour's held entries again. -/
  | pgretryWrite (world die : Nat) (value : BitVec 64)
  /-- FAULT_TIME_EXPIRY (R374). A pending fault exceeds FTIME and the colour is poisoned. -/
  | faultTimeExpiry (die k : Nat)
  /-- LCABORT_WRITE (R376). Aborts a running or held launch context. -/
  | lcabortWrite (world ck : Nat) (value : BitVec 64)
  /-- CCEN_WRITE (R303). Puts control-core contexts in or out of service. -/
  | ccenWrite (world ck : Nat) (value : BitVec 64)
  /-- MARKER_ARRIVAL (R380). A snapshot marker arrives on an edge. -/
  | markerArrival (ck k : Nat)
  /-- SNAPSHOT_TILE_SAVE (R380). A tile's save condition holds; it saves, flips EPOCH and forwards markers. -/
  | snapshotTileSave (tk ctx : Nat)
  /-- SNAPSHOT_COMPLETE (R380). All tiles saved and back edges closed; SNAPPED or STOPPED is written. -/
  | snapshotComplete (ck ctx : Nat)
  /-- BREAKPOINT_MATCH (R384). A ready tag matches a breakpoint and its world enters a debug stop. -/
  | breakpointMatch (tk slot : Nat)
  /-- DEBUG_RESUME (R384). A debug stop resumes and the latched tag fires first. -/
  | debugResume (world : Nat)
  /-- TBPF_WRITE (R383). Writes a breakpoint filter, subject to world rights. -/
  | tbpfWrite (world tk k : Nat) (value : BitVec 64)
  /-- OBJECT_RECLAIM (R365). Free granules fall below LOW and weak candidates are destroyed. -/
  | objectReclaim (die w : Nat)
  /-- PREFETCH_NOTICE (R362). A first admission of a colour makes allocator engines prefetch objects. -/
  | prefetchNotice (k : Nat)
  /-- COLOUR_ALLOC (R396). World-page command: allocates the lowest FREE colour. -/
  | colourAlloc (w : Nat) (arg0 arg1 : BitVec 64)
  /-- COLOUR_RETIRE (R396). World-page command: retires a colour. -/
  | colourRetire (w : Nat) (arg0 : BitVec 64)
  /-- RING_CREATE (R396). World-page command: creates and enables a ring. -/
  | ringCreate (w : Nat) (arg0 arg1 arg2 : BitVec 64)
  /-- RING_DESTROY (R396). World-page command: disables a ring and wakes its waiters. -/
  | ringDestroy (w : Nat) (arg0 : BitVec 64)
  /-- MACSEC_SA (R396). World-page command: installs a MACsec secure association. -/
  | macsecSa (w : Nat) (arg0 arg1 : BitVec 64)
  /-- WEVARM_WRITE (R395). A function arms NOTIFY on one of its rings. -/
  | wevarmWrite (w : Nat) (value : BitVec 64)
  /-- VF_ENABLE_CLEAR (R399). Removes every VF world. -/
  | vfEnableClear
  /-- VF_ENABLE_SET (R398). Creates VFs 1 to n once removals complete. -/
  | vfEnableSet (n : Nat)
  /-- FUNCTION_LEVEL_RESET (R399). Removes one VF's world. -/
  | functionLevelReset (n : Nat)
  /-- TDISP_STATE_CHANGE (R400). Locks, unlocks or removes a VF world's settings. -/
  | tdispStateChange (n : Nat) (st : Tdisp)
  /-- GET_VERSION (R401). SPDM request for versions. -/
  | getVersion (fn : Nat)
  /-- GET_CAPABILITIES (R401). SPDM request for capabilities. -/
  | getCapabilities (fn : Nat)
  /-- NEGOTIATE_ALGORITHMS (R401). SPDM algorithm negotiation. -/
  | negotiateAlgorithms (fn asym hash : Nat)
  /-- GET_DIGESTS (R401). SPDM request for slot-0 digests. -/
  | getDigests (fn : Nat)
  /-- GET_CERTIFICATE (R401). SPDM request for the slot-0 certificate. -/
  | getCertificate (fn slot : Nat)
  /-- CHALLENGE (R401). SPDM challenge signed by the device key. -/
  | challenge (fn slot nonce : Nat)
  /-- GET_MEASUREMENTS (R403). Returns measurements with consistent D, N and STATE. -/
  | getMeasurements (fn index nonce : Nat)
  /-- KEY_EXCHANGE (R401). SPDM session key exchange. -/
  | keyExchange (fn share : Nat)
  /-- FINISH (R401). SPDM session finish. -/
  | finish (fn verify : Nat)
  /-- END_SESSION (R401). SPDM session end. -/
  | endSession (fn : Nat)
  /-- IDE_KM (R405). Programs IDE stream keys inside a secure session. -/
  | ideKm (fn stream key : Nat)
  /-- D2D_LINK_TRAINING (R404). A die-to-die link trains and authenticates, or stays down. -/
  | d2dLinkTraining (link : Nat) (answer : BitVec 128)
  /-- BAR2_ACCESS (R418). A host access through the colour window. -/
  | bar2Access (w : Nat) (acc : HostAccess)
  /-- REGISTER_WINDOW_ACCESS (R415). A PF register access, refused and recorded if not permitted. -/
  | registerWindowAccess (w : Nat) (acc : HostAccess)
  /-- ETHERNET_FRAME_RX (R419). A received frame is accepted under MACsec or dropped. -/
  | ethernetFrameRx (port etherType : Nat) (secured : Bool)
  /-- BOOT (R422). Runs the boot stages after PERST_N. -/
  | boot (inp : BootInput)
  /-- THROTTLE (R424). Power over PWRCAP for 1 ms, or Tj at 100 °C, inserts throttle cycles. -/
  | throttle (on : Bool)
  /-- THERMTRIP (R424). Tj reaches 110 °C and THERMTRIP_N is asserted. -/
  | thermtrip
  /-- CORRECTED_ERROR (R411). A corrected error is counted and may retire its instance. -/
  | correctedError (e : ErrorPlace)
  /-- UNCORRECTED_ERROR (R407). An uncorrected check poisons, purges or drops, and records an ERROR. -/
  | uncorrectedError (e : ErrorPlace)
  /-- RING_CRC_RETRY (R407). A ring flit failing CRC is resent from the previous stop. -/
  | ringCrcRetry (k : Nat)
  /-- ERROR_WINDOW_BOUNDARY (R411). A window boundary zeroes every corrected-error count. -/
  | errorWindowBoundary
  /-- RLCFG_WRITE (R411). Sets N and WEXP, or sets ERR. -/
  | rlcfgWrite (world die : Nat) (value : BitVec 64)
  /-- REGISTER_WRITE (R414). A write to a register that has no row of its own. -/
  | registerWrite (world pa : Nat) (value : BitVec 64)
  /-- STALL_COUNT (R45). In every FCLK cycle in which a slot holds an operand or a ready tag and does not fire, one of its stall counters, and any aggregate counter its STALL field selects, is incremented. -/
  | stallCount (tk slot : Nat)
  /-- WFE_TIMEOUT (R302). A context parked in wfe resumes once 1,024 FCLK cycles have passed without MMINVC.BUSY falling. -/
  | wfeTimeout (ck ctx : Nat)
  /-- FREEZE_SCAN_COMPLETE (R377). The 2,600-cycle scan of a freeze or thaw finishes, the world's flits are taken out or written back, the cluster resumes and swaps, and the instruction completes once every cluster has finished. -/
  | freezeScanComplete (world : Nat)
  /-- REMOVAL_COMPLETE (R399). Firmware finishes removing a VF world, within 1 ms, so the world's measurement is reset and a held write setting VF Enable takes effect. -/
  | removalComplete (world : Nat)
  /-- MSI_X_TABLE_WRITE (R397). The host writes a function's MSI-X table, and unmasking a vector sends the message that the vector held pending. -/
  | msiXTableWrite (fn vec : Nat) (masked : Bool)
  deriving DecidableEq, Repr

end Sys2Proof
end

