-- ==== Sys2Proof/Machine/OpTable.lean ====
section
/-!
DEFINITION. The rows of the fabric opcode map (03_formats.md R64) with what the operators' entries
permit (R191, R212, R231, R252): operand counts, guards, element types, units, immediates, planes.
The configuration loader (R66) and well-formedness both read these tables.
-/
namespace Sys2Proof

/-- The four units of a tile (02_tokens.md R44). -/
inductive FUnit where
  | vector | narrow | memory | cells
  deriving DecidableEq, Repr

/-- One row of the opcode map: operand counts, the G mark, permitted types, and the unit (`none` where
the plane of ETYPE decides, R64). -/
structure OpRow where
  lo : Nat
  hi : Nat
  guard : Bool
  etypes : List EType
  unit : Option FUnit
  deriving DecidableEq, Repr

namespace EType
/-- The code of a type (R61). -/
def code : EType → Nat
  | ord => 0 | i32 => 1 | ui32 => 2 | f32 => 3 | bf16 => 4 | f16 => 5 | e4m3 => 6 | e5m2 => 7
  | i8 => 8 | q16n => 9 | bits => 10 | n8 => 11 | n16 => 12 | n32 => 13 | n64 => 14
/-- The type of a code; code 15 is refused (R61). -/
def ofCode : Nat → Option EType
  | 0 => some ord | 1 => some i32 | 2 => some ui32 | 3 => some f32 | 4 => some bf16 | 5 => some f16
  | 6 => some e4m3 | 7 => some e5m2 | 8 => some i8 | 9 => some q16n | 10 => some bits
  | 11 => some n8 | 12 => some n16 | 13 => some n32 | 14 => some n64 | _ => none
/-- Whether the plane of a type is the wide one (R61). -/
def isWide (e : EType) : Bool := 1 ≤ e.code && e.code ≤ 10
/-- Beats of a narrow type (R87); 0 for the others. -/
def beats : EType → Nat
  | n8 => 1 | n16 => 1 | n32 => 2 | n64 => 4 | _ => 0
/-- Digits of a narrow type (R87). -/
def digits : EType → Nat
  | n8 => 4 | n16 => 8 | n32 => 16 | n64 => 32 | _ => 0
/-- Bits of a narrow type (R207). -/
def width : EType → Nat
  | n8 => 8 | n16 => 16 | n32 => 32 | n64 => 64 | _ => 0
end EType

namespace OpTable
open EType

/-- Types 1 to 10 (R61). -/
def wides : List EType := [i32, ui32, f32, bf16, f16, e4m3, e5m2, i8, q16n, bits]
/-- Types 11 to 14. -/
def narrows : List EType := [n8, n16, n32, n64]
/-- Types 1 to 14. -/
def datas : List EType := wides ++ narrows
/-- Types 0 to 14. -/
def alls : List EType := ord :: datas

/-- A row that the plane of its type fires. -/
def planeRow (lo hi : Nat) (g : Bool) (es : List EType) : Option OpRow := some ⟨lo, hi, g, es, none⟩
/-- A row of a named unit. -/
def unitRow (u : FUnit) (lo hi : Nat) (g : Bool) (es : List EType) : Option OpRow :=
  some ⟨lo, hi, g, es, some u⟩

/-- Rows 0x001 to 0x052 (R191). -/
def routingRow (opc : Nat) : Option OpRow :=
  if opc = 0x001 ∨ opc = 0x002 then planeRow 1 1 false datas
  else if opc = 0x003 then planeRow 1 1 false [i32, ui32, f32]
  else if opc = 0x004 ∨ opc = 0x006 then planeRow 2 2 false datas
  else if opc = 0x005 ∨ opc = 0x007 ∨ opc = 0x008 then planeRow 3 3 false datas
  else if opc = 0x012 then planeRow 1 2 false datas
  else if 0x010 ≤ opc ∧ opc ≤ 0x014 then planeRow 1 1 false datas
  else if opc = 0x018 then planeRow 1 1 false datas
  else if opc = 0x019 then planeRow 2 2 false datas
  else if opc = 0x01C then planeRow 1 3 false alls
  else if opc = 0x01D then planeRow 1 1 false alls
  else if opc = 0x01E then planeRow 1 1 true datas
  else if opc = 0x01F then unitRow .narrow 1 3 true [ord]
  else if opc = 0x020 then unitRow .narrow 1 1 true narrows
  else if opc = 0x021 then unitRow .narrow 1 1 false [n32, n64]
  else if opc = 0x022 then unitRow .vector 1 1 false [bits]
  else if opc = 0x042 ∨ opc = 0x043 ∨ opc = 0x046 ∨ opc = 0x047 then
    unitRow .narrow 1 1 false narrows
  else if 0x040 ≤ opc ∧ opc ≤ 0x04B then unitRow .narrow 2 2 false narrows
  else if opc = 0x050 ∨ opc = 0x051 then unitRow .narrow 1 1 false narrows
  else if opc = 0x052 then unitRow .narrow 1 1 false [i32]
  else none

/-- Rows 0x080 to 0x122 (R212, R223). -/
def vectorRow (opc : Nat) : Option OpRow :=
  if 0x080 ≤ opc ∧ opc ≤ 0x086 then unitRow .vector 2 2 false [i32]
  else if 0x088 ≤ opc ∧ opc ≤ 0x08B then unitRow .vector 2 2 false [i32]
  else if 0x090 ≤ opc ∧ opc ≤ 0x092 then unitRow .vector 2 2 false [bits]
  else if opc = 0x093 then unitRow .vector 1 1 false [bits]
  else if 0x094 ≤ opc ∧ opc ≤ 0x096 then unitRow .vector 1 2 false [i32]
  else if 0x098 ≤ opc ∧ opc ≤ 0x09D then unitRow .vector 2 2 false [i32]
  else if opc = 0x0C3 then unitRow .vector 3 3 false [f32]
  else if 0x0C0 ≤ opc ∧ opc ≤ 0x0C4 then unitRow .vector 2 2 false [f32]
  else if 0x0C8 ≤ opc ∧ opc ≤ 0x0CC then unitRow .vector 1 1 false [f32]
  else if 0x0CD ≤ opc ∧ opc ≤ 0x0CE then unitRow .vector 2 2 false [f32]
  else if 0x0D0 ≤ opc ∧ opc ≤ 0x0D3 then unitRow .vector 2 2 false [f32]
  else if opc = 0x100 then unitRow .vector 1 1 false [bf16]
  else if opc = 0x101 ∨ opc = 0x102 ∨ opc = 0x104 then unitRow .vector 1 2 false [f32]
  else if opc = 0x103 then unitRow .vector 1 1 false [f16]
  else if opc = 0x105 then unitRow .vector 1 1 false [e4m3]
  else if opc = 0x107 then unitRow .vector 1 1 false [e5m2]
  else if opc = 0x106 ∨ opc = 0x108 ∨ opc = 0x109 ∨ opc = 0x10A then
    unitRow .vector 1 1 false [f32]
  else if opc = 0x10B ∨ opc = 0x10C then unitRow .vector 1 1 false [i32]
  else if opc = 0x110 then unitRow .vector 1 1 false [q16n]
  else if opc = 0x111 then unitRow .vector 1 1 false [f32]
  else if 0x118 ≤ opc ∧ opc ≤ 0x11A then unitRow .vector 1 1 false [f32]
  else if opc = 0x11B then unitRow .vector 1 1 false [i32]
  else if opc = 0x120 then unitRow .vector 2 2 false [bits]
  else if opc = 0x121 then unitRow .vector 1 1 false [bits]
  else if opc = 0x122 then unitRow .vector 1 2 false [i32, ui32, f32]
  else none

/-- Rows 0x140 to 0x1A2 (R231, R252). -/
def memoryRow (opc : Nat) : Option OpRow :=
  if opc = 0x140 then unitRow .memory 1 1 true wides
  else if opc = 0x141 then unitRow .memory 2 2 true wides
  else if opc = 0x142 then unitRow .memory 1 1 true [n8]
  else if opc = 0x143 then unitRow .memory 1 1 true [n16]
  else if opc = 0x144 then unitRow .memory 1 1 true [n32]
  else if opc = 0x145 then unitRow .memory 1 1 true [n64]
  else if opc = 0x146 then unitRow .memory 2 2 true [n8]
  else if opc = 0x147 then unitRow .memory 2 2 true [n16]
  else if opc = 0x148 then unitRow .memory 2 2 true [n32]
  else if opc = 0x149 then unitRow .memory 2 2 true [n64]
  else if opc = 0x150 ∨ opc = 0x151 then unitRow .memory 1 1 true [bits]
  else if opc = 0x152 then unitRow .memory 2 2 true [bits]
  else if opc = 0x158 then unitRow .memory 1 1 true [bits]
  else if opc = 0x159 ∨ opc = 0x15B then unitRow .memory 1 2 true [bits]
  else if opc = 0x15A then unitRow .memory 2 3 true [bits]
  else if opc = 0x161 then unitRow .memory 2 2 true [f32]
  else if opc = 0x167 then unitRow .memory 3 3 true [i32]
  else if 0x160 ≤ opc ∧ opc ≤ 0x166 then unitRow .memory 2 2 true [i32]
  else if opc = 0x168 ∨ opc = 0x169 then unitRow .memory 1 1 true [n64]
  else if opc = 0x170 then unitRow .memory 1 3 true [ord]
  else if opc = 0x180 ∨ opc = 0x182 then unitRow .cells 1 1 false [e4m3]
  else if opc = 0x181 then unitRow .cells 1 1 false [e5m2]
  else if opc = 0x183 then unitRow .cells 1 2 false [bf16]
  else if opc = 0x184 then unitRow .cells 1 1 false [i8]
  else if opc = 0x185 then unitRow .cells 1 1 false [q16n]
  else if opc = 0x188 then unitRow .cells 2 2 false [f32]
  else if 0x189 ≤ opc ∧ opc ≤ 0x18B then unitRow .cells 1 1 false [f32]
  else if opc = 0x190 then unitRow .cells 1 1 false [i32, ui32, f32]
  else if opc = 0x198 then unitRow .cells 3 3 false [e4m3]
  else if opc = 0x199 then unitRow .vector 2 2 false [f32]
  else if opc = 0x19A then unitRow .vector 1 1 false [f32]
  else if opc = 0x1A0 then unitRow .memory 2 2 true [e4m3]
  else if opc = 0x1A1 then unitRow .memory 1 1 false [n64]
  else if opc = 0x1A2 then unitRow .memory 1 1 true [n64]
  else none

/-- The row of an opcode, or nothing where the map assigns none (R64). -/
def row (opc : Nat) : Option OpRow :=
  if opc < 0x080 then routingRow opc else if opc < 0x140 then vectorRow opc else memoryRow opc

/-- The unit that fires a word (R64). -/
def unitOf (opc : Nat) (e : EType) : FUnit :=
  match (row opc).bind (·.unit) with
  | some u => u
  | none => if e.isWide then .vector else .narrow

/-- A memory operator in the range of R62: SUB is its scope byte. -/
def isScoped (opc : Nat) : Bool := 0x140 ≤ opc && opc ≤ 0x170
/-- SO of the scope byte (R62). -/
def so (f : OpFields) : Bool := f.sub.getLsbD 7
/-- SCOPE of the scope byte (R62). -/
def scopeBits (f : OpFields) : Nat := (f.sub.toNat / 8) % 16
/-- Bits `hi` to `lo` of IMM32. -/
def immField (f : OpFields) (hi lo : Nat) : Nat := (f.imm.toNat / 2 ^ lo) % 2 ^ (hi - lo + 1)

/-- The operand count of R66 code ARITY. -/
def arityOk (opc : Nat) (f : OpFields) : Bool :=
  match row opc with
  | none => false
  | some r =>
    r.lo ≤ f.arityN.toNat && f.arityN.toNat ≤ r.hi &&
      (opc != 0x183 || (if immField f 5 4 = 0 then f.arityN.toNat = 1 else f.arityN.toNat = 2))

/-- The SUB field by itself (R62 and the entries). -/
def subFieldOk (opc : Nat) (f : OpFields) : Bool :=
  let s := f.sub.toNat
  if isScoped opc then s % 8 = 0 && (so f || scopeBits f = 0)
  else if opc = 0x046 then s ≤ 31
  else if opc = 0x052 then 11 ≤ s && s ≤ 14
  else if 0x094 ≤ opc ∧ opc ≤ 0x096 then if f.arityN.toNat = 1 then s ≤ 31 else s = 0
  else if opc = 0x100 ∨ opc = 0x103 then s ≤ 1
  else if opc = 0x105 ∨ opc = 0x106 ∨ opc = 0x107 ∨ opc = 0x108 ∨ opc = 0x10C then s ≤ 3
  else if opc = 0x110 ∨ opc = 0x111 then s ≤ 7
  else if opc = 0x120 then s ≤ 1
  else if opc = 0x121 then s ≤ 15
  else if opc = 0x122 then
    let k := (s / 4) % 8
    (s / 32) % 4 = 0 && 1 ≤ k && k ≤ 4 && s % 4 < k
  else s = 0

/-- A register operand of `mma` (R254): modes 1 and 2 take an even pair; mode 0 a register 0 to 7, even
for BF16. -/
def mmaRegOk (opc mode reg : Nat) : Bool :=
  if mode = 0 then reg ≤ 7 && (opc != 0x183 || reg % 2 = 0)
  else if mode = 3 then false else reg % 2 = 0

/-- The IMM32 of an `mma` (R254). -/
def mmaImmOk (opc : Nat) (f : OpFields) : Bool :=
  let g := immField f
  g 31 28 = 0 && g 20 18 = 0 && g 3 0 = 0 && g 5 4 != 3 &&
    mmaRegOk opc (g 17 16) (g 15 12) && mmaRegOk opc (g 11 10) (g 9 6) &&
    (g 5 4 != 1 || g 17 16 = 0) && (g 5 4 != 2 || g 11 10 = 0) &&
    (opc != 0x185 || (g 27 24 = 0 && g 21 21 = 0))

/-- The immediate's reserved bits and ranges, reported under SUB (R66, R191, R231, R252); `last` is
the last declared level (R20). -/
def immFieldOk (last opc : Nat) (f : OpFields) : Bool :=
  let v := f.imm.toNat
  if opc = 0x014 then v < 16 && v ≤ last
  else if opc = 0x020 then v < 2 ^ 16
  else if opc = 0x021 then v < 2 ^ 11 && 1 ≤ v / 16 && v / 16 ≤ 64
  else if opc = 0x158 then v < 2 ^ 16 && immField f 7 4 = 0
  else if 0x180 ≤ opc ∧ opc ≤ 0x185 then mmaImmOk opc f
  else if opc = 0x188 then v < 16
  else if opc = 0x189 then v < 4
  else if opc = 0x18A then
    v < 2 ^ 14 && immField f 3 2 = 0 && immField f 9 8 != 3 && immField f 10 10 = 0
  else if opc = 0x18B then v < 2 ^ 8 && immField f 3 2 = 0
  else if opc = 0x190 then v < 2
  else if opc = 0x198 ∨ (0x1A0 ≤ opc ∧ opc ≤ 0x1A2) then v < 16
  else true

/-- Code SUB of R66. -/
def subOk (last opc : Nat) (f : OpFields) : Bool := subFieldOk opc f && immFieldOk last opc f

/-- Code SCOPE of R66. -/
def scopeOk (opc : Nat) (f : OpFields) : Bool :=
  !(isScoped opc) || ((!(so f) || scopeBits f < 12) && (opc != 0x170 || so f))

/-- The operators that take an IMM32 (R191, R212, R231, R252). -/
def takesImm (opc : Nat) : Bool :=
  opc = 0x001 || opc = 0x010 || opc = 0x011 || opc = 0x013 || opc = 0x014 || opc = 0x018 ||
  opc = 0x020 || opc = 0x021 || opc = 0x047 || opc = 0x102 ||
  (0x140 ≤ opc && opc ≤ 0x167) || (0x180 ≤ opc && opc ≤ 0x198) || (0x1A0 ≤ opc && opc ≤ 0x1A2)

/-- The operators whose own effect commit mode may hold (R60). -/
def commits (opc : Nat) : Bool :=
  opc = 0x141 || (0x146 ≤ opc && opc ≤ 0x149) || opc = 0x152 || opc = 0x15A ||
  (0x160 ≤ opc && opc ≤ 0x167) || opc = 0x1A0

/-- The opcodes marked G (R64). -/
def guarded (opc : Nat) : Bool := match row opc with | some r => r.guard | none => false

/-- A destination in the form of an exit (15_prog_two_colours.md R306). -/
def exitForm (d : Dest) : Bool := d.slot = 63 && d.port = .c

/-- The destinations of a word with their indexes. -/
def dests (f : OpFields) : List (Nat × Dest) :=
  (match f.dest0 with | some d => [(0, d)] | none => []) ++
  (match f.dest1 with | some d => [(1, d)] | none => []) ++
  (match f.dest2 with | some d => [(2, d)] | none => [])

/-- The result plane at destination `i` (true: narrow), where the operator fixes one (R14, R195,
R209, R231, R252). `cfgreq` emits nothing itself, so its destinations are not held to a plane. -/
def resultNarrow (opc : Nat) (f : OpFields) (i : Nat) : Option Bool :=
  if f.flags.order then some true
  else if opc = 0x003 ∨ opc = 0x021 ∨ opc = 0x022 then some false
  else if opc = 0x020 then none
  else if opc = 0x01F ∨ (0x040 ≤ opc ∧ opc ≤ 0x052) then some true
  else if opc < 0x080 then some (!f.etype.isWide)
  else if opc < 0x140 then some false
  else if opc = 0x15B then some (i = 1)
  else if opc = 0x140 ∨ opc = 0x150 ∨ opc = 0x151 ∨ opc = 0x159 then some false
  else if 0x160 ≤ opc ∧ opc ≤ 0x167 then some false
  else if opc ≤ 0x170 then some true
  else if opc < 0x1A0 then some false
  else some true

/-- The input plane at a port (true: narrow), where the operator fixes one (R37, R193, R201, R232,
R252). -/
def inputNarrow (opc : Nat) (e : EType) (p : Port) : Option Bool :=
  match p with
  | .g => some true
  | .l =>
    if opc = 0x003 ∨ (0x140 ≤ opc ∧ opc ≤ 0x169) ∨ opc = 0x1A0 then some true
    else some (!e.isWide)
  | .r =>
    if opc = 0x004 ∨ opc = 0x159 ∨ opc = 0x15B then some true
    else if opc = 0x019 then none
    else some (!e.isWide)
  | .c =>
    if opc = 0x005 ∨ opc = 0x007 ∨ opc = 0x008 ∨ opc = 0x15A then some true
    else some (!e.isWide)

/-- The ports a word declares (R43). -/
def declares (f : OpFields) (p : Port) : Bool :=
  match p with
  | .l => 1 ≤ f.arityN.toNat
  | .r => 2 ≤ f.arityN.toNat
  | .c => f.arityN.toNat = 3
  | .g => f.arityG

/-- An input that takes whole narrow tokens of any length (R193, R232): predicates and addresses, and
`eoswait`'s R. -/
def anyLength (opc : Nat) (p : Port) : Bool :=
  match p with
  | .l => (0x140 ≤ opc && opc ≤ 0x169) || opc = 0x1A0 || opc = 0x003
  | .r => opc = 0x004 || opc = 0x159 || opc = 0x15B || opc = 0x019
  | .c => opc = 0x005 || opc = 0x007 || opc = 0x008 || opc = 0x15A
  | .g => false

/-- Where a G destination is permitted (R213, R203, R208, R232, R271). The routing and narrow operators
send narrow tokens to any narrow port. -/
def gDestOk (opc : Nat) (f : OpFields) (i : Nat) : Bool :=
  if f.flags.order then true
  else if opc < 0x080 then true
  else if opc = 0x170 ∨ opc = 0x158 then true
  else if opc = 0x15B ∨ opc = 0x168 then i = 1
  else false

/-- The word-local checks of R66, in code order; 0 where the word passes them. `last` is the last
declared level and `exits` whether some destination is an exit port. -/
def wordCode (last : Nat) (exits : Bool) (opc : Nat) (f : OpFields) : Nat :=
  match row opc with
  | none => 0x01
  | some r =>
    if !arityOk opc f then 0x02
    else if f.arityG && !r.guard then 0x03
    else if (f.tagop = .iterl ∨ f.tagop = .ctxl) ∧ f.arityN = 0 then 0x04
    else if !(r.etypes.contains f.etype) then 0x05
    else if !subOk last opc f then 0x06
    else if !scopeOk opc f then 0x07
    else if (f.flags.order && !r.guard) || (f.flags.commit && !(commits opc || exits)) then 0x0A
    else if f.imm != 0 && !takesImm opc then 0x0B
    else 0

end OpTable
end Sys2Proof
end

