-- ==== Sys2Proof/WellFormed.lean ====
section
/-!
DEFINITION. Well-formed syntax. A fabric operator is well formed when its word passes the word-local
checks of the configuration loader (03_formats.md R66); a step of the device when the numbers in it
name places that exist (00_scope.md R3, R7, and the chapters named below). A control-core instruction
is always well formed: its field types hold exactly what an encoding can.
-/
namespace Sys2Proof
namespace WellFormed

/-- A word that R66's word-local checks accept, with at most 16 levels declared (R20). The destination
checks that need the image stand in the loader. -/
def op (opc : Nat) (f : OpFields) : Bool :=
  OpTable.wordCode 15 ((OpTable.dests f).any fun d => OpTable.exitForm d.2) opc f = 0

/-- 64 clusters (R3). -/
def ck (n : Nat) : Bool := n < 64
/-- A launch context below 2,048 (R313). -/
def ctx (n : Nat) : Bool := n < 2048
/-- A control-core context, 0 to 7 (R272). -/
def cctx (n : Nat) : Bool := n < 8
/-- 12,288 tiles (R3). -/
def tk (n : Nat) : Bool := n < 12288
/-- 256 slices (R5). -/
def sk (n : Nat) : Bool := n < 256
/-- 64 stations (R3). -/
def st (n : Nat) : Bool := n < 64
/-- Four compute dies (R3). -/
def die (n : Nat) : Bool := n < 4
/-- 512 colours (R7). -/
def colour (n : Nat) : Bool := n < 512
/-- 64 worlds (R7). -/
def world (n : Nat) : Bool := n < 64
/-- Worlds with a function (R392). -/
def w (n : Nat) : Bool := 1 ≤ n && n < 64
/-- Slots of a tile: 4 planes of 64 (R3). -/
def slot (n : Nat) : Bool := n < 256
/-- Functions: the PF 0 and VFs 1 to 62 (R392). -/
def fn (n : Nat) : Bool := n < 63
/-- Virtual functions 1 to 62 (R392). -/
def n (m : Nat) : Bool := 1 ≤ m && m ≤ 62
/-- MSI-X vectors (R397). -/
def vec (m : Nat) : Bool := m < 64
/-- Ethernet ports (R6). -/
def port (m : Nat) : Bool := m < 8
/-- An EtherType is 16 bits (R419). -/
def etherType (m : Nat) : Bool := m < 65536
/-- A 52-bit physical address (R99). -/
def pa (m : Nat) : Bool := m < 2 ^ 52
/-- Key slot holders: eight base dies and the CXL.mem requester (R394). -/
def holder (m : Nat) : Bool := m < 9
/-- Die-to-die links: four between the dies of the 2 x 2 arrangement and two to the hub (R6, R151). -/
def link (m : Nat) : Bool := m < 6
/-- A lease holder that exists. -/
def leaseHolder : Holder → Bool
  | .tile t => tk t
  | .context c x => ck c && x < 8
/-- Structure codes of R407. -/
def errorPlace (e : ErrorPlace) : Bool := 1 ≤ e.code && e.code ≤ 7
/-- An access of at most 64 bytes that carries as many bytes as it says (R418). -/
def access (a : HostAccess) : Bool :=
  1 ≤ a.size && a.size ≤ 64 && a.offset < 2 ^ 36 &&
    (match a.write with | none => true | some bs => bs.length = a.size)
/-- Setting NumVFs to at most TotalVFs (R398). -/
def numVfs (m : Nat) : Bool := m ≤ 62

end WellFormed

/-- Whether a term of the syntax names something that exists. -/
def Instr.wellFormed : Instr → Bool
  | .add _ _ _ => true
  | .sub _ _ _ => true
  | .mul _ _ _ => true
  | .mulh _ _ _ => true
  | .mulhu _ _ _ => true
  | .div _ _ _ => true
  | .divu _ _ _ => true
  | .rem _ _ _ => true
  | .remu _ _ _ => true
  | .and _ _ _ => true
  | .or _ _ _ => true
  | .xor _ _ _ => true
  | .sll _ _ _ => true
  | .srl _ _ _ => true
  | .sra _ _ _ => true
  | .slt _ _ _ => true
  | .sltu _ _ _ => true
  | .addi _ _ _ => true
  | .andi _ _ _ => true
  | .ori _ _ _ => true
  | .xori _ _ _ => true
  | .slli _ _ _ => true
  | .srli _ _ _ => true
  | .srai _ _ _ => true
  | .slti _ _ _ => true
  | .li _ _ => true
  | .lih _ _ => true
  | .beq _ _ _ => true
  | .bne _ _ _ => true
  | .blt _ _ _ => true
  | .bge _ _ _ => true
  | .bltu _ _ _ => true
  | .bgeu _ _ _ => true
  | .jal _ _ => true
  | .jalr _ _ _ => true
  | .ldxB _ _ _ _ => true
  | .ldxBu _ _ _ _ => true
  | .ldxH _ _ _ _ => true
  | .ldxHu _ _ _ _ => true
  | .ldxW _ _ _ _ => true
  | .ldxWu _ _ _ _ => true
  | .ldxD _ _ _ _ => true
  | .stxB _ _ _ _ => true
  | .stxH _ _ _ _ => true
  | .stxW _ _ _ _ => true
  | .stxD _ _ _ _ => true
  | .amoAdd _ _ _ _ => true
  | .amoSwap _ _ _ _ => true
  | .amoCas _ _ _ _ => true
  | .fence _ => true
  | .rel _ => true
  | .acq _ => true
  | .cspawn _ _ => true
  | .cjoin _ => true
  | .cend => true
  | .cyield => true
  | .sspec _ _ => true
  | .sbar _ => true
  | .sbarRetire ck ctx => WellFormed.ck ck && WellFormed.cctx ctx
  | .scond _ _ _ => true
  | .scondRetire ck ctx => WellFormed.ck ck && WellFormed.cctx ctx
  | .gload _ _ _ => true
  | .gsplice _ _ => true
  | .gfree _ => true
  | .jsub _ => true
  | .cardAccept ck ctx => WellFormed.ck ck && WellFormed.cctx ctx
  | .gjoin _ _ => true
  | .gleave _ _ => true
  | .colq _ _ _ => true
  | .colret _ => true
  | .evwait _ _ => true
  | .evarm _ => true
  | .binit _ _ => true
  | .barv _ _ _ => true
  | .bwait _ _ _ _ => true
  | .onew _ _ _ => true
  | .oname _ _ => true
  | .ofind _ _ => true
  | .oup _ _ => true
  | .orel _ => true
  | .oweak _ _ => true
  | .oprio _ _ => true
  | .odisc _ => true
  | .trap _ => true
  | .eret => true
  | .csrrd _ _ => true
  | .csrwr _ _ => true
  | .wfe => true
  | .halt => true
  | .snap _ => true
  | .freeze _ => true
  | .thaw _ => true
  | .const f => WellFormed.op 0x001 f
  | .pass f => WellFormed.op 0x002 f
  | .repl f => WellFormed.op 0x003 f
  | .steer f => WellFormed.op 0x004 f
  | .merge f => WellFormed.op 0x005 f
  | .amerge f => WellFormed.op 0x006 f
  | .lcarryEntry f => WellFormed.op 0x007 f
  | .lcarryBackEdge f => WellFormed.op 0x007 f
  | .lcarryEosRelease f => WellFormed.op 0x007 f
  | .select f => WellFormed.op 0x008 f
  | .tagset f => WellFormed.op 0x010 f
  | .taginc f => WellFormed.op 0x011 f
  | .tagcopy f => WellFormed.op 0x012 f
  | .lvpush f => WellFormed.op 0x013 f
  | .lvpop f => WellFormed.op 0x014 f
  | .eosgen f => WellFormed.op 0x018 f
  | .eoswait f => WellFormed.op 0x019 f
  | .sink f => WellFormed.op 0x01C f
  | .drop f => WellFormed.op 0x01D f
  | .gate f => WellFormed.op 0x01E f
  | .ojoin f => WellFormed.op 0x01F f
  | .cfgreq f => WellFormed.op 0x020 f
  | .gcoal f => WellFormed.op 0x021 f
  | .greord f => WellFormed.op 0x022 f
  | .nadd f => WellFormed.op 0x040 f
  | .nsub f => WellFormed.op 0x041 f
  | .nneg f => WellFormed.op 0x042 f
  | .nabs f => WellFormed.op 0x043 f
  | .nmin f => WellFormed.op 0x044 f
  | .nmax f => WellFormed.op 0x045 f
  | .nshl f => WellFormed.op 0x046 f
  | .nmulk f => WellFormed.op 0x047 f
  | .nceq f => WellFormed.op 0x048 f
  | .ncne f => WellFormed.op 0x049 f
  | .nclt f => WellFormed.op 0x04A f
  | .ncle f => WellFormed.op 0x04B f
  | .ntobW f => WellFormed.op 0x050 f
  | .ntobS f => WellFormed.op 0x051 f
  | .bton f => WellFormed.op 0x052 f
  | .narrowBeatEmit tk => WellFormed.tk tk
  | .vaddI32 f => WellFormed.op 0x080 f
  | .vaddsatI32 f => WellFormed.op 0x081 f
  | .vsubI32 f => WellFormed.op 0x082 f
  | .vsubsatI32 f => WellFormed.op 0x083 f
  | .vmulI32 f => WellFormed.op 0x084 f
  | .vmulhI32 f => WellFormed.op 0x085 f
  | .vmulhuI32 f => WellFormed.op 0x086 f
  | .vminI32 f => WellFormed.op 0x088 f
  | .vmaxI32 f => WellFormed.op 0x089 f
  | .vminuI32 f => WellFormed.op 0x08A f
  | .vmaxuI32 f => WellFormed.op 0x08B f
  | .vand f => WellFormed.op 0x090 f
  | .vor f => WellFormed.op 0x091 f
  | .vxor f => WellFormed.op 0x092 f
  | .vnot f => WellFormed.op 0x093 f
  | .vshl f => WellFormed.op 0x094 f
  | .vshr f => WellFormed.op 0x095 f
  | .vsra f => WellFormed.op 0x096 f
  | .vceqI32 f => WellFormed.op 0x098 f
  | .vcneI32 f => WellFormed.op 0x099 f
  | .vcltI32 f => WellFormed.op 0x09A f
  | .vcleI32 f => WellFormed.op 0x09B f
  | .vcltuI32 f => WellFormed.op 0x09C f
  | .vcleuI32 f => WellFormed.op 0x09D f
  | .vfaddF32 f => WellFormed.op 0x0C0 f
  | .vfsubF32 f => WellFormed.op 0x0C1 f
  | .vfmulF32 f => WellFormed.op 0x0C2 f
  | .vfmaF32 f => WellFormed.op 0x0C3 f
  | .vfdivF32 f => WellFormed.op 0x0C4 f
  | .vfrcpF32 f => WellFormed.op 0x0C8 f
  | .vfrsqF32 f => WellFormed.op 0x0C9 f
  | .vfsqrtF32 f => WellFormed.op 0x0CA f
  | .vfexp2F32 f => WellFormed.op 0x0CB f
  | .vflog2F32 f => WellFormed.op 0x0CC f
  | .vfminF32 f => WellFormed.op 0x0CD f
  | .vfmaxF32 f => WellFormed.op 0x0CE f
  | .vfceqF32 f => WellFormed.op 0x0D0 f
  | .vfcltF32 f => WellFormed.op 0x0D1 f
  | .vfcleF32 f => WellFormed.op 0x0D2 f
  | .vfcunF32 f => WellFormed.op 0x0D3 f
  | .vcvtF32Bf16 f => WellFormed.op 0x100 f
  | .vcvtBf16F32 f => WellFormed.op 0x101 f
  | .vcvtsrBf16F32 f => WellFormed.op 0x102 f
  | .vcvtF32F16 f => WellFormed.op 0x103 f
  | .vcvtF16F32 f => WellFormed.op 0x104 f
  | .vcvtF32E4m3 f => WellFormed.op 0x105 f
  | .vcvtE4m3F32 f => WellFormed.op 0x106 f
  | .vcvtF32E5m2 f => WellFormed.op 0x107 f
  | .vcvtE5m2F32 f => WellFormed.op 0x108 f
  | .vcvtI32F32 f => WellFormed.op 0x109 f
  | .vcvtnI32F32 f => WellFormed.op 0x10A f
  | .vcvtF32I32 f => WellFormed.op 0x10B f
  | .vcvtI8I32 f => WellFormed.op 0x10C f
  | .vqdec f => WellFormed.op 0x110 f
  | .vqenc f => WellFormed.op 0x111 f
  | .vrsumF32 f => WellFormed.op 0x118 f
  | .vrmaxF32 f => WellFormed.op 0x119 f
  | .vrminF32 f => WellFormed.op 0x11A f
  | .vrsumI32 f => WellFormed.op 0x11B f
  | .vperm f => WellFormed.op 0x120 f
  | .vrot f => WellFormed.op 0x121 f
  | .vcx f => WellFormed.op 0x122 f
  | .vectorResultEmit tk => WellFormed.tk tk
  | .ldv f => WellFormed.op 0x140 f
  | .stv f => WellFormed.op 0x141 f
  | .ld8 f => WellFormed.op 0x142 f
  | .ld16 f => WellFormed.op 0x143 f
  | .ld32 f => WellFormed.op 0x144 f
  | .ld64 f => WellFormed.op 0x145 f
  | .st8 f => WellFormed.op 0x146 f
  | .st16 f => WellFormed.op 0x147 f
  | .st32 f => WellFormed.op 0x148 f
  | .st64 f => WellFormed.op 0x149 f
  | .ldfeC f => WellFormed.op 0x150 f
  | .ldfeK f => WellFormed.op 0x151 f
  | .stf f => WellFormed.op 0x152 f
  | .ldg f => WellFormed.op 0x158 f
  | .ldhV f => WellFormed.op 0x159 f
  | .sthV f => WellFormed.op 0x15A f
  | .ldwV f => WellFormed.op 0x15B f
  | .aaddI32 f => WellFormed.op 0x160 f
  | .aaddF32 f => WellFormed.op 0x161 f
  | .aminI32 f => WellFormed.op 0x162 f
  | .amaxI32 f => WellFormed.op 0x163 f
  | .aand f => WellFormed.op 0x164 f
  | .aor f => WellFormed.op 0x165 f
  | .axchg f => WellFormed.op 0x166 f
  | .acas f => WellFormed.op 0x167 f
  | .hup f => WellFormed.op 0x168 f
  | .hrel f => WellFormed.op 0x169 f
  | .fenceS f => WellFormed.op 0x170 f
  | .memoryResultArrival tk _ => WellFormed.tk tk
  | .walkComplete tk _ => WellFormed.tk tk
  | .feTimeout tk _ => WellFormed.tk tk
  | .feResend tk _ => WellFormed.tk tk
  | .mmaE4m3 f => WellFormed.op 0x180 f
  | .mmaE5m2 f => WellFormed.op 0x181 f
  | .mmaE4e5 f => WellFormed.op 0x182 f
  | .mmaBf16 f => WellFormed.op 0x183 f
  | .mmaI8 f => WellFormed.op 0x184 f
  | .mmaQ16n f => WellFormed.op 0x185 f
  | .scalc f => WellFormed.op 0x188 f
  | .accz f => WellFormed.op 0x189 f
  | .accrd f => WellFormed.op 0x18A f
  | .accwr f => WellFormed.op 0x18B f
  | .xsort f => WellFormed.op 0x190 f
  | .ascan f => WellFormed.op 0x198 f
  | .ared f => WellFormed.op 0x199 f
  | .anorm f => WellFormed.op 0x19A f
  | .kvapp f => WellFormed.op 0x1A0 f
  | .kvseqRead f => WellFormed.op 0x1A1 f
  | .kvseqOpen f => WellFormed.op 0x1A1 f
  | .kvseqAdvance f => WellFormed.op 0x1A1 f
  | .kvseqDraft f => WellFormed.op 0x1A1 f
  | .kvtrim f => WellFormed.op 0x1A2 f
  | .arrayFiringEnd tk => WellFormed.tk tk
  | .admitToken ck _ => WellFormed.ck ck
  | .creditReturn ck _ => WellFormed.ck ck
  | .tokenArrival ck _ => WellFormed.ck ck
  | .exitDelivery ck _ => WellFormed.ck ck
  | .exitReorderAgeRelease ck _ => WellFormed.ck ck
  | .stallAgeExpiry tk => WellFormed.tk tk
  | .spillAck tk _ => WellFormed.tk tk
  | .spillReadback tk _ => WellFormed.tk tk
  | .bindingActivate ck _ => WellFormed.ck ck
  | .streamElementRead ck _ => WellFormed.ck ck
  | .pushLineRead sk _ => WellFormed.sk sk
  | .pushElementDeliver sk _ => WellFormed.sk sk
  | .sliceRead _ => true
  | .sliceWrite _ => true
  | .conflictQueueLock sk _ => WellFormed.sk sk
  | .ptsAdvance holder => WellFormed.leaseHolder holder
  | .rdline sk _ => WellFormed.sk sk
  | .wrline sk _ => WellFormed.sk sk
  | .wrmask sk _ => WellFormed.sk sk
  | .keyset holder colour => WellFormed.holder holder && WellFormed.colour colour
  | .keykill holder colour => WellFormed.holder holder && WellFormed.colour colour
  | .lineFill sk _ => WellFormed.sk sk
  | .sliceEpochEnd sk => WellFormed.sk sk
  | .slwayWrite world sk w _ => WellFormed.world world && WellFormed.sk sk && WellFormed.world w
  | .slwaycWrite world sk _ => WellFormed.world world && WellFormed.sk sk
  | .groupRequest ck _ => WellFormed.ck ck
  | .groupAsk sk _ => WellFormed.sk sk
  | .groupQueueAdmit sk => WellFormed.sk sk
  | .groupTimerExpiry sk _ => WellFormed.sk sk
  | .groupFill ck _ => WellFormed.ck ck
  | .releaseProbe _ sk => WellFormed.sk sk
  | .hubProbeForward _ die => WellFormed.die die
  | .releaseComplete _ => true
  | .flitPromotion ck _ => WellFormed.ck ck
  | .mshctlWrite world ck _ => WellFormed.world world && WellFormed.ck ck
  | .stcselWrite world st _ _ => WellFormed.world world && WellFormed.st st
  | .barrierArrival ck _ => WellFormed.ck ck
  | .cardIssue ck => WellFormed.ck ck
  | .cardComplete ck _ => WellFormed.ck ck
  | .eventRecordWrite _ => true
  | .recordPop ck => WellFormed.ck ck
  | .joinReread ck _ => WellFormed.ck ck
  | .launchEnd ck ctx => WellFormed.ck ck && WellFormed.ctx ctx
  | .spliceToken ck _ => WellFormed.ck ck
  | .spliceInstall tk _ => WellFormed.tk tk
  | .spliceRegisterWrite tk => WellFormed.tk tk
  | .cfgreqServe die _ => WellFormed.die die
  | .cfgWaitRetry die _ => WellFormed.die die
  | .planeSwap tk => WellFormed.tk tk
  | .swapDrainExpiry tk => WellFormed.tk tk
  | .mminvRange ck ctx => WellFormed.ck ck && WellFormed.cctx ctx
  | .mminvColour ck ctx => WellFormed.ck ck && WellFormed.cctx ctx
  | .mminvWorld ck ctx => WellFormed.ck ck && WellFormed.cctx ctx
  | .mminvDiscard ck ctx => WellFormed.ck ck && WellFormed.cctx ctx
  | .invalidationComplete ck ctx => WellFormed.ck ck && WellFormed.cctx ctx
  | .colourRetireDrop colour => WellFormed.colour colour
  | .colourFree colour => WellFormed.colour colour
  | .pagerFaultToken _ => true
  | .pagerService die _ => WellFormed.die die
  | .pgretryWrite world die _ => WellFormed.world world && WellFormed.die die
  | .faultTimeExpiry die _ => WellFormed.die die
  | .lcabortWrite world ck _ => WellFormed.world world && WellFormed.ck ck
  | .ccenWrite world ck _ => WellFormed.world world && WellFormed.ck ck
  | .markerArrival ck _ => WellFormed.ck ck
  | .snapshotTileSave tk ctx => WellFormed.tk tk && WellFormed.ctx ctx
  | .snapshotComplete ck ctx => WellFormed.ck ck && WellFormed.ctx ctx
  | .breakpointMatch tk slot => WellFormed.tk tk && WellFormed.slot slot
  | .debugResume world => WellFormed.world world
  | .tbpfWrite world tk _ _ => WellFormed.world world && WellFormed.tk tk
  | .objectReclaim die w => WellFormed.die die && WellFormed.world w
  | .prefetchNotice _ => true
  | .colourAlloc w _ _ => WellFormed.w w
  | .colourRetire w _ => WellFormed.w w
  | .ringCreate w _ _ _ => WellFormed.w w
  | .ringDestroy w _ => WellFormed.w w
  | .macsecSa w _ _ => WellFormed.w w
  | .wevarmWrite w _ => WellFormed.w w
  | .vfEnableClear => true
  | .vfEnableSet n => WellFormed.numVfs n
  | .functionLevelReset n => WellFormed.n n
  | .tdispStateChange n _ => WellFormed.n n
  | .getVersion fn => WellFormed.fn fn
  | .getCapabilities fn => WellFormed.fn fn
  | .negotiateAlgorithms fn _ _ => WellFormed.fn fn
  | .getDigests fn => WellFormed.fn fn
  | .getCertificate fn _ => WellFormed.fn fn
  | .challenge fn _ _ => WellFormed.fn fn
  | .getMeasurements fn _ _ => WellFormed.fn fn
  | .keyExchange fn _ => WellFormed.fn fn
  | .finish fn _ => WellFormed.fn fn
  | .endSession fn => WellFormed.fn fn
  | .ideKm fn _ _ => WellFormed.fn fn
  | .d2dLinkTraining link _ => WellFormed.link link
  | .bar2Access w acc => WellFormed.w w && WellFormed.access acc
  | .registerWindowAccess w acc => WellFormed.w w && WellFormed.access acc
  | .ethernetFrameRx port etherType _ => WellFormed.port port && WellFormed.etherType etherType
  | .boot _ => true
  | .throttle _ => true
  | .thermtrip => true
  | .correctedError e => WellFormed.errorPlace e
  | .uncorrectedError e => WellFormed.errorPlace e
  | .ringCrcRetry _ => true
  | .errorWindowBoundary => true
  | .rlcfgWrite world die _ => WellFormed.world world && WellFormed.die die
  | .registerWrite world pa _ => WellFormed.world world && WellFormed.pa pa
  | .stallCount tk slot => WellFormed.tk tk && WellFormed.slot slot
  | .wfeTimeout ck ctx => WellFormed.ck ck && WellFormed.cctx ctx
  | .freezeScanComplete world => WellFormed.world world
  | .removalComplete world => WellFormed.world world
  | .msiXTableWrite fn vec _ => WellFormed.fn fn && WellFormed.vec vec

end Sys2Proof
end

