-- ==== Sys2Proof/Decode.lean ====
section
/-!
DEFINITION. The decoders: 64-bit control-core instructions (03_formats.md R68 to R71) and 128-bit
operator words (R59 to R64), from numbers to `Instr` or to a refusal by name, and after them the
encoders of the same tables. OPC 0x007 decodes to `lcarryEntry`, OPC 0x1A1 to `kvseqRead` and opcode
0xF7 to `freeze`: the spec lists several steps under one word, and which of them a firing is depends
on its operands.
-/
namespace Sys2Proof

/-- Why bits are no instruction. -/
inductive DecodeError where
  /-- R71 ILLEGAL: unassigned opcode, reserved field set, or a breach of R69. -/
  | illegal
  /-- R66 OPC_UNASSIGNED. -/
  | opcUnassigned
  /-- R66 TAGOP 7 to 15. -/
  | tagop
  /-- R66 ETYPE 15. -/
  | etype
  /-- R66 DEST_FORM: V = 0 with another bit set. -/
  | destForm
  /-- R66 FLAGS[2:0] nonzero. -/
  | flags
  deriving DecidableEq, Repr

namespace Decode

/-- Bits `hi` to `lo` of a number. -/
def field (w hi lo : Nat) : Nat := (w / 2 ^ lo) % 2 ^ (hi - lo + 1)

/-- The five forms (R68). -/
inductive Form where
  | cr | ci | cb | cs | cx
  deriving DecidableEq, Repr

/-- A row of R70: its form and which fields its operand list names. -/
structure CoreRow where
  form : Form
  xd : Bool := false
  xa : Bool := false
  xb : Bool := false
  imm : Bool := false
  scope : Bool := false
  needsSo : Bool := false
  deriving DecidableEq, Repr

/-- The 88 assigned control-core opcodes (R70). -/
def coreRow : Nat → Option CoreRow
  | 0x01 => some { form := .cr, xd := true, xa := true, xb := true }
  | 0x02 => some { form := .cr, xd := true, xa := true, xb := true }
  | 0x03 => some { form := .cr, xd := true, xa := true, xb := true }
  | 0x04 => some { form := .cr, xd := true, xa := true, xb := true }
  | 0x05 => some { form := .cr, xd := true, xa := true, xb := true }
  | 0x06 => some { form := .cr, xd := true, xa := true, xb := true }
  | 0x07 => some { form := .cr, xd := true, xa := true, xb := true }
  | 0x08 => some { form := .cr, xd := true, xa := true, xb := true }
  | 0x09 => some { form := .cr, xd := true, xa := true, xb := true }
  | 0x0A => some { form := .cr, xd := true, xa := true, xb := true }
  | 0x0B => some { form := .cr, xd := true, xa := true, xb := true }
  | 0x0C => some { form := .cr, xd := true, xa := true, xb := true }
  | 0x0D => some { form := .cr, xd := true, xa := true, xb := true }
  | 0x0E => some { form := .cr, xd := true, xa := true, xb := true }
  | 0x0F => some { form := .cr, xd := true, xa := true, xb := true }
  | 0x10 => some { form := .cr, xd := true, xa := true, xb := true }
  | 0x11 => some { form := .cr, xd := true, xa := true, xb := true }
  | 0x18 => some { form := .ci, xd := true, xa := true, imm := true }
  | 0x19 => some { form := .ci, xd := true, xa := true, imm := true }
  | 0x1A => some { form := .ci, xd := true, xa := true, imm := true }
  | 0x1B => some { form := .ci, xd := true, xa := true, imm := true }
  | 0x1C => some { form := .ci, xd := true, xa := true, imm := true }
  | 0x1D => some { form := .ci, xd := true, xa := true, imm := true }
  | 0x1E => some { form := .ci, xd := true, xa := true, imm := true }
  | 0x1F => some { form := .ci, xd := true, xa := true, imm := true }
  | 0x20 => some { form := .ci, xd := true, imm := true }
  | 0x21 => some { form := .ci, xd := true, imm := true }
  | 0x28 => some { form := .cb, xa := true, xb := true, imm := true }
  | 0x29 => some { form := .cb, xa := true, xb := true, imm := true }
  | 0x2A => some { form := .cb, xa := true, xb := true, imm := true }
  | 0x2B => some { form := .cb, xa := true, xb := true, imm := true }
  | 0x2C => some { form := .cb, xa := true, xb := true, imm := true }
  | 0x2D => some { form := .cb, xa := true, xb := true, imm := true }
  | 0x2E => some { form := .cb, xd := true, imm := true }
  | 0x2F => some { form := .ci, xd := true, xa := true, imm := true }
  | 0x30 => some { form := .ci, xd := true, xa := true, imm := true, scope := true }
  | 0x31 => some { form := .ci, xd := true, xa := true, imm := true, scope := true }
  | 0x32 => some { form := .ci, xd := true, xa := true, imm := true, scope := true }
  | 0x33 => some { form := .ci, xd := true, xa := true, imm := true, scope := true }
  | 0x34 => some { form := .ci, xd := true, xa := true, imm := true, scope := true }
  | 0x35 => some { form := .ci, xd := true, xa := true, imm := true, scope := true }
  | 0x36 => some { form := .ci, xd := true, xa := true, imm := true, scope := true }
  | 0x38 => some { form := .ci, xa := true, xb := true, imm := true, scope := true }
  | 0x39 => some { form := .ci, xa := true, xb := true, imm := true, scope := true }
  | 0x3A => some { form := .ci, xa := true, xb := true, imm := true, scope := true }
  | 0x3B => some { form := .ci, xa := true, xb := true, imm := true, scope := true }
  | 0x3C => some { form := .cr, xd := true, xa := true, xb := true, scope := true }
  | 0x3D => some { form := .cr, xd := true, xa := true, xb := true, scope := true }
  | 0x3E => some { form := .cr, xd := true, xa := true, xb := true, scope := true }
  | 0x40 => some { form := .cr, scope := true, needsSo := true }
  | 0x41 => some { form := .cr, scope := true, needsSo := true }
  | 0x42 => some { form := .cr, scope := true, needsSo := true }
  | 0x48 => some { form := .cs, xa := true, imm := true }
  | 0x49 => some { form := .cs, xa := true }
  | 0x4A => some { form := .cs }
  | 0x4B => some { form := .cs }
  | 0x50 => some { form := .cs, xa := true, imm := true }
  | 0x51 => some { form := .cs, imm := true }
  | 0x52 => some { form := .cs, xa := true, imm := true, scope := true }
  | 0x54 => some { form := .cs, xd := true, xa := true, imm := true }
  | 0x55 => some { form := .cs, xa := true, xb := true }
  | 0x56 => some { form := .cs, xa := true }
  | 0x58 => some { form := .cs, xa := true }
  | 0x5A => some { form := .cs, xa := true, imm := true }
  | 0x5B => some { form := .cs, xa := true, imm := true }
  | 0x5C => some { form := .cs, xa := true, xb := true, imm := true }
  | 0x5D => some { form := .cs, xa := true }
  | 0x5E => some { form := .cs, xd := true, xa := true }
  | 0x5F => some { form := .cs, xa := true }
  | 0x60 => some { form := .cs, xa := true, xb := true }
  | 0x61 => some { form := .cs, xa := true, xb := true, scope := true }
  | 0x62 => some { form := .cs, xd := true, xa := true, xb := true, scope := true }
  | 0x68 => some { form := .cs, xd := true, xa := true, imm := true }
  | 0x69 => some { form := .cs, xa := true, xb := true }
  | 0x6A => some { form := .cs, xd := true, xa := true }
  | 0x6B => some { form := .cs, xd := true, xa := true }
  | 0x6C => some { form := .cs, xa := true }
  | 0x6D => some { form := .cs, xd := true, xa := true }
  | 0x6E => some { form := .cs, xa := true, imm := true }
  | 0x6F => some { form := .cs, xa := true }
  | 0xF0 => some { form := .cx, imm := true }
  | 0xF1 => some { form := .cx }
  | 0xF2 => some { form := .cx, xd := true, imm := true }
  | 0xF3 => some { form := .cx, xa := true, imm := true }
  | 0xF4 => some { form := .cx }
  | 0xF5 => some { form := .cx }
  | 0xF6 => some { form := .cx, imm := true }
  | 0xF7 => some { form := .cx, xa := true }
  | _ => none

/-- A scope of a code 0x0 to 0xB (R16). -/
def scopeOf : Nat → Option Scope
  | 0 => some .self | 1 => some .tile | 2 => some .clus | 3 => some .quad | 4 => some .die
  | 5 => some .pkg | 6 => some .host | 7 => some .peer | 8 => some .colour | 9 => some .group
  | 10 => some .engine | 11 => some .world | _ => none

/-- The code of a scope (R16). -/
def scopeCode : Scope → Nat
  | .self => 0 | .tile => 1 | .clus => 2 | .quad => 3 | .die => 4 | .pkg => 5 | .host => 6
  | .peer => 7 | .colour => 8 | .group => 9 | .engine => 10 | .world => 11

/-- The checks of R71 ILLEGAL on a word whose row is known: unnamed register fields, reserved bits,
an immediate where none is named, and R69. -/
def coreFieldsOk (r : CoreRow) (w : Nat) : Bool :=
  (r.xd || field w 55 51 = 0) && (r.xa || field w 50 46 = 0) && (r.xb || field w 45 41 = 0) &&
  field w 35 32 = 0 &&
  (if r.form = .cx then field w 45 16 = 0 && (r.imm || field w 15 0 = 0)
   else r.imm || field w 31 0 = 0) &&
  (if r.scope then
    if field w 36 36 = 1 then field w 40 37 ≤ 11 else field w 40 37 = 0 && !r.needsSo
   else field w 40 36 = 0)

/-- The scope override of a word that may carry one. -/
def overrideOf (w : Nat) : Option Scope := if field w 36 36 = 1 then scopeOf (field w 40 37) else none

/-- The instruction of a checked word. -/
def coreInstr (w : Nat) : Option Instr :=
  let xd : Reg := BitVec.ofNat 5 (field w 55 51)
  let xa : Reg := BitVec.ofNat 5 (field w 50 46)
  let xb : Reg := BitVec.ofNat 5 (field w 45 41)
  let imm : BitVec 32 := BitVec.ofNat 32 (field w 31 0)
  let i16 : BitVec 16 := BitVec.ofNat 16 (field w 15 0)
  let sc := overrideOf w
  let so := (scopeOf (field w 40 37)).getD .pkg
  match field w 63 56 with
  | 0x01 => some (.add xd xa xb)
  | 0x02 => some (.sub xd xa xb)
  | 0x03 => some (.mul xd xa xb)
  | 0x04 => some (.mulh xd xa xb)
  | 0x05 => some (.mulhu xd xa xb)
  | 0x06 => some (.div xd xa xb)
  | 0x07 => some (.divu xd xa xb)
  | 0x08 => some (.rem xd xa xb)
  | 0x09 => some (.remu xd xa xb)
  | 0x0A => some (.and xd xa xb)
  | 0x0B => some (.or xd xa xb)
  | 0x0C => some (.xor xd xa xb)
  | 0x0D => some (.sll xd xa xb)
  | 0x0E => some (.srl xd xa xb)
  | 0x0F => some (.sra xd xa xb)
  | 0x10 => some (.slt xd xa xb)
  | 0x11 => some (.sltu xd xa xb)
  | 0x18 => some (.addi xd xa imm)
  | 0x19 => some (.andi xd xa imm)
  | 0x1A => some (.ori xd xa imm)
  | 0x1B => some (.xori xd xa imm)
  | 0x1C => some (.slli xd xa imm)
  | 0x1D => some (.srli xd xa imm)
  | 0x1E => some (.srai xd xa imm)
  | 0x1F => some (.slti xd xa imm)
  | 0x20 => some (.li xd imm)
  | 0x21 => some (.lih xd imm)
  | 0x28 => some (.beq xa xb imm)
  | 0x29 => some (.bne xa xb imm)
  | 0x2A => some (.blt xa xb imm)
  | 0x2B => some (.bge xa xb imm)
  | 0x2C => some (.bltu xa xb imm)
  | 0x2D => some (.bgeu xa xb imm)
  | 0x2E => some (.jal xd imm)
  | 0x2F => some (.jalr xd xa imm)
  | 0x30 => some (.ldxB xd xa imm sc)
  | 0x31 => some (.ldxBu xd xa imm sc)
  | 0x32 => some (.ldxH xd xa imm sc)
  | 0x33 => some (.ldxHu xd xa imm sc)
  | 0x34 => some (.ldxW xd xa imm sc)
  | 0x35 => some (.ldxWu xd xa imm sc)
  | 0x36 => some (.ldxD xd xa imm sc)
  | 0x38 => some (.stxB xb xa imm sc)
  | 0x39 => some (.stxH xb xa imm sc)
  | 0x3A => some (.stxW xb xa imm sc)
  | 0x3B => some (.stxD xb xa imm sc)
  | 0x3C => some (.amoAdd xd xb xa sc)
  | 0x3D => some (.amoSwap xd xb xa sc)
  | 0x3E => some (.amoCas xd xb xa sc)
  | 0x40 => some (.fence so)
  | 0x41 => some (.rel so)
  | 0x42 => some (.acq so)
  | 0x48 => some (.cspawn xa imm)
  | 0x49 => some (.cjoin xa)
  | 0x4A => some (.cend)
  | 0x4B => some (.cyield)
  | 0x50 => some (.sspec xa imm)
  | 0x51 => some (.sbar imm)
  | 0x52 => some (.scond xa imm sc)
  | 0x54 => some (.gload xd xa imm)
  | 0x55 => some (.gsplice xa xb)
  | 0x56 => some (.gfree xa)
  | 0x58 => some (.jsub xa)
  | 0x5A => some (.gjoin xa imm)
  | 0x5B => some (.gleave xa imm)
  | 0x5C => some (.colq xa xb imm)
  | 0x5D => some (.colret xa)
  | 0x5E => some (.evwait xd xa)
  | 0x5F => some (.evarm xa)
  | 0x60 => some (.binit xa xb)
  | 0x61 => some (.barv xa xb sc)
  | 0x62 => some (.bwait xd xa xb sc)
  | 0x68 => some (.onew xd xa imm)
  | 0x69 => some (.oname xa xb)
  | 0x6A => some (.ofind xd xa)
  | 0x6B => some (.oup xd xa)
  | 0x6C => some (.orel xa)
  | 0x6D => some (.oweak xd xa)
  | 0x6E => some (.oprio xa imm)
  | 0x6F => some (.odisc xa)
  | 0xF0 => some (.trap i16)
  | 0xF1 => some (.eret)
  | 0xF2 => some (.csrrd xd i16)
  | 0xF3 => some (.csrwr i16 xa)
  | 0xF4 => some (.wfe)
  | 0xF5 => some (.halt)
  | 0xF6 => some (.snap i16)
  | 0xF7 => some (.freeze xa)
  | _ => none

/-- The destination of a 20-bit field (R14): `none` for all zero, refused where V = 0 and another bit
is set (R66). -/
def destOf (x : Nat) : Except DecodeError (Option Dest) :=
  if field x 19 19 = 1 then
    .ok (some ⟨BitVec.ofNat 5 (field x 18 14), BitVec.ofNat 5 (field x 13 9),
      BitVec.ofNat 6 (field x 8 3),
      (match field x 2 1 with | 0 => .l | 1 => .r | 2 => .g | _ => .c), field x 0 0 = 1⟩)
  else if x = 0 then .ok none else .error .destForm

/-- A tag operation of a code (R13). -/
def tagOpOf : Nat → Option TagOp
  | 0 => some .keep | 1 => some .inc | 2 => some .zero | 3 => some .iterl | 4 => some .push
  | 5 => some .pop | 6 => some .ctxl | _ => none

/-- The code of a tag operation (R13). -/
def tagOpCode : TagOp → Nat
  | .keep => 0 | .inc => 1 | .zero => 2 | .iterl => 3 | .push => 4 | .pop => 5 | .ctxl => 6

/-- The operator of an opcode (R64). -/
def fabricInstr (opc : Nat) (f : OpFields) : Option Instr :=
  match opc with
  | 0x001 => some (.const f)
  | 0x002 => some (.pass f)
  | 0x003 => some (.repl f)
  | 0x004 => some (.steer f)
  | 0x005 => some (.merge f)
  | 0x006 => some (.amerge f)
  | 0x007 => some (.lcarryEntry f)
  | 0x008 => some (.select f)
  | 0x010 => some (.tagset f)
  | 0x011 => some (.taginc f)
  | 0x012 => some (.tagcopy f)
  | 0x013 => some (.lvpush f)
  | 0x014 => some (.lvpop f)
  | 0x018 => some (.eosgen f)
  | 0x019 => some (.eoswait f)
  | 0x01C => some (.sink f)
  | 0x01D => some (.drop f)
  | 0x01E => some (.gate f)
  | 0x01F => some (.ojoin f)
  | 0x020 => some (.cfgreq f)
  | 0x021 => some (.gcoal f)
  | 0x022 => some (.greord f)
  | 0x040 => some (.nadd f)
  | 0x041 => some (.nsub f)
  | 0x042 => some (.nneg f)
  | 0x043 => some (.nabs f)
  | 0x044 => some (.nmin f)
  | 0x045 => some (.nmax f)
  | 0x046 => some (.nshl f)
  | 0x047 => some (.nmulk f)
  | 0x048 => some (.nceq f)
  | 0x049 => some (.ncne f)
  | 0x04A => some (.nclt f)
  | 0x04B => some (.ncle f)
  | 0x050 => some (.ntobW f)
  | 0x051 => some (.ntobS f)
  | 0x052 => some (.bton f)
  | 0x080 => some (.vaddI32 f)
  | 0x081 => some (.vaddsatI32 f)
  | 0x082 => some (.vsubI32 f)
  | 0x083 => some (.vsubsatI32 f)
  | 0x084 => some (.vmulI32 f)
  | 0x085 => some (.vmulhI32 f)
  | 0x086 => some (.vmulhuI32 f)
  | 0x088 => some (.vminI32 f)
  | 0x089 => some (.vmaxI32 f)
  | 0x08A => some (.vminuI32 f)
  | 0x08B => some (.vmaxuI32 f)
  | 0x090 => some (.vand f)
  | 0x091 => some (.vor f)
  | 0x092 => some (.vxor f)
  | 0x093 => some (.vnot f)
  | 0x094 => some (.vshl f)
  | 0x095 => some (.vshr f)
  | 0x096 => some (.vsra f)
  | 0x098 => some (.vceqI32 f)
  | 0x099 => some (.vcneI32 f)
  | 0x09A => some (.vcltI32 f)
  | 0x09B => some (.vcleI32 f)
  | 0x09C => some (.vcltuI32 f)
  | 0x09D => some (.vcleuI32 f)
  | 0x0C0 => some (.vfaddF32 f)
  | 0x0C1 => some (.vfsubF32 f)
  | 0x0C2 => some (.vfmulF32 f)
  | 0x0C3 => some (.vfmaF32 f)
  | 0x0C4 => some (.vfdivF32 f)
  | 0x0C8 => some (.vfrcpF32 f)
  | 0x0C9 => some (.vfrsqF32 f)
  | 0x0CA => some (.vfsqrtF32 f)
  | 0x0CB => some (.vfexp2F32 f)
  | 0x0CC => some (.vflog2F32 f)
  | 0x0CD => some (.vfminF32 f)
  | 0x0CE => some (.vfmaxF32 f)
  | 0x0D0 => some (.vfceqF32 f)
  | 0x0D1 => some (.vfcltF32 f)
  | 0x0D2 => some (.vfcleF32 f)
  | 0x0D3 => some (.vfcunF32 f)
  | 0x100 => some (.vcvtF32Bf16 f)
  | 0x101 => some (.vcvtBf16F32 f)
  | 0x102 => some (.vcvtsrBf16F32 f)
  | 0x103 => some (.vcvtF32F16 f)
  | 0x104 => some (.vcvtF16F32 f)
  | 0x105 => some (.vcvtF32E4m3 f)
  | 0x106 => some (.vcvtE4m3F32 f)
  | 0x107 => some (.vcvtF32E5m2 f)
  | 0x108 => some (.vcvtE5m2F32 f)
  | 0x109 => some (.vcvtI32F32 f)
  | 0x10A => some (.vcvtnI32F32 f)
  | 0x10B => some (.vcvtF32I32 f)
  | 0x10C => some (.vcvtI8I32 f)
  | 0x110 => some (.vqdec f)
  | 0x111 => some (.vqenc f)
  | 0x118 => some (.vrsumF32 f)
  | 0x119 => some (.vrmaxF32 f)
  | 0x11A => some (.vrminF32 f)
  | 0x11B => some (.vrsumI32 f)
  | 0x120 => some (.vperm f)
  | 0x121 => some (.vrot f)
  | 0x122 => some (.vcx f)
  | 0x140 => some (.ldv f)
  | 0x141 => some (.stv f)
  | 0x142 => some (.ld8 f)
  | 0x143 => some (.ld16 f)
  | 0x144 => some (.ld32 f)
  | 0x145 => some (.ld64 f)
  | 0x146 => some (.st8 f)
  | 0x147 => some (.st16 f)
  | 0x148 => some (.st32 f)
  | 0x149 => some (.st64 f)
  | 0x150 => some (.ldfeC f)
  | 0x151 => some (.ldfeK f)
  | 0x152 => some (.stf f)
  | 0x158 => some (.ldg f)
  | 0x159 => some (.ldhV f)
  | 0x15A => some (.sthV f)
  | 0x15B => some (.ldwV f)
  | 0x160 => some (.aaddI32 f)
  | 0x161 => some (.aaddF32 f)
  | 0x162 => some (.aminI32 f)
  | 0x163 => some (.amaxI32 f)
  | 0x164 => some (.aand f)
  | 0x165 => some (.aor f)
  | 0x166 => some (.axchg f)
  | 0x167 => some (.acas f)
  | 0x168 => some (.hup f)
  | 0x169 => some (.hrel f)
  | 0x170 => some (.fenceS f)
  | 0x180 => some (.mmaE4m3 f)
  | 0x181 => some (.mmaE5m2 f)
  | 0x182 => some (.mmaE4e5 f)
  | 0x183 => some (.mmaBf16 f)
  | 0x184 => some (.mmaI8 f)
  | 0x185 => some (.mmaQ16n f)
  | 0x188 => some (.scalc f)
  | 0x189 => some (.accz f)
  | 0x18A => some (.accrd f)
  | 0x18B => some (.accwr f)
  | 0x190 => some (.xsort f)
  | 0x198 => some (.ascan f)
  | 0x199 => some (.ared f)
  | 0x19A => some (.anorm f)
  | 0x1A0 => some (.kvapp f)
  | 0x1A1 => some (.kvseqRead f)
  | 0x1A2 => some (.kvtrim f)
  | _ => none

/-- The fields of an operator word (R59, R60), or the first reason by R66's code order for which the
bits have none. -/
def fabricFields (w : Nat) : Except DecodeError OpFields :=
  match tagOpOf (field w 115 112) with
  | none => .error .tagop
  | some t =>
    match EType.ofCode (field w 111 108) with
    | none => .error .etype
    | some e =>
      match destOf (field w 99 80), destOf (field w 79 60), destOf (field w 59 40) with
      | .ok d0, .ok d1, .ok d2 =>
        if field w 2 0 = 0 then
          .ok { arityN := BitVec.ofNat 2 (field w 118 117), arityG := field w 116 116 = 1,
                tagop := t, etype := e, sub := BitVec.ofNat 8 (field w 107 100),
                dest0 := d0, dest1 := d1, dest2 := d2, imm := BitVec.ofNat 32 (field w 39 8),
                flags := { brk := field w 7 7 = 1, order := field w 6 6 = 1,
                           stall := BitVec.ofNat 2 (field w 5 4), commit := field w 3 3 = 1 } }
        else .error .flags
      | _, _, _ => .error .destForm

/-- OPC of an operator word (R59). -/
def opcField (w : Nat) : Nat := field w 127 119

end Decode

/-- The control-core decoder (R71): any 64-bit number gives an instruction or ILLEGAL. -/
def decodeCore (w : Nat) : Except DecodeError Instr :=
  match Decode.coreRow (Decode.field w 63 56) with
  | none => .error .illegal
  | some r =>
    if Decode.coreFieldsOk r w then
      match Decode.coreInstr w with | some i => .ok i | none => .error .illegal
    else .error .illegal

/-- The operator-word decoder (R59 to R64): any 128-bit number gives an operator or a refusal. -/
def decodeFabric (w : Nat) : Except DecodeError Instr :=
  match Decode.fabricFields w with
  | .error e => if OpTable.row (Decode.opcField w) = none then .error .opcUnassigned else .error e
  | .ok f =>
    match Decode.fabricInstr (Decode.opcField w) f with
    | some i => .ok i
    | none => .error .opcUnassigned

/-- The number that bytes hold, the first byte lowest (01_notation.md R21). -/
def Decode.ofBytes : List Byte → Nat
  | [] => 0
  | b :: bs => b.toNat + 256 * Decode.ofBytes bs

/-- `n` bytes of a number, the lowest first (R21). -/
def Decode.toBytes : Nat → Nat → List Byte
  | 0, _ => []
  | n + 1, x => BitVec.ofNat 8 x :: Decode.toBytes n (x / 256)

/-- Eight bytes decode as a control-core instruction, sixteen as an operator word; every other length
is refused. -/
def decodeBytes (bs : List Byte) : Except DecodeError Instr :=
  if bs.length = 8 then decodeCore (Decode.ofBytes bs)
  else if bs.length = 16 then decodeFabric (Decode.ofBytes bs)
  else .error .illegal

/-- What this decoder reads from the low `nbits` bits of `w`, zero above them: a control-core word of
64 bits where `nbits` is at most 64, an operator word of 128 bits otherwise, laid out little-endian as
the device stores it (R59, R68). -/
def decodeTableWord (nbits w : Nat) : Option Instr :=
  match decodeBytes (Decode.toBytes (if nbits ≤ 64 then 8 else 16) (w % 2 ^ nbits)) with
  | .ok i => some i
  | .error _ => none

namespace Encode

/-- A register field at its place. -/
def regAt (r : Reg) (lo : Nat) : Nat := r.toNat * 2 ^ lo
/-- The scope field of a word that may carry an override (R69). -/
def scopeAt : Option Scope → Nat
  | none => 0
  | some s => Decode.scopeCode s * 2 ^ 37 + 2 ^ 36

/-- The 20 bits of a destination (R14). -/
def dest : Option Dest → Nat
  | none => 0
  | some d => 2 ^ 19 + d.dx.toNat * 2 ^ 14 + d.dy.toNat * 2 ^ 9 + d.slot.toNat * 2 ^ 3 +
      (match d.port with | .l => 0 | .r => 1 | .g => 2 | .c => 3) * 2 + (if d.narrow then 1 else 0)

/-- An operator word (R59). -/
def fabric (opc : Nat) (f : OpFields) : Nat :=
  opc * 2 ^ 119 + f.arityN.toNat * 2 ^ 117 + (if f.arityG then 1 else 0) * 2 ^ 116 +
  Decode.tagOpCode f.tagop * 2 ^ 112 + f.etype.code * 2 ^ 108 + f.sub.toNat * 2 ^ 100 +
  dest f.dest0 * 2 ^ 80 + dest f.dest1 * 2 ^ 60 + dest f.dest2 * 2 ^ 40 + f.imm.toNat * 2 ^ 8 +
  (if f.flags.brk then 1 else 0) * 2 ^ 7 + (if f.flags.order then 1 else 0) * 2 ^ 6 +
  f.flags.stall.toNat * 2 ^ 4 + (if f.flags.commit then 1 else 0) * 2 ^ 3

end Encode

/-- The word of a control-core instruction (R68, R70); every other step has none. -/
def encodeCore : Instr → Option Nat
  | .add xd xa xb => some (0x01 * 2 ^ 56 + Encode.regAt xd 51 + Encode.regAt xa 46 + Encode.regAt xb 41)
  | .sub xd xa xb => some (0x02 * 2 ^ 56 + Encode.regAt xd 51 + Encode.regAt xa 46 + Encode.regAt xb 41)
  | .mul xd xa xb => some (0x03 * 2 ^ 56 + Encode.regAt xd 51 + Encode.regAt xa 46 + Encode.regAt xb 41)
  | .mulh xd xa xb => some (0x04 * 2 ^ 56 + Encode.regAt xd 51 + Encode.regAt xa 46 + Encode.regAt xb 41)
  | .mulhu xd xa xb => some (0x05 * 2 ^ 56 + Encode.regAt xd 51 + Encode.regAt xa 46 + Encode.regAt xb 41)
  | .div xd xa xb => some (0x06 * 2 ^ 56 + Encode.regAt xd 51 + Encode.regAt xa 46 + Encode.regAt xb 41)
  | .divu xd xa xb => some (0x07 * 2 ^ 56 + Encode.regAt xd 51 + Encode.regAt xa 46 + Encode.regAt xb 41)
  | .rem xd xa xb => some (0x08 * 2 ^ 56 + Encode.regAt xd 51 + Encode.regAt xa 46 + Encode.regAt xb 41)
  | .remu xd xa xb => some (0x09 * 2 ^ 56 + Encode.regAt xd 51 + Encode.regAt xa 46 + Encode.regAt xb 41)
  | .and xd xa xb => some (0x0A * 2 ^ 56 + Encode.regAt xd 51 + Encode.regAt xa 46 + Encode.regAt xb 41)
  | .or xd xa xb => some (0x0B * 2 ^ 56 + Encode.regAt xd 51 + Encode.regAt xa 46 + Encode.regAt xb 41)
  | .xor xd xa xb => some (0x0C * 2 ^ 56 + Encode.regAt xd 51 + Encode.regAt xa 46 + Encode.regAt xb 41)
  | .sll xd xa xb => some (0x0D * 2 ^ 56 + Encode.regAt xd 51 + Encode.regAt xa 46 + Encode.regAt xb 41)
  | .srl xd xa xb => some (0x0E * 2 ^ 56 + Encode.regAt xd 51 + Encode.regAt xa 46 + Encode.regAt xb 41)
  | .sra xd xa xb => some (0x0F * 2 ^ 56 + Encode.regAt xd 51 + Encode.regAt xa 46 + Encode.regAt xb 41)
  | .slt xd xa xb => some (0x10 * 2 ^ 56 + Encode.regAt xd 51 + Encode.regAt xa 46 + Encode.regAt xb 41)
  | .sltu xd xa xb => some (0x11 * 2 ^ 56 + Encode.regAt xd 51 + Encode.regAt xa 46 + Encode.regAt xb 41)
  | .addi xd xa imm => some (0x18 * 2 ^ 56 + Encode.regAt xd 51 + Encode.regAt xa 46 + imm.toNat)
  | .andi xd xa imm => some (0x19 * 2 ^ 56 + Encode.regAt xd 51 + Encode.regAt xa 46 + imm.toNat)
  | .ori xd xa imm => some (0x1A * 2 ^ 56 + Encode.regAt xd 51 + Encode.regAt xa 46 + imm.toNat)
  | .xori xd xa imm => some (0x1B * 2 ^ 56 + Encode.regAt xd 51 + Encode.regAt xa 46 + imm.toNat)
  | .slli xd xa imm => some (0x1C * 2 ^ 56 + Encode.regAt xd 51 + Encode.regAt xa 46 + imm.toNat)
  | .srli xd xa imm => some (0x1D * 2 ^ 56 + Encode.regAt xd 51 + Encode.regAt xa 46 + imm.toNat)
  | .srai xd xa imm => some (0x1E * 2 ^ 56 + Encode.regAt xd 51 + Encode.regAt xa 46 + imm.toNat)
  | .slti xd xa imm => some (0x1F * 2 ^ 56 + Encode.regAt xd 51 + Encode.regAt xa 46 + imm.toNat)
  | .li xd imm => some (0x20 * 2 ^ 56 + Encode.regAt xd 51 + imm.toNat)
  | .lih xd imm => some (0x21 * 2 ^ 56 + Encode.regAt xd 51 + imm.toNat)
  | .beq xa xb off => some (0x28 * 2 ^ 56 + Encode.regAt xa 46 + Encode.regAt xb 41 + off.toNat)
  | .bne xa xb off => some (0x29 * 2 ^ 56 + Encode.regAt xa 46 + Encode.regAt xb 41 + off.toNat)
  | .blt xa xb off => some (0x2A * 2 ^ 56 + Encode.regAt xa 46 + Encode.regAt xb 41 + off.toNat)
  | .bge xa xb off => some (0x2B * 2 ^ 56 + Encode.regAt xa 46 + Encode.regAt xb 41 + off.toNat)
  | .bltu xa xb off => some (0x2C * 2 ^ 56 + Encode.regAt xa 46 + Encode.regAt xb 41 + off.toNat)
  | .bgeu xa xb off => some (0x2D * 2 ^ 56 + Encode.regAt xa 46 + Encode.regAt xb 41 + off.toNat)
  | .jal xd off => some (0x2E * 2 ^ 56 + Encode.regAt xd 51 + off.toNat)
  | .jalr xd xa imm => some (0x2F * 2 ^ 56 + Encode.regAt xd 51 + Encode.regAt xa 46 + imm.toNat)
  | .ldxB xd xa imm sc => some (0x30 * 2 ^ 56 + Encode.regAt xd 51 + Encode.regAt xa 46 + imm.toNat + Encode.scopeAt sc)
  | .ldxBu xd xa imm sc => some (0x31 * 2 ^ 56 + Encode.regAt xd 51 + Encode.regAt xa 46 + imm.toNat + Encode.scopeAt sc)
  | .ldxH xd xa imm sc => some (0x32 * 2 ^ 56 + Encode.regAt xd 51 + Encode.regAt xa 46 + imm.toNat + Encode.scopeAt sc)
  | .ldxHu xd xa imm sc => some (0x33 * 2 ^ 56 + Encode.regAt xd 51 + Encode.regAt xa 46 + imm.toNat + Encode.scopeAt sc)
  | .ldxW xd xa imm sc => some (0x34 * 2 ^ 56 + Encode.regAt xd 51 + Encode.regAt xa 46 + imm.toNat + Encode.scopeAt sc)
  | .ldxWu xd xa imm sc => some (0x35 * 2 ^ 56 + Encode.regAt xd 51 + Encode.regAt xa 46 + imm.toNat + Encode.scopeAt sc)
  | .ldxD xd xa imm sc => some (0x36 * 2 ^ 56 + Encode.regAt xd 51 + Encode.regAt xa 46 + imm.toNat + Encode.scopeAt sc)
  | .stxB xb xa imm sc => some (0x38 * 2 ^ 56 + Encode.regAt xb 41 + Encode.regAt xa 46 + imm.toNat + Encode.scopeAt sc)
  | .stxH xb xa imm sc => some (0x39 * 2 ^ 56 + Encode.regAt xb 41 + Encode.regAt xa 46 + imm.toNat + Encode.scopeAt sc)
  | .stxW xb xa imm sc => some (0x3A * 2 ^ 56 + Encode.regAt xb 41 + Encode.regAt xa 46 + imm.toNat + Encode.scopeAt sc)
  | .stxD xb xa imm sc => some (0x3B * 2 ^ 56 + Encode.regAt xb 41 + Encode.regAt xa 46 + imm.toNat + Encode.scopeAt sc)
  | .amoAdd xd xb xa sc => some (0x3C * 2 ^ 56 + Encode.regAt xd 51 + Encode.regAt xb 41 + Encode.regAt xa 46 + Encode.scopeAt sc)
  | .amoSwap xd xb xa sc => some (0x3D * 2 ^ 56 + Encode.regAt xd 51 + Encode.regAt xb 41 + Encode.regAt xa 46 + Encode.scopeAt sc)
  | .amoCas xd xb xa sc => some (0x3E * 2 ^ 56 + Encode.regAt xd 51 + Encode.regAt xb 41 + Encode.regAt xa 46 + Encode.scopeAt sc)
  | .fence sc => some (0x40 * 2 ^ 56 + Encode.scopeAt (some sc))
  | .rel sc => some (0x41 * 2 ^ 56 + Encode.scopeAt (some sc))
  | .acq sc => some (0x42 * 2 ^ 56 + Encode.scopeAt (some sc))
  | .cspawn xa imm => some (0x48 * 2 ^ 56 + Encode.regAt xa 46 + imm.toNat)
  | .cjoin xa => some (0x49 * 2 ^ 56 + Encode.regAt xa 46)
  | .cend => some (0x4A * 2 ^ 56)
  | .cyield => some (0x4B * 2 ^ 56)
  | .sspec xa imm => some (0x50 * 2 ^ 56 + Encode.regAt xa 46 + imm.toNat)
  | .sbar imm => some (0x51 * 2 ^ 56 + imm.toNat)
  | .scond xa imm sc => some (0x52 * 2 ^ 56 + Encode.regAt xa 46 + imm.toNat + Encode.scopeAt sc)
  | .gload xd xa imm => some (0x54 * 2 ^ 56 + Encode.regAt xd 51 + Encode.regAt xa 46 + imm.toNat)
  | .gsplice xa xb => some (0x55 * 2 ^ 56 + Encode.regAt xa 46 + Encode.regAt xb 41)
  | .gfree xa => some (0x56 * 2 ^ 56 + Encode.regAt xa 46)
  | .jsub xa => some (0x58 * 2 ^ 56 + Encode.regAt xa 46)
  | .gjoin xa imm => some (0x5A * 2 ^ 56 + Encode.regAt xa 46 + imm.toNat)
  | .gleave xa imm => some (0x5B * 2 ^ 56 + Encode.regAt xa 46 + imm.toNat)
  | .colq xa xb imm => some (0x5C * 2 ^ 56 + Encode.regAt xa 46 + Encode.regAt xb 41 + imm.toNat)
  | .colret xa => some (0x5D * 2 ^ 56 + Encode.regAt xa 46)
  | .evwait xd xa => some (0x5E * 2 ^ 56 + Encode.regAt xd 51 + Encode.regAt xa 46)
  | .evarm xa => some (0x5F * 2 ^ 56 + Encode.regAt xa 46)
  | .binit xa xb => some (0x60 * 2 ^ 56 + Encode.regAt xa 46 + Encode.regAt xb 41)
  | .barv xa xb sc => some (0x61 * 2 ^ 56 + Encode.regAt xa 46 + Encode.regAt xb 41 + Encode.scopeAt sc)
  | .bwait xd xa xb sc => some (0x62 * 2 ^ 56 + Encode.regAt xd 51 + Encode.regAt xa 46 + Encode.regAt xb 41 + Encode.scopeAt sc)
  | .onew xd xa imm => some (0x68 * 2 ^ 56 + Encode.regAt xd 51 + Encode.regAt xa 46 + imm.toNat)
  | .oname xa xb => some (0x69 * 2 ^ 56 + Encode.regAt xa 46 + Encode.regAt xb 41)
  | .ofind xd xa => some (0x6A * 2 ^ 56 + Encode.regAt xd 51 + Encode.regAt xa 46)
  | .oup xd xa => some (0x6B * 2 ^ 56 + Encode.regAt xd 51 + Encode.regAt xa 46)
  | .orel xa => some (0x6C * 2 ^ 56 + Encode.regAt xa 46)
  | .oweak xd xa => some (0x6D * 2 ^ 56 + Encode.regAt xd 51 + Encode.regAt xa 46)
  | .oprio xa imm => some (0x6E * 2 ^ 56 + Encode.regAt xa 46 + imm.toNat)
  | .odisc xa => some (0x6F * 2 ^ 56 + Encode.regAt xa 46)
  | .trap imm => some (0xF0 * 2 ^ 56 + imm.toNat)
  | .eret => some (0xF1 * 2 ^ 56)
  | .csrrd xd csr => some (0xF2 * 2 ^ 56 + Encode.regAt xd 51 + csr.toNat)
  | .csrwr csr xa => some (0xF3 * 2 ^ 56 + csr.toNat + Encode.regAt xa 46)
  | .wfe => some (0xF4 * 2 ^ 56)
  | .halt => some (0xF5 * 2 ^ 56)
  | .snap imm => some (0xF6 * 2 ^ 56 + imm.toNat)
  | .freeze xa => some (0xF7 * 2 ^ 56 + Encode.regAt xa 46)
  | .thaw xa => some (0xF7 * 2 ^ 56 + Encode.regAt xa 46)
  | _ => none

/-- The opcode and fields of a fabric operator (R64). -/
def fabricOf : Instr → Option (Nat × OpFields)
  | .const f => some (0x001, f)
  | .pass f => some (0x002, f)
  | .repl f => some (0x003, f)
  | .steer f => some (0x004, f)
  | .merge f => some (0x005, f)
  | .amerge f => some (0x006, f)
  | .lcarryEntry f => some (0x007, f)
  | .lcarryBackEdge f => some (0x007, f)
  | .lcarryEosRelease f => some (0x007, f)
  | .select f => some (0x008, f)
  | .tagset f => some (0x010, f)
  | .taginc f => some (0x011, f)
  | .tagcopy f => some (0x012, f)
  | .lvpush f => some (0x013, f)
  | .lvpop f => some (0x014, f)
  | .eosgen f => some (0x018, f)
  | .eoswait f => some (0x019, f)
  | .sink f => some (0x01C, f)
  | .drop f => some (0x01D, f)
  | .gate f => some (0x01E, f)
  | .ojoin f => some (0x01F, f)
  | .cfgreq f => some (0x020, f)
  | .gcoal f => some (0x021, f)
  | .greord f => some (0x022, f)
  | .nadd f => some (0x040, f)
  | .nsub f => some (0x041, f)
  | .nneg f => some (0x042, f)
  | .nabs f => some (0x043, f)
  | .nmin f => some (0x044, f)
  | .nmax f => some (0x045, f)
  | .nshl f => some (0x046, f)
  | .nmulk f => some (0x047, f)
  | .nceq f => some (0x048, f)
  | .ncne f => some (0x049, f)
  | .nclt f => some (0x04A, f)
  | .ncle f => some (0x04B, f)
  | .ntobW f => some (0x050, f)
  | .ntobS f => some (0x051, f)
  | .bton f => some (0x052, f)
  | .vaddI32 f => some (0x080, f)
  | .vaddsatI32 f => some (0x081, f)
  | .vsubI32 f => some (0x082, f)
  | .vsubsatI32 f => some (0x083, f)
  | .vmulI32 f => some (0x084, f)
  | .vmulhI32 f => some (0x085, f)
  | .vmulhuI32 f => some (0x086, f)
  | .vminI32 f => some (0x088, f)
  | .vmaxI32 f => some (0x089, f)
  | .vminuI32 f => some (0x08A, f)
  | .vmaxuI32 f => some (0x08B, f)
  | .vand f => some (0x090, f)
  | .vor f => some (0x091, f)
  | .vxor f => some (0x092, f)
  | .vnot f => some (0x093, f)
  | .vshl f => some (0x094, f)
  | .vshr f => some (0x095, f)
  | .vsra f => some (0x096, f)
  | .vceqI32 f => some (0x098, f)
  | .vcneI32 f => some (0x099, f)
  | .vcltI32 f => some (0x09A, f)
  | .vcleI32 f => some (0x09B, f)
  | .vcltuI32 f => some (0x09C, f)
  | .vcleuI32 f => some (0x09D, f)
  | .vfaddF32 f => some (0x0C0, f)
  | .vfsubF32 f => some (0x0C1, f)
  | .vfmulF32 f => some (0x0C2, f)
  | .vfmaF32 f => some (0x0C3, f)
  | .vfdivF32 f => some (0x0C4, f)
  | .vfrcpF32 f => some (0x0C8, f)
  | .vfrsqF32 f => some (0x0C9, f)
  | .vfsqrtF32 f => some (0x0CA, f)
  | .vfexp2F32 f => some (0x0CB, f)
  | .vflog2F32 f => some (0x0CC, f)
  | .vfminF32 f => some (0x0CD, f)
  | .vfmaxF32 f => some (0x0CE, f)
  | .vfceqF32 f => some (0x0D0, f)
  | .vfcltF32 f => some (0x0D1, f)
  | .vfcleF32 f => some (0x0D2, f)
  | .vfcunF32 f => some (0x0D3, f)
  | .vcvtF32Bf16 f => some (0x100, f)
  | .vcvtBf16F32 f => some (0x101, f)
  | .vcvtsrBf16F32 f => some (0x102, f)
  | .vcvtF32F16 f => some (0x103, f)
  | .vcvtF16F32 f => some (0x104, f)
  | .vcvtF32E4m3 f => some (0x105, f)
  | .vcvtE4m3F32 f => some (0x106, f)
  | .vcvtF32E5m2 f => some (0x107, f)
  | .vcvtE5m2F32 f => some (0x108, f)
  | .vcvtI32F32 f => some (0x109, f)
  | .vcvtnI32F32 f => some (0x10A, f)
  | .vcvtF32I32 f => some (0x10B, f)
  | .vcvtI8I32 f => some (0x10C, f)
  | .vqdec f => some (0x110, f)
  | .vqenc f => some (0x111, f)
  | .vrsumF32 f => some (0x118, f)
  | .vrmaxF32 f => some (0x119, f)
  | .vrminF32 f => some (0x11A, f)
  | .vrsumI32 f => some (0x11B, f)
  | .vperm f => some (0x120, f)
  | .vrot f => some (0x121, f)
  | .vcx f => some (0x122, f)
  | .ldv f => some (0x140, f)
  | .stv f => some (0x141, f)
  | .ld8 f => some (0x142, f)
  | .ld16 f => some (0x143, f)
  | .ld32 f => some (0x144, f)
  | .ld64 f => some (0x145, f)
  | .st8 f => some (0x146, f)
  | .st16 f => some (0x147, f)
  | .st32 f => some (0x148, f)
  | .st64 f => some (0x149, f)
  | .ldfeC f => some (0x150, f)
  | .ldfeK f => some (0x151, f)
  | .stf f => some (0x152, f)
  | .ldg f => some (0x158, f)
  | .ldhV f => some (0x159, f)
  | .sthV f => some (0x15A, f)
  | .ldwV f => some (0x15B, f)
  | .aaddI32 f => some (0x160, f)
  | .aaddF32 f => some (0x161, f)
  | .aminI32 f => some (0x162, f)
  | .amaxI32 f => some (0x163, f)
  | .aand f => some (0x164, f)
  | .aor f => some (0x165, f)
  | .axchg f => some (0x166, f)
  | .acas f => some (0x167, f)
  | .hup f => some (0x168, f)
  | .hrel f => some (0x169, f)
  | .fenceS f => some (0x170, f)
  | .mmaE4m3 f => some (0x180, f)
  | .mmaE5m2 f => some (0x181, f)
  | .mmaE4e5 f => some (0x182, f)
  | .mmaBf16 f => some (0x183, f)
  | .mmaI8 f => some (0x184, f)
  | .mmaQ16n f => some (0x185, f)
  | .scalc f => some (0x188, f)
  | .accz f => some (0x189, f)
  | .accrd f => some (0x18A, f)
  | .accwr f => some (0x18B, f)
  | .xsort f => some (0x190, f)
  | .ascan f => some (0x198, f)
  | .ared f => some (0x199, f)
  | .anorm f => some (0x19A, f)
  | .kvapp f => some (0x1A0, f)
  | .kvseqRead f => some (0x1A1, f)
  | .kvseqOpen f => some (0x1A1, f)
  | .kvseqAdvance f => some (0x1A1, f)
  | .kvseqDraft f => some (0x1A1, f)
  | .kvtrim f => some (0x1A2, f)
  | _ => none

/-- The word of a fabric operator (R59); every other step has none. -/
def encodeFabric (i : Instr) : Option Nat := (fabricOf i).map fun p => Encode.fabric p.1 p.2

/-- The bytes of an instruction that a program holds (R59, R68): eight for a control-core instruction,
sixteen for an operator. The device's other steps have no bytes. -/
def encode (i : Instr) : Option (List Byte) :=
  match encodeCore i with
  | some w => some (Decode.toBytes 8 w)
  | none => (encodeFabric i).map (Decode.toBytes 16)

end Sys2Proof
end

