-- ==== Sys2Proof/Machine/Flags.lean ====
section
/-!
DEFINITION. Integer results (04_numbers.md R78, R79; 01_notation.md R24, R25). The Foluz architecture
has no flags, no rounding modes and no exception bits (04_numbers.md, opening), so this file holds
what other machines compute into flags: the reduction of an exact integer by `Wrap` or `Sat`, the
divisions, and the signed-digit strings.
-/
namespace Sys2Proof.Num

/-- `Wrap(x, n)`: the two's complement value of x in n bits (R24). -/
def wrap (x : Int) (n : Nat) : Int :=
  let r := x % (2 ^ n : Nat)
  if r < (2 ^ (n - 1) : Nat) then r else r - (2 ^ n : Nat)

/-- `Sat(x, lo, hi)` (R24). -/
def sat (x lo hi : Int) : Int := if x < lo then lo else if hi < x then hi else x

/-- `Sat` to the signed range of n bits. -/
def satBits (x : Int) (n : Nat) : Int := sat x (-(2 ^ (n - 1) : Nat)) ((2 ^ (n - 1) : Nat) - 1)

/-- The n-bit pattern of an integer. -/
def pat (n : Nat) (x : Int) : BitVec n := BitVec.ofInt n x

/-- Signed quotient (R79): zero for a zero divisor, rounded toward zero otherwise; the most negative
value by -1 wraps to itself. -/
def divS (a b : Word) : Word := if b = 0 then 0 else BitVec.ofInt 64 (a.toInt.tdiv b.toInt)
/-- Signed remainder (R79): the dividend for a zero divisor. -/
def remS (a b : Word) : Word := if b = 0 then a else BitVec.ofInt 64 (a.toInt.tmod b.toInt)
/-- Unsigned quotient (R79). -/
def divU (a b : Word) : Word := if b = 0 then 0 else BitVec.ofNat 64 (a.toNat / b.toNat)
/-- Unsigned remainder (R79). -/
def remU (a b : Word) : Word := if b = 0 then a else BitVec.ofNat 64 (a.toNat % b.toNat)
/-- High half of the signed product (R280). -/
def mulHS (a b : Word) : Word := BitVec.ofInt 64 ((a.toInt * b.toInt) / (2 ^ 64 : Nat))
/-- High half of the unsigned product (R280). -/
def mulHU (a b : Word) : Word := BitVec.ofNat 64 ((a.toNat * b.toNat) / 2 ^ 64)

/-- The nearest integer to x / w, ties toward zero, for w > 0 (R25). -/
def nearest (x : Int) (w : Nat) : Int :=
  let m := x.natAbs
  let q := (2 * m + w - 1) / (2 * w)
  if x < 0 then -(q : Int) else q

/-- The digits of v at weights 4^(n-1) down to 4^0 (R25). -/
def digitsAux : Nat → Int → List Int
  | 0, _ => []
  | k + 1, v =>
    let d := sat (nearest v (4 ^ k)) (-2) 2
    d :: digitsAux k (v - d * (4 ^ k : Nat))

/-- `Digits(v, n)`: the canonical n-digit string (R25). -/
def digits (v : Int) (n : Nat) : List Int := digitsAux n v

/-- `Digits(d)`: the value of a digit string, most significant digit first (R24). -/
def digitsValue (d : List Int) : Int := d.foldl (fun acc x => 4 * acc + x) 0

/-- The largest magnitude of an n-digit string (R25). -/
def digitsMax (n : Nat) : Nat := 2 * (4 ^ n - 1) / 3

/-- The 3-bit code of a digit (R85). -/
def digitCode (d : Int) : Nat :=
  if d = 1 then 1 else if d = 2 then 2 else if d = -1 then 5 else if d = -2 then 6 else 0

/-- The digit of a code; three codes are invalid (R85). -/
def digitOfCode (c : Nat) : Option Int :=
  match c with
  | 0 => some 0 | 1 => some 1 | 2 => some 2 | 5 => some (-1) | 6 => some (-2) | _ => none

/-- A beat of up to eight digits, position 0 in bits [23:21] (R86). -/
def beatOf (d : List Int) : Nat :=
  ((List.range 8).map fun j => digitCode (d.getD j 0) * 2 ^ (21 - 3 * j)).foldl (· + ·) 0

/-- The eight digit codes of a beat. -/
def beatCodes (b : Nat) : List Nat := (List.range 8).map fun j => (b / 2 ^ (21 - 3 * j)) % 8

/-- The stored form of a digit string: four bytes for each beat of eight digits (R86), as 32-bit
numbers, beat 0 first. A 4-digit value uses the first four positions of its one beat (R87). -/
def storedBeats (d : List Int) (beats : Nat) : List Nat :=
  (List.range beats).map fun b => beatOf ((d.drop (8 * b)).take 8)

/-- Reads stored beats as a string of `n` digits, with the checks of R88: valid codes, zero codes in
unused positions, zero bits [31:24]. -/
def readBeats (stored : List Nat) (n : Nat) : Option (List Int) :=
  if stored.all (· < 2 ^ 24) then
    let codes := stored.flatMap beatCodes
    if (codes.drop n).all (· = 0) then (codes.take n).mapM digitOfCode else none
  else none

end Sys2Proof.Num
end

