-- ==== Sys2Proof/Config.lean ====
section
/-!
DEFINITION. The free values: constants without a body, one for each value that the manual leaves
open. Nothing in Lean can evaluate one, so a theorem that mentions one holds for every value of it.
-/
namespace Sys2Proof.Config

/-- The memory key that the security processor's draw `k` gave (24_trust.md R394; log 6). -/
opaque drawnKey : Nat → BitVec 512

/-- The byte that a changed 16-byte cipher block decrypts to (05_main_memory.md R116; log 6). -/
opaque freeByte : Nat → Byte

/-- A choice among the digit strings of one value (01_notation.md R25: 'may emit any string of equal
value'; log 5): the digits the narrow unit would like to send. They are used only where their value
is the result's. -/
opaque digitChoice : Nat → List Int

/-- Whether an ECDSA P-256 signature over the message checks under the public key
(26_host_and_package.md R420, R421; log 14). -/
opaque signatureChecks : (message signature key : List Byte) → Bool

/-- The hash of the public key held in fuses (R420; log 14). -/
opaque fusedKeyHash : List Byte

/-- The anti-rollback fuse count (R420; log 14). -/
opaque rollbackCount : Nat

/-- The bytes of an SPDM response that the manual does not give: signatures, nonces, certificates and
key shares made by the security processor (24_trust.md R401; log 14). -/
opaque protocolBytes : Nat → List Byte

/-- The code of boot ROM, security processor firmware and device firmware, as measured
(24_trust.md R402 indices 1 and 2; log 14). -/
opaque firmwareImage : Nat → List Byte

/-- A nonce or boot secret that the security processor draws (24_trust.md R394, R404; log 6). -/
opaque drawn : Nat → BitVec 256

/-- The value of a GUARD or ORDER token where a tag operation reads the L operand's value, which the
manual states for WIDE and NARROW operands only (02_tokens.md R30; log 24). -/
opaque ordValue : Nat → Nat

/-- Whether the verify data of an SPDM FINISH request checks (24_trust.md R401; log 14). -/
opaque finishChecks : Nat → Bool

/-- Whether a read of DRAM comes before a queued write-back that a discard has found (05_main_memory.md R118; log 109). -/
opaque readsFirst : Nat → Bool

/-- The bytes that identify the two ports of a die-to-die link (R404; log 14). -/
opaque portBytes : Nat → List Byte

end Sys2Proof.Config
end

