-- ==== Sys2Proof/Machine/Float.lean ====
section
/-!
DEFINITION. Floating-point values as exact dyadic numbers, rounding to nearest even into the five
formats of 04_numbers.md R75, and the operations of R76, R77, R80 to R83, R219 to R222. Every finite
value is `m * 2^e` with a sign; sums and products are exact; one rounding gives the result.
-/
namespace Sys2Proof.Fp

/-- A value of any format (R75). -/
inductive Val where
  | nan
  | inf (neg : Bool)
  | fin (neg : Bool) (m : Nat) (e : Int)
  deriving DecidableEq, Repr

/-- A format: widths of E and M, bias, and whether it has infinities (R75). -/
structure Fmt where
  eb : Nat
  mb : Nat
  bias : Int
  infs : Bool
  deriving DecidableEq, Repr

/-- FP32. -/
def f32 : Fmt := ⟨8, 23, 127, true⟩
/-- FP16. -/
def f16 : Fmt := ⟨5, 10, 15, true⟩
/-- BF16. -/
def bf16 : Fmt := ⟨8, 7, 127, true⟩
/-- E4M3: no infinity; only all ones is NaN. -/
def e4m3 : Fmt := ⟨4, 3, 7, false⟩
/-- E5M2. -/
def e5m2 : Fmt := ⟨5, 2, 15, true⟩

/-- Canonical NaN (R75). -/
def Fmt.nanBits (f : Fmt) : Nat :=
  if f.infs then (2 ^ f.eb - 1) * 2 ^ f.mb + 2 ^ (f.mb - 1) else (2 ^ (f.eb + f.mb)) - 1
/-- Infinity's magnitude bits, or the canonical NaN where the format has none (R24). -/
def Fmt.infBits (f : Fmt) : Nat := if f.infs then (2 ^ f.eb - 1) * 2 ^ f.mb else f.nanBits
/-- The sign bit's weight. -/
def Fmt.signBit (f : Fmt) : Nat := 2 ^ (f.eb + f.mb)

/-- The value of a bit pattern (R75). -/
def decode (f : Fmt) (b : Nat) : Val :=
  let neg := (b / f.signBit) % 2 = 1
  let e := (b / 2 ^ f.mb) % 2 ^ f.eb
  let m := b % 2 ^ f.mb
  if f.infs && e = 2 ^ f.eb - 1 then (if m = 0 then .inf neg else .nan)
  else if !f.infs && e = 2 ^ f.eb - 1 && m = 2 ^ f.mb - 1 then .nan
  else if e = 0 then .fin neg m (1 - f.bias - f.mb)
  else .fin neg (2 ^ f.mb + m) (e - f.bias - f.mb)

/-- The pattern of a magnitude `s * 2^q` that fits the significand, or the overflow pattern. -/
def pack (f : Fmt) (neg : Bool) (s : Nat) (q : Int) : Nat :=
  let sb := if neg then f.signBit else 0
  if s < 2 ^ f.mb then sb + s
  else
    let e := (q + f.mb + f.bias).toNat
    if e ≥ 2 ^ f.eb ∨ (f.infs ∧ e = 2 ^ f.eb - 1) ∨ (!f.infs ∧ e = 2 ^ f.eb - 1 ∧ s = 2 ^ (f.mb + 1) - 1)
    then (if f.infs then sb + f.infBits else f.nanBits)
    else sb + e * 2 ^ f.mb + (s - 2 ^ f.mb)

/-- Bits of a natural. -/
def len (m : Nat) : Nat := if m = 0 then 0 else Nat.log2 m + 1

/-- `RNE` of `m * 2^e`, or of a value strictly between it and `(m+1) * 2^e` where `sticky` (R24, R77).
A caller with `sticky` gives at least two bits more than the significand. -/
def round (f : Fmt) (neg : Bool) (m : Nat) (e : Int) (sticky : Bool) : Nat :=
  let q := max (e + len m - (f.mb + 1)) (1 - f.bias - f.mb)
  if q ≤ e then
    pack f neg (m * 2 ^ (e - q).toNat) q
  else
    let sh := (q - e).toNat
    let s := m / 2 ^ sh
    let r := m % 2 ^ sh
    let half := 2 ^ (sh - 1)
    let up := r > half ∨ (r = half ∧ (sticky ∨ s % 2 = 1))
    let s := if up then s + 1 else s
    if s = 2 ^ (f.mb + 1) then pack f neg (2 ^ f.mb) (q + 1) else pack f neg s q

/-- `RNE(x, f)` of an exact value (R24). -/
def rne (f : Fmt) : Val → Nat
  | .nan => f.nanBits
  | .inf neg => if f.infs then (if neg then f.signBit else 0) + f.infBits else f.nanBits
  | .fin neg m e => round f neg m e false

/-- Exact product (R76, R93). -/
def mul : Val → Val → Val
  | .nan, _ => .nan
  | _, .nan => .nan
  | .inf a, .inf b => .inf (xor a b)
  | .inf a, .fin b m _ => if m = 0 then .nan else .inf (xor a b)
  | .fin a m _, .inf b => if m = 0 then .nan else .inf (xor a b)
  | .fin a m e, .fin b n d => .fin (xor a b) (m * n) (e + d)

/-- The signed integer that a finite value is in units of 2^g. -/
def unitsOf (g : Int) : Val → Int
  | .fin neg m e => let x := (m * 2 ^ (e - g).toNat : Nat); if neg then -(x : Int) else x
  | _ => 0

/-- The exponent of a finite value. -/
def expOf : Val → Option Int
  | .fin _ _ e => some e
  | _ => none

/-- Exact sum of a list (R76, R93): NaN where an addend is NaN or infinities disagree; a zero sum is
+0 unless every addend is -0. -/
def sum (xs : List Val) : Val :=
  if xs.any (· = .nan) then .nan
  else
    let p := xs.any (· = .inf false)
    let n := xs.any (· = .inf true)
    if p && n then .nan
    else if p then .inf false
    else if n then .inf true
    else
      match xs.filterMap expOf with
      | [] => .fin false 0 0
      | e :: es =>
        let g := es.foldl min e
        let t := (xs.map (unitsOf g)).foldl (· + ·) 0
        if t = 0 then .fin (xs.all fun x => match x with | .fin b m _ => b && m = 0 | _ => false) 0 0
        else .fin (t < 0) t.natAbs g

/-- The negated value. -/
def neg : Val → Val
  | .nan => .nan
  | .inf b => .inf (!b)
  | .fin b m e => .fin (!b) m e

/-- Integer square root by bisection over `k` bits. -/
def isqrtAux (n : Nat) : Nat → Nat → Nat
  | 0, r => r
  | k + 1, r => let c := r + 2 ^ k; isqrtAux n k (if c * c ≤ n then c else r)
/-- The integer square root of `n`. -/
def isqrt (n : Nat) : Nat := isqrtAux n (len n / 2 + 1) 0

/-- `RNE(a / b)` with the table of R219. -/
def div (f : Fmt) : Val → Val → Nat
  | .nan, _ => f.nanBits
  | _, .nan => f.nanBits
  | .inf _, .inf _ => f.nanBits
  | .inf a, .fin b _ _ => rne f (.inf (xor a b))
  | .fin a _ _, .inf b => rne f (.fin (xor a b) 0 0)
  | .fin a m e, .fin b n d =>
    if n = 0 then (if m = 0 then f.nanBits else rne f (.inf (xor a b)))
    else if m = 0 then rne f (.fin (xor a b) 0 0)
    else
      let k : Nat := 64 + len n - min (len m) (63 + len n)
      let q := m * 2 ^ k / n
      round f (xor a b) q (e - d - k) (m * 2 ^ k % n != 0)

/-- `RNE(1/x)` (R220). -/
def rcp (f : Fmt) (x : Val) : Nat := div f (.fin false 1 0) x

/-- `RNE(sqrt x)` (R220). -/
def sqrt (f : Fmt) : Val → Nat
  | .nan => f.nanBits
  | .inf true => f.nanBits
  | .inf false => rne f (.inf false)
  | .fin b m e =>
    if m = 0 then rne f (.fin b 0 0)
    else if b then f.nanBits
    else
      let k : Nat := if e % 2 = 0 then 128 else 129
      let n := m * 2 ^ k
      let r := isqrt n
      round f false r ((e - k) / 2) (r * r != n)

/-- `RNE(1/sqrt x)` (R220). -/
def rsq (f : Fmt) : Val → Nat
  | .nan => f.nanBits
  | .inf true => f.nanBits
  | .inf false => rne f (.fin false 0 0)
  | .fin b m e =>
    if m = 0 then rne f (.inf b)
    else if b then f.nanBits
    else
      let (m, e) := if e % 2 = 0 then (m, e) else (2 * m, e - 1)
      let r := isqrt (2 ^ 256 / m)
      round f false r (-128 - e / 2) (r * r * m != 2 ^ 256)

/-- ln 2 in units of 2^-200, rounded down. -/
def ln2 : Nat := 1113844574712631719546256151097547306333272293549090750737802

/-- Terms of the exponential series of y (in units of 2^-200), added to `acc`. -/
def expSeries (y : Nat) : Nat → Nat → Nat → Nat → Nat
  | 0, _, _, acc => acc
  | k + 1, n, t, acc => expSeries y k (n + 1) (t * y / 2 ^ 200 / n) (acc + t)

/-- `RNE(2^x)` (R220). The fraction is taken to 200 bits, far beyond the distance of any FP32 input's
result from a rounding boundary (log 12). -/
def exp2 (f : Fmt) : Val → Nat
  | .nan => f.nanBits
  | .inf true => rne f (.fin false 0 0)
  | .inf false => rne f (.inf false)
  | .fin b m e =>
    if m = 0 then rne f (.fin false 1 0)
    else
      let big := (if e ≥ 0 then m * 2 ^ (min e 256).toNat else m / 2 ^ (-e).toNat) ≥ 2 ^ 11
      if big then (if b then rne f (.fin false 0 0) else rne f (.inf false))
      else
        -- x in units of 2^-200, rounded down; exact unless it is below 2^-100 in magnitude
        let u : Int := if e ≥ -200 then (m * 2 ^ (e + 200).toNat : Nat) else (m / 2 ^ (-200 - e).toNat : Nat)
        let u := if b then -u else u
        let n := u / (2 ^ 200 : Nat)
        let fr := (u % (2 ^ 200 : Nat)).toNat
        if fr = 0 then
          round f false (2 ^ 200) (n - 200) (!b && !(e ≥ 0 || m % 2 ^ (-e).toNat = 0))
        else round f false (expSeries (fr * ln2 / 2 ^ 200) 64 1 (2 ^ 200) 0) (n - 200) true

/-- Bits of log2 of a number in [1, 2) (in units of 2^-320), most significant first. -/
def log2Bits : Nat → Nat → Nat → Nat
  | 0, _, acc => acc
  | k + 1, y, acc =>
    let z := y * y / 2 ^ 320
    if z ≥ 2 ^ 321 then log2Bits k (z / 2) (2 * acc + 1) else log2Bits k z (2 * acc)

/-- `RNE(log2 x)` (R220), to 120 fraction bits (log 12). -/
def log2 (f : Fmt) : Val → Nat
  | .nan => f.nanBits
  | .inf true => f.nanBits
  | .inf false => rne f (.inf false)
  | .fin b m e =>
    if m = 0 then rne f (.inf true)
    else if b then f.nanBits
    else
      let l := len m
      let n : Int := e + l - 1
      if m = 2 ^ (l - 1) then rne f (.fin (n < 0) n.natAbs 0)
      else
        let fr := log2Bits 120 (m * 2 ^ (320 - (l - 1))) 0
        let v : Int := n * (2 ^ 120 : Nat) + fr
        if v ≥ 0 then round f false v.toNat (-120) true
        else round f true ((-v).toNat - 1) (-120) true

/-- Numeric order of two values that are not NaN, -0 = +0: `a < b`. -/
def lt : Val → Val → Bool
  | .nan, _ => false
  | _, .nan => false
  | .inf a, .inf b => a && !b
  | .inf a, .fin _ _ _ => a
  | .fin _ _ _, .inf b => !b
  | .fin a m e, .fin b n d =>
    let g := min e d
    unitsOf g (.fin a m e) < unitsOf g (.fin b n d)
/-- Equality of two values that are not NaN, -0 = +0 (R222). -/
def eq (a b : Val) : Bool := a != .nan && b != .nan && !(lt a b) && !(lt b a)
/-- The sign of a value. -/
def isNeg : Val → Bool
  | .nan => false
  | .inf b => b
  | .fin b _ _ => b

/-- `vfmin.f32` or `vfmax.f32` on patterns (R221): NaN wins, -0 below +0, the operand's own bits. -/
def minMax (isMax : Bool) (a b : Nat) : Nat :=
  let x := decode f32 a
  let y := decode f32 b
  if x = .nan ∨ y = .nan then f32.nanBits
  else
    let less := lt x y || (eq x y && isNeg x && !isNeg y)
    if isMax then (if less then b else a) else (if less then a else if eq x y && isNeg x = isNeg y then a else b)

/-- FP32 operations on patterns. -/
def add32 (a b : Nat) : Nat := rne f32 (sum [decode f32 a, decode f32 b])
/-- Difference (R219). -/
def sub32 (a b : Nat) : Nat := rne f32 (sum [decode f32 a, neg (decode f32 b)])
/-- Product (R219). -/
def mul32 (a b : Nat) : Nat := rne f32 (mul (decode f32 a) (decode f32 b))
/-- Fused product and sum (R219). -/
def fma32 (a b c : Nat) : Nat := rne f32 (sum [mul (decode f32 a) (decode f32 b), decode f32 c])
/-- Quotient (R219). -/
def div32 (a b : Nat) : Nat := div f32 (decode f32 a) (decode f32 b)
/-- The exact value of an integer. -/
def ofInt (x : Int) : Val := .fin (x < 0) x.natAbs 0

/-- Truncation toward zero (R80). -/
def truncInt : Val → Int
  | .fin b m e =>
    let a : Nat := if e ≥ 0 then m * 2 ^ e.toNat else m / 2 ^ (-e).toNat
    if b then -(a : Int) else a
  | _ => 0
/-- Round half to even (R80). -/
def roundInt : Val → Int
  | .fin b m e =>
    let a : Nat :=
      if e ≥ 0 then m * 2 ^ e.toNat
      else
        let d := 2 ^ (-e).toNat
        let q := m / d
        let r := m % d
        if 2 * r > d ∨ (2 * r = d ∧ q % 2 = 1) then q + 1 else q
    if b then -(a : Int) else a
  | _ => 0
/-- FP32 to INT32 by a rounding to an integer (R80): saturated; infinities to the bounds; NaN to 0. -/
def toI32 (conv : Val → Int) (v : Val) : Int :=
  match v with
  | .nan => 0
  | .inf true => -2147483648
  | .inf false => 2147483647
  | v => Num.satBits (conv v) 32

/-- The random bits of `vcvtsr.bf16.f32` (R82). -/
def srBits (seed iter e : Nat) : Nat :=
  let w := 2 ^ 32
  let h := (seed * 0x9E3779B1 + iter * 0x85EBCA77 + e * 0xC2B2AE3D) % w
  let h := h ^^^ (h / 2 ^ 15)
  let h := (h * 0x2C1B3C6D) % w
  let h := h ^^^ (h / 2 ^ 12)
  h % 2 ^ 16
/-- Stochastic rounding of a pattern to BF16 (R80, R82): infinities and NaN by the table of R80. -/
def srBf16 (seed iter e b : Nat) : Nat :=
  match decode f32 b with
  | .nan => bf16.nanBits
  | .inf n => rne bf16 (.inf n)
  | _ =>
    let m := b % 2 ^ 31 + srBits seed iter e
    let m := if m ≥ 0x7F800000 then 0x7F800000 else m
    (b / 2 ^ 31) * 2 ^ 15 + m / 2 ^ 16

/-- The codebook of Q16N in units of 1/128 (R83). -/
def codebook : Nat → Int
  | 0 => -128 | 1 => -89 | 2 => -67 | 3 => -51 | 4 => -37 | 5 => -24 | 6 => -12 | 7 => 0
  | 8 => 10 | 9 => 21 | 10 => 32 | 11 => 44 | 12 => 58 | 13 => 75 | 14 => 96 | _ => 128
/-- The exact value of a code (R81). -/
def q16n (c : Nat) : Val := .fin (codebook c < 0) (codebook c).natAbs (-7)

/-- Distance of 128y from a codebook value, in units of 2^g with g below the exponent of 128y. -/
def q16nDist (y : Val) (c : Nat) : Nat :=
  match y with
  | .fin b m e =>
    let g := min (e + 7) 0
    (unitsOf g (.fin b m (e + 7)) - unitsOf g (ofInt (codebook c))).natAbs
  | _ => 0
/-- `vqenc`'s code (R81): nearest codebook value, ties to the smaller magnitude; NaN gives 7. -/
def q16nEnc (b : Nat) : Nat :=
  match decode f32 b with
  | .nan => 7
  | .inf n => if n then 0 else 15
  | y =>
    (List.range 16).foldl (fun best c =>
      let d := q16nDist y c
      let db := q16nDist y best
      if d < db ∨ (d = db ∧ (codebook c).natAbs < (codebook best).natAbs) then c else best) 0

end Sys2Proof.Fp
end

