-- ==== Sys2Proof/Machine/Lanes.lean ====
section
/-!
DEFINITION. Payloads of 64 bytes with a lane mask (02_tokens.md R32), and what the vector operators
compute on them (11_ops_vector.md R215 to R229, 04_numbers.md R94). Every function here is on
payloads alone; firing, tags, credits and times stand with the operators.
-/
namespace Sys2Proof

/-- A WIDE payload: 64 bytes and the lane mask (R31, R32). -/
structure WideVal where
  data : Wide
  mask : BitVec 16
  deriving DecidableEq, Repr

namespace Lanes

/-- Lane i, at bytes 4i to 4i + 3 (01_notation.md R23). -/
def lane (w : Wide) (i : Nat) : Lane := w.extractLsb' (32 * i) 32
/-- Byte j of a payload. -/
def byte (w : Wide) (j : Nat) : Byte := w.extractLsb' (8 * j) 8
/-- Half-word e of a payload (R61). -/
def half (w : Wide) (e : Nat) : BitVec 16 := w.extractLsb' (16 * e) 16
/-- Code c of a Q16N payload: element 2i in the low nibble of byte i (R84). -/
def code (w : Wide) (c : Nat) : Nat := (w.extractLsb' (4 * c) 4).toNat

/-- A payload from `n` fields of `k` bits, field 0 lowest. -/
def build (k n : Nat) (g : Nat → Nat) : Wide :=
  BitVec.ofNat 512 ((List.range n).foldl (fun acc i => acc + (g i % 2 ^ k) * 2 ^ (k * i)) 0)
/-- A payload from its sixteen lanes. -/
def ofLanes (g : Nat → Lane) : Wide := build 32 16 fun i => (g i).toNat
/-- A payload from its 64 bytes. -/
def ofBytes (g : Nat → Byte) : Wide := build 8 64 fun i => (g i).toNat
/-- A mask from its sixteen bits. -/
def ofMask (g : Nat → Bool) : BitVec 16 :=
  BitVec.ofNat 16 ((List.range 16).foldl (fun acc i => acc + (if g i then 2 ^ i else 0)) 0)
/-- All sixteen lanes. -/
def full : BitVec 16 := 0xFFFF
/-- Whether lane i is active. -/
def on (m : BitVec 16) (i : Nat) : Bool := m.getLsbD i

/-- Lanes computed where the mask is set, zero elsewhere (R32). -/
def masked (m : BitVec 16) (g : Nat → Lane) : WideVal :=
  ⟨ofLanes fun i => if on m i then g i else 0, m⟩

/-- One operand, lane by lane. -/
def map1 (g : Lane → Lane) (a : WideVal) : WideVal := masked a.mask fun i => g (lane a.data i)
/-- Two operands, lane by lane; the mask is the AND (R32). -/
def map2 (g : Lane → Lane → Lane) (a b : WideVal) : WideVal :=
  masked (a.mask &&& b.mask) fun i => g (lane a.data i) (lane b.data i)
/-- Three operands, lane by lane. -/
def map3 (g : Lane → Lane → Lane → Lane) (a b c : WideVal) : WideVal :=
  masked (a.mask &&& b.mask &&& c.mask) fun i => g (lane a.data i) (lane b.data i) (lane c.data i)

/-- A lane function on FP32 patterns as numbers. -/
def fp1 (g : Nat → Nat) (a : Lane) : Lane := BitVec.ofNat 32 (g a.toNat)
/-- A lane function of two FP32 patterns. -/
def fp2 (g : Nat → Nat → Nat) (a b : Lane) : Lane := BitVec.ofNat 32 (g a.toNat b.toNat)
/-- A lane function of three FP32 patterns. -/
def fp3 (g : Nat → Nat → Nat → Nat) (a b c : Lane) : Lane :=
  BitVec.ofNat 32 (g a.toNat b.toNat c.toNat)
/-- The lane of a truth value (R218, R222). -/
def bool (b : Bool) : Lane := if b then 0xFFFFFFFF else 0

/-- `vaddsat.i32` (R215). -/
def addSat (a b : Lane) : Lane := Num.pat 32 (Num.satBits (a.toInt + b.toInt) 32)
/-- `vsubsat.i32` (R215). -/
def subSat (a b : Lane) : Lane := Num.pat 32 (Num.satBits (a.toInt - b.toInt) 32)
/-- `vmulh.i32` (R215). -/
def mulH (a b : Lane) : Lane := Num.pat 32 ((a.toInt * b.toInt) / (2 ^ 32 : Nat))
/-- `vmulhu.i32` (R215). -/
def mulHU (a b : Lane) : Lane := BitVec.ofNat 32 ((a.toNat * b.toNat) / 2 ^ 32)
/-- `vmin.i32` (R216). -/
def minS (a b : Lane) : Lane := if b.toInt < a.toInt then b else a
/-- `vmax.i32` (R216). -/
def maxS (a b : Lane) : Lane := if a.toInt < b.toInt then b else a
/-- `vminu.i32` (R216). -/
def minU (a b : Lane) : Lane := if b.toNat < a.toNat then b else a
/-- `vmaxu.i32` (R216). -/
def maxU (a b : Lane) : Lane := if a.toNat < b.toNat then b else a
/-- A shift by an immediate count, or by R's lanes modulo 32 (R217). -/
def shift (g : Lane → Nat → Lane) (sub : Nat) (a : WideVal) : Option WideVal → WideVal
  | none => map1 (fun x => g x sub) a
  | some b => map2 (fun x y => g x (y.toNat % 32)) a b

/-- A comparison of two FP32 lanes, false where an operand is NaN (R222). -/
def fcmp (g : Fp.Val → Fp.Val → Bool) (a b : Lane) : Lane :=
  bool (g (Fp.decode Fp.f32 a.toNat) (Fp.decode Fp.f32 b.toNat))
/-- `vfceq.f32`. -/
def feq (a b : Lane) : Lane := fcmp Fp.eq a b
/-- `vfclt.f32`. -/
def flt (a b : Lane) : Lane := fcmp Fp.lt a b
/-- `vfcle.f32`. -/
def fle (a b : Lane) : Lane := fcmp (fun x y => Fp.lt x y || Fp.eq x y) a b
/-- `vfcun.f32`. -/
def fun32 (a b : Lane) : Lane := fcmp (fun x y => x = .nan || y = .nan) a b

/-- The lane shape of a conversion (R223). -/
def convLane (conv : Nat → Nat) (a : WideVal) : WideVal := map1 (fp1 conv) a
/-- The widening shape from 16-bit sources (R223). -/
def widen16 (conv : Nat → Nat) (p : Nat) (a : WideVal) : WideVal :=
  masked (ofMask fun i => on a.mask ((16 * p + i) / 2)) fun i =>
    BitVec.ofNat 32 (conv (half a.data (16 * p + i)).toNat)
/-- The widening shape from 8-bit sources (R223). -/
def widen8 (conv : Nat → Nat) (p : Nat) (a : WideVal) : WideVal :=
  masked (ofMask fun i => on a.mask ((16 * p + i) / 4)) fun i =>
    BitVec.ofNat 32 (conv (byte a.data (16 * p + i)).toNat)
/-- The pair shape: 16 elements of L, then 16 of R, zero where inactive or absent; the mask all ones
(R223). `conv` also takes the lane index, for R224. -/
def pair (conv : Nat → Nat → Nat) (a : WideVal) (b : Option WideVal) : WideVal :=
  ⟨build 16 32 fun i =>
    if i < 16 then (if on a.mask i then conv i (lane a.data i).toNat else 0)
    else match b with
      | none => 0
      | some r => if on r.mask (i - 16) then conv (i - 16) (lane r.data (i - 16)).toNat else 0, full⟩
/-- The part shape of 8-bit results (R223). -/
def part8 (conv : Nat → Nat) (p : Nat) (a : WideVal) : WideVal :=
  ⟨build 8 64 fun j =>
    if 16 * p ≤ j ∧ j < 16 * p + 16 then
      (if on a.mask (j - 16 * p) then conv (lane a.data (j - 16 * p)).toNat else 0)
    else 0, full⟩

/-- A conversion between two formats with one rounding (R80). -/
def cvt (src dst : Fp.Fmt) (b : Nat) : Nat := Fp.rne dst (Fp.decode src b)
/-- FP32 to INT32 (R80). -/
def cvtI32 (conv : Fp.Val → Int) (b : Nat) : Nat :=
  (Num.pat 32 (Fp.toI32 conv (Fp.decode Fp.f32 b))).toNat
/-- INT32 to FP32 (R80). -/
def cvtF32 (b : Nat) : Nat := Fp.rne Fp.f32 (Fp.ofInt (BitVec.ofNat 32 b).toInt)
/-- INT32 to INT8, saturated (R80). -/
def cvtI8 (b : Nat) : Nat := (Num.pat 8 (Num.satBits (BitVec.ofNat 32 b).toInt 8)).toNat

/-- `vqdec` (R225). -/
def qdec (p : Nat) (a : WideVal) : WideVal :=
  masked (ofMask fun i => on a.mask ((16 * p + i) / 8)) fun i =>
    BitVec.ofNat 32 (Fp.rne Fp.f32 (Fp.q16n (code a.data (16 * p + i))))
/-- `vqenc` (R225). -/
def qenc (p : Nat) (a : WideVal) : WideVal :=
  ⟨build 4 128 fun c =>
    if 16 * p ≤ c ∧ c < 16 * p + 16 then
      (if on a.mask (c - 16 * p) then Fp.q16nEnc (lane a.data (c - 16 * p)).toNat else 7)
    else 0, full⟩

/-- One level of the pairwise tree (R94); `none` is an empty leaf. -/
def treeLevel (g : Nat → Nat → Nat) : List (Option Nat) → List (Option Nat)
  | [] => []
  | [x] => [x]
  | x :: y :: r =>
    (match x, y with
      | some a, some b => some (g a b)
      | some a, none => some a
      | none, b => b) :: treeLevel g r
/-- The root of the pairwise tree over sixteen leaves (R94). -/
def tree16 (g : Nat → Nat → Nat) (xs : List (Option Nat)) : Option Nat :=
  match treeLevel g (treeLevel g (treeLevel g (treeLevel g xs))) with
  | x :: _ => x
  | [] => none
/-- A reduction: the root in every lane, the mask all ones (R226). -/
def reduce (g : Nat → Nat → Nat) (empty : Nat) (a : WideVal) : WideVal :=
  let root := (tree16 g ((List.range 16).map fun i =>
    if on a.mask i then some (lane a.data i).toNat else none)).getD empty
  ⟨ofLanes fun _ => BitVec.ofNat 32 root, full⟩
/-- Wrapping 32-bit sum of two patterns. -/
def addI (a b : Nat) : Nat := (a + b) % 2 ^ 32

/-- `vperm` (R227). -/
def perm (mode : Nat) (a s : WideVal) : WideVal :=
  if mode = 0 then
    masked (ofMask fun i =>
        let sel := lane s.data i
        on s.mask i && (sel.getLsbD 31 || on a.mask (sel.toNat % 16)))
      fun i => let sel := lane s.data i
        if sel.getLsbD 31 then 0 else lane a.data (sel.toNat % 16)
  else
    ⟨ofBytes fun j =>
      let sel := (byte s.data j).toNat
      if !on s.mask (j / 4) || sel ≥ 128 || !on a.mask (sel % 64 / 4) then 0
      else byte a.data (sel % 64), s.mask⟩
/-- `vrot` (R228). -/
def rot (k : Nat) (a : WideVal) : WideVal :=
  ⟨ofLanes fun i => lane a.data ((i + k) % 16), ofMask fun i => on a.mask ((i + k) % 16)⟩

/-- The sort key of a lane by ETYPE: signed, unsigned, or the FP32 total order with every NaN on top
(R229). -/
def key (e : EType) (x : Lane) : Int :=
  if e = .i32 then x.toInt
  else if e = .ui32 then x.toNat
  else if Fp.decode Fp.f32 x.toNat = .nan then 2 ^ 32
  else if x.getLsbD 31 then -((x.toNat % 2 ^ 31 : Nat) : Int) - 1 else x.toNat
/-- `key(a) < key(b)` where an inactive lane lies above every active one (R229). -/
def keyLt (e : EType) (a b : WideVal) (i j : Nat) : Bool :=
  match on a.mask i, on b.mask j with
  | true, true => key e (lane a.data i) < key e (lane b.data j)
  | true, false => true
  | false, _ => false
/-- The lane that `vcx` puts at lane i (R229). -/
def cxFrom (e : EType) (sub : Nat) (a : WideVal) (i : Nat) : Nat :=
  let j := sub % 4
  let k := sub / 4 % 8
  let desc := sub ≥ 128
  let lo := if (i / 2 ^ j) % 2 = 0 then i else i - 2 ^ j
  let hi := lo + 2 ^ j
  let up := xor ((lo / 2 ^ k) % 2 = 0 || k = 4) desc
  if (up && keyLt e a a hi lo) || (!up && keyLt e a a lo hi) then (if i = lo then hi else lo) else i
/-- A payload with its lanes and mask bits moved. -/
def move (src : Nat → Nat) (a : WideVal) : WideVal :=
  ⟨ofLanes fun i => lane a.data (src i), ofMask fun i => on a.mask (src i)⟩

/-- Insertion that keeps equal elements in their order. -/
def insertBy (le : Nat → Nat → Bool) (x : Nat) : List Nat → List Nat
  | [] => [x]
  | y :: ys => if le x y then x :: y :: ys else y :: insertBy le x ys
/-- A stable sort. -/
def sortBy (le : Nat → Nat → Bool) (xs : List Nat) : List Nat := xs.foldr (insertBy le) []

/-- Active lanes in `xsort`'s order: by key, ties by lane number (13_ops_matrix.md R261). -/
def sortList (e : EType) (desc : Bool) (a : WideVal) : List Nat :=
  sortBy (fun i j =>
    if desc then key e (lane a.data j) ≤ key e (lane a.data i)
    else key e (lane a.data i) ≤ key e (lane a.data j)) ((List.range 16).filter (on a.mask))
/-- `xsort`: the keys and the indices (R261). -/
def xsort (e : EType) (desc : Bool) (a : WideVal) : WideVal × WideVal :=
  let l := sortList e desc a
  let m := ofMask fun r => r < l.length
  (masked m fun r => lane a.data (l.getD r 0), masked m fun r => BitVec.ofNat 32 (l.getD r 0))

end Lanes
end Sys2Proof
end

