-- ==== Sys2Proof/Machine/State.lean ====
section
/-!
DEFINITION. The state of the Pelris PX4 as plain data: every register, table, queue and buffer that
the manual names, and the messages that are under way between its agents. INVENTORY.md lists them with
their rules. Numbers of places are plain naturals (see Syntax.lean). Sparse tables are lists of
(key, value) pairs sorted by key.
-/
namespace Sys2Proof.Machine

/-- A sparse table: pairs in rising key order, no key twice. -/
abbrev Map (α : Type) := List (Nat × α)

/-- Bytes by address, in the canonical form of `Memory.wf` (Machine/Memory.lean). -/
abbrev Memory := List Host.Cell

/-- The tag (02_tokens.md R28). -/
structure Tag where
  colour : Colour
  ctx : BitVec 11
  slot : BitVec 6
  port : BitVec 2
  level : BitVec 4
  iter : BitVec 32
  deriving DecidableEq, Repr

/-- Which digit string a NARROW token carries for its value (01_notation.md R25; log 5): the canonical
one, one that the narrow unit chose, or the one that stored beats gave. -/
inductive DigitForm where
  | canonical
  | chosen (n : Nat)
  | exact (d : List Int)
  deriving DecidableEq, Repr

/-- Payloads of the token kinds that matching stores hold (R31 to R35). -/
inductive Payload where
  | wide (v : WideVal)
  | narrow (digits : Nat) (value : Int) (form : DigitForm)
  | eos (level : BitVec 4)
  | guard (p : Bool)
  | order
  deriving DecidableEq, Repr

/-- An origin credit: an entry of a cluster's port table (R47, 16_scheduling.md R316). -/
structure Credit where
  ck : Nat
  port : Nat
  deriving DecidableEq, Repr

/-- A token: tag, payload, origin credit, poison (25_reliability.md R410), EPOCH of its emitter
(21_faults_preemption.md R380). -/
structure Token where
  tag : Tag
  payload : Payload
  credit : Option Credit
  poison : Bool
  epoch : Bool
  deriving DecidableEq, Repr

/-- State of a matching-store entry: WAIT, or FAULT with what it waits for (R38, 12_ops_memory.md R235,
10_ops_routing.md R204); `group` is an operand of the `ldg` whose outstanding access is named, until the group agent has translated
its line (R242). -/
inductive EntryState where
  | wait
  | walking
  | page (colour page : Nat)
  | group (access : Nat)
  | cfgreq
  deriving DecidableEq, Repr

/-- A matching-store entry (R38): `filled` is the cycle of its arrival and `seq` orders arrivals (log 19); `id` is the
token's number and `beats` gives the cycle in which each beat was first held (R33); `spilling` marks a spill write under
way (R56). -/
structure Entry where
  token : Token
  id : Nat
  beats : List Nat
  filled : Nat
  seq : Nat
  age : Nat
  state : EntryState
  spilling : Bool
  deriving DecidableEq, Repr

/-- A reservation held by a token in flight or an access (R39). -/
structure Reservation where
  colour : Colour
  ctx : BitVec 11
  slot : Nat
  plane : Nat
  deriving DecidableEq, Repr

/-- An input edge (R380): from destination `dest` of slot `slot` of tile `src` of the cluster, or from the
entry port `src - 192`. -/
structure Edge where
  src : Nat
  slot : Nat
  dest : Nat
  deriving DecidableEq, Repr

/-- A token that an operator hands to destination `index` of its word (R43); `commit` is the word's COMMIT
flag (R60). -/
structure Emission where
  slot : Nat
  index : Nat
  dest : Dest
  token : Token
  commit : Bool
  deriving DecidableEq, Repr

/-- A token that leaves through physical port `phys` (0 to 31 fp, 32 to 39 vp; R306). -/
structure ExitToken where
  phys : Nat
  edge : Edge
  token : Token
  deriving DecidableEq, Repr

/-- The registers of a tile: s0 to s15, v0 to v7 and the accumulators a0 to a3, element (i, j) of
accumulator n at key 256n + 16i + j (13_ops_matrix.md R254). -/
structure FabRegs where
  s : Vector Word 16
  v : Vector Wide 8
  acc : Map Lane
  deriving DecidableEq, Repr

/-- A line of the stash (08_tile_memory.md R164). -/
structure StashLine where
  pa : Nat
  sk : Nat
  key : Colour
  world : World
  wts : Word
  leaseEnd : Word
  dirty : BitVec 16
  poison : BitVec 4
  data : BitVec 2048
  used : Nat
  deriving DecidableEq, Repr

/-- A cached leaf translation (05_main_memory.md R108): level 1 to 3, the entry as read. -/
structure TlbEntry where
  colour : Colour
  level : Nat
  vpage : Nat
  pte : Word
  deriving DecidableEq, Repr

/-- The agents that issue accesses to slices (R154). -/
inductive Source where
  | tile (tk : Nat)
  | context (ck ctx : Nat)
  | stream (ck binding : Nat)
  deriving DecidableEq, Repr

/-- What a slice request does at its ordering point (06_slices.md R124, R125). `atomic` carries the
operator's OPC, the operand payloads of R241 and whether one is poisoned. -/
inductive ReqKind where
  | read
  | write (bytes : List (Nat × Byte)) (poison : Bool)
  | atomic (opc : Nat) (r : WideVal) (c : Option WideVal) (poison : Bool)
  deriving DecidableEq, Repr

/-- A request to a home slice that has not yet passed its ordering point. `answer` names the outstanding
access of the tile, or the stream element, that gets the answer; `ack` the launch whose store
acknowledgements count it (R237); `stamp` orders what its source issues (R155); `va` is the address whose translation it used,
where it used one itself (05_main_memory.md R111). -/
structure Request where
  src : Source
  sk : Nat
  pa : Nat
  off : Nat
  colour : Colour
  key : Colour
  world : World
  kind : ReqKind
  pts : Word
  scope : Nat
  answer : Option Nat
  ack : Option (Nat × Nat)
  stamp : Nat
  va : Option Nat
  deriving DecidableEq, Repr

/-- A full/empty operator (08_tile_memory.md R169). -/
inductive FeKind where
  | keep
  | consume
  | store
  deriving DecidableEq, Repr

/-- A full/empty access parked at a tile (R170), or refused there and to be resent. -/
structure FeWait where
  src : Nat
  id : Nat
  off : Nat
  kind : FeKind
  data : WideVal
  poison : Bool
  tag : Tag
  age : Nat
  resendAt : Nat
  deriving DecidableEq, Repr

/-- Where an outstanding access of a tile stands (12_ops_memory.md R235, R237, R243, R247). -/
inductive AccessPhase where
  | sent
  | bank
  | parked
  | page (colour page : Nat)
  | group
  | fence
  | answered
  | faulted (code : Nat)
  | reissue
  deriving DecidableEq, Repr

/-- An entry of the outstanding table (R235): the firing's operator, tag and operands, the address it
accesses, and its answer; `out` is the result tag, `memPoison` poison that the access found. A chunk of a gather
(10_ops_routing.md R205) stands here too, with its row's bank in `object`; `since` is one more than the cycle in which the answer came (R237). -/
structure Access where
  id : Nat
  slot : Nat
  plane : Nat
  opc : Nat
  fields : OpFields
  tag : Tag
  out : Tag
  r : Option Payload
  c : Option Payload
  credit : Option Credit
  poison : Bool
  epoch : Bool
  addr : Nat
  object : Option Nat
  pinned : Bool
  phase : AccessPhase
  data : WideVal
  memPoison : Bool
  value : Int
  ok : Bool
  since : Nat
  deriving DecidableEq, Repr

/-- A walk of the tile's memory unit (R235). -/
structure Walk where
  slot : Nat
  tag : Tag
  va : Nat
  write : Bool
  deriving DecidableEq, Repr

/-- An operand in the spill directory (02_tokens.md R56); `record` is its spill record, `reading` marks a
read-back under way (R57). -/
structure SpillEntry where
  token : Token
  reading : Bool
  deriving DecidableEq, Repr

/-- An effect that commit mode holds (21_faults_preemption.md R382): a write or atomic at a home slice, a write to
a scratchpad, an `stf`, an atomic on a scratchpad, a KV append with its configuration and control word, or an exit
delivery with the mesh plane that carries it. -/
inductive Effect where
  | slice (r : Request)
  | bank (tk : Nat) (bytes : List (Nat × Byte)) (poison : Bool)
  | fill (tk off : Nat) (data : WideVal) (poison : Bool) (tag : Tag)
  | bankAtomic (tk off opc : Nat) (r : WideVal) (c : Option WideVal) (poison : Bool)
  | kvapp (tk cfg w : Nat) (x : WideVal) (poison : Bool)
  | exit (e : ExitToken) (narrow : Bool)
  deriving DecidableEq, Repr

/-- A commit-buffer entry; `saved` marks an effect held before its tile's save (R382). -/
structure CommitEntry where
  ctx : Nat
  colour : Colour
  effect : Effect
  saved : Bool
  deriving DecidableEq, Repr

/-- The debug latch (R384). -/
structure DebugLatch where
  tag : Tag
  slot : Nat
  unit : FUnit
  deriving DecidableEq, Repr

/-- Results of the vector unit with their due cycle (11_ops_vector.md R214). -/
structure VectorResult where
  plane : Nat
  due : Nat
  out : List Emission
  deriving DecidableEq, Repr

/-- When a narrow firing's beats may leave (10_ops_routing.md R210, R194): a beat behind its operands' beats, with them,
or freely. -/
inductive BeatClass where
  | online
  | forward
  | whole
  deriving DecidableEq, Repr

/-- An operand whose beats a narrow firing follows: its token's number, the cycles in which its beats were first held, and
how many it has. -/
structure BeatSource where
  id : Nat
  held : List Nat
  total : Nat
  deriving DecidableEq, Repr

/-- A firing in progress in the narrow unit (R210): the cycle in which it started, the operands that it follows, the beats
of its result and those already sent, and its tokens with their numbers. -/
structure NarrowFiring where
  plane : Nat
  mode : BeatClass
  fired : Nat
  sources : List BeatSource
  beats : Nat
  sent : Nat
  out : List (Nat × Emission)
  deriving DecidableEq, Repr

/-- The cell array's firing in progress (13_ops_matrix.md R253): its last busy cycle, its results, and the
buffer pointers it advances at its end (R257, R260): header offset, whether PROD, and its rows; the sequence
that an `ascan` reads (R264). -/
structure ArrayFiring where
  plane : Nat
  lastBusy : Nat
  scanOf : Option Nat
  out : List Emission
  cons : List Nat
  prod : Option Nat
  rows : List (Nat × Byte)
  deriving DecidableEq, Repr

/-- Per-slot state (03_formats.md R59, R320; 02_tokens.md R45; 10_ops_routing.md R198, R206; 16_scheduling.md
R321). `active` and `next` are keyed by 2048 * colour + CTX; `closed` lists the colours whose EOS at level
0 every declared data input has consumed; `firedAt` and `countedAt` are one more than the cycle in which the slot last fired
and in which its stall was last counted (R45). -/
structure Slot where
  firedAt : Nat
  countedAt : Nat
  word : BitVec 128
  ctx : Option Nat
  pending : Option (BitVec 128 × Nat)
  waitPlane : BitVec 32
  waitFault : BitVec 32
  waitQuota : BitVec 32
  waitOutput : BitVec 32
  waitOperand : BitVec 32
  active : Map (BitVec 16)
  next : Map (BitVec 32)
  closed : List Nat
  chosen : List Nat
  deriving DecidableEq, Repr

/-- What one tile has saved for a snapshot (21_faults_preemption.md R380). -/
structure SavedTile where
  ti : Nat
  words : Map (BitVec 128)
  regs : FabRegs
  scratch : Memory
  full : List Nat
  poison : List Nat
  entries : List Entry
  spills : List SpillEntry
  commits : List CommitEntry
  counts : List (Edge × Nat)
  slots : Map Slot
  latch : Option DebugLatch
  deriving DecidableEq, Repr

/-- Work a tile does before its active plane changes (16_scheduling.md R329): the plane wanted, the cycle in which it began, and
that in which the exchange of registers began. -/
structure Swap where
  target : Nat
  since : Nat
  exchange : Option Nat
  deriving DecidableEq, Repr

/-- A tile. `received` counts the tokens of a context that came on an edge, `receivedNew` those of the new EPOCH while a
snapshot of the context runs (R380), `sent` those that left. `restored` holds operands of a restored snapshot, by plane, until their plane is active (R381).
`grantFrom` is the mesh input whose reservation request was granted last (02_tokens.md R42), `started` the scratchpad as it stood when
the FCLK cycle began (13_ops_matrix.md R257), `trail` what the cell array still sends of an `ascan` (R268), `gatherBank` the
queue of rows read last and `gatherCycle` one more than the cycle of that read (10_ops_routing.md R205). -/
structure Tile where
  grantFrom : Nat
  gatherBank : Nat
  gatherCycle : Nat
  started : Memory
  trail : List VectorResult
  tsWorld : World
  spk : BitVec 5
  plane : BitVec 2
  slots : Map Slot
  store : Map Entry
  reserved : List Reservation
  scratch : Memory
  full : List Nat
  poison : List Nat
  stash : List StashLine
  pts : Word
  tlb : List TlbEntry
  regs : FabRegs
  saved : Map FabRegs
  parked : List FeWait
  refused : List FeWait
  accesses : List Access
  walks : List Walk
  touched : BitVec 68
  vector : List VectorResult
  narrow : List NarrowFiring
  array : Option ArrayFiring
  lastFired : Vector Nat 6
  spills : List SpillEntry
  commits : List CommitEntry
  tbpf : Vector Word 4
  latch : Option DebugLatch
  resume : Bool
  epochs : BitVec 4
  received : List (Nat × Edge × Nat)
  receivedNew : List (Nat × Edge × Nat)
  sent : List (Nat × Edge × Nat)
  markers : List (Nat × Edge × Nat)
  savedFor : List Nat
  stall1 : BitVec 32
  stall2 : BitVec 32
  stall3 : BitVec 32
  swap : Option Swap
  restored : List (Nat × Entry)
  cecnt : Nat
  spare : Bool
  deriving DecidableEq, Repr

/-- A leased copy of a context (14_control_core.md R275). -/
structure Lease where
  pa : Nat
  sk : Nat
  key : Colour
  leaseEnd : Word
  poison : BitVec 4
  data : BitVec 2048
  deriving DecidableEq, Repr

/-- What a context waits for (R278, R291, R292, R296, R300 to R302, R309). A context that is not parked
issues its next instruction. -/
inductive Park where
  | none
  | page (colour page : Nat)
  | append
  | release
  | streams (bindings : List Nat)
  | cond (launch : Nat) (address : Word) (bindings : List Nat)
  | window (card : BitVec 512)
  | ring (n : Nat)
  | barrier (spa phase : Nat)
  | timer (since : Nat)
  | scan
  | discard
  | markers
  | splice (launch : Nat)
  | space
  deriving DecidableEq, Repr

/-- A control-core context (R272, R276; 05_main_memory.md R110; 06_slices.md R123; 07_network.md R154).
`regs` holds x0 to x31, and the accessors read x0 as zero and discard writes to it. `released` marks an
instruction whose release has completed and whose other work is still to come; `mmBad` marks an MMINVA that was written with a
reserved bit set (05_main_memory.md R110); `since` is the cycle from which the context may issue (16_scheduling.md R311). -/
structure Context where
  regs : Vector Word 32
  pc : Word
  running : Bool
  tm : Bool
  queue : BitVec 4
  colour : Colour
  world : World
  trapCode : BitVec 16
  trapFcode : BitVec 8
  trapCause : BitVec 8
  epc : Word
  tval : Word
  tvec : Word
  scratch : Word
  stsValue : BitVec 11
  stsStatus : BitVec 8
  mminva : BitVec 33
  mmBad : Bool
  mmBusy : Bool
  mmMode : BitVec 2
  mmStatus : BitVec 3
  mmPages : BitVec 24
  mmColour : Colour
  mmDone : Bool
  park : Park
  released : Bool
  armed : Bool
  since : Nat
  pts : Word
  leases : List Lease
  touched : BitVec 68
  deriving DecidableEq, Repr

/-- A continuation record (R273). -/
structure Record where
  world : World
  colour : Colour
  queue : BitVec 4
  joina : Word
  frame : Word
  code : Word
  deriving DecidableEq, Repr

/-- Where a queued record stands (16_scheduling.md R310): just appended, in the join table, or runnable
since the given stamp. -/
inductive RecordState where
  | appended
  | joining
  | runnable (stamp : Nat)
  deriving DecidableEq, Repr

/-- A queued record, with the page of the queue that holds it. -/
structure QRecord where
  record : Record
  state : RecordState
  page : Nat
  deriving DecidableEq, Repr

/-- A continuation queue (R309): its records, its pages in device memory with how many records of each have
been popped, and how many stand in the last page. -/
structure Queue where
  records : List QRecord
  pages : List (Nat × Nat)
  filled : Nat
  deriving DecidableEq, Repr

/-- States of a launch context (R313). -/
inductive LaunchState where
  | held
  | running
  | splicing
  | ended
  deriving DecidableEq, Repr

/-- A port that an image declares (R289, R427): `ti` and `slot` place an entry's node; `table` is its
port-table entry (R316). -/
structure GraphPort where
  phys : Nat
  isExit : Bool
  port : Port
  ti : Nat
  slot : Nat
  table : Option Nat
  deriving DecidableEq, Repr

/-- A word of a launch: tile, slot, word and the back-edge marks of its destinations (R427). -/
structure PlacedWord where
  ti : Nat
  slot : Nat
  word : BitVec 128
  back : BitVec 3
  deriving DecidableEq, Repr

/-- What a splice still has to write into a tile once the predecessor's slots close (R322): registers, where the image
carries them, and the scratch image with the tile's scratchpad need. -/
structure SpliceRegs where
  ti : Nat
  need : Nat
  regs : Option FabRegs
  scratch : List Byte
  deriving DecidableEq, Repr

/-- A launch context that is not FREE (R313, R318). `sinkEos` and `exitEos` list which sinks and exit ports
have seen EOS at level 0 of which colour; `outstanding` counts store acknowledgements. `requester` marks a
library instance (R325), `admitted` the colours that a port has admitted (19_objects.md R362), and `starts` gives the
element at which a binding of a restored context begins, by port and colour (21_faults_preemption.md R381); `race` is its image's
`.racecheck warn` (03_formats.md R427), `quiet` the cycle since which the conditions of its end have held (R319). -/
structure Launch where
  state : LaunchState
  world : World
  plane : Nat
  x : Nat
  y : Nat
  w : Nat
  h : Nat
  levels : List Nat
  words : List PlacedWord
  ports : List GraphPort
  ring : Nat
  join : Word
  colour : Colour
  predecessor : Option Nat
  successor : Option Nat
  spliceRegs : List SpliceRegs
  bound : Bool
  colours : List Nat
  admitted : List Nat
  starts : List (Nat × Nat × Nat)
  sinkEos : List (Nat × Nat × Nat)
  exitEos : List (Nat × Nat)
  outstanding : Nat
  requester : Option Nat
  writtenBack : Bool
  race : Bool
  quiet : Option Nat
  deriving DecidableEq, Repr

/-- A port-table entry (R316, R47): quotas that differ from 32 and in-flight counts, by colour. -/
structure PortEntry where
  gport : Nat
  ctx : Nat
  quota : Map Nat
  inFlight : Map Nat
  deriving DecidableEq, Repr

/-- Kinds of binding (14_control_core.md R288). -/
inductive BindingKind where
  | memory
  | push (slice window : Nat)
  | link (srcCtx srcPort : Nat)
  deriving DecidableEq, Repr

/-- An extent of an address generator (05_main_memory.md R108, R112): a page of its pattern with the leaf that maps it, or one that
was absent when it was translated. -/
structure Extent where
  page : Nat
  leaf : Option TlbEntry
  deriving DecidableEq, Repr

/-- A binding (R288 to R291, R315): its pattern, the elements read and admitted, its EPOCH (R380). `ready` holds what
has been read and not yet admitted, or at an exit what has arrived and not yet been written; `stopped` marks a generator
that a fault has stopped (06_slices.md R132), `halted` a port that STOP has closed (R380). -/
structure Binding where
  id : Nat
  kind : BindingKind
  ctx : Nat
  colour : Colour
  gport : Nat
  phys : Nat
  isExit : Bool
  ordered : Bool
  elem : Nat
  base : Nat
  stride1 : Int
  stride2 : Int
  count0 : Nat
  count1 : Nat
  count2 : Nat
  nextRead : Nat
  nextAdmit : Nat
  ready : List Token
  active : Bool
  finished : Bool
  writes : Nat
  epoch : Bool
  stopped : Bool
  halted : Bool
  waitPage : Option Nat
  extents : List Extent
  deriving DecidableEq, Repr

/-- The reorder unit of one exit port for one colour and context (12_ops_memory.md R249). -/
structure Reorder where
  ctx : Nat
  colour : Colour
  gport : Nat
  next : BitVec 32
  held : List (Token × Nat)
  deriving DecidableEq, Repr

/-- A part of a card's work that is still to be done (09_block_transfer.md R180 to R185): to move `n` bytes to `dst`, read from an
address, in the scratchpad window or not, or as given with the poison of each; the rows j to j + n - 1; the next n entries of a
`csrwalk`, by the addresses of the first; to spread n bytes of the source from an offset. -/
inductive CardWork where
  | move (src : Option (Nat × Bool)) (given : List (Byte × Bool)) (dst n : Nat)
  | rows (j n : Nat)
  | entries (col val dcol dval n : Nat)
  | chunk (off n : Nat)
  deriving DecidableEq, Repr

/-- Where a card stands in the window (09_block_transfer.md R179, R187); `page` lists the pages, by colour, that parts of its work
wait for while the rest goes on (R177). -/
inductive CardState where
  | waiting
  | running
  | fabric (sent : Nat) (arrived : Nat) (eos : Bool)
  | page (pages : List (Nat × Nat))
  | done
  deriving DecidableEq, Repr

/-- A card in a cluster's window (R72, R178, R179): `edges` are the ids of the cards it waits for; `work` what is left to do once
its parts are known (`begun`), `movedAt` one more than the cycle in which its channel worked last, `written` the stretches of its
write region written so far (for `mcast`, of the source read), and for `mcast` its receivers that have not failed and those that
have, with their codes. -/
structure Card where
  id : Nat
  bits : BitVec 512
  ctx : Nat
  world : World
  colour : Colour
  edges : List Nat
  state : CardState
  status : Nat
  fault : Nat
  bytes : Nat
  begun : Bool
  work : List CardWork
  movedAt : Nat
  written : List (Nat × Nat)
  dests : List Nat
  failed : List (Nat × Nat)
  deriving DecidableEq, Repr

/-- The key of a group load (06_slices.md R134). -/
structure GroupKey where
  desc : Nat
  line : Nat
  disp : Nat
  deriving DecidableEq, Repr

/-- A member's request on its way to the group agent, or waiting there (R135): its tile, its access, the page it
waits for, the member number and group timer with which it has passed the first step of R135, and the member number with which its
ask was sent onward. -/
structure GroupAsk where
  key : GroupKey
  tk : Nat
  access : Nat
  tag : Tag
  passed : Option (Nat × Nat)
  waitPage : Option (Nat × Nat)
  sent : Option Nat
  deriving DecidableEq, Repr

/-- An ask that travels to a home slice, with the translation the agent made. -/
structure SliceAsk where
  ck : Nat
  key : GroupKey
  member : Nat
  pa : Nat
  home : Nat
  near : Nat
  colour : Colour
  owner : Colour
  timer : Nat
  scope : Nat
  deriving DecidableEq, Repr

/-- A fill that travels from a slice to the group agent (R137): `members` are the numbers and tiles enrolled at
its instant. -/
structure GroupFillMsg where
  key : GroupKey
  members : List (Nat × Nat)
  asked : Word
  data : BitVec 2048
  poison : BitVec 4
  byTimer : Bool
  deriving DecidableEq, Repr

/-- A delivery-table entry (R139). -/
structure Delivery where
  key : GroupKey
  asked : Word
  seqNo : BitVec 32
  deriving DecidableEq, Repr

/-- A group-hold entry (R136); `cause` says once it fills whether its timer is why. -/
structure GroupHold where
  ask : SliceAsk
  asked : Word
  timer : Nat
  cause : Option Bool
  deriving DecidableEq, Repr

/-- A snapshot under way (21_faults_preemption.md R379, R380). `ports` gives the elements that each binding had admitted
before its port's marker, by port and colour, and `closed` the back edges whose marker has come, with its E. -/
structure Snapshot where
  ctx : Nat
  number : Nat
  stop : Bool
  ports : List (Nat × Nat × Nat)
  tiles : List SavedTile
  caught : List (Edge × Nat × Token)
  closed : List (Edge × Nat)
  deriving DecidableEq, Repr

/-- A marker under way (R380): its edge, the tile it goes to, and E. -/
structure Marker where
  ctx : Nat
  number : Nat
  edge : Edge
  dst : Nat
  count : Nat
  back : Bool
  deriving DecidableEq, Repr

/-- A SPLICE token under way (16_scheduling.md R320). -/
structure SpliceToken where
  ti : Nat
  plane : Nat
  slot : Nat
  word : BitVec 128
  ctx : Nat
  deriving DecidableEq, Repr

/-- A barrier arrival under way to its bank (08_tile_memory.md R174). -/
structure Arrival where
  tk : Nat
  off : Nat
  bytes : Nat
  deriving DecidableEq, Repr

/-- What is asked of a pager (21_faults_preemption.md R371, R374; 16_scheduling.md R309): a page of a colour, a page for a
continuation queue, or that a colour be poisoned for a fault code at an address. -/
inductive PagerAsk where
  | page (n : Nat)
  | queue (ck q : Nat)
  | poison (code va : Nat)
  deriving DecidableEq, Repr

/-- A fault token under way to the pager of a die (R371). -/
structure FaultToken where
  die : Nat
  colour : Colour
  ask : PagerAsk
  deriving DecidableEq, Repr

/-- A request at the fabric manager (16_scheduling.md R325): the requesting slot with the word that it held, whose destinations the
results go to (10_ops_routing.md R204), its tag, the library index; `held` where no region was free (R326). -/
structure CfgRequest where
  ck : Nat
  tk : Nat
  slot : Nat
  plane : Nat
  tag : Tag
  word : BitVec 128
  index : Nat
  held : Bool
  deriving DecidableEq, Repr

/-- What a slice sends back to a tile (06_slices.md R124, 12_ops_memory.md R237, R241): a line with its WTS and lease end, the
old values of an atomic, or an acknowledgement. -/
inductive AnswerData where
  | line (data : BitVec 2048) (poison : BitVec 4) (wts fin : Word)
  | old (v : WideVal) (poison : Bool)
  | ack
  deriving DecidableEq, Repr

/-- The answer to a request. -/
structure Answer where
  request : Request
  data : AnswerData
  deriving DecidableEq, Repr

/-- What a flit of the mesh carries (07_network.md R142): a beat of the token `id`, a beat of an exit token, a request to
a slice and its answer, an access to another tile's scratchpad and its answer, a credit return, a marker, a SPLICE token, a
group ask, a fault token, a request to the fabric manager. -/
inductive Cargo where
  | token (edge : Edge) (plane id beat : Nat) (t : Token)
  | exit (x : ExitToken) (last : Bool)
  | request (r : Request)
  | answer (a : Answer)
  | remote (tk id : Nat)
  | reply (tk id : Nat)
  | credit (k : Credit) (colour : Colour)
  | marker (m : Marker)
  | splice (x : SpliceToken) (last : Bool)
  | ask (a : GroupAsk)
  | fault (f : FaultToken)
  | config (r : CfgRequest)
  deriving DecidableEq, Repr

/-- A flit of a cluster's mesh (07_network.md R142 to R146): the router 16y + x at which it stands, the input there (0 north,
1 east, 2 south, 3 west, 4 local), the tile at which it leaves and the output there (numbered alike), its plane and virtual
channel, the cycle from which it is in the buffer, its age there and whether it is promoted. The flits of one buffer stand in the
list in their order. -/
structure Flit where
  router : Nat
  inp : Nat
  dst : Nat
  out : Nat
  narrow : Bool
  vc : Nat
  enters : Nat
  age : Nat
  promoted : Bool
  cargo : Cargo
  deriving DecidableEq, Repr

/-- A router output for one plane (R145): the input granted last, the virtual channel whose turn it is with the grants that
are left to it (0 at its start), and the channels of the flits that it has granted in the cycle before `stamp`. -/
structure OutPort where
  last : Nat
  turn : Nat
  left : Nat
  stamp : Nat
  granted : List Nat
  deriving DecidableEq, Repr

/-- A cluster; `issuedAt` and `poppedAt` are one more than the cycles in which a context issued last (14_control_core.md R275) and
a record was popped last (R311). -/
structure Cluster where
  ctxs : Vector Context 8
  lastIssued : Nat
  issuedAt : Nat
  poppedAt : Nat
  mshErr : Bool
  promo : BitVec 10
  wgt1 : BitVec 4
  wgt0 : BitVec 4
  ccen : BitVec 8
  lcBusy : Bool
  lcStatus : BitVec 3
  lcCtx : BitVec 11
  queues : Vector Queue 16
  lastWin : Vector (BitVec 2) 4
  launches : Map Launch
  ports : Map PortEntry
  bindings : List Binding
  lastAdmitted : Map (Nat × Nat)
  reorders : List Reorder
  cards : List Card
  arrivals : List Arrival
  flits : List Flit
  exits : List ExitToken
  credits : List (Nat × Colour)
  returned : List (Nat × Colour)
  routers : Map OutPort
  markers : List Marker
  splices : List SpliceToken
  asks : List GroupAsk
  pendingKeys : List SliceAsk
  deliveries : List Delivery
  fills : List GroupFillMsg
  snapshots : List Snapshot
  tlb : List TlbEntry
  l2tlb : List TlbEntry
  spares : Nat
  deriving DecidableEq, Repr

/-- A line of a slice (06_slices.md R119, R122, R123). -/
structure Line where
  pa : Nat
  key : Colour
  world : World
  way : Nat
  used : Nat
  wts : Word
  rts : Word
  dirty : BitVec 4
  poison : BitVec 4
  data : BitVec 2048
  deriving DecidableEq, Repr

/-- A miss that holds its line's lock until the fill is installed (R121): `asked` once RDLINE has reached the stack port,
`data` what it returned with its poison, `back` once that has come back to the slice. -/
structure Miss where
  request : Request
  asked : Bool
  data : Option (BitVec 2048 × BitVec 4)
  back : Bool
  deriving DecidableEq, Repr

/-- A write-back past the slice's ordering point and not yet at its base die (R121, 05_main_memory.md
R100): the units written; `locks` while the line is locked for it, `sent` once it is on its way to the stack port and `asked` once it has come there,
`discarded` once a discard of its line
has found it (R117). -/
structure WriteBack where
  pa : Nat
  key : Colour
  units : BitVec 4
  poison : BitVec 4
  data : BitVec 2048
  locks : Bool
  sent : Bool
  asked : Bool
  discarded : Bool
  deriving DecidableEq, Repr

/-- Where a flit of the ring network stands (07_network.md R148 to R152). A ring is named by quadrant (0 to 15), pair (0 north,
1 south) and direction (0 eastward, 1 westward), a stop by its place 0 to 15 in the pair's order. `source` is a stop's queue of
flits that have still to enter a ring, `station` a queue of an output of a station, `hub` one of a die's hub crossbar or of a
die-to-die port. -/
inductive NetPlace where
  | source (quad pair stop : Nat)
  | pass (quad pair dir stop : Nat)
  | station (st out : Nat)
  | hub (die out : Nat)
  deriving DecidableEq, Repr

/-- Where a flit goes: a stop, a stack port of a die, or the hub die. -/
inductive NetGoal where
  | stop (quad pair stop : Nat)
  | stack (die port : Nat)
  | hubDie
  deriving DecidableEq, Repr

/-- What a ring flit carries: a request to a slice and its answer to a tile, or a transaction of a slice with a stack port
(05_main_memory.md R100): the request for a line, the line, a write-back; a group's ask and its fill (06_slices.md R136, R137). -/
inductive NetCargo where
  | request (r : Request)
  | answer (a : Answer)
  | lineRead (sk pa : Nat)
  | lineData (sk pa : Nat)
  | lineWrite (sk pa : Nat)
  | ask (sk : Nat) (a : SliceAsk)
  | fill (ck : Nat) (f : GroupFillMsg)
  deriving DecidableEq, Repr

/-- A flit of the ring network (R148): class (0 request, 1 response, 2 system), source and destination, colour, world, the
mask of valid 64-byte units; `escape` marks one that holds an escape entry of a station (R152), `enters` the NCLK cycle from
which it stands in its place. -/
structure RingFlit where
  cls : Nat
  src : NetGoal
  goal : NetGoal
  colour : Colour
  world : World
  units : BitVec 4
  place : NetPlace
  escape : Bool
  enters : Nat
  cargo : NetCargo
  deriving DecidableEq, Repr

/-- The way-allocation register of a world in a slice (R127). -/
structure WayReg where
  shmiss : BitVec 32
  ceil : BitVec 5
  floor : BitVec 5
  deriving DecidableEq, Repr

/-- A push generator (R130): the binding it runs, by cluster and binding id. -/
structure PushGen where
  ck : Nat
  binding : Nat
  deriving DecidableEq, Repr

/-- A slice. `wayOwner` gives the world of each assigned way; `shadow` the tags of each world in the sampled
sets, most recent first, and `shadowHits` H_w(k) at key 64 * w + k (R129); `epochs` counts the epochs that have ended. -/
structure Slice where
  lines : List Line
  mts : Vector Word 4
  misses : List Miss
  conflicts : List Request
  writeBacks : List WriteBack
  ways : Map WayReg
  wayErr : Bool
  wayFreeze : Bool
  wayOwner : Map Nat
  shadow : Map (List Nat)
  shadowHits : Map Nat
  shadowMiss : Map Nat
  epochs : Nat
  holds : List GroupHold
  groupQueue : List SliceAsk
  asks : List SliceAsk
  pushes : List PushGen
  bankOff : BitVec 4
  deriving DecidableEq, Repr

/-- A station's counters (07_network.md R156). -/
structure Station where
  loc : Map Word
  xd : Map Word
  sel : Map (BitVec 10)
  cloc : Map Word
  cxd : Map Word
  deriving DecidableEq, Repr

/-- A pending entry of the pager (21_faults_preemption.md R371). -/
structure PagerEntry where
  colour : Colour
  ask : PagerAsk
  raised : Nat
  held : Bool
  deriving DecidableEq, Repr

/-- Where the result of a CFGREQ goes (10_ops_routing.md R204): the tag, tile, plane and slot of the request, and its word. -/
structure CfgReturn where
  tag : Tag
  tk : Nat
  plane : Nat
  slot : Nat
  word : BitVec 128
  deriving DecidableEq, Repr

/-- A library instance (R325). -/
structure LibInstance where
  reqCk : Nat
  reqCtx : Nat
  index : Nat
  ck : Nat
  ctx : Nat
  returns : List CfgReturn
  deriving DecidableEq, Repr

/-- States of an object-table entry (19_objects.md R353). -/
inductive ObjectState where
  | free
  | live
  | dying
  | retired
  deriving DecidableEq, Repr

/-- An object-table entry (R353). -/
structure ObjectEntry where
  keyp : Nat
  touch : BitVec 32
  pin : BitVec 16
  weak : BitVec 16
  strong : BitVec 16
  gen : BitVec 8
  prio : BitVec 4
  state : ObjectState
  pfen : Bool
  pfcol : Colour
  world : World
  hdie : BitVec 2
  size : Nat
  base : Nat
  deriving DecidableEq, Repr

/-- A valid record of the key table (R359). -/
structure KeyRecord where
  world : World
  handle : Word
  key : BitVec 256
  deriving DecidableEq, Repr

/-- A die's registers and engines. `objects` is keyed by index, `keys` by 8 * bucket + record. -/
structure Die where
  cqpool : BitVec 9
  pgBase : BitVec 38
  pgEn : Bool
  otBase : BitVec 26
  otEn : Bool
  ktBase : BitVec 43
  ktLog2b : BitVec 5
  ktEn : Bool
  ohbase : Map (BitVec 34)
  ohsize : Map (BitVec 48)
  snap : Map Word
  rlErr : Bool
  rlWexp : BitVec 6
  rlN : BitVec 8
  fmlib : Map Word
  objects : Map ObjectEntry
  keys : Map KeyRecord
  pager : List PagerEntry
  emptied : List Nat
  cfgreqs : List CfgRequest
  libs : List LibInstance
  deriving DecidableEq, Repr

/-- States of a colour (05_main_memory.md R103). -/
inductive ColourState where
  | free
  | live
  | retiring
  deriving DecidableEq, Repr

/-- A colour: its table entry (R103), its limits (02_tokens.md R40, R50, R54; 14_control_core.md R298), whether
it is poisoned (21_faults_preemption.md R375). -/
structure ColourEntry where
  state : ColourState
  world : World
  kshare : Colour
  root : BitVec 38
  floor : Nat
  age : Nat
  spill : Bool
  spillBase : Option Nat
  ring : Option Nat
  poisoned : Bool
  dropped : Bool
  deriving DecidableEq, Repr

/-- A ring descriptor (09_block_transfer.md R188), as read from the table in memory; the event unit's own part of it, which
`State.rings` keeps, is its MSI-X vector (24_trust.md R396), the CONS last read
(R190), and whether records were dropped since the last one written. -/
structure Ring where
  consa : Word
  base : Word
  prod : BitVec 32
  lost : BitVec 16
  colour : Colour
  world : World
  log2n : BitVec 5
  notify : Bool
  en : Bool
  vec : BitVec 6
  cons : BitVec 32
  dropped : Bool
  deriving DecidableEq, Repr

/-- A 32-bit join word to be decremented (R187): cluster, colour, address. -/
structure Join where
  ck : Nat
  colour : Colour
  va : Nat
  deriving DecidableEq, Repr

/-- A record that has been formed and not yet written (R189): the ring it names, the world that produced it,
and the join word that is decremented after it (R187, 16_scheduling.md R319); `unit` is the cluster whose event unit writes it
(00_scope.md R3). -/
structure EventRecord where
  unit : Nat
  ring : Nat
  producer : World
  join : Option Join
  time : Word
  tag : Word
  bytes : BitVec 32
  fault : BitVec 8
  colour : Colour
  status : BitVec 8
  kind : BitVec 8
  deriving DecidableEq, Repr

/-- A probe of a release (07_network.md R155): to a slice, or to the hub crossbar of a die, which forwards
it to the 64 slices of that die. -/
inductive ProbeTarget where
  | slice (sk : Nat)
  | hub (die : Nat)
  | forwarded (left : List Nat)
  deriving DecidableEq, Repr

/-- A release under way (R155): its number, its source, the stamp before which it covers the source's requests, and the
probes not yet answered. -/
structure Release where
  id : Nat
  stamp : Nat
  src : Source
  access : Option Nat
  probes : List ProbeTarget
  deriving DecidableEq, Repr

/-- A world page (24_trust.md R395). -/
structure WorldPage where
  arg0 : Word
  arg1 : Word
  arg2 : Word
  busy : Bool
  status : BitVec 8
  result : BitVec 32
  cmd : BitVec 8
  deriving DecidableEq, Repr

/-- A measurement (R402). -/
structure Measurement where
  digest : BitVec 256
  count : BitVec 32
  deriving DecidableEq, Repr

/-- What a function's MSI-X table and mailbox hold (R397, R400, R401, R405). -/
structure Function where
  masked : List Nat
  pending : List Nat
  tdisp : Tdisp
  negotiated : Bool
  session : Bool
  finished : Bool
  stream : Option Nat
  deriving DecidableEq, Repr

/-- A MACsec secure association as its engine keeps it (R406). -/
structure MacsecSa where
  port : Nat
  an : Nat
  transmit : Bool
  xpn : Bool
  sak : BitVec 256
  salt : BitVec 96
  sci : BitVec 64
  ssci : BitVec 32
  deriving DecidableEq, Repr

/-- An answer of the host link (26_host_and_package.md R415, R418; 24_trust.md R401). -/
inductive HostReply where
  | bytes (fn : Nat) (bs : List Byte)
  | completed (fn : Nat)
  | unsupported (fn : Nat)
  | poisoned (fn : Nat)
  | retry (fn : Nat)
  | message (fn vec : Nat)
  | spdm (fn : Nat) (code : Nat) (bs : List Byte)
  deriving DecidableEq, Repr

/-- What the freeze area of a tile holds (R377): the words that its plane had, and the unsettled state of the world. -/
structure FrozenTile where
  tk : Nat
  plane : Nat
  words : Map (BitVec 128)
  store : Map Entry
  reserved : List Reservation
  vector : List VectorResult
  trail : List VectorResult
  narrow : List NarrowFiring
  array : Option ArrayFiring
  commits : List CommitEntry
  latch : Option DebugLatch
  deriving DecidableEq, Repr

/-- What of a world is frozen (21_faults_preemption.md R377): the clusters concerned, those whose scan has not finished,
whether the scan is that of a thaw (R378), the cycle in which the scan began, and the state saved, the routers' part by cluster. -/
structure Frozen where
  since : Nat
  clusters : List Nat
  scanning : List Nat
  thawing : Bool
  tiles : List FrozenTile
  flits : List (Nat × Flit)
  exits : List (Nat × ExitToken)
  credits : List (Nat × Nat × Colour)
  markers : List (Nat × Marker)
  deriving DecidableEq, Repr

/-- A completed snapshot image, held as structure (log 16): the context saved, and its contents. `ports` gives the
elements that each binding had admitted, by port and colour (R381). -/
structure SnapImage where
  ctx : Nat
  launch : Launch
  tiles : List SavedTile
  caught : List (Edge × Nat × Token)
  ports : List (Nat × Nat × Nat)
  reorders : List Reorder
  deriving DecidableEq, Repr

/-- What the next step of the device is (log 3): an instruction of a context, a firing of a slot, another
step of the table, the setting or clearing of BRK in an installed word by `cermos` (03_formats.md R60), or the end of an FCLK
cycle. -/
inductive Move where
  | issue (ck ctx : Nat)
  | fire (tk slot : Nat)
  | event (i : Instr)
  | setBreak (tk plane slot : Nat) (on : Bool)
  | cycle
  deriving DecidableEq, Repr

/-- Who performs the step in progress: the numbers that an instruction's meaning needs (log 3). -/
structure Actor where
  ck : Nat
  ctx : Nat
  tk : Nat
  slot : Nat
  deriving DecidableEq, Repr

/-- The whole machine. `ceCounts` counts corrected errors by place and `cePages` the pages of a stack bank that had one
(25_reliability.md R411, R412), `ideKeys` holds the keys of the IDE streams (24_trust.md R405). `thawing` holds the state of thawed tiles whose plane has still to be swapped in (R378).
The tables of colours and rings lie in memory at `colourBase` and `ringBase` (R103, 09_block_transfer.md R188), which firmware chooses
(log 102). `requests` lists what has reached its slice, `net` what is under way on rings, at stations and hubs, and `served` the class that each
place has served last (07_network.md R149, R151). -/
structure State where
  agenda : List Move
  actor : Actor
  free : Nat
  seq : Nat
  nextId : Nat
  timebase : Word
  cycles : Nat
  dram : Memory
  dramKey : Map Nat
  dramPoison : List Nat
  keySlots : Map Nat
  keyFresh : Nat
  colours : Map ColourEntry
  colourBase : Nat
  ringBase : Nat
  rings : Map Ring
  records : List EventRecord
  joins : List Join
  clusters : Map Cluster
  tiles : Map Tile
  slices : Map Slice
  stations : Map Station
  dies : Map Die
  requests : List Request
  net : List RingFlit
  served : Map Nat
  releases : List Release
  faultTokens : List FaultToken
  prefetches : List (Nat × Colour)
  bootStage : BitVec 4
  bootErr : BitVec 8
  stkfail : BitVec 8
  linksDown : List Nat
  linkSecret : BitVec 256
  hrefuseV : Bool
  hrefusePa : BitVec 52
  hcxl : BitVec 13
  wxbase : Word
  hwcol : Map Word
  ethUp : BitVec 8
  pwrcap : BitVec 12
  throttled : Bool
  thermtrip : Bool
  worldPages : Map WorldPage
  numVfs : Nat
  vfEnable : Bool
  vfHeld : Option Nat
  removals : List Nat
  functions : Map Function
  measures : Map Measurement
  ideKeys : Map Nat
  macsec : List MacsecSa
  frames : Map Nat
  replies : List HostReply
  ceCounts : Map Nat
  cePages : List (Nat × Nat)
  frozen : Map Frozen
  thawing : List FrozenTile
  debugStops : List Nat
  snaps : List SnapImage
  deriving DecidableEq, Repr

/-- Reasons for which the model stops. No meaning of the table needs one: every step of the manual has an
effect in this model. -/
inductive Fault where
  /-- Raised by nothing; kept so that the type has a value. Safe: the machine never stops here. -/
  | none
  deriving DecidableEq, Repr

/-- Reasons for which the model refuses a step. -/
inductive Refusal where
  /-- Raised by an arm of `exec` whose instruction has no meaning in the model. Safe: nothing is claimed. -/
  | notModelled (mnemonic : String)
  deriving DecidableEq, Repr

/-- Registers of a tile at reset: zero (log 1). -/
def FabRegs.reset : FabRegs := ⟨Vector.replicate 16 0, Vector.replicate 8 0, []⟩

/-- A slot at reset: the word is zero (03_formats.md R59), the counters and the rest are zero (log 1). -/
def Slot.reset : Slot :=
  { firedAt := 0, countedAt := 0, word := 0, ctx := none, pending := none, waitPlane := 0, waitFault := 0, waitQuota := 0,
    waitOutput := 0, waitOperand := 0, active := [], next := [], closed := [], chosen := [] }

/-- A tile at reset: TSBND.WORLD 0 and SPK 16 (08_tile_memory.md R157), TBPF 0 (21_faults_preemption.md
R383); the rest by log 1. -/
def Tile.reset : Tile :=
  { grantFrom := 3, gatherBank := 3, gatherCycle := 0, started := [], trail := [], tsWorld := 0, spk := 16, plane := 0, slots := [], store := [], reserved := [], scratch := [],
    full := [], poison := [], stash := [], pts := 0, tlb := [], regs := FabRegs.reset, saved := [],
    parked := [], refused := [], accesses := [], walks := [], touched := 0, vector := [], narrow := [],
    array := none, lastFired := Vector.replicate 6 0, spills := [], commits := [],
    tbpf := Vector.replicate 4 0, latch := none, resume := false, epochs := 0, received := [],
    receivedNew := [], sent := [], markers := [], savedFor := [], stall1 := 0, stall2 := 0, stall3 := 0, swap := none,
    restored := [], cecnt := 0, spare := false }

/-- A context at reset: idle, every register zero (14_control_core.md R276 where it states one, log 1
otherwise). -/
def Context.reset : Context :=
  { regs := Vector.replicate 32 0, pc := 0, running := false, tm := false, queue := 0, colour := 0,
    world := 0, trapCode := 0, trapFcode := 0, trapCause := 0, epc := 0, tval := 0, tvec := 0,
    scratch := 0, stsValue := 0, stsStatus := 0, mminva := 0, mmBad := false, mmBusy := false, mmMode := 0,
    mmStatus := 0, mmPages := 0, mmColour := 0, mmDone := false, park := .none, released := false,
    armed := false, since := 0, pts := 0, leases := [], touched := 0 }

/-- An empty continuation queue. -/
def Queue.reset : Queue := ⟨[], [], 0⟩

/-- A cluster at reset: MSHCTL (07_network.md R147), CCEN (14_control_core.md R303), the previous winner of
each level (16_scheduling.md R311); the rest empty (log 1). -/
def Cluster.reset : Cluster :=
  { ctxs := Vector.replicate 8 Context.reset, lastIssued := 7, issuedAt := 0, poppedAt := 0, mshErr := false, promo := 64, wgt1 := 1,
    wgt0 := 1, ccen := 0xFF, lcBusy := false, lcStatus := 0, lcCtx := 0,
    queues := Vector.replicate 16 Queue.reset, lastWin := Vector.replicate 4 3, launches := [],
    ports := [], bindings := [], lastAdmitted := [], reorders := [], cards := [], arrivals := [],
    flits := [], exits := [], credits := [], returned := [], routers := [], markers := [], splices := [], asks := [],
    pendingKeys := [], deliveries := [], fills := [], snapshots := [], tlb := [], l2tlb := [],
    spares := 4 }

/-- A slice at reset: no line, every way unassigned (06_slices.md R127, R129). -/
def Slice.reset : Slice :=
  { lines := [], mts := Vector.replicate 4 0, misses := [], conflicts := [], writeBacks := [],
    ways := [], wayErr := false, wayFreeze := false, wayOwner := [], shadow := [], shadowHits := [],
    shadowMiss := [], epochs := 0, holds := [], groupQueue := [], asks := [], pushes := [], bankOff := 0 }

/-- The reset value of SLWAYn (R127): CEIL 16, the rest 0. -/
def WayReg.reset : WayReg := ⟨0, 16, 0⟩

/-- A station at reset (07_network.md R156). -/
def Station.reset : Station := ⟨[], [], [], [], []⟩

/-- A die at reset: RLCFG WEXP 24 and N 4 (25_reliability.md R411), the other registers 0. -/
def Die.reset : Die :=
  { cqpool := 0, pgBase := 0, pgEn := false, otBase := 0, otEn := false, ktBase := 0, ktLog2b := 0,
    ktEn := false, ohbase := [], ohsize := [], snap := [], rlErr := false, rlWexp := 24, rlN := 4,
    fmlib := [], objects := [], keys := [], pager := [], emptied := [], cfgreqs := [], libs := [] }

/-- A colour at reset: FREE, every field zero (05_main_memory.md R103); the limits at the defaults of
01_notation.md R19. -/
def ColourEntry.reset : ColourEntry :=
  { state := .free, world := 0, kshare := 0, root := 0, floor := 0, age := 0, spill := false,
    spillBase := none, ring := none, poisoned := false, dropped := false }

/-- A ring descriptor at reset (09_block_transfer.md R188). -/
def Ring.reset : Ring :=
  { consa := 0, base := 0, prod := 0, lost := 0, colour := 0, world := 0, log2n := 0, notify := false,
    en := false, vec := 0, cons := 0, dropped := false }

/-- A free object-table entry (19_objects.md R353). -/
def ObjectEntry.reset : ObjectEntry :=
  { keyp := 0, touch := 0, pin := 0, weak := 0, strong := 0, gen := 0, prio := 0, state := .free,
    pfen := false, pfcol := 0, world := 0, hdie := 0, size := 0, base := 0 }

/-- A world page at reset (24_trust.md R395). -/
def WorldPage.reset : WorldPage := ⟨0, 0, 0, false, 0, 0, 0⟩

/-- A function at reset: nothing masked or pending, no session (log 1). -/
def Function.reset : Function := ⟨[], [], .configUnlocked, false, false, false, none⟩

/-- A measurement at reset (24_trust.md R402). -/
def Measurement.reset : Measurement := ⟨0, 0⟩

/-- The machine right after reset. Tables list nothing, and an unlisted item stands at its own reset value
above; PWRCAP is 1800 (26_host_and_package.md R424). -/
def State.reset : State :=
  { agenda := [], actor := ⟨0, 0, 0, 0⟩, free := 0, seq := 0, nextId := 0, timebase := 0, cycles := 0,
    dram := [], dramKey := [], dramPoison := [], keySlots := [], keyFresh := 1, colours := [], colourBase := 2 ^ 39 - 2 ^ 22, ringBase := 2 ^ 39 - 2 ^ 21, rings := [],
    records := [], joins := [], clusters := [], tiles := [], slices := [], stations := [], dies := [], requests := [], net := [], served := [],
    releases := [], faultTokens := [], prefetches := [], bootStage := 0, bootErr := 0, stkfail := 0,
    linksDown := [], linkSecret := 0, hrefuseV := false, hrefusePa := 0, hcxl := 0,
    wxbase := 0, hwcol := [], ethUp := 0, pwrcap := 1800, throttled := false, thermtrip := false,
    worldPages := [], numVfs := 0, vfEnable := false, vfHeld := none, removals := [], functions := [],
    measures := [], ideKeys := [], macsec := [], frames := [], replies := [], ceCounts := [],
    cePages := [], frozen := [], thawing := [], debugStops := [], snaps := [] }

end Sys2Proof.Machine
end

