-- ==== Sys2Proof/Machine/Memory.lean ====
section
/-!
DEFINITION. Sparse tables and byte memories: reading an unlisted item gives a default, writing keeps the
keys in rising order. A byte memory lists no byte equal to what an unlisted address reads as (log 2), so
equal memories are equal lists.
-/
namespace Sys2Proof.Machine

/-- The value at a key, where the table lists one. -/
def Map.get? {α : Type} : Map α → Nat → Option α
  | [], _ => none
  | (k, v) :: r, n => if k = n then some v else Map.get? r n
/-- The value at a key, or the default. -/
def Map.get {α : Type} (m : Map α) (n : Nat) (d : α) : α := (Map.get? m n).getD d
/-- Writes a value at a key. -/
def Map.put {α : Type} : Map α → Nat → α → Map α
  | [], n, x => [(n, x)]
  | (k, v) :: r, n, x =>
    if n < k then (n, x) :: (k, v) :: r
    else if n = k then (n, x) :: r
    else (k, v) :: Map.put r n x
/-- Removes a key. -/
def Map.del {α : Type} : Map α → Nat → Map α
  | [], _ => []
  | (k, v) :: r, n => if k = n then r else (k, v) :: Map.del r n
/-- The lowest key from `n` on, below `n + fuel`, that the table does not list. -/
def Map.lowestFree {α : Type} (m : Map α) : Nat → Nat → Option Nat
  | 0, _ => none
  | k + 1, n => if (Map.get? m n).isNone then some n else Map.lowestFree m k (n + 1)

/-- A set of naturals as a rising list: insertion. -/
def NatSet.insert : List Nat → Nat → List Nat
  | [], n => [n]
  | k :: r, n => if n < k then n :: k :: r else if n = k then k :: r else k :: NatSet.insert r n
/-- Removal. -/
def NatSet.erase (l : List Nat) (n : Nat) : List Nat := l.filter (· != n)

/-- What an address that nothing has written reads as (log 2). -/
def Memory.unlisted : Byte := 0

/-- Reads one byte. -/
def Memory.read : Memory → Nat → Byte
  | [], _ => Memory.unlisted
  | (k, v) :: r, a => if k = a then v else Memory.read r a
/-- Writes one byte; writing the unlisted value removes the entry. -/
def Memory.write : Memory → Nat → Byte → Memory
  | [], a, b => if b = Memory.unlisted then [] else [(a, b)]
  | (k, v) :: r, a, b =>
    if a < k then (if b = Memory.unlisted then (k, v) :: r else (a, b) :: (k, v) :: r)
    else if a = k then (if b = Memory.unlisted then r else (a, b) :: r)
    else (k, v) :: Memory.write r a b

/-- Every address of a memory lies above `n`, rising, and no entry is the unlisted byte. -/
def Memory.wfFrom : Nat → Memory → Bool
  | _, [] => true
  | n, (k, v) :: r => n ≤ k && v != Memory.unlisted && Memory.wfFrom (k + 1) r
/-- The canonical form. -/
def Memory.wf (m : Memory) : Bool := Memory.wfFrom 0 m

/-- Reads `n` bytes from `a` upward. -/
def Memory.readBytes (m : Memory) (a : Nat) : Nat → List Byte
  | 0 => []
  | n + 1 => Memory.read m a :: Memory.readBytes m (a + 1) n
/-- Writes bytes from `a` upward. -/
def Memory.writeBytes (m : Memory) (a : Nat) : List Byte → Memory
  | [] => m
  | b :: bs => Memory.writeBytes (Memory.write m a b) (a + 1) bs
/-- Writes (offset, byte) pairs above `a`. -/
def Memory.writePairs (m : Memory) (a : Nat) : List (Nat × Byte) → Memory
  | [] => m
  | p :: ps => Memory.writePairs (Memory.write m (a + p.1) p.2) a ps

/-- The number that bytes hold, the first lowest (01_notation.md R21). -/
def bytesNat : List Byte → Nat
  | [] => 0
  | b :: bs => b.toNat + 256 * bytesNat bs
/-- `n` bytes of a number, the lowest first. -/
def natBytes : Nat → Nat → List Byte
  | 0, _ => []
  | n + 1, x => BitVec.ofNat 8 x :: natBytes n (x / 256)
/-- (offset, byte) pairs of bytes that start at an offset. -/
def pairsAt (off : Nat) : List Byte → List (Nat × Byte)
  | [] => []
  | b :: bs => (off, b) :: pairsAt (off + 1) bs
/-- Bits `hi` to `lo` of a number. -/
def bits (w hi lo : Nat) : Nat := (w / 2 ^ lo) % 2 ^ (hi - lo + 1)

/-- Places a field in a register. -/
def fieldAt (v lo : Nat) : Nat := v * 2 ^ lo
/-- A flag as a bit. -/
def flagAt (b : Bool) (lo : Nat) : Nat := if b then 2 ^ lo else 0

/-- Byte `i` of a line. -/
def lineByte (d : BitVec 2048) (i : Nat) : Byte := d.extractLsb' (8 * i) 8
/-- `n` bytes of a line from `off`. -/
def lineBytes (d : BitVec 2048) (off : Nat) : Nat → List Byte
  | 0 => []
  | n + 1 => lineByte d off :: lineBytes d (off + 1) n
/-- A line with one byte replaced. -/
def lineSetByte (d : BitVec 2048) (i : Nat) (b : Byte) : BitVec 2048 :=
  (d &&& ~~~((255 : BitVec 2048) <<< (8 * i))) ||| ((b.setWidth 2048) <<< (8 * i))
/-- A line with bytes replaced. -/
def lineSet (d : BitVec 2048) (ps : List (Nat × Byte)) : BitVec 2048 :=
  ps.foldl (fun d p => lineSetByte d p.1 p.2) d
/-- Unit `u` (64 bytes) of a line. -/
def lineUnit (d : BitVec 2048) (u : Nat) : BitVec 512 := d.extractLsb' (512 * u) 512
/-- A line of four units. -/
def lineOfUnits (g : Nat → BitVec 512) : BitVec 2048 :=
  (g 3 ++ g 2 ++ g 1 ++ g 0 : BitVec (512 + 512 + 512 + 512)).setWidth 2048
/-- The units that bytes touch. -/
def unitsOf (ps : List (Nat × Byte)) : BitVec 4 :=
  BitVec.ofNat 4 ((List.range 4).foldl
    (fun acc u => acc + (if ps.any fun p => p.1 / 64 = u then 2 ^ u else 0)) 0)
/-- Whether bytes cover every byte of a unit. -/
def coversUnit (ps : List (Nat × Byte)) (u : Nat) : Bool :=
  (List.range 64).all fun i => ps.any fun p => p.1 = 64 * u + i
/-- Poison of a line's units after a write: set by poisoned data, cleared where unpoisoned data covers
the unit (25_reliability.md R410). -/
def poisonAfter (old : BitVec 4) (ps : List (Nat × Byte)) (poison : Bool) : BitVec 4 :=
  if poison then old ||| unitsOf ps
  else BitVec.ofNat 4 ((List.range 4).foldl
    (fun acc u => acc + (if old.getLsbD u && !coversUnit ps u then 2 ^ u else 0)) 0)

end Sys2Proof.Machine
end

