-- ==== Sys2Proof/Machine/Cipher.lean ====
section
/-!
DEFINITION. What DRAM holds of a unit: its ciphertext under AES-XTS-256 (05_main_memory.md R114). The manual names the cipher and
its tweak; the cipher itself is the published standard (log 114).
-/
namespace Sys2Proof.Cipher
open Sys2Proof.Machine

/-- Twice an element of the field of AES. -/
def dbl (x : Nat) : Nat := if x < 128 then 2 * x else (2 * x) ^^^ 0x11B
/-- The product of two elements, `fuel` bits of the second. -/
def prod : Nat → Nat → Nat → Nat
  | 0, _, _ => 0
  | n + 1, x, y => (if y % 2 = 1 then x else 0) ^^^ prod n (dbl x) (y / 2)
/-- The inverse of an element, zero for zero. -/
def recip (x : Nat) : Nat := ((List.range 256).find? fun y => prod 8 x y = 1).getD 0
/-- A byte rotated to the left. -/
def turn (x k : Nat) : Nat := x * 2 ^ k % 256 + x * 2 ^ k / 256
/-- The substitution of a byte. -/
def subst (x : Nat) : Nat :=
  let y := recip x
  y ^^^ turn y 1 ^^^ turn y 2 ^^^ turn y 3 ^^^ turn y 4 ^^^ 0x63
/-- Its inverse. -/
def unsubst (y : Nat) : Nat := ((List.range 256).find? fun x => subst x = y).getD 0
/-- Byte by byte, the exclusive OR. -/
def mix (a b : List Nat) : List Nat := List.zipWith (· ^^^ ·) a b
/-- Byte i of a block. -/
def at' (b : List Nat) (i : Nat) : Nat := b.getD i 0
/-- The rows of a block, four columns of four bytes, shifted by `k` times their number. -/
def rows (k : Nat) (b : List Nat) : List Nat := (List.range 16).map fun i => at' b ((i + k * (i % 4)) % 16)
/-- Every column multiplied by a polynomial. -/
def columns (p : List Nat) (b : List Nat) : List Nat :=
  (List.range 16).map fun i => (List.range 4).foldl (fun a j => a ^^^ prod 8 (at' b (i / 4 * 4 + (i + j) % 4)) (at' p j)) 0
/-- The words of the key schedule for a key of 32 bytes, `n` of them beyond the key, the latest first. -/
def schedule (key : List Nat) : Nat → List (List Nat)
  | 0 => (List.range 8).reverse.map fun i => (key.drop (4 * i)).take 4
  | n + 1 =>
    let ws := schedule key n
    let last := ws.getD 0 []
    let t :=
      if n % 8 = 0 then mix ((last.drop 1 ++ last.take 1).map subst) [(List.range (n / 8)).foldl (fun x _ => dbl x) 1, 0, 0, 0]
      else if n % 8 = 4 then last.map subst else last
    mix (ws.getD 7 []) t :: ws
/-- The fifteen round keys. -/
def roundKeys (key : List Nat) : List (List Nat) :=
  let ws := (schedule key 52).reverse
  (List.range 15).map fun r => ((ws.drop (4 * r)).take 4).flatten
/-- AES-256 of a block. -/
def encrypt (key b : List Nat) : List Nat :=
  let ks := roundKeys key
  (List.range 14).foldl (fun b r =>
    let c := rows 4 (b.map subst)
    mix (if r = 13 then c else columns [2, 3, 1, 1] c) (ks.getD (r + 1) [])) (mix b (ks.getD 0 []))
/-- Its inverse. -/
def decrypt (key b : List Nat) : List Nat :=
  let ks := roundKeys key
  (List.range 14).foldl (fun b r =>
    let c := mix b (ks.getD (14 - r) [])
    (rows 12 (if r = 0 then c else columns [14, 11, 13, 9] c)).map unsubst) b |> mix (ks.getD 0 [])

/-- The bytes of a number, the lowest first, as naturals. -/
def bytes (n x : Nat) : List Nat := (natBytes n x).map (·.toNat)
/-- The mask of block j of a data unit: the tweak enciphered, doubled j times. -/
def mask (t : List Nat) : Nat → Nat
  | 0 => bytesNat (t.map (BitVec.ofNat 8))
  | j + 1 => let m := mask t j; (2 * m) % 2 ^ 128 ^^^ (if m < 2 ^ 127 then 0 else 0x87)
/-- A unit of four blocks through XTS: its tweak is the unit's physical address (R114). -/
def xts (f : List Nat → List Nat → List Nat) (key : BitVec 512) (pa : Nat) (d : BitVec 512) : BitVec 512 :=
  let t := encrypt (bytes 32 (key.extractLsb' 256 256).toNat) (bytes 16 (pa % 2 ^ 52))
  let block := fun (j : Nat) =>
    let m := bytes 16 (mask t j)
    (mix (f (bytes 32 (key.extractLsb' 0 256).toNat) (mix (bytes 16 (d.extractLsb' (128 * j) 128).toNat) m)) m).map (BitVec.ofNat 8)
  BitVec.ofNat 512 (bytesNat ((List.range 4).flatMap block))
/-- The ciphertext of a unit. -/
def enciphered (key : BitVec 512) (pa : Nat) (d : BitVec 512) : BitVec 512 := xts encrypt key pa d
/-- The plaintext of a unit under a key. -/
def deciphered (key : BitVec 512) (pa : Nat) (d : BitVec 512) : BitVec 512 := xts decrypt key pa d

/-- The key of an identity: the all-zero key of reset (24_trust.md R394), or one that the security processor drew (log 6). -/
def keyOf (k : Nat) : BitVec 512 := if k = 0 then 0 else Config.drawnKey k

end Sys2Proof.Cipher
end

