-- ==== Sys2Proof/Machine/Access.lean ====
section
/-!
DEFINITION. Accessors of the state: each table item with its value at reset where nothing is listed, and
one update for each. Every other file of the machine reads and writes the state through these.
-/
namespace Sys2Proof.Machine

/-- Ticks of a logical clock since reset: one in 16 FCLK cycles (06_slices.md R123). -/
def State.ticks (s : State) : Word := BitVec.ofNat 64 (s.cycles / 16)
/-- SCLK cycles since reset: five for four of FCLK (00_scope.md R2). -/
def State.sclk (s : State) : Nat := 5 * s.cycles / 4
/-- A cluster on which nothing has acted yet: only its contexts' clocks have run on. -/
def Cluster.untouched (t : Word) : Cluster :=
  { Cluster.reset with ctxs := Vector.replicate 8 { Context.reset with pts := t } }
/-- A tile on which nothing has acted yet: only its clock has run on (R123). -/
def Tile.untouched (t : Word) : Tile := { Tile.reset with pts := t }
/-- A slice on which nothing has acted yet: epochs of no request have ended (06_slices.md R129). -/
def Slice.untouched (n : Nat) : Slice := { Slice.reset with epochs := n }
/-- A cluster. -/
def State.cluster (s : State) (ck : Nat) : Cluster := Map.get s.clusters ck (Cluster.untouched s.ticks)
/-- Updates a cluster. -/
def State.modCluster (s : State) (ck : Nat) (g : Cluster → Cluster) : State :=
  { s with clusters := Map.put s.clusters ck (g (s.cluster ck)) }
/-- A tile. -/
def State.tile (s : State) (tk : Nat) : Tile := Map.get s.tiles tk (Tile.untouched s.ticks)
/-- Updates a tile. -/
def State.modTile (s : State) (tk : Nat) (g : Tile → Tile) : State :=
  { s with tiles := Map.put s.tiles tk (g (s.tile tk)) }
/-- A slice. -/
def State.slice (s : State) (sk : Nat) : Slice := Map.get s.slices sk (Slice.untouched (s.sclk / 2 ^ 20))
/-- Updates a slice. -/
def State.modSlice (s : State) (sk : Nat) (g : Slice → Slice) : State :=
  { s with slices := Map.put s.slices sk (g (s.slice sk)) }
/-- A station. -/
def State.station (s : State) (st : Nat) : Station := Map.get s.stations st Station.reset
/-- Updates a station. -/
def State.modStation (s : State) (st : Nat) (g : Station → Station) : State :=
  { s with stations := Map.put s.stations st (g (s.station st)) }
/-- A die. -/
def State.die (s : State) (d : Nat) : Die := Map.get s.dies d Die.reset
/-- Updates a die. -/
def State.modDie (s : State) (d : Nat) (g : Die → Die) : State :=
  { s with dies := Map.put s.dies d (g (s.die d)) }
/-- A colour's entry. -/
def State.colour (s : State) (c : Colour) : ColourEntry := Map.get s.colours c.toNat ColourEntry.reset
/-- Updates a colour's entry. -/
def State.modColour (s : State) (c : Colour) (g : ColourEntry → ColourEntry) : State :=
  { s with colours := Map.put s.colours c.toNat (g (s.colour c)) }
/-- A function's host-link state. -/
def State.function (s : State) (fn : Nat) : Function := Map.get s.functions fn Function.reset
/-- Updates a function's host-link state. -/
def State.modFunction (s : State) (fn : Nat) (g : Function → Function) : State :=
  { s with functions := Map.put s.functions fn (g (s.function fn)) }
/-- A world page. -/
def State.worldPage (s : State) (w : Nat) : WorldPage := Map.get s.worldPages w WorldPage.reset
/-- Updates a world page. -/
def State.modWorldPage (s : State) (w : Nat) (g : WorldPage → WorldPage) : State :=
  { s with worldPages := Map.put s.worldPages w (g (s.worldPage w)) }
/-- A measurement. -/
def State.measure (s : State) (n : Nat) : Measurement := Map.get s.measures n Measurement.reset

/-- A context of a cluster. -/
def Cluster.context (c : Cluster) (x : Nat) : Context := c.ctxs.getD x Context.reset
/-- Updates a context of a cluster. -/
def Cluster.modContext (c : Cluster) (x : Nat) (g : Context → Context) : Cluster :=
  { c with ctxs := c.ctxs.setIfInBounds x (g (c.context x)) }
/-- A context. -/
def State.context (s : State) (ck x : Nat) : Context := (s.cluster ck).context x
/-- Updates a context. -/
def State.modContext (s : State) (ck x : Nat) (g : Context → Context) : State :=
  s.modCluster ck fun c => c.modContext x g
/-- The context that performs the step. -/
def State.me (s : State) : Context := s.context s.actor.ck s.actor.ctx
/-- Updates the context that performs the step. -/
def State.modMe (s : State) (g : Context → Context) : State := s.modContext s.actor.ck s.actor.ctx g
/-- The cluster of the context that performs the step. -/
def State.myCluster (s : State) : Cluster := s.cluster s.actor.ck
/-- Updates the cluster of the context that performs the step. -/
def State.modMyCluster (s : State) (g : Cluster → Cluster) : State := s.modCluster s.actor.ck g
/-- The tile that performs the step. -/
def State.myTile (s : State) : Tile := s.tile s.actor.tk
/-- Updates the tile that performs the step. -/
def State.modMyTile (s : State) (g : Tile → Tile) : State := s.modTile s.actor.tk g

/-- A slot of a tile: 64 * plane + slot. -/
def Tile.slot (t : Tile) (k : Nat) : Slot := Map.get t.slots k Slot.reset
/-- Updates a slot. -/
def Tile.modSlot (t : Tile) (k : Nat) (g : Slot → Slot) : Tile :=
  { t with slots := Map.put t.slots k (g (t.slot k)) }

/-- The cluster of a tile. -/
def ckOf (tk : Nat) : Nat := tk / 192
/-- The tile's index 16y + x in its cluster. -/
def tiOf (tk : Nat) : Nat := tk % 192
/-- The die of a cluster. -/
def dieOf (ck : Nat) : Nat := ck / 16
/-- The tile at (x, y) of a cluster. -/
def tkAt (ck x y : Nat) : Nat := 192 * ck + 16 * y + x
/-- A colour as its number. -/
def colourOf (n : Nat) : Colour := BitVec.ofNat 9 n
/-- A key of tables indexed by colour and context. -/
def colourCtx (c : Colour) (ctx : Nat) : Nat := 2048 * c.toNat + ctx

/-- A launch context of a cluster, where it is not FREE. -/
def State.launch? (s : State) (ck ctx : Nat) : Option Launch := Map.get? (s.cluster ck).launches ctx
/-- Updates a launch context that is not FREE. -/
def State.modLaunch (s : State) (ck ctx : Nat) (g : Launch → Launch) : State :=
  match s.launch? ck ctx with
  | none => s
  | some l => s.modCluster ck fun c => { c with launches := Map.put c.launches ctx (g l) }
/-- Takes the next identity. -/
def State.newId (s : State) : State × Nat := ({ s with nextId := s.nextId + 1 }, s.nextId)
/-- Takes the next arrival number (log 19). -/
def State.newSeq (s : State) : State × Nat := ({ s with seq := s.seq + 1 }, s.seq)
/-- Takes the next free value's number (log 18). -/
def State.newFree (s : State) : State × Nat := ({ s with free := s.free + 1 }, s.free)

/-- The 64 bits of a tag (02_tokens.md R28). -/
def Tag.toWord (t : Tag) : Word := t.colour ++ t.ctx ++ t.slot ++ t.port ++ t.level ++ t.iter
/-- The tag of 64 bits (R28). -/
def Tag.ofWord (w : Word) : Tag :=
  { colour := w.extractLsb' 55 9, ctx := w.extractLsb' 44 11, slot := w.extractLsb' 38 6,
    port := w.extractLsb' 36 2, level := w.extractLsb' 32 4, iter := w.extractLsb' 0 32 }
/-- Equal COLOUR, CTX, LEVEL and ITER: the match of the firing rule (R43). -/
def Tag.same (a b : Tag) : Bool :=
  a.colour = b.colour && a.ctx = b.ctx && a.level = b.level && a.iter = b.iter
/-- The code of a port (R28). -/
def portCode : Port → BitVec 2
  | .l => 0 | .r => 1 | .g => 2 | .c => 3

end Sys2Proof.Machine
end

