-- ==== Sys2Proof/Machine/Net.lean ====
section
/-!
DEFINITION. The ring network (07_network.md R148 to R153, R156): stops, routes, the buffers of stops and stations, the
hub crossbars, which flit moves in an NCLK cycle, and the traffic counters of the stations.
-/
namespace Sys2Proof.Machine

/-- The stop of a cluster's edge: pair 0 north, 1 south (R148). -/
def clusterStop (ck pair : Nat) : NetGoal := .stop (ck / 4) pair ([1, 4, 9, 12].getD (ck % 4) 0)
/-- The stop of a slice (R148; 06_slices.md R120). -/
def sliceStop (sk : Nat) : NetGoal := .stop (sk / 16) (sk % 16 / 8) ([2, 3, 5, 6, 10, 11, 13, 14].getD (sk % 8) 0)
/-- The stack port of a physical address, or the hub die for CXL.mem (00_scope.md R3; 05_main_memory.md R99, R101). -/
def memoryPort (pa : Nat) : NetGoal := if pa < 2 ^ 39 then .stack (pa / 2 ^ 37) (pa / 2 ^ 36 % 2) else .hubDie
/-- The stop at which a slice's and a cluster's traffic with a place outside the quadrant pair leaves the ring: ST2 towards
another quadrant of the die, ST3 otherwise (R150). -/
def st2Stop : Nat := 7
/-- See `st2Stop`. -/
def st3Stop : Nat := 8
/-- The pair of a goal in a quadrant. -/
def NetGoal.pair : NetGoal → Nat | .stop _ p _ => p | _ => 0
/-- The stop of a goal in its pair. -/
def NetGoal.index : NetGoal → Nat | .stop _ _ i => i | _ => 0
/-- The die of a goal, where it lies on one. -/
def NetGoal.die? : NetGoal → Option Nat | .stop q _ _ => some (q / 4) | .stack d _ => some d | .hubDie => none
/-- The stop at which a flit leaves a ring of pair p in quadrant q (R150): its destination stop, ST0 or ST1 to the other pair,
ST2 or ST3. -/
def leaveStop (q p : Nat) (src goal : NetGoal) : Nat :=
  match goal with
  | .stop q' p' i =>
    if q' = q then (if p' = p then i else if src.index < st2Stop then 0 else 15)
    else if q' / 4 = q / 4 then st2Stop else st3Stop
  | _ => st3Stop
/-- The ring of the pair with fewer stops to stop e, eastward on a tie (R148). -/
def ringDir (i e : Nat) : Nat := if (e + 16 - i) % 16 ≤ (i + 16 - e) % 16 then 0 else 1
/-- A flit that enters a pair at a stop. -/
def enterRing (q p i : Nat) (src goal : NetGoal) : NetPlace := .pass q p (ringDir i (leaveStop q p src goal)) i
/-- The output of a hub crossbar (R151): 0 to 3 the ST3 of a quadrant, 4 and 5 the stack ports, 6 the die of the same row, 7 the
die of the same column, 8 the hub die. -/
def hubOut (d : Nat) (goal : NetGoal) : Nat :=
  match goal with
  | .hubDie => if d < 2 then 8 else 7
  | .stack e p => if e = d then 4 + p else if e % 2 != d % 2 then 6 else 7
  | .stop q _ _ => if q / 4 = d then q % 4 else if q / 4 % 2 != d % 2 then 6 else 7
/-- The way round the die ring from quadrant q to q' (R150): output 2 clockwise, 3 the other way, clockwise on a tie (the order
of the four quadrants is 0, 1, 2, 3, log 21). -/
def dieRingOut (q q' : Nat) : Nat := if (q' + 4 - q) % 4 ≤ 2 then 2 else 3
/-- Where a flit goes from a place (R148 to R151); nothing where it has reached its goal there. -/
def nextPlace (src goal : NetGoal) : NetPlace → Option NetPlace
  | .source q p i => some (enterRing q p i src goal)
  | .pass q p d i =>
    let e := leaveStop q p src goal
    if i != e then some (.pass q p d (if d = 0 then (i + 1) % 16 else (i + 15) % 16))
    else if goal = .stop q p e then none
    else
      match goal with
      | .stop q' p' _ =>
        if q' = q then some (.station (4 * q + (if e = 0 then 0 else 1)) p')
        else if q' / 4 = q / 4 then some (.station (4 * q + 2) (dieRingOut (q % 4) (q' % 4)))
        else some (.station (4 * q + 3) 4)
      | _ => some (.station (4 * q + 3) 4)
  | .station st o =>
    let q := st / 4
    if o = 4 then some (.hub (q / 4) (hubOut (q / 4) goal))
    else if o < 2 then some (enterRing q o ([0, 15, st2Stop, st3Stop].getD (st % 4) 0) src goal)
    else
      let n := q / 4 * 4 + (if o = 2 then (q % 4 + 1) % 4 else (q % 4 + 3) % 4)
      match goal with
      | .stop q' p' _ => some (.station (4 * n + 2) (if q' = n then p' else o))
      | _ => some (.station (4 * n + 2) o)
  | .hub d o =>
    if o < 4 then some (.station (4 * (4 * d + o) + 3) goal.pair)
    else if o < 6 ∨ o = 8 then none
    else
      let e := if o = 6 then d ^^^ 1 else d ^^^ 2
      some (.hub e (hubOut e goal))
/-- The level of the network that a place belongs to or, at a station, that its output leads to (R152). -/
def NetPlace.level : NetPlace → Nat
  | .source _ p _ => p
  | .pass _ p _ _ => p
  | .station _ o => if o = 4 then 3 else if o < 2 then o else 2
  | .hub _ _ => 3
/-- The die-to-die link behind an output of a hub (log 21): 0 joins D0 and D1, 1 D2 and D3, 2 D0 and D2, 3 D1 and D3; 4 and 5
join D0 and D1 to the hub die. -/
def hubLink (d o : Nat) : Option Nat :=
  if o = 6 then some (d / 2) else if o = 7 then some (2 + d % 2) else if o = 8 then some (4 + d) else none

/-- The places that a flit passes, from its source on; `fuel` bounds them. -/
def routeFrom (src goal : NetGoal) : Nat → NetPlace → List NetPlace
  | 0, p => [p]
  | n + 1, p => p :: (match nextPlace src goal p with | none => [] | some q => routeFrom src goal n q)
/-- Where a flit of a goal's place begins. -/
def NetGoal.start (src goal : NetGoal) : NetPlace :=
  match src with
  | .stop q p i => .source q p i
  | .stack d _ => .hub d (hubOut d goal)
  | .hubDie =>
    let d := match goal.die? with | some e => e % 2 | none => 0
    .hub d (hubOut d goal)
/-- The whole route. -/
def route (src goal : NetGoal) : List NetPlace := routeFrom src goal 48 (src.start goal)
/-- The stations of a route (R156): numbers 16d + 4q + k. -/
def stationsOn (src goal : NetGoal) : List Nat :=
  (route src goal).filterMap fun p => match p with | .station st _ => some st | _ => none
/-- The die-to-die links of a route. -/
def linksOn (src goal : NetGoal) : List Nat :=
  (route src goal).filterMap fun p => match p with | .hub d o => hubLink d o | _ => none

/-- Counts the payload of a flit at a station (R156). -/
def Station.count (t : Station) (loc : Bool) (n : Nat) (c : Colour) (w : World) : Station :=
  let add := fun (m : Map Word) (k : Nat) => Map.put m k (Map.get m k 0 + BitVec.ofNat 64 n)
  let t := if loc then { t with loc := add t.loc w.toNat } else { t with xd := add t.xd w.toNat }
  (List.range 8).foldl (fun (t : Station) k =>
    let v := Map.get t.sel k 0
    if v.getLsbD 9 && v.extractLsb' 0 9 = c then
      (if loc then { t with cloc := add t.cloc k } else { t with cxd := add t.cxd k })
    else t) t
/-- A flit is local at a station where its source and destination lie on the station's die (R156). -/
def isLocal (st : Nat) (src goal : NetGoal) : Bool := src.die? = some (st / 16) && goal.die? = some (st / 16)
/-- Counts one flit of `units` valid units at every station of its way (R156). -/
def State.countFlit (s : State) (src goal : NetGoal) (units : Nat) (c : Colour) (w : World) : State :=
  (stationsOn src goal).foldl (fun s st => s.modStation st fun t => t.count (isLocal st src goal) (64 * units) c w) s
/-- The number of units set in a mask. -/
def unitCount (m : BitVec 4) : Nat := ((List.range 4).filter fun i => m.getLsbD i).length

/-- The number of flits of a class in a place. -/
def State.netCount (s : State) (p : NetPlace) (cls : Nat) (escape : Bool) : Nat :=
  (s.net.filter fun f => f.place = p && f.cls = cls && f.escape = escape).length
/-- Whether the ejection buffer of a slice's stop has room for a request: two wait there at most (R149; log 100), and group asks
stand there too until the slice takes them (06_slices.md R136). -/
def State.ejectRoom (s : State) (sk : Nat) : Bool := (s.requests.filter fun r => r.sk = sk).length + (s.slice sk).asks.length < 2
/-- Whether a flit may move to a place, and whether it takes an escape entry there (R149, R152): pass buffers hold two flits of
a class, a station's main buffer 16 of a class and output; an escape entry, of four, is taken only where the main buffer is full
and the flit rises to a higher level. -/
def State.netRoom (s : State) (f : RingFlit) : NetPlace → Option Bool
  | .source _ _ _ => some false
  | .hub _ _ => some false
  | .pass q p d i => if s.netCount (.pass q p d i) f.cls false < 2 then some false else none
  | .station st o =>
    if s.netCount (.station st o) f.cls false < 16 then some false
    else if f.place.level < (NetPlace.station st o).level ∧ s.netCount (.station st o) f.cls true < 4 then some true
    else none
/-- Whether a flit can leave its place now: it has stood there for a cycle, the link behind it is up (R152; 24_trust.md R404),
and there is room where it goes. -/
def State.netReady (s : State) (now : Nat) (f : RingFlit) : Bool :=
  f.enters < now &&
  (match f.place with
    | .hub d o => (hubLink d o).all fun l => !s.linksDown.contains l
    | _ => true) &&
  (match nextPlace f.src f.goal f.place with
    | some p => (s.netRoom f p).isSome
    | none => match f.cargo with | .request r => s.ejectRoom r.sk | .ask sk _ => s.ejectRoom sk | _ => true)
/-- The first flit of a class in a place. -/
def State.netHead (s : State) (p : NetPlace) (cls : Nat) : Option RingFlit := s.net.find? fun f => f.place = p && f.cls = cls
/-- A key for what a place has served last. -/
def NetPlace.key : NetPlace → Nat
  | .source q p i => 4 * (64 * (64 * q + p) + i)
  | .pass q p d i => 4 * (64 * (64 * q + 2 * p + d) + i) + 1
  | .station st o => 4 * (16 * st + o) + 2
  | .hub d o => 4 * (16 * d + o) + 3
/-- The class that a place serves (R149, R151): system first, then request and response in turn; one that cannot move lets the
other go. -/
def State.netPick (s : State) (now : Nat) (p : NetPlace) : Option RingFlit :=
  let can := fun c => (s.netHead p c).filter (s.netReady now)
  match can 2 with
  | some f => some f
  | none =>
    let first := 1 - Map.get s.served p.key 1
    match can first with
    | some f => some f
    | none => can (1 - first)
/-- Sends a flit into the network. -/
def State.netSend (s : State) (now cls : Nat) (src goal : NetGoal) (colour : Colour) (world : World) (units : BitVec 4)
    (cargo : NetCargo) : State :=
  { s with net := s.net ++ [⟨cls, src, goal, colour, world, units, src.start goal, false, now, cargo⟩] }
/-- Counts a flit that a station forwards (R156): the system class counts as colour 0 of world 0. -/
def State.netCounted (s : State) (f : RingFlit) : State :=
  match f.place with
  | .station st _ => s.modStation st fun t => t.count (isLocal st f.src f.goal) (64 * unitCount f.units)
      (if f.cls = 2 then 0 else f.colour) (if f.cls = 2 then 0 else f.world)
  | _ => s
/-- Moves the chosen flit of a place; one that has reached its goal leaves the network and is returned. -/
def State.netMove (s : State) (now : Nat) (p : NetPlace) : State × Option RingFlit :=
  match s.netPick now p with
  | none => (s, none)
  | some f =>
    let s := { s.netCounted f with net := s.net.erase f, served := Map.put s.served p.key (if f.cls = 2 then Map.get s.served p.key 1 else f.cls) }
    match nextPlace f.src f.goal f.place with
    | none => (s, some f)
    | some n => ({ s with net := s.net ++ [{ f with place := n, escape := (s.netRoom f n).getD false, enters := now }] }, none)

end Sys2Proof.Machine
end

