-- ==== Sys2Proof/Machine/Home.lean ====
section
/-!
DEFINITION. DRAM and its encryption (05_main_memory.md R98 to R101, R114 to R116), home slices and their
ordering points (06_slices.md R119 to R126, R129), and the traffic counters (07_network.md R156).
-/
namespace Sys2Proof.Machine

/-- The holder of key slots for an address: its stack's base die, or the CXL.mem requester, holder 8
(R99, R101). -/
def holderOf (pa : Nat) : Nat := if pa < 2 ^ 39 then pa / 2 ^ 36 else 8
/-- The identity of the key in a holder's slot; 0 is the all-zero key of reset (24_trust.md R394, log 6). -/
def State.keyIn (s : State) (holder : Nat) (c : Colour) : Nat := Map.get s.keySlots (512 * holder + c.toNat) 0
/-- The plaintext of the unit that DRAM holds. -/
def State.dramUnit (s : State) (u : Nat) : BitVec 512 :=
  BitVec.ofNat 512 (bytesNat (Memory.readBytes s.dram (64 * u) 64))
/-- The ciphertext that DRAM holds of a unit (R114): nothing where none has been written (log 2). -/
def State.cipherUnit (s : State) (u : Nat) : Option (BitVec 512) :=
  (Map.get? s.dramKey u).map fun w => Cipher.enciphered (Cipher.keyOf w) (64 * u) (s.dramUnit u)
/-- A unit as the base die returns it under a colour's key: deciphered by AES-XTS, which gives the plaintext back where the key is
the one that enciphered it (R114; log 6). -/
def State.readUnit (s : State) (u : Nat) (c : Colour) : BitVec 512 :=
  let d := s.dramUnit u
  let k := s.keyIn (holderOf (64 * u)) c
  match Map.get? s.dramKey u with
  | none => d
  | some w =>
    if w = k then d
    else Cipher.deciphered (Cipher.keyOf k) (64 * u) (Cipher.enciphered (Cipher.keyOf w) (64 * u) d)
/-- RDLINE at the base die: 256 bytes and their poison (R100). -/
def State.rdlineData (s : State) (pa : Nat) (c : Colour) : BitVec 2048 × BitVec 4 :=
  let u := pa / 64
  (lineOfUnits fun i => s.readUnit (u + i) c,
    BitVec.ofNat 4 ((List.range 4).foldl
      (fun acc i => acc + (if s.dramPoison.contains (u + i) then 2 ^ i else 0)) 0))
/-- Writes one unit under a colour's key (R100, R114). -/
def State.writeUnit (s : State) (u : Nat) (c : Colour) (d : BitVec 512) (poison : Bool) : State :=
  { s with
    dram := Memory.writeBytes s.dram (64 * u) (natBytes 64 d.toNat)
    dramKey := Map.put s.dramKey u (s.keyIn (holderOf (64 * u)) c)
    dramPoison := if poison then NatSet.insert s.dramPoison u else NatSet.erase s.dramPoison u }
/-- WRMASK at the base die: the units set in the mask (R100). -/
def State.writeUnits (s : State) (pa : Nat) (c : Colour) (units poison : BitVec 4) (d : BitVec 2048) : State :=
  (List.range 4).foldl (fun s i =>
    if units.getLsbD i then s.writeUnit (pa / 64 + i) c (lineUnit d i) (poison.getLsbD i) else s) s

/-- A bank of an address (R120). -/
def bankOf (pa : Nat) : Nat := bits pa 9 8
/-- A set of an address (R120). -/
def setOf (pa : Nat) : Nat := bits pa 15 10
/-- The hash of R120. -/
def hashOf (pa : Nat) : Nat :=
  bits pa 17 10 ^^^ bits pa 25 18 ^^^ bits pa 33 26 ^^^ bits pa 41 34 ^^^ bits pa 49 42 ^^^ bits pa 51 50
/-- The home slice of an address under a HOME and NEAR field (R106, R120). -/
def homeOf (home near pa : Nat) : Nat :=
  let h := hashOf pa
  if home = 0 then h % 256
  else if home ≤ 4 then 64 * (home - 1) + h % 64
  else if home ≤ 8 then 64 * (near / 16) + 16 * (home - 5) + h % 16
  else
    let i := h % 4
    let c := near % 4
    64 * (near / 16) + 16 * (near % 16 / 4) + (if i < 2 then 2 * c + i else 6 + 2 * c + i)

/-- A line of a slice. -/
def Slice.line? (l : Slice) (pa : Nat) : Option Line := l.lines.find? fun x => x.pa = pa / 256 * 256
/-- Whether a line's lock is held: by a miss, or by a write-back that the port has not accepted (R121). -/
def Slice.locked (l : Slice) (pa : Nat) : Bool :=
  l.misses.any (fun m => m.request.pa / 256 = pa / 256) ||
    l.writeBacks.any fun w => w.locks && w.pa = pa / 256 * 256
/-- Replaces a line. -/
def Slice.setLine (l : Slice) (x : Line) : Slice :=
  { l with lines := l.lines.map fun y => if y.pa = x.pa then x else y }
/-- Removes a line, raising its bank's MTS to its RTS (R123). -/
def Slice.evict (l : Slice) (x : Line) : Slice :=
  { l with
    lines := l.lines.filter fun y => y.pa != x.pa
    mts := l.mts.setIfInBounds (bankOf x.pa)
      (if (l.mts.getD (bankOf x.pa) 0).toNat < x.rts.toNat then x.rts else l.mts.getD (bankOf x.pa) 0) }
/-- Queues units of a line for the stack port, under the line's lock (R121). -/
def Slice.sendUnits (l : Slice) (x : Line) (units : BitVec 4) : Slice :=
  { l with writeBacks := l.writeBacks ++ [{ pa := x.pa, key := x.key, units := units, poison := x.poison, data := x.data
                                            locks := true, sent := false, asked := false, discarded := false }] }
/-- Queues a dirty line's write-back under its own key (R115, R122). -/
def Slice.queueBack (l : Slice) (x : Line) : Slice := if x.dirty = 0 then l else l.sendUnits x x.dirty

/-- The way that a line of world `w` takes, with the line it replaces, by the order of R122; nothing where
no way qualifies. -/
def Slice.pickWay (l : Slice) (pa w : Nat) : Option (Nat × Option Line) :=
  let here := l.lines.filter fun x => bankOf x.pa = bankOf pa && setOf x.pa = setOf pa
  let own := fun v => Map.get? l.wayOwner v
  let ways := List.range 16
  match ways.find? (fun v => (own v = some w || own v = none) && !here.any fun x => x.way = v) with
  | some v => some (v, none)
  | none =>
    match (ways.filterMap fun v => here.find? fun x => x.way = v && own v = some w && x.world.toNat != w).head? with
    | some x => some (x.way, some x)
    | none =>
      let lru := fun (xs : List Line) => xs.foldl (fun (b : Option Line) x =>
        match b with | none => some x | some y => if x.used < y.used then some x else b) none
      match lru (here.filter fun x => own x.way = some w && x.world.toNat = w) with
      | some x => some (x.way, some x)
      | none =>
        match lru (here.filter fun x => own x.way = none) with
        | some x => some (x.way, some x)
        | none => none

/-- The shadow-tag monitor of R129 sees a request of world `w` in sets 0 and 32. -/
def Slice.monitor (l : Slice) (pa w : Nat) : Slice :=
  if setOf pa != 0 && setOf pa != 32 then l
  else
    let k := 16 * (8 * w + 2 * bankOf pa + setOf pa / 32)
    let tags := Map.get l.shadow k []
    let t := pa / 256
    let l := { l with shadow := Map.put l.shadow k ((t :: tags.filter (· != t)).take 16) }
    match tags.findIdx? (· = t) with
    | some d =>
      let h := Map.get l.shadowHits (64 * w + d + 1) 0
      { l with shadowHits := Map.put l.shadowHits (64 * w + d + 1) (h + 1) }
    | none => { l with shadowMiss := Map.put l.shadowMiss w (Map.get l.shadowMiss w 0 + 1) }

/-- The base die takes every queued write-back of a line before it reads the line: it completes the
transactions to one line in order (R100). -/
def State.drainBacks (s : State) (sk pa : Nat) : State :=
  let mine := (s.slice sk).writeBacks.filter fun w => w.pa = pa / 256 * 256
  let s := mine.foldl (fun s w => s.writeUnits w.pa w.key w.units w.poison w.data) s
  s.modSlice sk fun l => { l with writeBacks := l.writeBacks.filter fun w => w.pa != pa / 256 * 256 }

/-- Installs a line that a fill returned, evicting by R122; `none` where the request is served in bypass
(R122; a retired bank, 25_reliability.md R412). -/
def State.install (s : State) (sk pa : Nat) (key : Colour) (world : World) (d : BitVec 2048)
    (poison : BitVec 4) : State × Option Line :=
  let l := s.slice sk
  if l.bankOff.getLsbD (bankOf pa) then (s, none)
  else
    match l.pickWay pa world.toNat with
    | none => (s, none)
    | some (way, victim) =>
      let l := match victim with | none => l | some x => (l.evict x).queueBack x
      let t := l.mts.getD (bankOf pa) 0
      let x : Line := ⟨pa / 256 * 256, key, world, way, s.seq, t, t, 0, poison, d⟩
      ({ s.modSlice sk (fun _ => { l with lines := x :: l.lines }) with seq := s.seq + 1 }, some x)

/-- RDLINE takes place: the base die has taken the queued write-backs of the line before; those that a discard has found may come
after it instead (R118; which is a free value, log 109). -/
def State.readOrder (s : State) (sk pa : Nat) : State :=
  if (s.slice sk).writeBacks.any fun w => w.pa = pa / 256 * 256 && w.discarded then
    let t := s.newFree
    if Config.readsFirst t.2 then t.1 else t.1.drainBacks sk pa
  else s.drainBacks sk pa
/-- A line that has come from the stack port (R122): installed, or served in bypass with MTS as its times (R123). -/
def State.filled (s : State) (sk pa : Nat) (key : Colour) (world : World) (d : BitVec 2048) (p : BitVec 4) : State × Line × Bool :=
  match s.install sk pa key world d p with
  | (s, some y) => (s, y, true)
  | (s, none) =>
    let t := (s.slice sk).mts.getD (bankOf pa) 0
    (s, ⟨pa / 256 * 256, key, world, 0, 0, t, t, 0, p, d⟩, false)
/-- The fill of an absent line (R100, R122). -/
def State.refill (s : State) (sk pa : Nat) (key : Colour) (world : World) : State × Line × Bool :=
  let s := s.readOrder sk pa
  let (d, p) := s.rdlineData (pa / 256 * 256) key
  s.filled sk pa key world d p
/-- The line of an address at its home, filled where it is absent: a present line of another owner is
written back and dropped first (R115). The Bool says whether the line is installed. -/
def State.obtain (s : State) (sk pa : Nat) (key : Colour) (world : World) : State × Line × Bool :=
  match (s.slice sk).line? pa with
  | some x =>
    if x.key = key then
      let x := { x with used := s.seq }
      ({ s.modSlice sk (fun l => l.setLine x) with seq := s.seq + 1 }, x, true)
    else (s.modSlice sk fun l => (l.evict x).queueBack x).refill sk pa key world
  | none => s.refill sk pa key world
/-- Whether a request would find its line present under its own key (a hit of R121). -/
def State.hits (s : State) (sk pa : Nat) (key : Colour) : Bool :=
  match (s.slice sk).line? pa with | some x => x.key = key | none => false

/-- The larger of two logical times. -/
def maxTime (a b : Word) : Word := if a.toNat < b.toNat then b else a
/-- The monitor of R129 sees a request. -/
def State.seen (s : State) (sk pa : Nat) (world : World) : State := s.modSlice sk fun l => l.monitor pa world.toNat
/-- One request at its ordering point: the monitor of R129 sees it, and its line is obtained. -/
def State.serve (s : State) (sk pa : Nat) (key : Colour) (world : World) : State × Line × Bool :=
  (s.seen sk pa world).obtain sk pa key world

/-- A leased read of an obtained line (R124): its data and poison, its WTS, the lease end and the
holder's new clock. -/
def State.leaseOf (t : State × Line × Bool) (sk : Nat) (pts : Word) : State × BitVec 2048 × BitVec 4 × Word × Word × Word :=
  let (s, x, inst) := t
  let pts := maxTime pts x.wts
  let fin := pts + 256
  let y := { x with rts := maxTime x.rts fin }
  (if inst then s.modSlice sk (fun l => l.setLine y) else s, x.data, x.poison, x.wts, fin, pts)
/-- A leased read at the ordering point (R124). -/
def State.leaseRead (s : State) (sk pa : Nat) (key : Colour) (world : World) (pts : Word) :
    State × BitVec 2048 × BitVec 4 × Word × Word × Word := State.leaseOf (s.serve sk pa key world) sk pts

/-- A read at the ordering point that takes no lease (R131, R177, R136). -/
def State.plainRead (s : State) (sk pa : Nat) (key : Colour) (world : World) :
    State × BitVec 2048 × BitVec 4 :=
  let (s, x, _) := s.serve sk pa key world
  (s, x.data, x.poison)

/-- A write or atomic to an obtained line (R125), one access: `g` gives the bytes written and their poison from what the line
held. Answers what it held and the writer's new clock. In bypass the write goes to the stack port by WRMASK, under the line's lock
(R122). -/
def State.updateOf (t : State × Line × Bool) (sk : Nat) (g : BitVec 2048 → BitVec 4 → List (Nat × Byte) × Bool) (pts : Word) :
    State × BitVec 2048 × BitVec 4 × Word :=
  let (s, x, inst) := t
  let w := maxTime pts (x.rts + 1)
  let ps := (g x.data x.poison).1
  let y := { x with
    data := lineSet x.data ps
    dirty := x.dirty ||| unitsOf ps
    poison := poisonAfter x.poison ps (g x.data x.poison).2
    wts := w
    rts := w }
  (s.modSlice sk fun l => if inst then l.setLine y else l.sendUnits y (unitsOf ps), x.data, x.poison, w)
/-- Whether TDISP has locked a world's settings (24_trust.md R400). -/
def State.tdispLocked (s : State) (w : Nat) : Bool :=
  2 ≤ w && ((s.function (w - 1)).tdisp = .configLocked || (s.function (w - 1)).tdisp = .run)
/-- Whether a byte belongs to a setting in memory that TDISP keeps a world from writing (24_trust.md R400): world 1 a locked world's
entries of the pool table (21_faults_preemption.md R372), world 0 its entries of the world-extent table (R393; log 127). -/
def State.lockedByte (s : State) (world : World) (a : Nat) : Bool :=
  if world = 0 then
    decide (s.wxbase.toNat ≤ a ∧ a < s.wxbase.toNat + 2 ^ 13) && s.tdispLocked ((a - s.wxbase.toNat) / 128)
  else
    world = 1 && s.dies.any fun e =>
      let base := e.2.pgBase.toNat * 2 ^ 14
      e.2.pgEn && decide (base ≤ a ∧ a < base + 2 ^ 14) && s.tdispLocked (s.colour (colourOf ((a - base) / 32))).world.toNat
/-- The bytes of a write that no lock has ignored. -/
def State.unlocked (s : State) (world : World) (pa : Nat) (ps : List (Nat × Byte)) : List (Nat × Byte) :=
  ps.filter fun p => !s.lockedByte world (pa / 256 * 256 + p.1)
/-- A write or atomic at the ordering point (R125). -/
def State.lineUpdate (s : State) (sk pa : Nat) (key : Colour) (world : World)
    (g : BitVec 2048 → BitVec 4 → List (Nat × Byte) × Bool) (pts : Word) : State × BitVec 2048 × BitVec 4 × Word :=
  State.updateOf (s.serve sk pa key world) sk (fun d p => (s.unlocked world pa (g d p).1, (g d p).2)) pts
/-- A write at the ordering point (R125): bytes of one line, and the writer's new clock. -/
def State.lineWrite (s : State) (sk pa : Nat) (key : Colour) (world : World) (ps : List (Nat × Byte))
    (poison : Bool) (pts : Word) : State × Word :=
  let r := s.lineUpdate sk pa key world (fun _ _ => (ps, poison)) pts
  (r.1, r.2.2.2)

/-- Drops the lines that satisfy a test without write-back (R113, R117); a write-back that was already queued still completes, without
the lock. -/
def Slice.discard (l : Slice) (g : Nat → Colour → Bool) : Slice :=
  let l := (l.lines.filter fun x => g x.pa x.key).foldl Slice.evict l
  { l with writeBacks := l.writeBacks.map fun w => if g w.pa w.key then { w with locks := false, discarded := true } else w }

/-- The byte that the package holds at a physical address: in whatever slice has the line, else in a queued
write-back, else in DRAM (log 7: the engines' own tables are read so). -/
def State.peek (s : State) (pa : Nat) : Byte :=
  match s.slices.findSome? (fun e => e.2.line? pa) with
  | some x => lineByte x.data (pa % 256)
  | none =>
    match s.slices.findSome? (fun e => e.2.writeBacks.reverse.find? fun w =>
        w.pa = pa / 256 * 256 && w.units.getLsbD (pa % 256 / 64)) with
    | some w => lineByte w.data (pa % 256)
    | none => Memory.read s.dram pa
/-- `n` bytes as the package holds them. -/
def State.peekNat (s : State) (pa n : Nat) : Nat := bytesNat ((List.range n).map fun i => s.peek (pa + i))
/-- Whether the unit of an address is poisoned where the package holds it. -/
def State.peekPoison (s : State) (pa : Nat) : Bool :=
  match s.slices.findSome? (fun e => e.2.line? pa) with
  | some x => x.poison.getLsbD (pa % 256 / 64)
  | none =>
    match s.slices.findSome? (fun e => e.2.writeBacks.reverse.find? fun w =>
        w.pa = pa / 256 * 256 && w.units.getLsbD (pa % 256 / 64)) with
    | some w => w.poison.getLsbD (pa % 256 / 64)
    | none => s.dramPoison.contains (pa / 64)
/-- A slice with one byte of a line changed in every copy that it has: its line, whose times move as for a write (R125), the
write-backs that it has queued, and what RDLINE has returned for a miss. -/
def Slice.pokeByte (l : Slice) (a : Nat) (b : Byte) : Slice :=
  let base := a / 256 * 256
  let here := unitsOf [(a % 256, b)]
  { l with
    lines := l.lines.map fun x => if x.pa = base then
      { x with data := lineSetByte x.data (a % 256) b, dirty := x.dirty ||| here, wts := x.rts + 1, rts := x.rts + 1 } else x
    writeBacks := l.writeBacks.map fun w => if w.pa = base then { w with data := lineSetByte w.data (a % 256) b } else w
    misses := l.misses.map fun m => if m.request.pa / 256 * 256 = base then
      { m with data := m.data.map fun d => (lineSetByte d.1 (a % 256) b, d.2) } else m }
/-- Changes bytes wherever the package holds them, in DRAM where no slice has their line (log 7): a unit that nothing has written
yet is then encrypted under the key of colour 0 (R114). -/
def State.poke (s : State) (pa : Nat) (bs : List Byte) : State :=
  (pairsAt 0 bs).foldl (fun s p =>
    let a := pa + p.1
    let held := s.slices.any fun e => (e.2.line? a).isSome
    let s := { s with slices := s.slices.map fun e => (e.1, e.2.pokeByte a p.2) }
    if held then s
    else { s with
      dram := Memory.write s.dram a p.2
      dramKey := if (Map.get? s.dramKey (a / 64)).isSome then s.dramKey else Map.put s.dramKey (a / 64) (s.keyIn (holderOf a) 0) }) s

/-- Where the ring table lies (09_block_transfer.md R188). -/
def State.ringAt (s : State) (n : Nat) : Nat := s.ringBase + 32 * n
/-- The fields of a descriptor's 256 bits (R188), with what the event unit keeps of the ring. -/
def Ring.ofNat (e n : Nat) (u : Ring) : Ring :=
  { u with
    consa := BitVec.ofNat 64 (bits e 255 192), base := BitVec.ofNat 64 (bits e 191 128), prod := BitVec.ofNat 32 (bits e 127 96)
    lost := BitVec.ofNat 16 (bits e 95 80), colour := BitVec.ofNat 9 (bits e 31 23)
    world := if n < 64 then BitVec.ofNat 6 n else BitVec.ofNat 6 (bits e 22 17)
    log2n := BitVec.ofNat 5 (bits e 16 12), notify := bits e 2 2 = 1, en := bits e 1 1 = 1 }
/-- A descriptor's 256 bits (R188). -/
def Ring.toNat (r : Ring) : Nat :=
  fieldAt r.consa.toNat 192 + fieldAt r.base.toNat 128 + fieldAt r.prod.toNat 96 + fieldAt r.lost.toNat 80 +
  fieldAt r.colour.toNat 23 + fieldAt r.world.toNat 17 + fieldAt r.log2n.toNat 12 + flagAt r.notify 2 + flagAt r.en 1
/-- A ring descriptor as the table in memory holds it, which world 0 writes by stores (R188); ring w below 64 is world w's own
ring. -/
def State.ring (s : State) (n : Nat) : Ring := Ring.ofNat (s.peekNat (s.ringAt n) 32) n (Map.get s.rings n Ring.reset)
/-- Updates a ring descriptor. -/
def State.modRing (s : State) (n : Nat) (g : Ring → Ring) : State :=
  let r := g (s.ring n)
  { s.poke (s.ringAt n) (natBytes 32 r.toNat) with
    rings := Map.put s.rings n { Ring.reset with vec := r.vec, cons := r.cons, dropped := r.dropped } }
/-- A colour's 256 bits in the colour table (05_main_memory.md R103). -/
def ColourEntry.toNat (e : ColourEntry) : Nat :=
  fieldAt e.kshare.toNat 87 + fieldAt e.world.toNat 81 +
  fieldAt (match e.state with | .free => 0 | .live => 1 | .retiring => 2) 78 + fieldAt e.root.toNat 14
/-- Updates a colour's entry of the colour table, as the colour-allocation path does (R103): the entry's bytes stand in memory. -/
def State.setColour (s : State) (c : Colour) (g : ColourEntry → ColourEntry) : State :=
  let s := s.modColour c g
  s.poke (s.colourBase + 32 * c.toNat) (natBytes 32 (s.colour c).toNat)

/-- The stop from which the engines and the control core of a cluster reach a slice: the slice's own pair in their quadrant, the
north pair otherwise (the manual names no edge for them, log 101). -/
def engineStop (ck sk : Nat) : NetGoal := clusterStop ck (if ck / 4 = sk / 16 then sk % 16 / 8 else 0)
/-- Whether a link that is down lies between a place on the rings and a slice, on the way there or back: flits are held before it
(R152; 24_trust.md R404). -/
def State.cutFrom (s : State) (p : NetGoal) (sk : Nat) : Bool :=
  s.linksDown != [] && (linksOn p (sliceStop sk) ++ linksOn (sliceStop sk) p).any fun l => s.linksDown.contains l
/-- Whether a link that is down lies between a cluster and a slice. -/
def State.cut (s : State) (ck sk : Nat) : Bool := s.cutFrom (engineStop ck sk) sk
/-- Requests that a bank's conflict queue holds (R121). -/
def Slice.queued (l : Slice) (pa : Nat) : Nat := (l.conflicts.filter fun x => bankOf x.pa = bankOf pa).length
/-- Whether a request to a line has to wait (R121): the line is locked, an earlier request waits for its lock, or the bank refuses
the class because its conflict queue is full. -/
def Slice.waits (l : Slice) (pa : Nat) : Bool :=
  l.locked pa || l.conflicts.any (fun r => r.pa / 256 = pa / 256) || decide (16 ≤ l.queued pa)
/-- Whether an access of a cluster's agent to a line has to wait: the line is not free for it, or a link is down. -/
def State.lineBusy (s : State) (ck sk pa : Nat) : Bool := (s.slice sk).waits pa || s.cut ck sk
/-- Counts an access to a slice from a place on the rings: the request with `out` valid units, and the answer with `back` (R156). -/
def State.countFrom (s : State) (p : NetGoal) (sk out back : Nat) (c : Colour) (w : World) : State :=
  (s.countFlit p (sliceStop sk) out c w).countFlit (sliceStop sk) p back c w
/-- Counts an access of a cluster's engine or control core to a slice. -/
def State.countAccess (s : State) (ck sk out back : Nat) (c : Colour) (w : World) : State :=
  s.countFrom (engineStop ck sk) sk out back c w

end Sys2Proof.Machine
end

