-- ==== Sys2Proof/Machine/Ops.lean ====
section
/-!
DEFINITION. The named operations that the control core, the engines and the tiles share: registers and
CCSTS (14_control_core.md R272, R276, R277), event records (09_block_transfer.md R188 to R190), address
translation (05_main_memory.md R102 to R108), parking and traps (14_control_core.md R278, R279), releases
(07_network.md R155) and acquires (06_slices.md R124).
-/
namespace Sys2Proof.Machine

/-- Fault codes (05_main_memory.md R107, 08_tile_memory.md R160, 12_ops_memory.md R234, 21_faults_preemption.md
R369). -/
def codeNotMapped : Nat := 0x10
/-- PTE_FORMAT. -/
def codePteFormat : Nat := 0x11
/-- HOME_CONFLICT. -/
def codeHomeConflict : Nat := 0x12
/-- PERM. -/
def codePerm : Nat := 0x13
/-- VA_RANGE. -/
def codeVaRange : Nat := 0x14
/-- PA_RANGE. -/
def codePaRange : Nat := 0x15
/-- COLOUR_STATE. -/
def codeColourState : Nat := 0x16
/-- SP_RANGE. -/
def codeSpRange : Nat := 0x18
/-- SP_WORLD. -/
def codeSpWorld : Nat := 0x19
/-- CBUF_STATE. -/
def codeCbuf : Nat := 0x1A
/-- ALIGN. -/
def codeAlign : Nat := 0x1B
/-- FE_SPACE. -/
def codeFeSpace : Nat := 0x1C
/-- HANDLE_FORM. -/
def codeHandleForm : Nat := 0x1D
/-- OBJ_STALE. -/
def codeObjStale : Nat := 0x1E
/-- OBJ_RANGE. -/
def codeObjRange : Nat := 0x1F
/-- OBJ_COUNT. -/
def codeObjCount : Nat := 0x20
/-- MX_OPERAND. -/
def codeMx : Nat := 0x21
/-- KV_FORM. -/
def codeKvForm : Nat := 0x22
/-- KV_OWNER. -/
def codeKvOwner : Nat := 0x23
/-- KV_RANGE. -/
def codeKvRange : Nat := 0x24
/-- COLOUR_POISONED. -/
def codeColourPoisoned : Nat := 0x28
/-- POISON. -/
def codePoison : Nat := 0x2A

/-- Reads register r; x0 reads zero (R272). -/
def Context.reg (c : Context) (r : Reg) : Word := if r = 0 then 0 else c.regs.getD r.toNat 0
/-- Writes register r; a write to x0 is discarded (R272). -/
def Context.setReg (c : Context) (r : Reg) (v : Word) : Context :=
  if r = 0 then c else { c with regs := c.regs.setIfInBounds r.toNat v }
/-- Reads a register of the acting context. -/
def State.reg (s : State) (r : Reg) : Word := s.me.reg r
/-- Writes a register of the acting context. -/
def State.setReg (s : State) (r : Reg) (v : Word) : State := s.modMe fun c => c.setReg r v
/-- Moves past the instruction; its release, if any, is over. -/
def State.advance (s : State) : State :=
  s.modMe fun c => { c with pc := c.pc + 8, released := false, armed := false, park := .none }
/-- Sets PC. -/
def State.jump (s : State) (pc : Word) : State :=
  s.modMe fun c => { c with pc := pc, released := false, armed := false, park := .none }
/-- Parks the acting context: the instruction is issued again once it no longer waits. -/
def State.parkMe (s : State) (p : Park) : State := s.modMe fun c => { c with park := p }
/-- An instruction that writes one register and moves on. -/
def State.finish (s : State) (r : Reg) (v : Word) : State := (s.setReg r v).advance
/-- Reports in CCSTS and moves on (R277). -/
def State.report (s : State) (status value : Nat) : State :=
  (s.modMe fun c =>
    { c with stsStatus := BitVec.ofNat 8 status, stsValue := BitVec.ofNat 11 value }).advance

/-- Forms a record of an event for the event unit of a cluster (R189): TIME is TIMEBASE now. -/
def State.mkRecord (s : State) (ck ring : Nat) (producer : World) (kind status fault : Nat) (colour : Colour)
    (bytes : Nat) (tag : Word) : EventRecord :=
  { unit := ck, ring := ring, producer := producer, join := none, time := s.timebase, tag := tag, bytes := BitVec.ofNat 32 bytes,
    fault := BitVec.ofNat 8 fault, colour := colour, status := BitVec.ofNat 8 status,
    kind := BitVec.ofNat 8 kind }
/-- Sends a record to the event unit of a cluster. -/
def State.record (s : State) (ck ring : Nat) (producer : World) (kind status fault : Nat) (colour : Colour)
    (bytes : Nat) (tag : Word) : State :=
  { s with records := s.records ++ [s.mkRecord ck ring producer kind status fault colour bytes tag] }
/-- A colour's event ring (R188): the one `colq` set, or its world's own. -/
def State.ringOfColour (s : State) (c : Colour) : Nat := (s.colour c).ring.getD (s.colour c).world.toNat
/-- Sends a record to the ring of a colour. -/
def State.recordColour (s : State) (ck : Nat) (c : Colour) (kind status fault bytes : Nat) (tag : Word) : State :=
  s.record ck (s.ringOfColour c) (s.colour c).world kind status fault c bytes tag
/-- STATUS of a FAULT record: the source, with VA[46] in bit 7 (21_faults_preemption.md R370). -/
def faultStatus (src va : Nat) : Nat := src + 128 * bits va 46 46
/-- BYTES of a FAULT record: VA[45:14] (R370). -/
def faultBytes (va : Nat) : Nat := bits va 45 14
/-- Sends a FAULT record of a colour. -/
def State.faultRecord (s : State) (ck : Nat) (c : Colour) (src code va : Nat) (tag : Word) : State :=
  s.recordColour ck c 0x04 (faultStatus src va) code (faultBytes va) tag

/-- Whether a colour-virtual address lies in the window of scratchpad addresses (12_ops_memory.md R233). -/
def inWindow (a : Nat) : Bool := a / 2 ^ 24 = 0x7FFFFF

/-- The result of a translation: physical address, HOME, NEAR, the page's scope, the owner key colour, and
whether it lies in device register space (R105, R106, R115). -/
structure Xlat where
  pa : Nat
  home : Nat
  near : Nat
  scope : Nat
  key : Colour
  device : Bool
  deriving DecidableEq, Repr

/-- The home slice of a translated address (R120). -/
def Xlat.sk (x : Xlat) : Nat := homeOf x.home x.near x.pa

/-- The entry index of a level (R104). -/
def levelIndex (level va : Nat) : Nat :=
  if level = 1 then bits va 46 36 else if level = 2 then bits va 35 25 else bits va 24 14
/-- The page offset width of a leaf (R104). -/
def levelBits (level : Nat) : Nat := if level = 1 then 36 else if level = 2 then 25 else 14
/-- Field HOME. -/
def pteHome (e : Nat) : Nat := bits e 63 60
/-- Field SCOPE. -/
def pteScope (e : Nat) : Nat := bits e 59 56
/-- Field NEAR. -/
def pteNear (e : Nat) : Nat := bits e 13 8
/-- PTE_FORMAT of R107. -/
def pteOk (level e : Nat) : Bool :=
  bits e 54 52 = 0 && bits e 7 5 = 0 &&
  (if bits e 1 1 = 0 then
    level != 3 && pteHome e = 0 && pteScope e = 0 && bits e 55 55 = 0 && pteNear e = 0 &&
      bits e 3 3 = 0 && bits e 2 2 = 0
   else
    (level != 1 || bits e 35 14 = 0) && (level != 2 || bits e 24 14 = 0) && pteScope e < 12 &&
      pteHome e < 10 &&
      (if pteHome e = 9 then true
       else if 5 ≤ pteHome e ∧ pteHome e ≤ 8 then pteNear e % 16 = 0
       else pteNear e = 0))

/-- The walk of R104 from a table at `level`, with `fuel` levels left: the leaf's level, address and
entry, or a fault code. -/
def State.walkFrom (s : State) (va : Nat) : Nat → Nat → Nat → Except Nat (Nat × Nat × Nat)
  | 0, _, _ => .error codePteFormat
  | fuel + 1, level, table =>
    let a := table + 8 * levelIndex level va
    let e := s.peekNat a 8
    if e % 2 = 0 then .error codeNotMapped
    else if !pteOk level e then .error codePteFormat
    else if bits e 1 1 = 1 then .ok (level, a, e)
    else s.walkFrom va fuel (level + 1) (bits e 51 14 * 2 ^ 14)
/-- The walk of a colour's tree; it sets A in the leaf (R104), whatever the checks of the leaf then say of the access: the manual gives
no order, log 126. -/
def State.walk (s : State) (c : Colour) (va : Nat) : State × Except Nat (Nat × Nat) :=
  match s.walkFrom va 3 1 ((s.colour c).root.toNat * 2 ^ 14) with
  | .error k => (s, .error k)
  | .ok (level, a, e) =>
    if bits e 4 4 = 1 then (s, .ok (level, e))
    else (s.poke a [BitVec.ofNat 8 (e % 256 + 16)], .ok (level, e + 16))

/-- Whether a physical address exists for a world (R99, R101). -/
def State.paExists (s : State) (w : World) (pa : Nat) : Bool :=
  pa < 2 ^ 39 || (2 ^ 48 ≤ pa && pa < 2 ^ 48 + s.hcxl.toNat * 2 ^ 30) || (15 * 2 ^ 48 ≤ pa && w = 0)
/-- Whether an extent of the world holds a page (24_trust.md R393); none holds one of a stack that failed its training
(26_host_and_package.md R422; log 37). -/
def State.inExtent (s : State) (w : World) (pa : Nat) : Bool :=
  !(decide (pa < 2 ^ 39) && s.stkfail.getLsbD (pa / 2 ^ 36)) && (List.range 8).any fun k =>
    let e := s.peekNat (s.wxbase.toNat + 128 * w.toNat + 16 * k) 16
    e % 2 = 1 && bits e 51 14 ≤ pa / 2 ^ 14 && pa / 2 ^ 14 ≤ bits e 115 78
/-- The checks of R107 at the leaf, and the translation. -/
def State.leafCheck (s : State) (c : Colour) (level e va : Nat) (rd wr : Bool) : Except Nat Xlat :=
  let w := (s.colour c).world
  let ks := bits e 55 55 = 1
  let key := if ks then (s.colour c).kshare else c
  let pa := bits e 51 14 * 2 ^ 14 + va % 2 ^ levelBits level
  let dev := 15 * 2 ^ 48 ≤ pa
  if ks && !((s.colour key).state = .live && (s.colour key).world = w) then .error codeColourState
  else if !s.paExists w pa || !(dev || s.inExtent w pa) then .error codePaRange
  else if (dev && pteHome e != 0) ||
      (1 ≤ pteHome e && pteHome e ≤ 4 &&
        !(pa < 2 ^ 39 && (pa / 2 ^ 37 = pteHome e - 1))) then .error codeHomeConflict
  else if (rd && bits e 2 2 = 0) || (wr && bits e 3 3 = 0) then .error codePerm
  else .ok ⟨pa, pteHome e, pteNear e, pteScope e, key, dev⟩

/-- A cached leaf for an address (R108). -/
def tlbFind (tlb : List TlbEntry) (c : Colour) (va : Nat) : Option TlbEntry :=
  tlb.find? fun t => t.colour = c && t.vpage = va / 2 ^ levelBits t.level
/-- Caches a leaf in a fully associative buffer of `n` entries. -/
def tlbInsert (n : Nat) (tlb : List TlbEntry) (t : TlbEntry) : List TlbEntry :=
  (t :: tlb.filter (fun u => !(u.colour = t.colour && u.level = t.level && u.vpage = t.vpage))).take n

/-- The set of a leaf in the second-level TLB (R108; which bits choose it is a DESIGN CHOICE, log 103). -/
def TlbEntry.set (t : TlbEntry) : Nat := t.vpage % 256
/-- Caches a leaf in the second-level TLB: 2,048 entries in 256 sets of 8 ways, the oldest of the set making room (R108). -/
def l2Insert (tlb : List TlbEntry) (t : TlbEntry) : List TlbEntry :=
  let rest := tlb.filter fun u => !(u.colour = t.colour && u.level = t.level && u.vpage = t.vpage)
  t :: ((rest.filter fun u => u.set = t.set).take 7 ++ rest.filter fun u => u.set != t.set)

/-- A translation under R107 through a list of cached leaves; a leaf that a walk found is returned for the
buffers to keep. A poisoned colour faults first (21_faults_preemption.md R375, log 22). -/
def State.xlate (s : State) (tlb : List TlbEntry) (c : Colour) (va : Nat) (rd wr : Bool) :
    State × Option TlbEntry × Except Nat Xlat :=
  if (s.colour c).poisoned then (s, none, .error codeColourPoisoned)
  else if va ≥ 2 ^ 47 then (s, none, .error codeVaRange)
  else if (s.colour c).state != .live then (s, none, .error codeColourState)
  else
    match tlbFind tlb c va with
    | some t => (s, none, s.leafCheck c t.level t.pte.toNat va rd wr)
    | none =>
      match s.walk c va with
      | (s, .error k) => (s, none, .error k)
      | (s, .ok (level, e)) =>
        (s, some ⟨c, level, va / 2 ^ levelBits level, BitVec.ofNat 64 e⟩, s.leafCheck c level e va rd wr)

/-- A translation for a cluster's engines, through the second-level TLB (R108). -/
def State.xlateEngine (s : State) (ck : Nat) (c : Colour) (va : Nat) (rd wr : Bool) :
    State × Except Nat Xlat :=
  match s.xlate (s.cluster ck).l2tlb c va rd wr with
  | (s, none, r) => (s, r)
  | (s, some t, r) => (s.modCluster ck fun k => { k with l2tlb := l2Insert k.l2tlb t }, r)
/-- The extent of a page of a generator's pattern, as the configuration loader translates it (R108, R112): with its leaf, or absent;
nothing where the translation ends in another fault than NOT_MAPPED (R107), as it does for a colour that is poisoned or not LIVE. -/
def State.extentOf (s : State) (ck : Nat) (c : Colour) (va : Nat) : State × Option Extent :=
  if (s.colour c).poisoned || (s.colour c).state != .live then (s, none)
  else match tlbFind (s.cluster ck).l2tlb c va with
  | some t => (s, some ⟨va / 2 ^ 14, some t⟩)
  | none =>
    match s.walk c va with
    | (s, .error k) => (s, if k = codeNotMapped then some ⟨va / 2 ^ 14, none⟩ else none)
    | (s, .ok (level, e)) =>
      let t : TlbEntry := ⟨c, level, va / 2 ^ levelBits level, BitVec.ofNat 64 e⟩
      (s.modCluster ck fun k => { k with l2tlb := l2Insert k.l2tlb t }, some ⟨va / 2 ^ 14, some t⟩)
/-- A translation for a context, through the control-core TLB and then the second-level one (R108). -/
def State.xlateCore (s : State) (ck : Nat) (c : Colour) (va : Nat) (rd wr : Bool) :
    State × Except Nat Xlat :=
  let k := s.cluster ck
  match s.xlate (k.tlb ++ k.l2tlb) c va rd wr with
  | (s, none, r) =>
    match tlbFind (s.cluster ck).l2tlb c va with
    | some t => (s.modCluster ck fun k => { k with tlb := tlbInsert 32 k.tlb t }, r)
    | none => (s, r)
  | (s, some t, r) =>
    (s.modCluster ck fun k =>
      { k with tlb := tlbInsert 32 k.tlb t, l2tlb := l2Insert k.l2tlb t }, r)

/-- Sends a fault token to a pager; one that is under way already is not sent again. -/
def State.askPager (s : State) (t : FaultToken) : State :=
  if s.faultTokens.contains t then s else { s with faultTokens := s.faultTokens ++ [t] }
/-- Raises NOT_MAPPED at the pager of a die (21_faults_preemption.md R371). -/
def State.raisePage (s : State) (die : Nat) (c : Colour) (va : Nat) : State :=
  s.askPager ⟨die, c, .page (va / 2 ^ 14)⟩
/-- The codes that poison a colour (R374): PTE_FORMAT, HOME_CONFLICT, PA_RANGE. -/
def poisons (code : Nat) : Bool := code = codePteFormat || code = codeHomeConflict || code = codePaRange
/-- A colour whose access faults with such a code is to be poisoned (R374): its pager is told. -/
def State.poisonDue (s : State) (die : Nat) (c : Colour) (code va : Nat) : State :=
  if poisons code then s.askPager ⟨die, c, .poison code va⟩
  else s

/-- How an access of an agent ends: done, a fault code with its address, a wait for a page, or a wait for a
locked line (log 10). -/
inductive Mem (α : Type) where
  | done (s : State) (v : α)
  | fault (s : State) (code va : Nat)
  | page (s : State) (va : Nat)
  | busy

/-- Goes on from what an access gave. -/
def Mem.bind {α β : Type} (m : Mem α) (k : State → α → Mem β) : Mem β :=
  match m with
  | .done t v => k t v
  | .fault t code va => .fault t code va
  | .page t va => .page t va
  | .busy => .busy
/-- Changes what an access gave. -/
def Mem.map {α β : Type} (m : Mem α) (g : α → β) : Mem β := m.bind fun t v => .done t (g v)

/-- The request that a flit of a mesh carries. -/
def Cargo.request? : Cargo → Option Request | .request r => some r | _ => none
/-- The answer that a flit of a mesh carries. -/
def Cargo.answer? : Cargo → Option Answer | .answer a => some a | _ => none
/-- The request that a flit of a ring carries. -/
def NetCargo.request? : NetCargo → Option Request | .request r => some r | _ => none
/-- The answer that a flit of a ring carries. -/
def NetCargo.answer? : NetCargo → Option Answer | .answer a => some a | _ => none
/-- What the flits of the meshes carry. -/
def State.meshCargo (s : State) : List Cargo := s.clusters.flatMap fun e => e.2.flits.map (·.cargo)
/-- The requests on their way to their slices: on the meshes, on the rings, at the slices' stops. -/
def State.travelling (s : State) : List Request :=
  s.meshCargo.filterMap Cargo.request? ++ s.net.filterMap (·.cargo.request?) ++ s.requests
/-- The answers on their way to tiles. -/
def State.answers (s : State) : List Answer := s.net.filterMap (·.cargo.answer?) ++ s.meshCargo.filterMap Cargo.answer?
/-- The requests of a source to a slice that have not passed their ordering points (R154): on their way, or in a conflict queue. -/
def State.pendingOf (s : State) (src : Source) (sk : Nat) : List Request :=
  (s.travelling ++ (s.slice sk).conflicts).filter fun r => r.src = src && r.sk = sk
/-- Whether an earlier request of the source to the slice has still to pass its ordering point. -/
def State.ownEarlier (s : State) (src : Source) (sk : Nat) : Bool := s.pendingOf src sk != []

/-- The 64-byte units that `n` bytes from an offset touch. -/
def unitSpan (off n : Nat) : Nat := if n = 0 then 0 else (off + n - 1) / 64 - off / 64 + 1
/-- Bytes of one line with the poison of each, as an engine at a place on the rings reads them, once they are translated (R131,
R177). -/
def State.readPairs (s : State) (p : NetGoal) (c : Colour) (va n : Nat) (x : Xlat) : Mem (List (Byte × Bool)) :=
  if x.device then .fault s codePerm va
  else if (s.slice x.sk).waits x.pa || s.cutFrom p x.sk then .busy
  else
    let (s, d, bad) := s.plainRead x.sk x.pa x.key (s.colour c).world
    let s := s.countFrom p x.sk 0 (unitSpan (x.pa % 256) n) c (s.colour c).world
    .done s ((List.range n).map fun i => (lineByte d (x.pa % 256 + i), bad.getLsbD ((x.pa % 256 + i) / 64)))
/-- Bytes, and whether one is poisoned. -/
def State.readAt (s : State) (p : NetGoal) (c : Colour) (va n : Nat) (x : Xlat) : Mem (List Byte × Bool) :=
  (s.readPairs p c va n x).map fun ps => (ps.map (·.1), ps.any (·.2))
/-- Bytes of one line as an engine reads them at the line's ordering point, under a colour (R131, R177). The engines of this
file have no registers to reach: a page of device register space gives PERM (log 104). -/
def State.engineReadLine (s : State) (ck : Nat) (c : Colour) (va n : Nat) : Mem (List Byte × Bool) :=
  match s.xlateEngine ck c va true false with
  | (s, .error k) => if k = codeNotMapped then .page s va else .fault s k va
  | (s, .ok x) => s.readAt (engineStop ck x.sk) c va n x
/-- Bytes of one line as an engine writes them (R125 with pts_of_writer 0). -/
def State.engineWriteLine (s : State) (ck : Nat) (c : Colour) (va : Nat) (bs : List Byte)
    (poison : Bool) : Mem Unit :=
  match s.xlateEngine ck c va false true with
  | (s, .error k) => if k = codeNotMapped then .page s va else .fault s k va
  | (s, .ok x) =>
    if x.device then .fault s codePerm va
    else if s.lineBusy ck x.sk x.pa then .busy
    else
      let (s, _) := s.lineWrite x.sk x.pa x.key (s.colour c).world (pairsAt (x.pa % 256) bs) poison 0
      .done (s.countAccess ck x.sk (unitSpan (x.pa % 256) bs.length) 0 c (s.colour c).world) ()

/-- Reads `n` bytes from `va`, line by line; `fuel` bounds the lines. -/
def State.engineRead (s : State) (ck : Nat) (c : Colour) (va n : Nat) : Nat → Mem (List Byte × Bool)
  | 0 => .done s ([], false)
  | fuel + 1 =>
    let m := min n (256 - va % 256)
    if n = 0 then .done s ([], false)
    else
      match s.engineReadLine ck c va m with
      | .done s (bs, p) =>
        match s.engineRead ck c (va + m) (n - m) fuel with
        | .done s (bs', p') => .done s (bs ++ bs', p || p')
        | r => r
      | r => r
/-- Writes bytes from `va`, line by line. -/
def State.engineWrite (s : State) (ck : Nat) (c : Colour) (va : Nat) (bs : List Byte) (poison : Bool) :
    Nat → Mem Unit
  | 0 => .done s ()
  | fuel + 1 =>
    let m := min bs.length (256 - va % 256)
    if bs.length = 0 then .done s ()
    else
      match s.engineWriteLine ck c va (bs.take m) poison with
      | .done s _ => s.engineWrite ck c (va + m) (bs.drop m) poison fuel
      | r => r

/-- The state in which an engine's attempt ended without its effect: the same one where a line was locked. -/
def Mem.stateOr {α : Type} (s : State) : Mem α → State
  | .done t _ => t
  | .fault t _ _ => t
  | .page t _ => t
  | .busy => s

/-- The 256 bits of a record as written (R189), as a number. -/
def recordBits (r : EventRecord) (lost ph : Bool) : Nat :=
  r.time.toNat * 2 ^ 192 + r.tag.toNat * 2 ^ 128 + r.bytes.toNat * 2 ^ 96 + r.fault.toNat * 2 ^ 88 +
  r.colour.toNat * 2 ^ 64 + r.status.toNat * 2 ^ 40 + r.kind.toNat * 2 ^ 32 +
  (if lost then 2 else 0) + (if ph then 1 else 0)

/-- A dropped record: LOST, saturating (R188, R190). -/
def Ring.drop (r : Ring) : Ring :=
  { r with lost := if r.lost = 0xFFFF then r.lost else r.lost + 1, dropped := true }

/-- Wakes the contexts parked in `evwait` on a ring (R190, R300): they issue it again. -/
def State.wakeRing (s : State) (n : Nat) : State :=
  { s with clusters := s.clusters.map fun e =>
      (e.1, { e.2 with ctxs := e.2.ctxs.map fun c => if c.park = .ring n then { c with park := .none } else c }) }

/-- A message of an MSI-X vector (24_trust.md R397): sent, or held pending where the vector is masked; a
world under removal sends nothing (R399). -/
def State.raiseMsi (s : State) (w : Nat) (vec : Nat) : State :=
  if w = 0 ∨ s.removals.contains w then s
  else if (s.function (w - 1)).masked.contains vec then
    s.modFunction (w - 1) fun f => { f with pending := NatSet.insert f.pending vec }
  else { s with replies := s.replies ++ [.message (w - 1) vec] }

/-- Reads CONS of a ring again where the ring is full (R190); nothing where its line is locked. -/
def State.rereadCons (s : State) (ck n : Nat) : Option State :=
  let g := s.ring n
  if (g.prod - g.cons).toNat = 2 ^ g.log2n.toNat then
    match s.engineRead ck g.colour g.consa.toNat 4 2 with
    | .done s (bs, _) => some (s.modRing n fun g => { g with cons := BitVec.ofNat 32 (bytesNat bs) })
    | .busy => none
    | _ => some s
  else some s
/-- Writes a record to an enabled ring n (R189, R190): a full ring, or a write or read that faults, drops it; where a
line is locked nothing happens yet. -/
def State.writeToRing (s : State) (n : Nat) (r : EventRecord) : Option State :=
  (s.rereadCons r.unit n).bind fun s =>
    let g := s.ring n
    let size := 2 ^ g.log2n.toNat
    let prodN := g.prod.toNat
    if (g.prod - g.cons).toNat = size then some (s.modRing n Ring.drop)
    else
      let ph := (prodN / size + 1) % 2 = 1
      match s.engineWrite r.unit g.colour (g.base.toNat + 32 * (prodN % size))
          (natBytes 32 (recordBits r g.dropped ph)) false 2 with
      | .done s _ =>
        let s := s.modRing n fun g => { g with prod := g.prod + 1, dropped := false, notify := false }
        some (if g.notify then (s.wakeRing n).raiseMsi g.world.toNat g.vec.toNat else s)
      | .busy => none
      | _ => some (s.modRing n Ring.drop)

/-- Writes a record where R188 sends it: to the ring it names, or to the own ring of its producer's world
where that ring is not enabled or another world's; dropped where the own ring is not enabled. A world under removal
writes none (24_trust.md R399). -/
def State.writeRecord (s : State) (r : EventRecord) : Option State :=
  if s.removals.contains r.producer.toNat then some s
  else if (s.ring r.ring).en && (s.ring r.ring).world = r.producer then s.writeToRing r.ring r
  else if (s.ring r.producer.toNat).en then s.writeToRing r.producer.toNat r
  else some (s.modRing r.producer.toNat Ring.drop)

/-- Ends the acting context's record: the context is idle (R287). -/
def State.endRecord (s : State) : State :=
  s.modMe fun c => { c with running := false, tm := false, park := .none, released := false, armed := false }

/-- TAKES A TRAP (R71, R278, R279): CCTRAP, CCTVAL and CCEPC are written; with a handler installed and none
running TM becomes 1 and PC the handler; otherwise a FAULT record goes to the ring of the record's colour
and the record ends. -/
def State.takeTrap (s : State) (cause fcode code : Nat) (tval : Word) : State :=
  let c := s.me
  let s := s.modMe fun c =>
    { c with trapCause := BitVec.ofNat 8 cause, trapFcode := BitVec.ofNat 8 fcode,
             trapCode := BitVec.ofNat 16 code, tval := tval, epc := c.pc, released := false,
             armed := false, park := .none }
  if !c.tm && c.tvec != 0 then s.modMe fun c => { c with tm := true, pc := c.tvec }
  else (s.recordColour s.actor.ck c.colour 0x04 (faultStatus cause tval.toNat) fcode
    (if cause = 0x04 then faultBytes tval.toNat else 0) c.pc).endRecord
/-- RETURNS FROM A TRAP (R279): PC := CCEPC and TM := 0; a misaligned CCEPC traps MISALIGNED_TARGET with TM
still 1, and TM = 0 traps ILLEGAL. -/
def State.trapReturn (s : State) : State :=
  let c := s.me
  if !c.tm then s.takeTrap 0x01 0 0 0
  else if c.epc.toNat % 8 != 0 then s.takeTrap 0x02 0 0 0
  else (s.jump c.epc).modMe fun c => { c with tm := false }
/-- Trap ILLEGAL (R71). -/
def State.illegal (s : State) : State := s.takeTrap 0x01 0 0 0
/-- Trap MEMORY with a fault code and an address (R278); a fault that poisons goes to the pager (R374). -/
def State.memTrap (s : State) (code va : Nat) : State :=
  (s.poisonDue (dieOf s.actor.ck) s.me.colour code va).takeTrap 0x04 code 0 (BitVec.ofNat 64 va)
/-- The context waits for a page (R278). -/
def State.parkPage (s : State) (c : Colour) (va : Nat) : State :=
  (s.raisePage (dieOf s.actor.ck) c va).parkMe (.page c.toNat (va / 2 ^ 14))

/-- Bits of the touched-slice mask that a write to a slice sets (07_network.md R154). -/
def touchBit (die sk : Nat) : Nat := if sk / 64 = die then sk % 64 else 64 + sk / 64
/-- A mask with the bit of a slice set. -/
def touch (m : BitVec 68) (die sk : Nat) : BitVec 68 := m ||| ((1 : BitVec 68) <<< touchBit die sk)
/-- The probes of a mask (R155). -/
def probesOf (die : Nat) (m : BitVec 68) : List ProbeTarget :=
  (List.range 68).filterMap fun b =>
    if !m.getLsbD b then none else if b < 64 then some (.slice (64 * die + b)) else some (.hub (b - 64))

/-- Scopes at which releases and acquires do nothing (R155, R124). -/
def localScope (sc : Nat) : Bool := sc ≤ 1

/-- A context's release at a scope (R155): at SELF and TILE, or with nothing to wait for, it is complete;
otherwise the mask is captured and cleared, the probes are sent, and the context parks until they are
answered. The Bool says whether the instruction may go on. -/
def State.releaseMe (s : State) (scope : Nat) : State × Bool :=
  if localScope scope || s.me.released then (s, true)
  else
    let ps := probesOf (dieOf s.actor.ck) s.me.touched
    if ps = [] then (s, true)
    else
      ((({ s with nextId := s.nextId + 1, releases := s.releases ++
          [({ id := s.nextId, stamp := s.nextId, src := .context s.actor.ck s.actor.ctx, access := none, probes := ps } : Release)] }).modMe fun c =>
        { c with touched := 0 }).parkMe .release, false)
/-- A context's acquire at a scope (R124): it drops its leased copies. -/
def State.acquireMe (s : State) (scope : Nat) : State :=
  if localScope scope then s else s.modMe fun c => { c with leases := [] }
/-- PKG's code (01_notation.md R16). -/
def scopePkg : Nat := 5

/-- Subtracts 1 from the 32-bit join word at an address, as an atomic at PKG (09_block_transfer.md R187): one access (R125). -/
def State.joinDecrement (s : State) (ck : Nat) (c : Colour) (va : Nat) : Mem Unit :=
  match s.xlateEngine ck c va true true with
  | (s, .error k) => if k = codeNotMapped then .page s va else .fault s k va
  | (s, .ok x) =>
    if x.device then .fault s codePerm va
    else if s.lineBusy ck x.sk x.pa then .busy
    else
      let w := (s.colour c).world
      let less := fun (d : BitVec 2048) => natBytes 4 ((bytesNat (lineBytes d (x.pa % 256) 4) + 2 ^ 32 - 1) % 2 ^ 32)
      let r := s.lineUpdate x.sk x.pa x.key w (fun d p => (pairsAt (x.pa % 256) (less d), p.getLsbD (x.pa % 256 / 64))) 0
      .done (r.1.countAccess ck x.sk 1 0 c w) ()

/-- Performs a join decrement (R187): one that meets NOT_MAPPED waits for the pager, one that faults with another
code is dropped, with a FAULT record to the own ring of the colour's world. An address in the scratchpad window, where no join word
lies, gives VA_RANGE (09_block_transfer.md R176; log 105). A world under removal changes none (24_trust.md R399). -/
def State.performJoin (s : State) (j : Join) : State :=
  if s.removals.contains (s.colour j.colour).world.toNat then s
  else
  let wait := fun (s : State) => { s with joins := s.joins ++ [j] }
  match if inWindow j.va then Mem.fault s codeVaRange j.va
    else if j.va % 4 = 0 then s.joinDecrement j.ck j.colour j.va else Mem.fault s codeAlign j.va with
  | .done s _ => s
  | .busy => wait s
  | .page s va => wait (s.raisePage (dieOf j.ck) j.colour va)
  | .fault s k va =>
    let w := (s.colour j.colour).world
    (s.poisonDue (dieOf j.ck) j.colour k va).record j.ck w.toNat w 0x04 (faultStatus 0x14 va) k j.colour (faultBytes va) 0
/-- Sends a record after which a join word is decremented. -/
def State.recordJoin (s : State) (r : EventRecord) (j : Option Join) : State :=
  { s with records := s.records ++ [{ r with join := j }] }

end Sys2Proof.Machine
end

