-- ==== Sys2Proof/Machine/StashLines.lean ====
section
/-!
DEFINITION. What enters a cluster's mesh (07_network.md R142 to R144), requests on their way to home slices (12_ops_memory.md
R235; 07_network.md R154), a tile's translations (05_main_memory.md R108), and the stash of a tile (08_tile_memory.md R164 to R167).
-/
namespace Sys2Proof.Machine

/-- The boundary tile of an edge port, and the side on which it lies (07_network.md R144): 0 north, 2 south, 3 west. -/
def portPlace (phys : Nat) : Nat × Nat :=
  if phys < 16 then (phys, 0) else if phys < 32 then (176 + (phys - 16), 2) else (16 * (phys - 32 + 2), 3)
/-- Where the units of a cluster that belong to no tile send and receive on the mesh: vector port vp0 (log 107). -/
def unitPort : Nat := 32
/-- Where a message enters the mesh: a tile's local input, or an edge port. -/
inductive MeshSource where
  | tile (ti : Nat)
  | port (phys : Nat)
  deriving DecidableEq, Repr
/-- A flit as it enters the mesh in an FCLK cycle (R142); a link takes two cycles (R143). -/
def MeshSource.flit (src : MeshSource) (now : Nat) (goal : Nat × Nat) (narrow : Bool) (vc : Nat) (x : Cargo) : Flit :=
  match src with
  | .tile ti => ⟨ti, 4, goal.1, goal.2, narrow, vc, now, 0, false, x⟩
  | .port p => ⟨(portPlace p).1, (portPlace p).2, goal.1, goal.2, narrow, vc, now + 2, 0, false, x⟩
/-- Sends a flit into the mesh of a cluster. -/
def State.inject (s : State) (ck : Nat) (src : MeshSource) (goal : Nat × Nat) (narrow : Bool) (vc : Nat) (x : Cargo) : State :=
  s.modCluster ck fun k => { k with flits := k.flits ++ [src.flit s.cycles goal narrow vc x] }
/-- A tile's fault token leaves for the pager of its die, on VC3 (21_faults_preemption.md R371; 07_network.md R142), where the cluster has
not sent it already. -/
def State.tileFault (s : State) (tk : Nat) (c : Colour) (x : PagerAsk) : State :=
  let t : FaultToken := ⟨dieOf (ckOf tk), c, x⟩
  if (s.cluster (ckOf tk)).flits.any fun f => f.cargo = .fault t then s
  else s.inject (ckOf tk) (.tile (tiOf tk)) (portPlace unitPort) true 3 (.fault t)
/-- A tile raises NOT_MAPPED at its pager (R371). -/
def State.tilePage (s : State) (tk : Nat) (c : Colour) (va : Nat) : State := s.tileFault tk c (.page (va / 2 ^ 14))
/-- A tile's access faults with a code that poisons its colour (R374). -/
def State.tilePoison (s : State) (tk : Nat) (c : Colour) (code va : Nat) : State :=
  if poisons code then s.tileFault tk c (.poison code va) else s
/-- One store acknowledgement of a launch is outstanding no more (12_ops_memory.md R237). -/
def State.acknowledge (s : State) (ack : Option (Nat × Nat)) : State :=
  match ack with
  | none => s
  | some (ck, ctx) => s.modLaunch ck ctx fun l => { l with outstanding := l.outstanding - 1 }
/-- One more outstanding store acknowledgement. -/
def State.expectAck (s : State) (ck ctx : Nat) : State :=
  s.modLaunch ck ctx fun l => { l with outstanding := l.outstanding + 1 }
/-- A translation through the tile colour TLB alone, at issue (R235). -/
def State.xlateTile (s : State) (tk : Nat) (c : Colour) (va : Nat) (rd wr : Bool) : Except Nat Xlat :=
  if (s.colour c).poisoned then .error codeColourPoisoned
  else if (s.colour c).state != .live then .error codeColourState
  else
    match tlbFind (s.tile tk).tlb c va with
    | some t => s.leafCheck c t.level t.pte.toNat va rd wr
    | none => .error codeNotMapped
/-- A translation of a tile with its walk, through the second-level TLB (R108). -/
def State.xlateWalk (s : State) (tk : Nat) (c : Colour) (va : Nat) (rd wr : Bool) : State × Except Nat Xlat :=
  let ck := ckOf tk
  match s.xlate ((s.tile tk).tlb ++ (s.cluster ck).l2tlb) c va rd wr with
  | (s, none, r) =>
    match tlbFind (s.cluster ck).l2tlb c va with
    | some t => (s.modTile tk fun x => { x with tlb := tlbInsert 64 x.tlb t }, r)
    | none => (s, r)
  | (s, some t, r) =>
    ((s.modTile tk fun x => { x with tlb := tlbInsert 64 x.tlb t }).modCluster ck fun k =>
      { k with l2tlb := l2Insert k.l2tlb t }, r)

/-- NCLK cycles since reset: five for two of FCLK (00_scope.md R2). -/
def State.nclk (s : State) : Nat := 5 * s.cycles / 2
/-- The edge port by which a tile's request to a slice leaves the mesh (R144). -/
def sliceExit (tk sk : Nat) : Nat :=
  let x := tiOf tk % 16
  let north := if ckOf tk / 4 = sk / 16 then sk % 16 < 8 else tiOf tk / 16 ≤ 5
  if north then x else 16 + x
/-- The stop of the edge of which a port is one (07_network.md R148). -/
def portStop (ck phys : Nat) : NetGoal := clusterStop ck (phys / 16 % 2)
/-- The 64-byte units that a request carries. -/
def ReqKind.units (off : Nat) : ReqKind → BitVec 4
  | .read => 0
  | .write ps _ => unitsOf ps
  | .atomic _ _ _ _ => (1 : BitVec 4) <<< (off / 64)
/-- The 64-byte units that an answer carries. -/
def AnswerData.units (off : Nat) : AnswerData → BitVec 4
  | .line _ _ _ _ => 0xF
  | .old _ _ => (1 : BitVec 4) <<< (off / 64)
  | .ack => 0
/-- Sends a request or its answer into the rings. -/
def State.sendRequest (s : State) (src : NetGoal) (r : Request) : State :=
  s.netSend s.nclk 0 src (sliceStop r.sk) r.colour r.world (r.kind.units r.off) (.request r)
/-- See `State.sendRequest`: the answer leaves by the stop by which the request came (log 108). -/
def State.sendAnswer (s : State) (a : Answer) : State :=
  let r := a.request
  let goal := match r.src with
    | .tile tk => portStop (ckOf tk) (sliceExit tk r.sk)
    | .context ck _ => engineStop ck r.sk
    | .stream ck _ => engineStop ck r.sk
  s.netSend s.nclk 1 (sliceStop r.sk) goal r.colour r.world (a.data.units r.off) (.answer a)
/-- A source's touched-slice mask takes the bit of a slice (R154). -/
def State.touches (s : State) (src : Source) (sk : Nat) : State :=
  match src with
  | .tile tk => s.modTile tk fun t => { t with touched := touch t.touched (dieOf (ckOf tk)) sk }
  | .context ck x => s.modContext ck x fun c => { c with touched := touch c.touched (dieOf ck) sk }
  | .stream _ _ => s
/-- Posts a request: a write or atomic sets its bit of the touched-slice mask (R154), and one that a launch counts is an
outstanding store acknowledgement of it (R237). A tile's request goes by the mesh, in the wide plane's VC0 (R142, R144; log 108);
the others enter the ring at once (log 101). -/
def State.post (s : State) (r : Request) : State :=
  let r := { r with stamp := s.nextId }
  let s := { s with nextId := s.nextId + 1 }
  let s := match r.ack with | some (ck, ctx) => s.expectAck ck ctx | none => s
  let s := if r.kind = .read then s else s.touches r.src r.sk
  match r.src with
  | .tile tk => s.inject (ckOf tk) (.tile (tiOf tk)) (portPlace (sliceExit tk r.sk)) false 0 (.request r)
  | .context ck _ => s.sendRequest (engineStop ck r.sk) r
  | .stream ck _ => s.sendRequest (engineStop ck r.sk) r

/-- Lines that a tile's stash holds at most (R164). -/
def Tile.stashCap (t : Tile) : Nat := 16 * (16 - t.spk.toNat)
/-- The stash's copy of a line. -/
def Tile.stashLine (t : Tile) (pa : Nat) : Option StashLine := t.stash.find? fun l => l.pa = pa / 256 * 256
/-- The copy that a load may read (R165). -/
def Tile.stashHit (t : Tile) (pa : Nat) (key : Colour) : Option StashLine :=
  match t.stashLine pa with
  | some l => if l.key = key ∧ t.pts.toNat ≤ l.leaseEnd.toNat then some l else none
  | none => none
/-- Replaces the stash's copy of a line. -/
def Tile.setStash (t : Tile) (l : StashLine) : Tile :=
  { t with stash := t.stash.map fun x => if x.pa = l.pa then l else x }
/-- The dirty bytes of a copy: those of poisoned units, or of the others. -/
def StashLine.dirtyBytes (l : StashLine) (poison : Bool) : List (Nat × Byte) :=
  (List.range 256).filterMap fun i =>
    if l.dirty.getLsbD (i / 16) && l.poison.getLsbD (i / 64) = poison then some (i, lineByte l.data i) else none
/-- Writes back the dirty granules of a copy (R167); the write-back counts among the acknowledgements of a launch, where one is
given. -/
def State.stashBackFor (s : State) (tk : Nat) (ack : Option (Nat × Nat)) (l : StashLine) : State :=
  if l.dirty = 0 then s
  else
    let send := fun (s : State) (p : Bool) =>
      let bs := l.dirtyBytes p
      if bs = [] then s
      else s.post { src := .tile tk, sk := l.sk, pa := l.pa, off := 0, colour := l.key, key := l.key, world := l.world
                    kind := .write bs p, pts := (s.tile tk).pts, scope := scopePkg, answer := none, stamp := 0
                    ack := ack, va := none }
    (send (send s false) true).modTile tk fun t => t.setStash { l with dirty := 0 }
/-- A write-back that counts for a context's launch. -/
def State.stashBack (s : State) (tk ctx : Nat) (l : StashLine) : State := s.stashBackFor tk (some (ckOf tk, ctx)) l
/-- Writes back and drops the copy of a line (R165, R166). -/
def State.stashDrop (s : State) (tk ctx pa : Nat) : State :=
  match (s.tile tk).stashLine pa with
  | none => s
  | some l =>
    (s.stashBack tk ctx l).modTile tk fun t => { t with stash := t.stash.filter fun x => x.pa != l.pa }
/-- The least recently used copy of a stash. -/
def Tile.stashOldest (t : Tile) : Option StashLine :=
  t.stash.foldl (fun (b : Option StashLine) x => match b with
    | none => some x
    | some y => if x.used < y.used then some x else b) none
/-- Installs a copy, evicting the least recently used line (R165); nothing where the stash holds no lines. -/
def State.stashInstall (s : State) (tk ctx : Nat) (l : StashLine) : State :=
  if (s.tile tk).stashCap = 0 then s
  else
    let s := s.stashDrop tk ctx l.pa
    let t := s.tile tk
    let s := if t.stash.length < t.stashCap then s
      else match t.stashOldest with | some v => s.stashDrop tk ctx v.pa | none => s
    { s.modTile tk (fun t => { t with stash := t.stash ++ [{ l with used := s.seq }] }) with seq := s.seq + 1 }
/-- Writes back the dirty granules of every copy (R167). -/
def State.stashBackAll (s : State) (tk ctx : Nat) : State :=
  (s.tile tk).stash.foldl (fun s l => s.stashBack tk ctx l) s
/-- The acquire of a tile (R124, R165): every copy is written back and dropped. -/
def State.stashAcquire (s : State) (tk ctx : Nat) : State :=
  (s.stashBackAll tk ctx).modTile tk fun t => { t with stash := [] }
/-- Uses a copy: it becomes the most recently used. -/
def State.stashUse (s : State) (tk : Nat) (l : StashLine) : State :=
  { s.modTile tk (fun t => t.setStash { l with used := s.seq }) with seq := s.seq + 1 }
/-- Merges bytes of a store into a copy and marks their granules dirty (R166). -/
def StashLine.merge (l : StashLine) (ps : List (Nat × Byte)) (poison : Bool) : StashLine :=
  { l with
    data := lineSet l.data ps
    poison := poisonAfter l.poison ps poison
    dirty := ps.foldl (fun d p => d ||| ((1 : BitVec 16) <<< (p.1 / 16))) l.dirty }

/-- Writes back the dirty granules of a copy and drops it, at once (R159, R167): its slice's bit is set in the touched-slice mask
and the tile's clock is raised (06_slices.md R125); nothing while the line is not free. -/
def State.stashSettle (s : State) (tk : Nat) (l : StashLine) : Option State :=
  let ck := ckOf tk
  let gone := fun (s : State) => s.modTile tk fun t => { t with stash := t.stash.filter fun x => x.pa != l.pa }
  if l.dirty = 0 then some (gone s)
  else if s.ownEarlier (.tile tk) l.sk || s.lineBusy ck l.sk l.pa then none
  else
    let put := fun (s : State) (p : Bool) =>
      let bs := l.dirtyBytes p
      if bs = [] then s
      else
        let (s, pts) := s.lineWrite l.sk l.pa l.key l.world bs p (s.tile tk).pts
        (s.countAccess ck l.sk (unitCount (unitsOf bs)) 0 l.key l.world).modTile tk fun t => { t with pts := maxTime t.pts pts }
    some (gone ((put (put s false) true).touches (.tile tk) l.sk))
/-- Makes room for a line in a stash, at once. -/
def State.stashRoom (s : State) (tk : Nat) : Option State :=
  let t := s.tile tk
  if t.stash.length < t.stashCap then some s
  else match t.stashOldest with | some v => s.stashSettle tk v | none => some s
/-- A line as a tile's own engine reads it at TILE scope (R165, R166): the stash's copy, or the line from its home under a new
lease, kept where the stash holds lines; nothing while the line is not free. -/
def State.tileLine (s : State) (tk : Nat) (x : Xlat) (w : World) : Option (State × StashLine) :=
  match (s.tile tk).stashHit x.pa x.key with
  | some l => some (s.stashUse tk l, l)
  | none =>
    if s.ownEarlier (.tile tk) x.sk || s.lineBusy (ckOf tk) x.sk x.pa then none
    else
      (match (s.tile tk).stashLine x.pa with | some l => s.stashSettle tk l | none => some s).bind fun (s : State) =>
        (s.stashRoom tk).map fun (s : State) =>
          let (s, d, p, wts, fin, pts) := s.leaseRead x.sk x.pa x.key w (s.tile tk).pts
          let l : StashLine := ⟨x.pa / 256 * 256, x.sk, x.key, w, wts, fin, 0, p, d, s.seq⟩
          ((({ s with seq := s.seq + 1 } : State).countAccess (ckOf tk) x.sk 0 4 x.key w).modTile tk fun t =>
            { t with pts := maxTime t.pts pts, stash := if t.stashCap = 0 then t.stash else t.stash ++ [l] }, l)
/-- Bytes of one line read by a tile's own engine at TILE scope under a colour; a page of device register space gives PERM
(log 104). -/
def State.tileReadLine (s : State) (tk : Nat) (c : Colour) (va n : Nat) : Mem (List Byte × Bool) :=
  match s.xlateWalk tk c va true false with
  | (s, .error k) => if k = codeNotMapped then .page s va else .fault s k va
  | (s, .ok x) =>
    if x.device then .fault s codePerm va
    else match s.tileLine tk x (s.colour c).world with
      | none => .busy
      | some (s, l) => .done s (lineBytes l.data (x.pa % 256) n,
          (List.range n).any fun i => l.poison.getLsbD ((x.pa % 256 + i) / 64))
/-- Bytes of one line written by a tile's own engine at TILE scope (R166): in the stash, or at the home where the stash holds no
lines (R164). -/
def State.tileWriteLine (s : State) (tk : Nat) (c : Colour) (va : Nat) (bs : List Byte) (poison : Bool) : Mem Unit :=
  match s.xlateWalk tk c va false true with
  | (s, .error k) => if k = codeNotMapped then .page s va else .fault s k va
  | (s, .ok x) =>
    let w := (s.colour c).world
    let ps := pairsAt (x.pa % 256) bs
    if x.device then .fault s codePerm va
    else if (s.tile tk).stashCap = 0 then
      if s.ownEarlier (.tile tk) x.sk || s.lineBusy (ckOf tk) x.sk x.pa then .busy
      else
        let (s, pts) := s.lineWrite x.sk x.pa x.key w ps poison (s.tile tk).pts
        .done (((s.countAccess (ckOf tk) x.sk (unitCount (unitsOf ps)) 0 x.key w).touches (.tile tk) x.sk).modTile tk fun t =>
          { t with pts := maxTime t.pts pts }) ()
    else match s.tileLine tk x w with
      | none => .busy
      | some (s, l) => .done (s.modTile tk fun t => t.setStash (l.merge ps poison)) ()
/-- Reads bytes at TILE scope, line by line. -/
def State.tileRead (s : State) (tk : Nat) (c : Colour) (va n : Nat) : Nat → Mem (List Byte × Bool)
  | 0 => .done s ([], false)
  | fuel + 1 =>
    let m := min n (256 - va % 256)
    if n = 0 then .done s ([], false)
    else (s.tileReadLine tk c va m).bind fun s r =>
      (s.tileRead tk c (va + m) (n - m) fuel).bind fun s q => .done s (r.1 ++ q.1, r.2 || q.2)
/-- Writes bytes at TILE scope, line by line. -/
def State.tileWrite (s : State) (tk : Nat) (c : Colour) (va : Nat) (bs : List Byte) (poison : Bool) : Nat → Mem Unit
  | 0 => .done s ()
  | fuel + 1 =>
    let m := min bs.length (256 - va % 256)
    if bs.length = 0 then .done s ()
    else (s.tileWriteLine tk c va (bs.take m) poison).bind fun s _ =>
      s.tileWrite tk c (va + m) (bs.drop m) poison fuel

/-- The colours under which a colour's accesses may hold lines: its own, and the one that it shares (05_main_memory.md R115). -/
def State.keysOf (s : State) (c : Nat) : List Nat := [c, (s.colour (colourOf c)).kshare.toNat]
/-- Writes back, in every tile of a cluster, the dirty granules of a launch's colours (R167); the write-backs count among the
store acknowledgements that its end waits for. -/
def State.stashEnd (s : State) (ck ctx : Nat) (cs : List Nat) : State :=
  let keys := cs.flatMap s.keysOf
  s.tiles.foldl (fun s e =>
    if ckOf e.1 != ck then s
    else (e.2.stash.filter fun l => keys.contains l.key.toNat).foldl (fun s l => s.stashBack e.1 ctx l) s) s

end Sys2Proof.Machine
end

