-- ==== Sys2Proof/Machine/Operands.lean ====
section
/-!
DEFINITION. What every fabric operator shares: tags and tag operations (02_tokens.md R28 to R30), the values
of operands (10_ops_routing.md R193), room and reservations (02_tokens.md R38 to R41), the firing rule and
the units (R43, R44), credits (R47, 10_ops_routing.md R192), EOS (R34), results on their way out, and the
end of a firing by a fault (12_ops_memory.md R248).
-/
namespace Sys2Proof.Machine

/-- The place of a firing: tile, plane, slot, opcode and fields of the word. -/
structure Site where
  tk : Nat
  plane : Nat
  slot : Nat
  opc : Nat
  f : OpFields
  deriving DecidableEq, Repr

/-- The key of the site's slot. -/
def Site.key (q : Site) : Nat := 64 * q.plane + q.slot
/-- The unit that fires the site's word. -/
def Site.unit (q : Site) : FUnit := OpTable.unitOf q.opc q.f.etype
/-- The cluster of the site. -/
def Site.ck (q : Site) : Nat := ckOf q.tk

/-- A held operand: its matching-store index and entry. -/
structure Operand where
  idx : Nat
  entry : Entry
  deriving DecidableEq, Repr

/-- Operands that a firing would consume, in port order: their common tag, and whether the firing is of
EOS tokens. -/
structure Match where
  tag : Tag
  ops : List (Port × Operand)
  eos : Bool
  deriving DecidableEq, Repr

/-- The first operand of a port. -/
def Match.at? (m : Match) (p : Port) : Option Operand := (m.ops.find? fun x => x.1 = p).map (·.2)
/-- The payload at a port. -/
def Match.payload? (m : Match) (p : Port) : Option Payload := (m.at? p).map (·.entry.token.payload)
/-- Every operand of a port, in order of arrival. -/
def Match.every (m : Match) (p : Port) : List Operand := (m.ops.filter fun x => x.1 = p).map (·.2)

/-- Whether a payload is an EOS. -/
def Payload.isEos : Payload → Bool | .eos _ => true | _ => false
/-- `value(x)` of R193: a narrow value, or the unsigned lane 0 of a WIDE payload. -/
def Payload.value : Payload → Int
  | .wide v => (Lanes.lane v.data 0).toNat
  | .narrow _ v _ => v
  | _ => 0
/-- `pred(x)` of R193. -/
def Payload.truth (x : Payload) : Bool := x.value != 0
/-- The narrow value at a port. -/
def Match.value (m : Match) (p : Port) : Int := ((m.payload? p).getD .order).value
/-- The truth of a guard: an ORDER token counts as true (02_tokens.md R35). -/
def Payload.guardTrue : Payload → Bool | .guard p => p | _ => true
/-- The WIDE payload, or sixteen zero lanes. -/
def Payload.wideOr : Payload → WideVal | .wide v => v | _ => ⟨0, 0⟩
/-- The beats of a token on the narrow plane (R31, R33). -/
def Payload.beats : Payload → Nat | .narrow n _ _ => (n + 7) / 8 | _ => 1
/-- The payload length of a PURGE record (R52). -/
def Payload.bytes : Payload → Nat | .wide _ => 64 | .narrow n _ _ => 4 * ((n + 7) / 8) | _ => 0
/-- The stored beats of a narrow value (R25, R86): a chosen string stands only where its value and length
are the token's (log 5). -/
def DigitForm.string (form : DigitForm) (n : Nat) (v : Int) : List Int :=
  match form with
  | .canonical => Num.digits v n
  | .exact d => d
  | .chosen k =>
    let d := Config.digitChoice k
    if d.length = n ∧ d.all (fun x => -2 ≤ x && x ≤ 2) ∧ Num.digitsValue d = v then d else Num.digits v n

/-- Level widths of a launch (01_notation.md R20); one level of 32 bits where none are known. -/
def State.levelsOf (s : State) (ck : Nat) (ctx : Nat) : List Nat :=
  match s.launch? ck ctx with | some l => l.levels | none => [32]
/-- The lowest bit of level k's field. -/
def levelShift (ls : List Nat) (k : Nat) : Nat := (ls.take k).sum
/-- The width of level k's field. -/
def levelWidth (ls : List Nat) (k : Nat) : Nat := ls.getD k 0
/-- The last declared level. -/
def lastLevel (ls : List Nat) : Nat := ls.length - 1
/-- Tag(t, ITER.k). -/
def Tag.iterAt (t : Tag) (ls : List Nat) (k : Nat) : Nat :=
  (t.iter.toNat / 2 ^ levelShift ls k) % 2 ^ levelWidth ls k
/-- Tag(t, ITER.k, v), with v taken modulo the field's range. -/
def Tag.setIterAt (t : Tag) (ls : List Nat) (k : Nat) (v : Int) : Tag :=
  let sh := levelShift ls k
  let w := 2 ^ levelWidth ls k
  let old := t.iterAt ls k
  { t with iter := BitVec.ofNat 32 (t.iter.toNat - old * 2 ^ sh + (v % (w : Int)).toNat * 2 ^ sh) }
/-- Tag(t, LEVEL, k). -/
def Tag.setLevel (t : Tag) (k : Nat) : Tag := { t with level := BitVec.ofNat 4 k }
/-- A push: LEVEL k + 1 with the new field at v; nothing at the last declared level (R30, R199). -/
def Tag.push (t : Tag) (ls : List Nat) (v : Int) : Option Tag :=
  let k := t.level.toNat
  if k ≥ lastLevel ls then none else some ((t.setLevel (k + 1)).setIterAt ls (k + 1) v)
/-- A pop: field k zero and LEVEL k - 1; nothing at level 0 (R30, R199). -/
def Tag.pop (t : Tag) (ls : List Nat) : Option Tag :=
  let k := t.level.toNat
  if k = 0 then none else some ((t.setIterAt ls k 0).setLevel (k - 1))
/-- The ITER bits that the declared levels cover (01_notation.md R20). -/
def iterMask (ls : List Nat) : BitVec 32 := BitVec.ofNat 32 (2 ^ min ls.sum 32 - 1)
/-- Tag(t, ITER, v): the declared fields are replaced; the bits above the last one, which read as zero, are left as they are
(R20, 02_tokens.md R30; log 106). -/
def Tag.setIter (t : Tag) (ls : List Nat) (v : Int) : Tag :=
  { t with iter := (t.iter &&& ~~~iterMask ls) ||| (BitVec.ofInt 32 v &&& iterMask ls) }
/-- The tag of an EOS that closes level k (R34). -/
def Tag.closing (t : Tag) (ls : List Nat) (k : Nat) : Tag :=
  { t.setLevel k with iter := BitVec.ofNat 32 (t.iter.toNat % 2 ^ levelShift ls k) }

/-- The world of a launch. -/
def State.worldOfCtx (s : State) (ck ctx : Nat) : Option World := (s.launch? ck ctx).map (·.world)
/-- TAGOP on a result tag (R30); nothing is TAG_RANGE. -/
def State.tagOp (s : State) (ck : Nat) (op : TagOp) (t : Tag) (l : Int) : Option Tag :=
  let ls := s.levelsOf ck t.ctx.toNat
  let k := t.level.toNat
  match op with
  | .keep => some t
  | .inc => some (t.setIterAt ls k (t.iterAt ls k + 1))
  | .zero => some (t.setIterAt ls k 0)
  | .iterl => some (t.setIter ls l)
  | .push => t.push ls 0
  | .pop => t.pop ls
  | .ctxl =>
    let c := (l % 2048).toNat
    if (s.worldOfCtx ck c).isSome && s.worldOfCtx ck c = s.worldOfCtx ck t.ctx.toNat then
      some { t with ctx := BitVec.ofNat 11 c }
    else none
/-- The value that TAGOP reads of the L operand; for a GUARD or ORDER token a free value (log 24). -/
def State.lValue (s : State) (m : Match) : State × Int :=
  match m.payload? .l with
  | some (.wide v) => (s, (Lanes.lane v.data 0).toNat)
  | some (.narrow _ v _) => (s, v)
  | _ => ({ s with free := s.free + 1 }, Config.ordValue s.free)

/-- Whether a launch's region covers a tile of its cluster. -/
def Launch.covers (l : Launch) (ti : Nat) : Bool :=
  l.x ≤ ti % 16 && ti % 16 < l.x + l.w && l.y ≤ ti / 16 && ti / 16 < l.y + l.h
/-- The world that owns a plane of a tile: that of a launch placed there. -/
def State.planeWorld (s : State) (tk plane : Nat) : Option World :=
  (s.cluster (ckOf tk)).launches.findSome? fun e =>
    if e.2.plane = plane && e.2.covers (tiOf tk) then some e.2.world else none
/-- Whether a world is frozen or under scan in a cluster (21_faults_preemption.md R377). -/
def State.isFrozen (s : State) (w : World) : Bool := (Map.get? s.frozen w.toNat).isSome
/-- Whether a cluster is stalled by a scan (R377). -/
def State.scanning (s : State) (ck : Nat) : Bool := s.frozen.any fun e => e.2.scanning.contains ck
/-- Floors of the colours of a world (02_tokens.md R40). -/
def State.floorSum (s : State) (w : World) : Nat :=
  s.colours.foldl (fun a e => if e.2.world = w && e.2.state != .free then a + e.2.floor else a) 0
/-- Entries and reservations of a colour in a tile. -/
def Tile.usage (t : Tile) (c : Colour) : Nat :=
  (t.store.filter fun e => e.2.token.tag.colour = c).length + (t.reserved.filter fun r => r.colour = c).length
/-- The colours that hold entries or reservations. -/
def Tile.coloursIn (t : Tile) : List Nat :=
  let all := t.store.map (fun e => e.2.token.tag.colour.toNat) ++ t.reserved.map (fun r => r.colour.toNat)
  all.foldl NatSet.insert []
/-- Pool entries in use (R40). -/
def State.poolUse (s : State) (t : Tile) : Nat :=
  t.coloursIn.foldl (fun a c => a + (t.usage (colourOf c) - (s.colour (colourOf c)).floor)) 0
/-- Whether a reservation for colour c would succeed (R40). -/
def State.colourRoom (s : State) (tk : Nat) (c : Colour) : Bool :=
  let t := s.tile tk
  let fl := match s.planeWorld tk t.plane.toNat with | some w => s.floorSum w | none => 0
  t.usage c < (s.colour c).floor || s.poolUse t < 256 - fl
/-- Whether a tile grants a reservation for a token of a context (R39, R40; 16_scheduling.md R327, R329;
21_faults_preemption.md R377). -/
def State.grants (s : State) (tk : Nat) (c : Colour) (ctx : Nat) : Bool :=
  let t := s.tile tk
  match s.launch? (ckOf tk) ctx with
  | none => false
  | some l =>
    l.plane = t.plane.toNat && t.swap.isNone && !s.isFrozen l.world && s.colourRoom tk c
/-- Takes a reservation. -/
def State.hold (s : State) (tk : Nat) (r : Reservation) : State :=
  s.modTile tk fun t => { t with reserved := t.reserved ++ [r] }
/-- Frees a reservation. -/
def State.unhold (s : State) (tk : Nat) (r : Reservation) : State :=
  s.modTile tk fun t => { t with reserved := t.reserved.erase r }

/-- The tile that a destination names, from a tile of the cluster (01_notation.md R14). -/
def destTile (ti : Nat) (d : Dest) : Option Nat :=
  let x := (ti % 16 : Nat) + d.dx.toInt
  let y := (ti / 16 : Nat) + d.dy.toInt
  if 0 ≤ x ∧ x < 16 ∧ 0 ≤ y ∧ y < 12 then some (16 * y.toNat + x.toNat) else none
/-- The edge port of a router (07_network.md R144). -/
def edgePort (ti : Nat) : Option Nat :=
  let x := ti % 16
  let y := ti / 16
  if y = 0 then some x else if y = 11 then some (16 + x)
  else if x = 0 ∧ 2 ≤ y ∧ y ≤ 9 then some (32 + (y - 2)) else none
/-- The exit port that a destination of a context leads to, if it is one (15_prog_two_colours.md R306). -/
def State.exitAt (s : State) (ck ctx ti : Nat) (d : Dest) : Option Nat :=
  if !OpTable.exitForm d then none
  else
    match destTile ti d, s.launch? ck ctx with
    | some t, some l =>
      match edgePort t with
      | some p => if l.ports.any (fun g => g.isExit && g.phys = p) then some p else none
      | none => none
    | _, _ => none

/-- The reorder unit of an exit port for a colour and context, where the binding asks for ordered delivery
(12_ops_memory.md R249). -/
def Cluster.orderedExit (k : Cluster) (phys ctx : Nat) (c : Colour) : Option Binding :=
  k.bindings.find? fun b =>
    b.isExit && b.phys = phys && b.ctx = ctx && b.colour = c && b.ordered && !b.finished
/-- Whether an emission leaves by an exit port of a context. -/
def State.leavesBy (s : State) (ck ti phys ctx : Nat) (e : Emission) : Bool :=
  e.token.tag.ctx.toNat = ctx && s.exitAt ck ctx ti e.dest = some phys
/-- Tokens that a narrow firing has still to send whole. -/
def NarrowFiring.unsent (n : NarrowFiring) : List Emission :=
  (List.range n.out.length).filterMap fun k => n.out[k]?.bind fun x =>
    if n.sent < ((n.out.take k).filter fun y => y.2.index = x.2.index).foldl (fun a y => a + y.2.token.payload.beats) 0 +
        x.2.token.payload.beats then some x.2 else none
/-- The tokens of a context that the units of a tile have still to send, or that its commit buffer holds, for an exit port. -/
def State.unitTokens (s : State) (tk phys ctx : Nat) : List Token :=
  let t := s.tile tk
  let es := (t.vector ++ t.trail).flatMap (·.out) ++ t.narrow.flatMap NarrowFiring.unsent ++ (t.array.map (·.out)).getD []
  (es.filter (s.leavesBy (ckOf tk) (tiOf tk) phys ctx)).map (·.token) ++
    t.commits.filterMap fun c => match c.effect with
      | .exit e _ => if e.phys = phys && c.ctx = ctx then some e.token else none
      | _ => none
/-- The tags of the results that the outstanding accesses of a tile have still to send to an exit port. -/
def State.accessTags (s : State) (tk phys ctx : Nat) : List Tag :=
  (s.tile tk).accesses.flatMap fun a =>
    if a.opc = 0x021 || a.out.ctx.toNat != ctx then []
    else ((OpTable.dests a.fields).filter fun d => s.exitAt (ckOf tk) ctx (tiOf tk) d.2 = some phys).map fun _ => a.out
/-- Colour and ITER of the data tokens of a context that are on their way to an exit port: those that wait at it, those on the mesh,
and the results that units and accesses have still to send. -/
def State.exitBound (s : State) (ck phys ctx : Nat) : List (Colour × BitVec 32) :=
  let k := s.cluster ck
  let mine := fun (x : ExitToken) => x.phys = phys && x.token.tag.ctx.toNat = ctx
  let tiles := (s.tiles.filter fun e => ckOf e.1 = ck).map (·.1)
  let tokens := (k.exits.filter mine).map (·.token) ++
    (k.flits.filterMap fun f => match f.cargo with
      | .exit x last => if last && mine x then some x.token else none
      | _ => none) ++ tiles.flatMap fun tk => s.unitTokens tk phys ctx
  ((tokens.filter fun t => match t.payload with | .eos _ => false | _ => true).map (·.tag) ++
    tiles.flatMap fun tk => s.accessTags tk phys ctx).map fun t => (t.colour, t.iter)
/-- Room at an exit port for data tokens with some ITERs (R249): a token that is not the next one needs an entry, at most 63 ahead, and
those on their way to the port have theirs. -/
def State.exitRoom (s : State) (ck phys ctx : Nat) (c : Colour) (iters : List (BitVec 32)) : Bool :=
  let k := s.cluster ck
  match k.orderedExit phys ctx c with
  | none => true
  | some b =>
    let at' := fun (r : Reorder) => r.gport = b.gport && r.ctx = ctx
    let next := fun (d : Colour) => match k.reorders.find? (fun r => at' r && r.colour = d) with | some r => r.next | none => 0
    let held := fun (r : Reorder) => r.held.length
    let coming := (s.exitBound ck phys ctx).filter fun x => x.2 != next x.1 && (k.orderedExit phys ctx x.1).isSome
    let need := iters.filter fun i => i != next c
    need.all (fun i => decide ((i - next c).toNat ≤ 63)) &&
      (need = [] ||
        (decide (((k.reorders.filter at').map held).sum + coming.length + need.length ≤ 64) &&
          decide (((k.reorders.filter fun r => at' r && r.colour = c).map held).sum +
            (coming.filter fun x => x.1 = c).length + need.length ≤ 48)))

/-- Reserves `n` entries for a token of colour c and context `ctx` at every destination that is no exit, and
checks the exits for the data tokens of the ITERs given for a destination (R43). -/
def State.reserveAll (s : State) (q : Site) (t : Tag) (iters : Nat → List (BitVec 32)) (n : Dest → Nat) : Option State :=
  (OpTable.dests q.f).foldl (fun acc d =>
    match acc with
    | none => none
    | some s =>
      match s.exitAt q.ck t.ctx.toNat (tiOf q.tk) d.2 with
      | some p => if n d.2 = 0 || s.exitRoom q.ck p t.ctx.toNat t.colour (iters d.1) then some s else none
      | none =>
        match destTile (tiOf q.tk) d.2 with
        | none => none
        | some ti =>
          let dst := 192 * q.ck + ti
          (List.range (n d.2)).foldl (fun acc _ =>
            match acc with
            | none => none
            | some s =>
              if s.grants dst t.colour t.ctx.toNat then
                some (s.hold dst ⟨t.colour, t.ctx, d.2.slot.toNat, q.plane⟩)
              else none) (some s)) (some s)

/-- Tokens that a firing sends to each destination. -/
def tokensPer (opc : Nat) (eos : Bool) : Nat :=
  if opc = 0x01C then 0
  else if eos then 1
  else if opc = 0x021 then 0
  else if opc = 0x198 ∨ opc = 0x199 then 9
  else if opc = 0x19A then 8
  else 1
/-- Whether `eosgen` follows a data token with an EOS (10_ops_routing.md R200). -/
def State.closes (s : State) (q : Site) (t : Tag) : Bool :=
  let ls := s.levelsOf q.ck t.ctx.toNat
  let k := t.level.toNat
  q.opc = 0x018 && q.f.imm != 0 && t.iterAt ls k = (q.f.imm.toNat - 1) % 2 ^ levelWidth ls k
/-- ACTIVE of an `lcarry` slot for a colour and context (10_ops_routing.md R198). -/
def State.activeOf (s : State) (q : Site) (t : Tag) : BitVec 16 :=
  Map.get ((s.tile q.tk).slot q.key).active (colourCtx t.colour t.ctx.toNat) 0
/-- What a data firing of `lcarry` sends (R198): the destinations, the tag before TAGOP, and ACTIVE after it; nothing is TAG_RANGE. -/
def State.carryStep (s : State) (q : Site) (m : Match) : Option (List Nat × Tag × BitVec 16) :=
  let ls := s.levelsOf q.ck m.tag.ctx.toNat
  let n := s.activeOf q m.tag
  let j := m.tag.level.toNat
  if (m.at? .l).isSome then (m.tag.push ls 0).map fun u => ([0, 1], u, n + 1)
  else if j = 0 then none
  else if ((m.payload? .c).getD .order).truth then some ([0, 1], m.tag.setIterAt ls j (m.tag.iterAt ls j + 1), n)
  else some ([2], (m.tag.setIterAt ls j 0).setLevel (j - 1), n - 1)
/-- The tag that a tag operator gives its result before TAGOP (R199), or TAG_RANGE; other operators keep the firing's. -/
def Site.retag (q : Site) (ls : List Nat) (m : Match) : Option Tag :=
  let k := m.tag.level.toNat
  if q.opc = 0x010 then some (m.tag.setIterAt ls k q.f.imm.toNat)
  else if q.opc = 0x011 then some (m.tag.setIterAt ls k (m.tag.iterAt ls k + q.f.imm.toNat))
  else if q.opc = 0x012 then some (m.tag.setIterAt ls k (m.value .l))
  else if q.opc = 0x013 then m.tag.push ls q.f.imm.toNat
  else if q.opc = 0x014 then m.tag.pop ls
  else some m.tag
/-- The tags of the data results that a firing sends to destination i; none where it ends by TAG_RANGE, and none for `gcoal`, whose
chunks leave later (10_ops_routing.md R205). -/
def State.resultTags (s : State) (q : Site) (m : Match) (i : Nat) : List Tag :=
  let ls := s.levelsOf q.ck m.tag.ctx.toNat
  let op := fun (t : Tag) => s.tagOp q.ck q.f.tagop t ((m.payload? .l).map (·.value) |>.getD 0)
  if m.eos || q.opc = 0x021 then []
  else if q.opc = 0x007 then
    match s.carryStep q m with
    | some x => if x.1.contains i then (op x.2.1).toList else []
    | none => []
  else if q.opc = 0x19A then (List.range 8).filterMap fun c => (m.tag.push ls c).bind op
  else match (q.retag ls m).bind op with
    | some t => List.replicate (tokensPer q.opc false) t
    | none => []
/-- The room of R43 for a match. -/
def State.roomFor (s : State) (q : Site) (m : Match) : Bool :=
  (s.reserveAll q m.tag (fun i => (s.resultTags q m i).map (·.iter)) fun d =>
    tokensPer q.opc m.eos + (if !m.eos && s.closes q m.tag && d.port != .g then 1 else 0)).isSome

/-- The edge at which a credit's port lies, seen from a cluster; the credit of another cluster's port leaves by the units' port. -/
def State.creditGoal (s : State) (ck : Nat) (k : Credit) : Nat × Nat :=
  let at' := (Map.get? (s.cluster k.ck).ports k.port).bind fun e => (s.launch? k.ck e.ctx).bind fun l => l.ports[e.gport]?
  match at' with
  | some g => if k.ck = ck then portPlace g.phys else portPlace unitPort
  | none => portPlace unitPort
/-- Returns a credit from a tile to its port, by a message on VC3 (R47, R48). -/
def State.returnCredit (s : State) (tk : Nat) (c : Option Credit) (colour : Colour) : State :=
  match c with
  | none => s
  | some k => s.inject (ckOf tk) (.tile (tiOf tk)) (s.creditGoal (ckOf tk) k) true 3 (.credit k colour)
/-- Returns the credits of operands. -/
def State.returnCredits (s : State) (tk : Nat) (ops : List Operand) : State :=
  ops.foldl (fun s o => s.returnCredit tk o.entry.token.credit o.entry.token.tag.colour) s
/-- Takes operands out of the matching store. -/
def State.consume (s : State) (tk : Nat) (ops : List Operand) : State :=
  s.modTile tk fun t => { t with store := ops.foldl (fun st o => Map.del st o.idx) t.store }
/-- Operands of a match. -/
def Match.operands (m : Match) : List Operand := m.ops.map (·.2)
/-- A result is poisoned where an operand is (25_reliability.md R410). -/
def Match.poison (m : Match) : Bool := m.ops.any fun x => x.2.entry.token.poison

/-- Adds one to a count. -/
def bump : List (Nat × Edge × Nat) → Nat → Edge → List (Nat × Edge × Nat)
  | [], ctx, e => [(ctx, e, 1)]
  | (c, e', n) :: r, ctx, e => if c = ctx ∧ e' = e then (c, e', n + 1) :: r else (c, e', n) :: bump r ctx e

/-- Hands a beat of an emission, or the whole of it on the wide plane, to the mesh (07_network.md R142). The reservation is
already the token's (R39); its arrival at the mesh is counted for its edge with its first beat (21_faults_preemption.md R380). -/
def State.sendBeat (s : State) (tk plane vc : Nat) (e : Emission) (id beat : Nat) : State :=
  let ck := ckOf tk
  let ti := tiOf tk
  let t := e.token
  let edge : Edge := ⟨ti, e.slot, e.index⟩
  match s.exitAt ck t.tag.ctx.toNat ti e.dest with
  | some p => s.inject ck (.tile ti) (portPlace p) e.dest.narrow vc (.exit ⟨p, edge, t⟩ (beat + 1 = t.payload.beats))
  | none =>
    match destTile ti e.dest with
    | none => s
    | some dst =>
      let s := if beat = 0 then s.modTile tk fun y => { y with sent := bump y.sent t.tag.ctx.toNat edge } else s
      s.inject ck (.tile ti) (dst, 4) e.dest.narrow vc (.token edge plane id beat t)
/-- Hands an emission to the mesh, beat after beat; under COMMIT an exit delivery is held (21_faults_preemption.md R382). -/
def State.deliver (s : State) (tk plane vc : Nat) (e : Emission) : State :=
  let t := e.token
  match s.exitAt (ckOf tk) t.tag.ctx.toNat (tiOf tk) e.dest, e.commit with
  | some p, true =>
    s.modTile tk fun y =>
      { y with commits := y.commits ++ [⟨t.tag.ctx.toNat, t.tag.colour, .exit ⟨p, ⟨tiOf tk, e.slot, e.index⟩, t⟩ e.dest.narrow, false⟩] }
  | _, _ =>
    let (s, id) := s.newId
    (List.range t.payload.beats).foldl (fun s b => s.sendBeat tk plane vc e id b) s
/-- Delivers emissions in order. -/
def State.deliverAll (s : State) (tk plane vc : Nat) (es : List Emission) : State :=
  es.foldl (fun s e => s.deliver tk plane vc e) s

/-- The emission of a token to destination `d` of the site (R29, R43). -/
def State.emission (s : State) (q : Site) (d : Nat × Dest) (t : Tag) (p : Payload) (cr : Option Credit)
    (poison : Bool) : Emission :=
  { slot := q.slot, index := d.1, dest := d.2, commit := q.f.flags.commit,
    token := { tag := { t with slot := d.2.slot, port := portCode d.2.port }, payload := p, credit := cr,
               poison := poison, epoch := (s.tile q.tk).epochs.getLsbD q.plane } }

/-- A result that a firing sends: destination, payload, tag. -/
structure Result where
  index : Nat
  dest : Dest
  payload : Payload
  tag : Tag
  deriving DecidableEq, Repr

/-- One payload for every destination of the word, with FLAGS.ORDER in place of it where set (R35). -/
def Site.toAll (q : Site) (p : Payload) (t : Tag) : List Result :=
  (OpTable.dests q.f).map fun d => ⟨d.1, d.2, if q.f.flags.order then .order else p, t⟩
/-- One payload for chosen destination indexes. -/
def Site.toSome (q : Site) (is : List Nat) (p : Payload) (t : Tag) : List Result :=
  (q.toAll p t).filter fun r => is.contains r.index
/-- An EOS for every destination that is no G port (10_ops_routing.md R194). -/
def Site.eosAll (q : Site) (lv : BitVec 4) (t : Tag) : List Result :=
  ((OpTable.dests q.f).filter fun d => d.2.port != .g).map fun d => ⟨d.1, d.2, .eos lv, t⟩

/-- The emissions of results: the first carries the credit (R47, R192). -/
def State.emissions (s : State) (q : Site) (rs : List Result) (cr : Option Credit) (poison : Bool) :
    List Emission :=
  match rs with
  | [] => []
  | r :: rest =>
    s.emission q (r.index, r.dest) r.tag r.payload cr poison ::
      rest.map fun x => s.emission q (x.index, x.dest) x.tag x.payload none poison
/-- Takes the reservations of emissions. -/
def State.holdAll (s : State) (q : Site) (es : List Emission) : State :=
  es.foldl (fun s e =>
    match s.exitAt q.ck e.token.tag.ctx.toNat (tiOf q.tk) e.dest, destTile (tiOf q.tk) e.dest with
    | none, some ti => s.hold (192 * q.ck + ti) ⟨e.token.tag.colour, e.token.tag.ctx, e.dest.slot.toNat, q.plane⟩
    | _, _ => s) s

/-- Latency of the vector unit (11_ops_vector.md R214); an EOS of `ared` or `anorm` takes one cycle (R253). -/
def vectorLatency (opc : Nat) (eos : Bool) : Nat :=
  if opc < 0x080 then 1
  else if 0x084 ≤ opc ∧ opc ≤ 0x086 then 3
  else if opc < 0x0C0 then 1
  else if opc = 0x0C4 ∨ opc = 0x0CA then 12
  else if opc = 0x0C8 ∨ opc = 0x0CB then 8
  else if opc = 0x0C9 ∨ opc = 0x0CC then 10
  else if opc < 0x100 then 4
  else if opc < 0x118 then 2
  else if opc = 0x11B then 4
  else if opc < 0x120 then 6
  else if opc < 0x140 then 1
  else if eos then 1 else 8

/-- When the beats of a narrow operator's result may leave (10_ops_routing.md R210, R194). -/
def beatMode (opc : Nat) : BeatClass :=
  if opc = 0x040 ∨ opc = 0x041 ∨ opc = 0x042 ∨ opc = 0x046 then .online
  else if opc < 0x020 ∧ opc ≠ 0x001 ∧ opc ≠ 0x003 then .forward else .whole
/-- Whether an operator takes an operand at a port once its first beat is held (02_tokens.md R33): not a predicate (R193), and not
one whose value TAGOP or the operator reads. -/
def takesFirstBeat (opc : Nat) (f : OpFields) (p : Port) : Bool :=
  (beatMode opc != .whole || opc = 0x001) && p != .g && !(OpTable.anyLength opc p && opc != 0x019) && !(opc = 0x012 && p = .l) &&
    !(p = .l && (f.tagop = .iterl || f.tagop = .ctxl))
/-- The beat of a narrow firing's output with which its k-th token begins: a token to one destination follows the earlier ones to
it. -/
def startBeat (out : List (Nat × Emission)) (k : Nat) : Nat :=
  match out[k]? with
  | none => 0
  | some x => (((out.take k).filter fun y => y.2.index = x.2.index).map fun y => y.2.token.payload.beats).sum
/-- The beats of a narrow firing's output. -/
def outBeats (out : List (Nat × Emission)) : Nat :=
  (List.range out.length).foldl (fun a k => max a (startBeat out k + (out[k]?.map fun x => x.2.token.payload.beats).getD 0)) 0
/-- The beats of an operand that a narrow firing follows. -/
def Operand.source (o : Operand) : BeatSource := ⟨o.entry.id, o.entry.beats, o.entry.token.payload.beats⟩
/-- Sends results through the site's unit: the vector unit after its latency, one token of a group in each
further cycle (R214, R253); the narrow unit beat by beat behind the operands it follows (R210); the other units at once. -/
def State.submit (s : State) (q : Site) (lat : Nat) (follow : List Operand) (es : List Emission) : State :=
  if es = [] then s
  else
    match q.unit with
    | .vector =>
      if q.opc = 0x199 ∨ q.opc = 0x19A then
        let per := (OpTable.dests q.f).length
        s.modTile q.tk fun t =>
          { t with vector := t.vector ++ (List.range (es.length / per)).map fun i =>
              ⟨q.plane, s.cycles + lat + i, (List.range per).filterMap fun j => es[j * (es.length / per) + i]?⟩ }
      else s.modTile q.tk fun t => { t with vector := t.vector ++ [⟨q.plane, s.cycles + lat, es⟩] }
    | .narrow =>
      let out := (List.range es.length).filterMap fun i => es[i]?.map fun e => (s.nextId + i, e)
      let s : State := { s with nextId := s.nextId + es.length }
      s.modTile q.tk fun t =>
        { t with narrow := t.narrow ++ [⟨q.plane, beatMode q.opc, s.cycles, follow.map Operand.source, outBeats out, 0, out⟩] }
    | _ => s.deliverAll q.tk q.plane 0 es

/-- The results of a firing: `carry` is the operand whose credit rides on the first one; every other
consumed credit is returned (R47, R192). The operands have left the store. -/
def State.output (s : State) (q : Site) (m : Match) (rs : List Result) (carry : Option Operand) : State :=
  let rest := match carry with
    | some o => if rs = [] then m.operands else m.operands.filter fun x => x.idx != o.idx
    | none => m.operands
  let s := s.returnCredits q.tk rest
  let es := s.emissions q rs (carry.bind (·.entry.token.credit)) m.poison
  let follow := match beatMode q.opc with | .online => m.operands | .forward => carry.toList | .whole => []
  (s.holdAll q es).submit q (vectorLatency q.opc m.eos) follow es

/-- `Fault(k)` under R248: the operands are consumed and their credits returned, nothing is emitted, and one
record of kind FAULT goes to the colour's ring. -/
def State.faultFiring (s : State) (q : Site) (m : Match) (code va : Nat) : State :=
  (s.returnCredits q.tk m.operands).faultRecord q.ck m.tag.colour 0x10 code va
    { m.tag with slot := BitVec.ofNat 6 q.slot, port := 0 }.toWord
/-- Code TAG_RANGE. -/
def codeTagRange : Nat := 0x02

/-- The slot's operator, where it decodes; the word zero of an empty slot is none (03_formats.md R59). -/
def State.slotOp (s : State) (tk plane slot : Nat) : Option (Nat × OpFields) :=
  let w := ((s.tile tk).slot (64 * plane + slot)).word.toNat
  if w = 0 then none
  else
    match decodeFabric w with
    | .ok i => fabricOf i
    | .error _ => none

/-- The snapshot under way of a context (21_faults_preemption.md R380). -/
def State.snapshotOf (s : State) (ck ctx : Nat) : Option Snapshot :=
  (s.cluster ck).snapshots.find? fun x => x.ctx = ctx
/-- Whether a held operand may take part in a firing: WAIT state, a word of its context installed and its
registers written (16_scheduling.md R322), and not held by a snapshot (R380). -/
def State.eligible (s : State) (tk plane slot : Nat) (e : Entry) : Bool :=
  let t := s.tile tk
  let ctx := e.token.tag.ctx.toNat
  e.token.tag.slot.toNat = slot && e.state = .wait && (t.slot (64 * plane + slot)).ctx = some ctx &&
  (match s.launch? (ckOf tk) ctx with
    | none => false
    | some l => l.state != .ended && !l.spliceRegs.any fun r => r.ti = tiOf tk) &&
  (match s.snapshotOf (ckOf tk) ctx with
    | none => !t.savedFor.contains ctx
    | some sn => if t.savedFor.contains ctx then !sn.stop else e.token.epoch = t.epochs.getLsbD plane)
/-- The port of a code (R28). -/
def portOf (c : BitVec 2) : Port := if c = 0 then .l else if c = 1 then .r else if c = 2 then .g else .c
/-- Whether every beat of an operand is held. -/
def Entry.complete (e : Entry) : Bool := e.token.payload.beats ≤ e.beats.length
/-- The operands that the word at a site may take now, by store index: whole ones, and at ports where it takes the first beat
those that have come so far (R33). -/
def State.waiting (s : State) (q : Site) : List Operand :=
  (s.tile q.tk).store.filterMap fun e =>
    if s.eligible q.tk q.plane q.slot e.2 && (e.2.complete || takesFirstBeat q.opc q.f (portOf e.2.token.tag.port))
    then some ⟨e.1, e.2⟩ else none

/-- The earliest of some operands. -/
def earliest (xs : List Operand) : Option Operand :=
  xs.foldl (fun b o => match b with
    | none => some o
    | some p => if o.entry.seq < p.entry.seq then some o else b) none
/-- Operands of a port with a given match: data, or EOS of one level. -/
def matching (xs : List Operand) (p : Port) (t : Tag) (eos : Option (BitVec 4)) : List Operand :=
  xs.filter fun o => o.entry.token.tag.port = portCode p && o.entry.token.tag.same t &&
    (match eos, o.entry.token.payload with
      | none, x => !x.isEos
      | some l, .eos l' => l = l'
      | some _, _ => false)
/-- The EOS level of an operand. -/
def Operand.eos? (o : Operand) : Option (BitVec 4) :=
  match o.entry.token.payload with | .eos l => some l | _ => none
/-- One operand at each of the ports, all of one tag; the earliest where several stand (R38, R43). -/
def matchPorts (xs : List Operand) (ps : List Port) (o : Operand) : Option Match :=
  let t := o.entry.token.tag
  (ps.foldr (fun p acc =>
    match acc, earliest (matching xs p t o.eos?) with
    | some l, some x => some ((p, x) :: l)
    | _, _ => none) (some [])).map fun l => ⟨t, l, o.eos?.isSome⟩
/-- The declared data ports (R43). -/
def dataPorts (f : OpFields) : List Port := [Port.l, Port.r, Port.c].filter (OpTable.declares f)
/-- The declared ports with the guard. -/
def allPorts (f : OpFields) : List Port := dataPorts f ++ (if f.arityG then [.g] else [])
/-- Operands at a port. -/
def atPort (xs : List Operand) (p : Port) : List Operand :=
  xs.filter fun o => o.entry.token.tag.port = portCode p
/-- The matches of the firing rule: all declared ports for data, the data ports for EOS (R34, R43, R194). -/
def matchesAll (f : OpFields) (xs : List Operand) : List Match :=
  match dataPorts f with
  | [] => []
  | p :: _ => (atPort xs p).filterMap fun o =>
      matchPorts xs (if o.eos?.isSome then dataPorts f else allPorts f) o
/-- An operand alone. -/
def alone (p : Port) (o : Operand) : Match := ⟨o.entry.token.tag, [(p, o)], o.eos?.isSome⟩
/-- Each operand at a port alone, where it is data or EOS as asked. -/
def singles (xs : List Operand) (p : Port) (eos : Bool) : List Match :=
  ((atPort xs p).filter fun o => o.eos?.isSome = eos).map (alone p)
/-- EOS pairs over ports. -/
def eosMatches (xs : List Operand) (ps : List Port) : List Match :=
  match ps with
  | [] => []
  | p :: _ => ((atPort xs p).filter fun o => o.eos?.isSome).filterMap (matchPorts xs ps)
/-- Nine tokens of one tag at a triple input, in order of arrival (13_ops_matrix.md R268). -/
def triple (xs : List Operand) (p : Port) (t : Tag) : Option (List (Port × Operand)) :=
  let sorted := (matching xs p t none).foldl (fun acc o =>
    let before := acc.takeWhile fun y => y.entry.seq < o.entry.seq
    before ++ o :: acc.drop before.length) []
  if sorted.length < 9 then none else some ((sorted.take 9).map fun o => (p, o))

/-- NEXT of a `greord` slot (R206). -/
def State.nextOf (s : State) (q : Site) (t : Tag) : BitVec 32 :=
  Map.get ((s.tile q.tk).slot q.key).next (colourCtx t.colour t.ctx.toNat) 0

/-- The sets of operands that the word at a site could consume now (R43, and the entries that depart from
it: R197, R198, R201, R202, R204, R205, R206, R268). -/
def State.matches' (s : State) (q : Site) : List Match :=
  let xs := s.waiting q
  if q.opc = 0x005 then
    (((atPort xs .c).filter fun o => o.eos?.isNone && earliest (matching xs .c o.entry.token.tag none) = some o).filterMap fun o =>
      matchPorts xs [.c, if o.entry.token.payload.truth then .l else .r] o) ++ eosMatches xs [.l, .r, .c]
  else if q.opc = 0x006 then singles xs .l false ++ singles xs .r false ++ eosMatches xs [.l, .r]
  else if q.opc = 0x007 then
    singles xs .l false ++
    ((atPort xs .r).filter fun o => o.eos?.isNone).filterMap (matchPorts xs [.r, .c]) ++
    (singles xs .l true).filter (fun m => s.activeOf q m.tag = 0) ++
    singles xs .r true ++ singles xs .c true
  else if q.opc = 0x019 then singles xs .l false ++ singles xs .r false ++ eosMatches xs [.l, .r]
  else if q.opc = 0x01C then
    (dataPorts q.f).flatMap (fun p => singles xs p false ++
      (singles xs p true).filter fun m => m.tag.level != 0) ++
    (eosMatches xs (dataPorts q.f)).filter fun m => m.tag.level = 0
  else if q.opc = 0x020 then
    matchesAll q.f xs |>.filter fun m => !m.eos ||
      !(s.tile q.tk).store.any fun e => e.2.state = .cfgreq && e.2.token.tag.slot.toNat = q.slot &&
        e.2.token.tag.colour = m.tag.colour && e.2.token.tag.ctx = m.tag.ctx
  else if q.opc = 0x021 then
    matchesAll q.f xs |>.filter fun m => !m.eos || !(s.tile q.tk).accesses.any fun c =>
      c.opc = 0x021 && c.slot = q.slot && c.tag.colour = m.tag.colour && c.tag.ctx = m.tag.ctx
  else if q.opc = 0x022 then
    (singles xs .l false).filter (fun m => m.tag.iter = s.nextOf q m.tag) ++
    (singles xs .l true).filter fun m => m.tag.level != 0 || !(s.tile q.tk).store.any fun e =>
      !e.2.token.payload.isEos && e.2.token.tag.slot.toNat = q.slot && e.2.token.tag.colour = m.tag.colour &&
        e.2.token.tag.ctx = m.tag.ctx
  else if q.opc = 0x199 then
    (((atPort xs .l).filter fun o => o.eos?.isNone).filterMap fun o =>
      match triple xs .l o.entry.token.tag, triple xs .r o.entry.token.tag with
      | some a, some b => some ⟨o.entry.token.tag, a ++ b, false⟩
      | _, _ => none) ++ eosMatches xs [.l, .r]
  else if q.opc = 0x19A then
    (((atPort xs .l).filter fun o => o.eos?.isNone).filterMap fun o =>
      (triple xs .l o.entry.token.tag).map fun a => ⟨o.entry.token.tag, a, false⟩) ++ eosMatches xs [.l]
  else matchesAll q.f xs

/-- The last operand of a match: its cycle of arrival and its store index (R44). -/
def Match.last (m : Match) : Nat × Nat :=
  match m.ops.foldl (fun (b : Option Operand) x =>
      match b with | none => some x.2 | some o => if o.entry.seq < x.2.entry.seq then some x.2 else b) none with
  | none => (0, 0)
  | some o => (o.entry.filled, o.idx)
/-- Whether a match is of an operand at L alone. -/
def Match.atL (m : Match) : Bool := m.ops.all fun x => x.1 = .l
/-- The order in which the tags of one slot go (R44): earlier last operand, then the lower store index; at an `amerge` L goes
first where both came in one cycle (R197). -/
def Match.goesBefore (opc : Nat) (a b : Match) : Bool :=
  if opc = 0x006 && a.last.1 = b.last.1 && a.atL != b.atL then a.atL
  else a.last.1 < b.last.1 || (a.last.1 = b.last.1 && a.last.2 < b.last.2)
/-- The order of R44: earlier last operand, then the lower store index. -/
def Match.before (a b : Match) : Bool :=
  a.last.1 < b.last.1 || (a.last.1 = b.last.1 && a.last.2 < b.last.2)

/-- A 32-bit word of a tile's scratchpad. -/
def Tile.word32 (t : Tile) (a : Nat) : Nat := bytesNat (Memory.readBytes t.scratch a 4)
/-- A 64-bit word of a tile's scratchpad. -/
def Tile.word64 (t : Tile) (a : Nat) : Nat := bytesNat (Memory.readBytes t.scratch a 8)
/-- Entries held by the circular buffer whose header lies at an offset (08_tile_memory.md R172), and its N. -/
def Tile.bufferCount (t : Tile) (h : Nat) : Nat × Nat :=
  ((t.word32 h + 2 ^ 32 - t.word32 (h + 4)) % 2 ^ 32, 2 ^ (t.word32 (h + 8) / 256 % 16))
/-- A broken header (R172): a count above N, or a reserved bit set. -/
def Tile.bufferBroken (t : Tile) (h : Nat) : Bool :=
  let w := t.word64 (h + 8)
  let (c, n) := t.bufferCount h
  decide (c > n) || w % 256 != 0 || w / 2 ^ 12 % 2 ^ 20 != 0 || w / 2 ^ 41 != 0
/-- The offset of a mode-2 header in a scalar pair (13_ops_matrix.md R254, R255). -/
def Tile.headerOf (t : Tile) (reg : Nat) : Nat := ((t.regs.s).getD reg 0).toNat % 2 ^ 16
/-- Whether a mode-2 operand's header lies in the tile itself and can be read as a count. -/
def Tile.countable (t : Tile) (tk reg : Nat) : Bool :=
  let w := ((t.regs.s).getD reg 0).toNat
  decide (w < 2 ^ 24) && w / 2 ^ 16 = 16 * (tiOf tk / 16) + tiOf tk % 16 && w % 16 = 0 &&
    decide (t.headerOf reg + 16 ≤ 4096 * t.spk.toNat) && !t.bufferBroken (t.headerOf reg)
/-- The buffer limits of R257 and R260, judged on the counts that were performed before this cycle. A broken operand does not hold
the firing: it faults (R256). -/
def State.bufferOk (s : State) (q : Site) : Bool :=
  let t := { s.tile q.tk with scratch := (s.tile q.tk).started }
  let g := OpTable.immField q.f
  let held := fun (mode reg : Nat) => mode != 2 || !t.countable q.tk reg || 0 < (t.bufferCount (t.headerOf reg)).1
  if 0x180 ≤ q.opc ∧ q.opc ≤ 0x185 then held (g 17 16) (g 15 12) && held (g 11 10) (g 9 6)
  else if q.opc = 0x18A ∧ g 9 8 = 2 then
    let h := t.headerOf (g 13 10)
    !t.countable q.tk (g 13 10) || (t.bufferCount h).1 < (t.bufferCount h).2
  else true
/-- The WIDE operand at a port. -/
def Match.wide (m : Match) (p : Port) : WideVal := ((m.payload? p).getD .order).wideOr
/-- The sequence that an `ascan` names (R269). -/
def scanSeq (c : WideVal) : Nat := (Lanes.lane c.data 3).toNat % 64
/-- The sequence that a KV operator names (R265 to R267). -/
def kvSeq (opc : Nat) (v : Int) : Nat :=
  let w := (v % (2 ^ 64 : Nat)).toNat
  if opc = 0x1A0 then w / 2 ^ 26 % 64 else w / 2 ^ 56 % 64

/-- Commit-buffer entries that a firing needs (21_faults_preemption.md R382). -/
def State.commitNeed (s : State) (q : Site) (m : Match) : Nat :=
  if !q.f.flags.commit then 0
  else (if OpTable.commits q.opc && !m.eos then 1 else 0) +
    ((OpTable.dests q.f).filter fun d => (s.exitAt q.ck m.tag.ctx.toNat (tiOf q.tk) d.2).isSome).length *
      tokensPer q.opc m.eos
/-- Whether a memory operator's guard suppresses its access (12_ops_memory.md R236). -/
def suppressed (opc : Nat) (m : Match) : Bool :=
  opc != 0x170 && (match m.payload? .g with | some p => !p.guardTrue | none => false)
/-- The address that an address operator forms, as an integer (R233); `ldg` adds no displacement (R242). -/
def memAddr (q : Site) (m : Match) : Int :=
  ((m.payload? .l).getD .order).value + (if q.opc = 0x158 then 0 else q.f.imm.toInt)
/-- The alignment of R234. -/
def memAlign (opc : Nat) : Nat :=
  if opc = 0x142 ∨ opc = 0x146 then 1
  else if opc = 0x143 ∨ opc = 0x147 then 2
  else if opc = 0x144 ∨ opc = 0x148 then 4
  else if opc = 0x145 ∨ opc = 0x149 then 8
  else if opc = 0x158 then 256 else 64
/-- The checks of R234 that come before translation: VA_RANGE, FE_SPACE, ALIGN. `.ok` gives the address. -/
def addrCheck (opc : Nat) (a : Int) : Except Nat Nat :=
  if a < 0 ∨ a ≥ 2 ^ 47 then .error 0x14
  else
    let n := a.toNat
    if (0x150 ≤ opc && opc ≤ 0x152 && !inWindow n) || (opc = 0x158 && inWindow n) then .error 0x1C
    else if n % memAlign opc != 0 then .error 0x1B else .ok n
/-- The operators that form an address from L before they issue (R231). -/
def addrOp (opc : Nat) : Bool :=
  (0x140 ≤ opc && opc ≤ 0x152) || opc = 0x158 || (0x160 ≤ opc && opc ≤ 0x167)
/-- The descriptor address of `ldg` (R242). -/
def State.groupAddr (s : State) (q : Site) : Nat := ((s.tile q.tk).regs.s.getD (q.f.imm.toNat % 16) 0).toNat
/-- The colour-virtual address that the tile's TLB looks up at issue, and whether the access writes: none where a
check of R234 fails first, or for a scratchpad address. -/
def State.lookedUp (s : State) (q : Site) (m : Match) : Option Nat :=
  if !addrOp q.opc || m.eos || suppressed q.opc m then none
  else
    match addrCheck q.opc (memAddr q m) with
    | .error _ => none
    | .ok a =>
      if q.opc = 0x158 then
        match addrCheck q.opc (s.groupAddr q : Nat) with
        | .error _ => none
        | .ok d => some d
      else if inWindow a then none else some a
/-- Whether a memory tag misses in the tile colour TLB, so that a walk comes first (R235). -/
def State.needsWalk (s : State) (q : Site) (m : Match) : Bool :=
  match s.lookedUp q m with
  | none => false
  | some a =>
    !(s.colour m.tag.colour).poisoned && (s.colour m.tag.colour).state = .live &&
      (tlbFind (s.tile q.tk).tlb m.tag.colour a).isNone

/-- Whether an operator reads memory, and whether it writes. -/
def memReads (opc : Nat) : Bool :=
  opc = 0x021 || (0x140 ≤ opc && opc != 0x141 && opc < 0x146) || (0x158 ≤ opc && opc != 0x15A && opc ≤ 0x15B) ||
    (0x160 ≤ opc && opc ≤ 0x167)
/-- Whether an operator writes memory. -/
def memWrites (opc : Nat) : Bool :=
  opc = 0x141 || (0x146 ≤ opc && opc ≤ 0x149) || opc = 0x15A || (0x160 ≤ opc && opc ≤ 0x167)
/-- Whether an operator is an atomic. -/
def isAtomic (opc : Nat) : Bool := 0x160 ≤ opc && opc ≤ 0x167

/-- Whether an access is a store (it can stand in `sent` only where it fills the stash, R166). -/
def Access.isStore (a : Access) : Bool := a.opc = 0x141 || (0x146 ≤ a.opc && a.opc ≤ 0x149) || a.opc = 0x15A

/-- The byte ranges that `gcoal` reads (10_ops_routing.md R205): the row length in bytes, and the first byte of row
k, or nothing for a row outside the table. -/
def Tile.gatherRow (t : Tile) (f : OpFields) (k : Int) : Nat × Option Nat :=
  let rowb := 64 * OpTable.immField f 10 4
  let d := (t.regs.s.getD (OpTable.immField f 3 0) 0).toNat
  (rowb, if k < 0 ∨ (k + 1) * rowb > (64 * bits d 63 47 : Nat) then none else some (bits d 46 0 + k.toNat * rowb))
/-- The slice bank of a row's first line (R205). -/
def rowBank (a : Nat) : Nat := a / 256 % 4
/-- Whether a bank's queue of rows has room for one more row of `gcoal` (R205). -/
def Tile.gatherRoom (t : Tile) (f : OpFields) (m : Match) : Bool :=
  match (t.gatherRow f (m.value .l)).2 with
  | none => true
  | some a =>
    let queued := t.accesses.filter fun x =>
      x.opc = 0x021 && x.object = some (rowBank a) && (x.phase = .reissue || x.phase = .sent)
    decide ((queued.foldl (fun (l : List Tag) x => if l.contains x.tag then l else x.tag :: l) []).length < 16)

/-- The sequence number of a chunk, which stands as its C operand (10_ops_routing.md R205). -/
def Access.seqNo (a : Access) : BitVec 32 := BitVec.ofInt 32 ((a.c.getD .order).value)
/-- The window of R205: fewer than 64 chunks past the oldest one that is not emitted. -/
def Tile.gatherOpen (t : Tile) (a : Access) : Bool :=
  let all := t.accesses.filter fun b => b.opc = 0x021 && b.slot = a.slot && b.plane = a.plane &&
    b.tag.colour = a.tag.colour && b.tag.ctx = a.tag.ctx
  let oldest := all.foldl (fun (o : BitVec 32) b => if (b.seqNo - o).toInt < 0 then b.seqNo else o) a.seqNo
  decide ((a.seqNo - oldest).toNat < 64)

/-- The limits of unit and operator that may hold a ready tag (R198, R210, R214, R235, R253, R257, R260,
R264, R382). -/
def State.limitOk (s : State) (q : Site) (m : Match) : Bool :=
  let t := s.tile q.tk
  decide (t.commits.length + s.commitNeed q m ≤ 64) &&
  (match q.unit with
    | .vector =>
      let n := if q.opc = 0x01C || (q.opc = 0x01D && !m.eos) then 0 else if m.eos then 1 else if q.opc = 0x199 then 9
        else if q.opc = 0x19A then 8 else 1
      (List.range n).all fun i =>
        (t.vector.filter fun v => v.due = s.cycles + vectorLatency q.opc m.eos + i).length < 2
    | .narrow => t.narrow.length < 4
    | .cells => t.array.isNone && (m.eos || s.bufferOk q)
    | .memory =>
      m.eos || suppressed q.opc m ||
        (if s.needsWalk q m then decide (t.walks.length < 4) else decide ((t.accesses.filter fun a => a.opc != 0x021 && a.plane = q.plane).length < 32))) &&
  (q.opc != 0x021 || m.eos || t.gatherRoom q.f m) &&
  (q.opc != 0x007 || m.eos || (m.at? .l).isNone || s.activeOf q m.tag != 65535 ||
    lastLevel (s.levelsOf q.ck m.tag.ctx.toNat) ≤ m.tag.level.toNat) &&
  (!(0x1A0 ≤ q.opc && q.opc ≤ 0x1A2) || m.eos ||
    match t.array, m.payload? .l with
    | some a, some p => a.scanOf != some (kvSeq q.opc p.value)
    | _, _ => true)

/-- The input edges of a tile in a context, with whether each is a back edge (21_faults_preemption.md R380): its entry
ports, and the destinations of other tiles' words that name it. -/
def State.inputEdges (s : State) (ck ctx ti : Nat) (l : Launch) : List (Edge × Bool) :=
  ((l.ports.filter fun g => !g.isExit && g.ti = ti).map fun g => (({ src := 192 + g.phys, slot := 0, dest := 0 } : Edge), false)) ++
  (l.words.filter fun w => w.ti != ti).flatMap fun (w : PlacedWord) =>
    match decodeFabric w.word.toNat with
    | .error _ => []
    | .ok i =>
      match fabricOf i with
      | none => []
      | some (_, f) => ((OpTable.dests f).filter fun d =>
          (s.exitAt ck ctx w.ti d.2).isNone && destTile w.ti d.2 = some ti).map fun d =>
            (({ src := w.ti, slot := w.slot, dest := d.1 } : Edge), w.back.getLsbD d.1)
/-- A count kept for an edge of a context. -/
def edgeCount (xs : List (Nat × Edge × Nat)) (ctx : Nat) (e : Edge) : Option Nat :=
  (xs.find? fun x => x.1 = ctx && x.2.1 = e).map fun x => x.2.2
/-- The contexts whose snapshots a tile saves for together with one of them: those on the same plane (log 31). -/
def State.savedTogether (s : State) (tk ctx : Nat) : List (Nat × Launch) :=
  let k := s.cluster (ckOf tk)
  match Map.get? k.launches ctx with
  | none => []
  | some l => k.launches.filter fun e =>
      e.2.plane = l.plane && e.2.covers (tiOf tk) && k.snapshots.any fun n => n.ctx = e.1
/-- Whether a tile's save condition holds (R380 step 3): every forward edge has its marker and the tokens it counts, or
there is none and a marker has reached the cluster. -/
def State.saveDue (s : State) (tk ctx : Nat) : Bool :=
  let ck := ckOf tk
  let t := s.tile tk
  let both := s.savedTogether tk ctx
  let edges := both.flatMap fun (e : Nat × Launch) =>
    ((s.inputEdges ck e.1 (tiOf tk) e.2).filter fun x => !x.2).map fun x => (e.1, x.1)
  (s.snapshotOf ck ctx).isSome && !t.savedFor.contains ctx && both.any (fun e => e.1 = ctx) &&
  (if edges = [] then s.tiles.any fun e => ckOf e.1 = ck && e.2.markers.any fun m => both.any fun b => b.1 = m.1
    else edges.all fun e =>
      match edgeCount t.markers e.1 e.2 with
      | none => false
      | some n => n ≤ (edgeCount t.received e.1 e.2).getD 0)

/-- Whether times of a world stand still: it is frozen or in a debug stop (21_faults_preemption.md R377,
R384). -/
def State.halted (s : State) (w : World) : Bool := s.isFrozen w || s.debugStops.contains w.toNat
/-- Whether a breakpoint holds a tag back (21_faults_preemption.md R383, R384). -/
def State.breaks (s : State) (q : Site) (t : Tag) : Bool :=
  q.f.flags.brk &&
    let fs := (s.tile q.tk).tbpf.toList.filter fun w =>
      w.getLsbD 63 && w.extractLsb' 59 2 = BitVec.ofNat 2 q.plane && w.extractLsb' 53 6 = BitVec.ofNat 6 q.slot
    fs = [] || fs.any fun w =>
      (!w.getLsbD 62 || w.extractLsb' 44 9 = t.colour) && (!w.getLsbD 61 || w.extractLsb' 0 32 = t.iter)
/-- Whether another tile's latched tag of the same world has to fire first after a resume (R384). -/
def State.resuming (s : State) (tk : Nat) (t : Tag) : Bool :=
  s.tiles.any fun e => e.1 != tk && e.2.resume &&
    match e.2.latch with
    | none => false
    | some l => s.worldOfCtx (ckOf e.1) l.tag.ctx.toNat = s.worldOfCtx (ckOf tk) t.ctx.toNat
/-- Whether a tag may fire now beside R43: no throttle cycle stops it (26_host_and_package.md R424), its cluster is not
stalled and its world neither frozen nor in a debug stop (R377, R384); after a resume the latched tags go first and are
not tested again. -/
def State.mayFire (s : State) (q : Site) (m : Match) : Bool :=
  let t := s.tile q.tk
  let resumed := fun (l : DebugLatch) => t.resume && l.slot = q.slot && l.tag.same m.tag
  !s.scanning q.ck && !s.throttled && !((s.cluster q.ck).snapshots.any fun n => s.saveDue q.tk n.ctx) &&
  (match s.worldOfCtx q.ck m.tag.ctx.toNat with
    | none => false
    | some w => !s.halted w) &&
  (match t.latch with
    | some l => resumed l
    | none => !s.resuming q.tk m.tag && !s.breaks q m.tag) &&
  (q.unit != .memory || m.eos || q.opc = 0x170 ||
    !t.markers.any fun x => !t.savedFor.contains x.1)

/-- The match that fires first at a site, where one is ready and free to go. -/
def State.best (s : State) (q : Site) : Option Match :=
  ((s.matches' q).filter fun m => s.roomFor q m && s.limitOk q m && s.mayFire q m).foldl
    (fun b m => match b with | none => some m | some x => if Match.goesBefore q.opc m x then some m else b) none
/-- Whether the unit has already started a firing in this cycle (R44). -/
def State.unitBusy (s : State) (q : Site) : Bool :=
  (s.tile q.tk).lastFired.getD (match q.unit with | .vector => 0 | .narrow => 1 | .memory => 2 | .cells => 3) 0
    = s.cycles + 1
/-- Whether some other slot of the tile has a ready tag that a test accepts. -/
def State.anySlot (s : State) (q : Site) (test : Site → Match → Bool) : Bool :=
  (List.range 64).any fun k =>
    k != q.slot &&
      match s.slotOp q.tk q.plane k with
      | none => false
      | some (opc, f) =>
        let r : Site := ⟨q.tk, q.plane, k, opc, f⟩
        (match s.best r with | none => false | some x => test r x)
/-- Whether another slot of the unit has a tag that goes first (R44). -/
def State.outrankedInUnit (s : State) (q : Site) (m : Match) : Bool :=
  s.anySlot q fun r x => r.unit = q.unit && x.before m
/-- Whether another tag goes first: one of the unit (R44); for `ascan` also a KV operator of its sequence that fires in
this cycle (13_ops_matrix.md R264). -/
def State.outranked (s : State) (q : Site) (m : Match) : Bool :=
  s.outrankedInUnit q m ||
    (q.opc = 0x198 && s.anySlot q fun r x =>
      0x1A0 ≤ r.opc && r.opc ≤ 0x1A2 && !x.eos && !s.unitBusy r && !s.outrankedInUnit r x &&
      kvSeq r.opc (x.value .l) = scanSeq (m.wide .c))
/-- Marks the unit and the slot used in this cycle; the latched tag of a debug stop is done (R384). -/
def State.started (s : State) (q : Site) : State :=
  s.modTile q.tk fun t =>
    { t.modSlot q.key (fun x => { x with firedAt := s.cycles + 1 }) with
      lastFired := t.lastFired.setIfInBounds
        (match q.unit with | .vector => 0 | .narrow => 1 | .memory => 2 | .cells => 3) (s.cycles + 1)
      latch := none
      resume := false }
/-- `Purge` (02_tokens.md R52, R53): the credit is returned and a record is written. -/
def State.purge (s : State) (tk : Nat) (t : Token) (status fault : Nat) : State :=
  (s.returnCredit tk t.credit t.tag.colour).recordColour (ckOf tk) t.tag.colour 0x02 status fault t.payload.bytes t.tag.toWord
/-- The sub-frame of a tile in a colour's spill frame (R54). -/
def State.spillFrame (s : State) (c : Colour) (tk : Nat) : Nat := ((s.colour c).spillBase.getD 0) + 32768 * tk
/-- Where an operand's place stands in the sub-frame: 4 * slot + port (R54). -/
def Tag.place (t : Tag) : Nat := 4 * t.slot.toNat + t.port.toNat
/-- The presence bit of an operand's place, read at TILE scope (R54, R56). -/
def State.present (s : State) (tk : Nat) (t : Tag) : Mem Bool :=
  (s.tileRead tk t.colour (s.spillFrame t.colour tk + t.place / 8) 1 2).map fun r => (bytesNat r.1).testBit (t.place % 8)
/-- Sets or clears a presence bit (R56, R57), at TILE scope. -/
def State.presence (s : State) (tk : Nat) (t : Tag) (on : Bool) : Mem Unit :=
  let a := s.spillFrame t.colour tk + t.place / 8
  match s.tileRead tk t.colour a 1 2 with
  | .done s (bs, _) =>
    let old := bytesNat bs
    let bit := 2 ^ (t.place % 8)
    s.tileWrite tk t.colour a [BitVec.ofNat 8 (if on then old ||| bit else old - (old &&& bit))] false 2
  | .fault s k va => .fault s k va
  | .page s va => .page s va
  | .busy => .busy
/-- Discards directory entries of a tile (R57): each is purged with status AGE. -/
def State.dropSpills (s : State) (tk : Nat) (which : SpillEntry → Bool) : State :=
  let gone := (s.tile tk).spills.filter which
  let s := s.modTile tk fun t => { t with spills := t.spills.filter fun x => !which x }
  gone.foldl (fun s x => ((s.presence tk x.token.tag false).stateOr s).purge tk x.token 0x01 0) s
/-- Records which EOS at level 0 a slot has consumed (16_scheduling.md R321), 4 * colour + port; the spilled operands of
the slot, or where a sink ends the context those of the tile, are discarded (R57). -/
def State.noteClosed (s : State) (q : Site) (m : Match) : State :=
  if m.eos && m.tag.level = 0 then
    (s.dropSpills q.tk fun x => x.token.tag.colour = m.tag.colour && x.token.tag.ctx = m.tag.ctx &&
      (q.opc = 0x01C || x.token.tag.slot.toNat = q.slot)).modTile q.tk fun t => t.modSlot q.key fun x =>
      { x with closed := m.ops.foldl (fun l o =>
          NatSet.insert l (4 * m.tag.colour.toNat + (portCode o.1).toNat)) x.closed }
  else s

/-- The tiles at which a firing reserves entries, its own exits apart (R39, R43). -/
def State.wants (s : State) (q : Site) (m : Match) : List Nat :=
  (OpTable.dests q.f).filterMap fun d =>
    if (s.exitAt q.ck m.tag.ctx.toNat (tiOf q.tk) d.2).isSome || tokensPer q.opc m.eos = 0 then none
    else (destTile (tiOf q.tk) d.2).map fun ti => 192 * q.ck + ti
/-- The mesh input at which a tile's reservation requests reach another one, by the route of R143. -/
def inputSide (src dst : Nat) : Nat :=
  if src / 16 < dst / 16 then 0 else if dst / 16 < src / 16 then 2 else if src % 16 < dst % 16 then 3 else 1
/-- The place of a requester in a tile's order of grants (R42): its own slots in ascending order, then its mesh inputs in rotating
order, starting after the input granted last. -/
def Tile.grantRank (t : Tile) (tk : Nat) (q : Site) : Nat :=
  if q.tk = tk then q.slot else 64 + (inputSide (tiOf q.tk) (tiOf tk) + 3 - t.grantFrom) % 4
/-- The firings that ask a tile for entries in this cycle ahead of another one. -/
def State.aheadAt (s : State) (dst : Nat) (q : Site) : List (Site × Match) :=
  s.tiles.flatMap fun e =>
    if ckOf e.1 != q.ck then []
    else (List.range 64).filterMap fun k =>
      (s.slotOp e.1 e.2.plane.toNat k).bind fun o =>
        let r : Site := ⟨e.1, e.2.plane.toNat, k, o.1, o.2⟩
        if (s.tile dst).grantRank dst r < (s.tile dst).grantRank dst q then
          (s.best r).bind fun x => if (s.wants r x).contains dst && !s.unitBusy r && !s.outrankedInUnit r x then some (r, x) else none
        else none
/-- The state once the firings ahead have their entries at a tile. -/
def State.grantAhead (s : State) (dst : Nat) (xs : List (Site × Match)) : State :=
  xs.foldl (fun s x => (List.range (tokensPer x.1.opc x.2.eos)).foldl (fun s _ =>
    if s.grants dst x.2.tag.colour x.2.tag.ctx.toNat then s.hold dst ⟨x.2.tag.colour, x.2.tag.ctx, x.1.slot, x.1.plane⟩ else s) s) s
/-- Whether a firing is not granted its entries in this cycle, because requests ahead of it at a tile take the last ones (R42). -/
def State.yields (s : State) (q : Site) (m : Match) : Bool :=
  (s.wants q m).any fun dst =>
    let ahead := s.aheadAt dst q
    ahead != [] && !(s.grantAhead dst ahead).roomFor q m
/-- Each tile that grants a firing of another tile remembers the input (R42). -/
def State.pointGrants (s : State) (q : Site) (m : Match) : State :=
  (s.wants q m).foldl (fun s dst =>
    if dst = q.tk then s else s.modTile dst fun t => { t with grantFrom := inputSide (tiOf q.tk) (tiOf dst) }) s

/-- The site of the acting slot. -/
def State.site (s : State) (opc : Nat) (f : OpFields) : Site :=
  ⟨s.actor.tk, (s.tile s.actor.tk).plane.toNat, s.actor.slot, opc, f⟩
/-- Inputs whose poison ends the firing (25_reliability.md R410): address and predicate inputs, guards; a fence never faults
(12_ops_memory.md R247), and an operator with a false guard faults on nothing else (R236). -/
def poisonEnds (opc : Nat) (m : Match) : Bool :=
  !m.eos && opc != 0x170 && m.ops.any fun x => x.2.entry.token.poison && (x.1 = .g || !suppressed opc m &&
    ( opc = 0x021 || (OpTable.anyLength opc x.1 &&
    opc != 0x003 && opc != 0x019)))
/-- Whether a ready tag starts now: its unit is free, no other tag goes first, its entries are granted, and the cycle has not been
counted as a stall of its slot (R42, R44, R45). -/
def State.canStart (s : State) (q : Site) (m : Match) : Bool :=
  !s.unitBusy q && !s.outranked q m && !s.yields q m && ((s.tile q.tk).slot q.key).countedAt != s.cycles + 1
/-- A FIRING (R43, R44): the match that goes first is consumed and `act` gives its effect; nothing happens
where none may fire (log 4). -/
def State.fire (s : State) (opc : Nat) (f : OpFields) (act : State → Site → Match → State) : State :=
  let q := s.site opc f
  match s.best q with
  | none => s
  | some m =>
    if !s.canStart q m then s
    else
      let s := (((s.consume q.tk m.operands).started q).pointGrants q m).noteClosed q m
      if poisonEnds opc m then s.faultFiring q m codePoison 0 else act s q m

/-- The default of R34: one EOS to every destination that is no G port; L's credit rides on the first. -/
def State.forwardEos (s : State) (q : Site) (m : Match) : State :=
  s.output q m (q.eosAll m.tag.level m.tag) (m.at? .l)
/-- The result tag: TAGOP on the firing's tag; TAG_RANGE ends the firing. -/
def State.withTag (s : State) (q : Site) (m : Match) (t : Tag) (k : State → Tag → State) : State :=
  let (s, v) := s.lValue m
  match s.tagOp q.ck q.f.tagop t v with
  | none => s.faultFiring q m codeTagRange 0
  | some t => k s t
/-- A firing with one result for every destination, computed from the operands; EOS by R34. -/
def State.fireResult (s : State) (opc : Nat) (f : OpFields) (g : Match → Payload) : State :=
  s.fire opc f fun s q m =>
    if m.eos then s.forwardEos q m
    else s.withTag q m m.tag fun s t => s.output q m (q.toAll (g m) t) (m.at? .l)
/-- The WIDE operand at a port, where the port is declared. -/
def Match.wide? (m : Match) (p : Port) : Option WideVal := (m.payload? p).map (·.wideOr)
/-- A vector operator of one operand. -/
def State.fireWide1 (s : State) (opc : Nat) (f : OpFields) (g : WideVal → WideVal) : State :=
  s.fireResult opc f fun m => .wide (g (m.wide .l))
/-- A vector operator of two operands. -/
def State.fireWide2 (s : State) (opc : Nat) (f : OpFields) (g : WideVal → WideVal → WideVal) : State :=
  s.fireResult opc f fun m => .wide (g (m.wide .l) (m.wide .r))
/-- A vector operator of three operands. -/
def State.fireWide3 (s : State) (opc : Nat) (f : OpFields)
    (g : WideVal → WideVal → WideVal → WideVal) : State :=
  s.fireResult opc f fun m => .wide (g (m.wide .l) (m.wide .r) (m.wide .c))

end Sys2Proof.Machine
end

