-- ==== Sys2Proof/Machine/Scratch.lean ====
section
/-!
DEFINITION. Scratchpad: addresses and their checks (08_tile_memory.md R160), reads and writes at a bank (R161),
full/empty bits and parked accesses (R169, R170; 12_ops_memory.md R239), barrier objects (R173 to R175).
-/
namespace Sys2Proof.Machine

/-- The first address of that window (09_block_transfer.md R176). -/
def windowBase : Nat := 0x7FFFFF * 2 ^ 24
/-- The tile and offset of an SPA in a cluster, where `n` bytes of it exist and the colour's world owns them; a
poisoned colour faults first (21_faults_preemption.md R375). -/
def State.spCheck (s : State) (ck : Nat) (c : Colour) (spa n : Nat) : Except Nat (Nat × Nat) :=
  let y := bits spa 23 20
  let tk := 192 * ck + 16 * y + bits spa 19 16
  let off := spa % 2 ^ 16
  if (s.colour c).poisoned then .error codeColourPoisoned
  else if y ≥ 12 ∨ off + n > 4096 * (s.tile tk).spk.toNat then .error codeSpRange
  else if (s.colour c).world != (s.tile tk).tsWorld then .error codeSpWorld
  else .ok (tk, off)
/-- Granules that bytes touch. -/
def granulesOf (off n : Nat) : List Nat :=
  if n = 0 then [] else (List.range ((off + n - 1) / 16 - off / 16 + 1)).map fun i => off / 16 + i
/-- Bytes of a tile's scratchpad, and whether a granule they touch is poisoned. -/
def Tile.spRead (t : Tile) (off n : Nat) : List Byte × Bool :=
  (Memory.readBytes t.scratch off n, (granulesOf off n).any t.poison.contains)
/-- A tile after bytes at offsets were written at its bank: poisoned data poisons the granules, unpoisoned data
that covers a granule clears its poison (25_reliability.md R410). -/
def Tile.spWrite (t : Tile) (ps : List (Nat × Byte)) (poison : Bool) : Tile :=
  let gs := ps.foldl (fun l p => NatSet.insert l (p.1 / 16)) []
  let covered := fun (g : Nat) => (List.range 16).all fun i => ps.any fun p => p.1 = 16 * g + i
  { t with
    scratch := Memory.writePairs t.scratch 0 ps
    poison := gs.foldl (fun l g =>
      if poison then NatSet.insert l g else if covered g then NatSet.erase l g else l) t.poison }
/-- Sets granules FULL or EMPTY. -/
def Tile.setFull (t : Tile) (gs : List Nat) (b : Bool) : Tile :=
  { t with full := gs.foldl (fun l g => if b then NatSet.insert l g else NatSet.erase l g) t.full }
/-- Whether a full/empty access finds its four granules in the state it needs (R239). -/
def Tile.feReady (t : Tile) (off : Nat) (k : FeKind) : Bool :=
  (List.range 4).all fun i => t.full.contains (off / 16 + i) = (k != .store)
/-- The active bytes of a WIDE payload at an offset. -/
def activeBytes (off : Nat) (v : WideVal) : List (Nat × Byte) :=
  (List.range 64).filterMap fun j =>
    if Lanes.on v.mask (j / 4) then some (off + j, Lanes.byte v.data j) else none
/-- Replaces an outstanding access of a tile. -/
def Tile.setAccess (t : Tile) (a : Access) : Tile :=
  { t with accesses := t.accesses.map fun b => if b.id = a.id then a else b }
/-- Answers an outstanding access of a tile. -/
def State.answer (s : State) (tk id : Nat) (g : Access → Access) : State :=
  s.modTile tk fun t =>
    { t with accesses := t.accesses.map fun a => if a.id = id then { g a with phase := .answered, since := s.cycles + 1 } else a }
/-- An answer of a bank to an access of tile `src` (R161): at once to its own tile, to another by a flit on VC1, an acknowledgement on
the narrow plane (07_network.md R142; log 108). A write's acknowledgement is outstanding until then (12_ops_memory.md R237). -/
def State.bankAnswer (s : State) (tk src id ctx : Nat) (ack : Bool) (g : Access → Access) : State :=
  if src != tk && (s.tile src).accesses.any fun a => a.id = id then
    (s.modTile src fun t =>
      { t with accesses := t.accesses.map fun a => if a.id = id then { g a with phase := .sent } else a }).inject (ckOf tk)
      (.tile (tiOf tk)) (tiOf src, 4) ack 1 (.reply src id)
  else (s.answer src id g).acknowledge (if ack then some (ckOf src, ctx) else none)
/-- Performs a full/empty access whose bits are ready, in one step at the bank (R239). -/
def State.feDo (s : State) (tk : Nat) (w : FeWait) : State :=
  let t := s.tile tk
  let gs := granulesOf w.off 64
  match w.kind with
  | .store =>
    let s := s.modTile tk fun t => (t.spWrite (activeBytes w.off w.data) w.poison).setFull gs true
    s.bankAnswer tk w.src w.id w.tag.ctx.toNat true id
  | _ =>
    let (bs, p) := t.spRead w.off 64
    let s := if w.kind = .consume then s.modTile tk fun t => t.setFull gs false else s
    s.bankAnswer tk w.src w.id w.tag.ctx.toNat false fun a =>
      { a with data := ⟨BitVec.ofNat 512 (bytesNat bs), Lanes.full⟩, memPoison := p }
/-- Serves the parked accesses of a block in order of arrival, until one needs the bits in another state (R170);
`fuel` bounds their number. -/
def State.feServe (s : State) (tk block : Nat) : Nat → State
  | 0 => s
  | fuel + 1 =>
    match (s.tile tk).parked.find? fun w => w.off / 64 = block with
    | none => s
    | some w =>
      if (s.tile tk).feReady w.off w.kind then
        ((s.modTile tk fun t => { t with parked := t.parked.erase w }).feDo tk w).feServe tk block fuel
      else s
/-- Serves the blocks of granules whose bits changed. -/
def State.feChanged (s : State) (tk : Nat) (gs : List Nat) : State :=
  (gs.foldl (fun l g => NatSet.insert l (g / 4)) []).foldl (fun s b => s.feServe tk b 17) s
/-- Writes bytes at a bank and sets their granules FULL (R169: block-transfer writes, group fills, images). -/
def State.spFill (s : State) (tk off : Nat) (bs : List Byte) (poison : Bool) : State :=
  let gs := granulesOf off bs.length
  (s.modTile tk fun t => (t.spWrite (pairsAt off bs) poison).setFull gs true).feChanged tk gs
/-- The access of a full/empty operator waits at the tile it addresses, or to be resent there (R170). -/
def State.feParked (s : State) (w : FeWait) : State :=
  s.modTile w.src fun t =>
    { t with accesses := t.accesses.map fun a => if a.id = w.id then { a with phase := .parked } else a }
/-- A full/empty access arrives at its tile: it is performed, parked, or refused where the list of 16 is full; a
refused one is resent 16 cycles later (R170). -/
def State.feArrive (s : State) (tk : Nat) (w : FeWait) : State :=
  let t := s.tile tk
  if t.feReady w.off w.kind then (s.feDo tk w).feServe tk (w.off / 64) 17
  else if t.parked.length < 16 then
    (s.modTile tk fun t => { t with parked := t.parked ++ [{ w with age := 0 }] }).feParked w
  else (s.modTile tk fun t => { t with refused := t.refused ++ [{ w with resendAt := s.cycles + 16 }] }).feParked w

/-- A barrier object's fields (R173). -/
structure Barrier where
  err : Bool
  waiters : Nat
  phase : Nat
  arrived : Nat
  expected : Nat
  deriving DecidableEq, Repr
/-- Reads a barrier object. -/
def Tile.barrier (t : Tile) (off : Nat) : Barrier :=
  let w := bytesNat (Memory.readBytes t.scratch off 16)
  ⟨bits w 96 96 = 1, bits w 95 80, bits w 79 64, bits w 63 32, bits w 31 0⟩
/-- Writes a barrier object's fields; the reserved bits are kept. -/
def Tile.setBarrier (t : Tile) (off : Nat) (b : Barrier) : Tile :=
  let w := bytesNat (Memory.readBytes t.scratch off 16)
  t.spWrite (pairsAt off (natBytes 16 (w / 2 ^ 97 * 2 ^ 97 + (if b.err then 2 ^ 96 else 0) +
    b.waiters % 2 ^ 16 * 2 ^ 80 + b.phase % 2 ^ 16 * 2 ^ 64 + b.arrived % 2 ^ 32 * 2 ^ 32 +
    b.expected % 2 ^ 32))) false
/-- An arrival of n bytes on a barrier object (R174): the whole phases that ARRIVED + n completes. -/
def Barrier.arrive (b : Barrier) (n : Nat) : Barrier :=
  if b.expected = 0 then { b with err := true }
  else
    let acc := b.arrived + n
    { b with phase := (b.phase + acc / b.expected) % 2 ^ 16, arrived := acc % b.expected }
/-- Whether a wait on phase p is satisfied (R175). -/
def Barrier.passed (b : Barrier) (p : Nat) : Bool :=
  let d := (b.phase + 2 ^ 16 - p % 2 ^ 16) % 2 ^ 16
  1 ≤ d && d ≤ 32767
/-- Wakes the contexts parked in `bwait` on an object: they issue it again, and WAITERS loses each one
(14_control_core.md R301). -/
def State.wakeBarrier (s : State) (tk off : Nat) : State :=
  let spa := (tiOf tk / 16) * 2 ^ 20 + (tiOf tk % 16) * 2 ^ 16 + off
  let waits : Context → Bool := fun c => match c.park with | .barrier a _ => decide (a = spa) | _ => false
  let n := ((s.cluster (ckOf tk)).ctxs.toList.filter waits).length
  let s := s.modCluster (ckOf tk) fun k =>
    { k with ctxs := k.ctxs.map fun c => if waits c then { c with park := .none } else c }
  s.modTile tk fun t => let b := t.barrier off; t.setBarrier off { b with waiters := b.waiters - n }
/-- An arrival performed at the object's bank. -/
def State.arriveAt (s : State) (tk off n : Nat) : State :=
  let b := (s.tile tk).barrier off
  let b' := b.arrive n
  let s := s.modTile tk fun t => t.setBarrier off b'
  if b'.phase = b.phase then s else s.wakeBarrier tk off

end Sys2Proof.Machine
end

