-- ==== Sys2Proof/Machine/CardFields.lean ====
section
/-!
DEFINITION. The fields of a job card and of region descriptors (03_formats.md R72; 09_block_transfer.md R176, R182), and a card's
accesses (R176, R177).
-/
namespace Sys2Proof.Machine

/-- Bits of a card. -/
def Card.field (c : Card) (hi lo : Nat) : Nat := Sys2Proof.Machine.bits c.bits.toNat hi lo
/-- OP. -/
def Card.op (c : Card) : Nat := c.field 7 0
/-- RV. -/
def Card.rv (c : Card) : Bool := c.field 8 8 = 1
/-- JV. -/
def Card.jv (c : Card) : Bool := c.field 9 9 = 1
/-- MV. -/
def Card.mv (c : Card) : Bool := c.field 10 10 = 1
/-- RING. -/
def Card.ring (c : Card) : Nat := c.field 31 16
/-- TAG. -/
def Card.tag (c : Card) : Nat := c.field 63 32
/-- COUNT. -/
def Card.count (c : Card) : Nat := c.field 95 64
/-- MASKP. -/
def Card.maskp (c : Card) : Nat := c.field 383 320
/-- JOIN. -/
def Card.join (c : Card) : Nat := c.field 447 384
/-- ARG. -/
def Card.arg (c : Card) : Nat := c.field 511 448
/-- Field FAB of a gather card's ARG (R182). -/
def Card.fab (c : Card) : Bool := c.op = 0x03 && c.field 511 511 = 1
/-- Field CPORT of a gather card's ARG (R182). -/
def Card.cport (c : Card) : Nat := c.field 510 508
/-- Field RPORT. -/
def Card.rport (c : Card) : Nat := c.field 506 504
/-- Field IW: 8-byte indices. -/
def Card.iw (c : Card) : Bool := c.field 480 480 = 1
/-- `rowb`: 64 * ROWL (R182). -/
def Card.rowb (c : Card) : Nat := 64 * c.field 459 448

/-- A region descriptor (R72): its first byte and its length in bytes. -/
structure Span where
  base : Nat
  len : Nat
  deriving DecidableEq, Repr
/-- The region of 64 bits. -/
def Span.of (d : Nat) : Span := ⟨bits d 46 0, 64 * bits d 63 47⟩
/-- RD0. -/
def Card.rd0 (c : Card) : Span := .of (c.field 191 128)
/-- RD1. -/
def Card.rd1 (c : Card) : Span := .of (c.field 255 192)
/-- WR. -/
def Card.wr (c : Card) : Span := .of (c.field 319 256)
/-- Two regions share a byte. -/
def Span.overlaps (a b : Span) : Bool := a.base < b.base + b.len && b.base < a.base + a.len && a.len != 0 && b.len != 0
/-- A region in the scratchpad window (R176). -/
def Span.window (a : Span) : Bool := inWindow a.base

/-- Rows of a gather or scatter card (R182). -/
def Card.rows (c : Card) : Nat := c.count / c.rowb
/-- Width of an index (R182). -/
def Card.indexBytes (c : Card) : Nat := if c.iw then 8 else 4
/-- The lower of two statuses, where 0 means none (R187). -/
def worse (a b : Nat) : Nat := if a = 0 then b else if b = 0 then a else min a b
/-- Reads bytes for a card (R176, R177): in the scratchpads where its region lies in the window, from one tile to the next; else in
memory, which for a card ends below the window (R176). -/
def State.cardRead (s : State) (ck : Nat) (c : Colour) (win : Bool) (a n : Nat) : Nat → Mem (List Byte × Bool)
  | 0 => .done s ([], false)
  | fuel + 1 =>
    if !win then (if windowBase < a + n then .fault s codeVaRange (max a windowBase) else s.engineRead ck c a n (n / 256 + 2))
    else if windowBase + 2 ^ 24 ≤ a then .fault s codeSpRange a
    else
      let m := min n (65536 - a % 65536)
      match s.spCheck ck c (a % 2 ^ 24) m with
      | .error k => .fault s k a
      | .ok (tk, off) =>
        let r := (s.tile tk).spRead off m
        if m = n then .done s r
        else (s.cardRead ck c win (a + m) (n - m) fuel).bind fun s q => .done s (r.1 ++ q.1, r.2 || q.2)
/-- Bytes of one line, or of one tile, with the poison of each, for a card. -/
def State.cardReadLine (s : State) (ck : Nat) (c : Colour) (win : Bool) (a n : Nat) : Mem (List (Byte × Bool)) :=
  if !win then
    if windowBase < a + n then .fault s codeVaRange (max a windowBase)
    else match s.xlateEngine ck c a true false with
      | (s, .error k) => if k = codeNotMapped then .page s a else .fault s k a
      | (s, .ok x) => s.readPairs (engineStop ck x.sk) c a n x
  else if windowBase + 2 ^ 24 ≤ a then .fault s codeSpRange a
  else
    match s.spCheck ck c (a % 2 ^ 24) n with
    | .error k => .fault s k a
    | .ok (tk, off) =>
      let t := s.tile tk
      .done s (((List.range n).zip (t.spRead off n).1).map fun q => (q.2, t.poison.contains ((off + q.1) / 16)))
/-- Writes bytes for a card, in one line or one tile; scratchpad granules become FULL (R176). -/
def State.cardWrite (s : State) (ck : Nat) (c : Colour) (win : Bool) (a : Nat) (bs : List Byte) (poison : Bool) : Mem Unit :=
  if !win then
    (if windowBase < a + bs.length then .fault s codeVaRange (max a windowBase) else s.engineWrite ck c a bs poison 2)
  else if windowBase + 2 ^ 24 ≤ a then .fault s codeSpRange a
  else
    match s.spCheck ck c (a % 2 ^ 24) bs.length with
    | .error k => .fault s k a
    | .ok (tk, off) => .done (s.spFill tk off bs poison) ()

end Sys2Proof.Machine
end

