-- ==== Sys2Proof/Machine/ControlInt.lean ====
section
/-!
DEFINITION. The control core's integer instructions, branches and jumps (14_control_core.md R280, R281).
-/
namespace Sys2Proof.Machine

/-- A meaning that always reaches a next state. -/
abbrev Result' := Host.Outcome State Fault Refusal

/-- IMM32 sign-extended (03_formats.md R68). -/
def sext (imm : BitVec 32) : Word := imm.signExtend 64
/-- A function of two registers into a third. -/
def State.alu (s : State) (g : Word → Word → Word) (xd xa xb : Reg) : Result' :=
  .next (s.finish xd (g (s.reg xa) (s.reg xb)))
/-- A function of a register and the sign-extended immediate. -/
def State.aluImm (s : State) (g : Word → Word → Word) (xd xa : Reg) (imm : BitVec 32) : Result' :=
  .next (s.finish xd (g (s.reg xa) (sext imm)))
/-- A conditional branch (R281). -/
def State.branch (s : State) (taken : Word → Word → Bool) (xa xb : Reg) (off : BitVec 32) : Result' :=
  if taken (s.reg xa) (s.reg xb) then .next (s.jump (s.me.pc + 8 * sext off)) else .next s.advance

/-- `add`. -/
def execAdd (xd xa xb : Reg) (s : State) : Result' := s.alu (fun a b => a + b) xd xa xb
/-- `sub`. -/
def execSub (xd xa xb : Reg) (s : State) : Result' := s.alu (fun a b => a - b) xd xa xb
/-- `mul`. -/
def execMul (xd xa xb : Reg) (s : State) : Result' := s.alu (fun a b => a * b) xd xa xb
/-- `mulh`. -/
def execMulh (xd xa xb : Reg) (s : State) : Result' := s.alu Num.mulHS xd xa xb
/-- `mulhu`. -/
def execMulhu (xd xa xb : Reg) (s : State) : Result' := s.alu Num.mulHU xd xa xb
/-- `div` (04_numbers.md R79). -/
def execDiv (xd xa xb : Reg) (s : State) : Result' := s.alu Num.divS xd xa xb
/-- `divu` (R79). -/
def execDivu (xd xa xb : Reg) (s : State) : Result' := s.alu Num.divU xd xa xb
/-- `rem` (R79). -/
def execRem (xd xa xb : Reg) (s : State) : Result' := s.alu Num.remS xd xa xb
/-- `remu` (R79). -/
def execRemu (xd xa xb : Reg) (s : State) : Result' := s.alu Num.remU xd xa xb
/-- `and`. -/
def execAnd (xd xa xb : Reg) (s : State) : Result' := s.alu (fun a b => a &&& b) xd xa xb
/-- `or`. -/
def execOr (xd xa xb : Reg) (s : State) : Result' := s.alu (fun a b => a ||| b) xd xa xb
/-- `xor`. -/
def execXor (xd xa xb : Reg) (s : State) : Result' := s.alu (fun a b => a ^^^ b) xd xa xb
/-- Shift left by the count modulo 64. -/
def shl64 (a b : Word) : Word := a <<< (b.toNat % 64)
/-- Logical shift right. -/
def shr64 (a b : Word) : Word := a >>> (b.toNat % 64)
/-- Arithmetic shift right. -/
def sar64 (a b : Word) : Word := a.sshiftRight (b.toNat % 64)
/-- Signed less-than as 1 or 0. -/
def lt64 (a b : Word) : Word := if a.slt b then 1 else 0
/-- Unsigned less-than as 1 or 0. -/
def ltu64 (a b : Word) : Word := if a.ult b then 1 else 0
/-- `sll`. -/
def execSll (xd xa xb : Reg) (s : State) : Result' := s.alu shl64 xd xa xb
/-- `srl`. -/
def execSrl (xd xa xb : Reg) (s : State) : Result' := s.alu shr64 xd xa xb
/-- `sra`. -/
def execSra (xd xa xb : Reg) (s : State) : Result' := s.alu sar64 xd xa xb
/-- `slt`. -/
def execSlt (xd xa xb : Reg) (s : State) : Result' := s.alu lt64 xd xa xb
/-- `sltu`. -/
def execSltu (xd xa xb : Reg) (s : State) : Result' := s.alu ltu64 xd xa xb
/-- `addi`. -/
def execAddi (xd xa : Reg) (imm : BitVec 32) (s : State) : Result' := s.aluImm (fun a b => a + b) xd xa imm
/-- `andi`. -/
def execAndi (xd xa : Reg) (imm : BitVec 32) (s : State) : Result' := s.aluImm (fun a b => a &&& b) xd xa imm
/-- `ori`. -/
def execOri (xd xa : Reg) (imm : BitVec 32) (s : State) : Result' := s.aluImm (fun a b => a ||| b) xd xa imm
/-- `xori`. -/
def execXori (xd xa : Reg) (imm : BitVec 32) (s : State) : Result' := s.aluImm (fun a b => a ^^^ b) xd xa imm
/-- `slli`. -/
def execSlli (xd xa : Reg) (imm : BitVec 32) (s : State) : Result' := s.aluImm shl64 xd xa imm
/-- `srli`. -/
def execSrli (xd xa : Reg) (imm : BitVec 32) (s : State) : Result' := s.aluImm shr64 xd xa imm
/-- `srai`. -/
def execSrai (xd xa : Reg) (imm : BitVec 32) (s : State) : Result' := s.aluImm sar64 xd xa imm
/-- `slti`. -/
def execSlti (xd xa : Reg) (imm : BitVec 32) (s : State) : Result' := s.aluImm lt64 xd xa imm
/-- `li`: the sign-extended immediate (01_notation.md R17). -/
def execLi (xd : Reg) (imm : BitVec 32) (s : State) : Result' := .next (s.finish xd (sext imm))
/-- `lih`: bits [63:32] become the immediate. -/
def execLih (xd : Reg) (imm : BitVec 32) (s : State) : Result' :=
  .next (s.finish xd (imm ++ (s.reg xd).extractLsb' 0 32))
/-- `beq`. -/
def execBeq (xa xb : Reg) (off : BitVec 32) (s : State) : Result' := s.branch (fun a b => a = b) xa xb off
/-- `bne`. -/
def execBne (xa xb : Reg) (off : BitVec 32) (s : State) : Result' := s.branch (fun a b => a != b) xa xb off
/-- `blt`. -/
def execBlt (xa xb : Reg) (off : BitVec 32) (s : State) : Result' := s.branch (fun a b => a.slt b) xa xb off
/-- `bge`. -/
def execBge (xa xb : Reg) (off : BitVec 32) (s : State) : Result' := s.branch (fun a b => !a.slt b) xa xb off
/-- `bltu`. -/
def execBltu (xa xb : Reg) (off : BitVec 32) (s : State) : Result' := s.branch (fun a b => a.ult b) xa xb off
/-- `bgeu`. -/
def execBgeu (xa xb : Reg) (off : BitVec 32) (s : State) : Result' := s.branch (fun a b => !a.ult b) xa xb off
/-- `jal`: links, and jumps by the offset. -/
def execJal (xd : Reg) (off : BitVec 32) (s : State) : Result' :=
  .next ((s.setReg xd (s.me.pc + 8)).jump (s.me.pc + 8 * sext off))
/-- `jalr`: a misaligned target traps, with xd unchanged. -/
def execJalr (xd xa : Reg) (imm : BitVec 32) (s : State) : Result' :=
  let t := s.reg xa + sext imm
  if t.toNat % 8 != 0 then .next (s.takeTrap 0x02 0 0 0)
  else .next ((s.setReg xd (s.me.pc + 8)).jump t)

end Sys2Proof.Machine
end

