-- ==== Sys2Proof/Machine/ObjectTable.lean ====
section
/-!
DEFINITION. Entries of the object table (19_objects.md R353) and their pins (12_ops_memory.md R245). The engines keep
their tables as structures and write every change through to memory (log 8).
-/
namespace Sys2Proof.Machine

/-- The code of an object state (R353). -/
def ObjectState.code : ObjectState → Nat | .free => 0 | .live => 1 | .dying => 2 | .retired => 3
/-- An entry's 256 bits (R353). -/
def ObjectEntry.bits (e : ObjectEntry) : Nat :=
  fieldAt e.keyp 184 + fieldAt e.touch.toNat 152 + fieldAt e.pin.toNat 136 + fieldAt e.weak.toNat 120 +
  fieldAt e.strong.toNat 104 + fieldAt e.gen.toNat 96 + fieldAt e.prio.toNat 92 + fieldAt e.state.code 89 +
  flagAt e.pfen 88 + fieldAt e.pfcol.toNat 79 + fieldAt e.world.toNat 73 + fieldAt e.hdie.toNat 71 +
  fieldAt e.size 47 + e.base
/-- An entry of a die's object table. -/
def State.object (s : State) (d i : Nat) : ObjectEntry := Map.get (s.die d).objects i ObjectEntry.reset
/-- Writes an entry, and its bytes in the table. -/
def State.setObject (s : State) (d i : Nat) (e : ObjectEntry) : State :=
  let s := s.modDie d fun x => { x with objects := Map.put x.objects i e }
  s.poke ((s.die d).otBase.toNat * 2 ^ 26 + 32 * i) (natBytes 32 e.bits)
/-- A pin is released (R245, R354): a DYING entry without pins becomes RETIRED or FREE. -/
def State.unpin (s : State) (d i : Nat) : State :=
  let e := s.object d i
  let p := e.pin - 1
  s.setObject d i { e with
    pin := p
    state := if p = 0 ∧ e.state = .dying then (if e.gen = 0 then .retired else .free) else e.state }
/-- Releases the pin that an access holds, if any: its data no longer has to reach the tile (R245). -/
def State.unpinFor (s : State) (a : Access) : State :=
  match a.pinned, a.object with
  | true, some o => s.unpin (o / 2 ^ 21) (o % 2 ^ 21)
  | _, _ => s

end Sys2Proof.Machine
end

