-- ==== Sys2Proof/Machine/Launch.lean ====
section
/-!
DEFINITION. Operations on launch contexts: freeing tokens wherever they stand (16_scheduling.md R318,
21_faults_preemption.md R375, R376), unbinding streams, the LAUNCH_END record, freeing and aborting a context
(14_control_core.md R295, R376).
-/
namespace Sys2Proof.Machine

/-- Which tokens go: by cluster, colour and context. -/
abbrev Gone := Nat → Colour → Nat → Bool

/-- Whether a tag's token goes. -/
def Gone.tag (g : Gone) (ck : Nat) (t : Tag) : Bool := g ck t.colour t.ctx.toNat
/-- Emissions that stay. -/
def Gone.stay (g : Gone) (ck : Nat) (es : List Emission) : List Emission :=
  es.filter fun e => !g.tag ck e.token.tag
/-- The tag of what a mesh flit carries. -/
def Cargo.tag? : Cargo → Option Tag
  | .token _ _ _ _ t => some t.tag
  | .exit x _ => some x.token.tag
  | .ask a => some a.tag
  | .config r => some r.tag
  | _ => none
/-- The flits that stay. -/
def Gone.stays (g : Gone) (ck : Nat) (f : Flit) : Bool := f.cargo.tag?.all fun t => !g.tag ck t
/-- The firings of the narrow unit without the tokens that go. -/
def Gone.narrow (g : Gone) (ck : Nat) (n : NarrowFiring) : NarrowFiring :=
  { n with out := n.out.filter fun e => !g.tag ck e.2.token.tag }
/-- A tile without the tokens that go: entries, reservations, spilled operands, full/empty waits, accesses, unit
pipelines, commit effects, latch. Nothing is recorded. -/
def Tile.dropTokens (t : Tile) (ck : Nat) (g : Gone) : Tile :=
  { t with
    store := t.store.filter fun e => !g.tag ck e.2.token.tag
    restored := t.restored.filter fun e => !g.tag ck e.2.token.tag
    reserved := t.reserved.filter fun r => !g ck r.colour r.ctx.toNat
    spills := t.spills.filter fun e => !g.tag ck e.token.tag
    parked := t.parked.filter fun w => !g.tag ck w.tag
    refused := t.refused.filter fun w => !g.tag ck w.tag
    accesses := t.accesses.filter fun a => !g.tag ck a.tag
    walks := t.walks.filter fun w => !g.tag ck w.tag
    vector := t.vector.map fun v => { v with out := g.stay ck v.out }
    trail := t.trail.map fun v => { v with out := g.stay ck v.out }
    narrow := t.narrow.map (g.narrow ck)
    array := t.array.map fun a => { a with out := g.stay ck a.out }
    commits := t.commits.filter fun c => !g ck c.colour c.ctx
    latch := match t.latch with
      | some l => if g.tag ck l.tag then none else some l
      | none => none }
/-- A cluster without the tokens that go: flits, exit tokens, reorder windows, group requests, markers. -/
def Cluster.dropTokens (k : Cluster) (ck : Nat) (g : Gone) : Cluster :=
  { k with
    flits := k.flits.filter (g.stays ck)
    exits := k.exits.filter fun e => !g.tag ck e.token.tag
    reorders := k.reorders.filter fun r => !g ck r.colour r.ctx
    asks := k.asks.filter fun a => !g.tag ck a.tag }
/-- The saved state of a tile without the tokens that go. -/
def FrozenTile.dropTokens (t : FrozenTile) (g : Gone) : FrozenTile :=
  let ck := ckOf t.tk
  { t with
    store := t.store.filter fun e => !g.tag ck e.2.token.tag
    reserved := t.reserved.filter fun r => !g ck r.colour r.ctx.toNat
    vector := t.vector.map fun v => { v with out := g.stay ck v.out }
    trail := t.trail.map fun v => { v with out := g.stay ck v.out }
    narrow := t.narrow.map (g.narrow ck)
    array := t.array.map fun a => { a with out := g.stay ck a.out }
    commits := t.commits.filter fun c => !g ck c.colour c.ctx
    latch := match t.latch with
      | some l => if g.tag ck l.tag then none else some l
      | none => none }
/-- What is frozen of a world without the tokens that go. -/
def Frozen.dropTokens (x : Frozen) (g : Gone) : Frozen :=
  { x with
    tiles := x.tiles.map fun t => t.dropTokens g
    flits := x.flits.filter fun f => g.stays f.1 f.2
    exits := x.exits.filter fun e => !g.tag e.1 e.2.token.tag }
/-- The machine without the tokens that go; an object that a dropped access pins is pinned no more. -/
def State.dropTokens (s : State) (g : Gone) : State :=
  let s := (s.tiles.flatMap fun e => e.2.accesses.filter fun a => g.tag (ckOf e.1) a.tag).foldl State.unpinFor s
  { s with
    frozen := s.frozen.map fun e => (e.1, e.2.dropTokens g)
    thawing := s.thawing.map fun t => t.dropTokens g
    tiles := s.tiles.map fun e => (e.1, e.2.dropTokens (ckOf e.1) g)
    clusters := s.clusters.map fun e => (e.1, e.2.dropTokens e.1 g)
    dies := s.dies.map fun e =>
      (e.1, { e.2 with cfgreqs := e.2.cfgreqs.filter fun r => !g.tag r.ck r.tag }) }
/-- Whether a saved tile's state has a token that would go. -/
def FrozenTile.anyToken (t : FrozenTile) (g : Gone) : Bool :=
  t.store.any (fun x => g.tag (ckOf t.tk) x.2.token.tag) || t.reserved.any fun r => g (ckOf t.tk) r.colour r.ctx.toNat
/-- Whether a tile has a token that would go: a matching-store entry, a reservation, a spill-directory entry, a parked access. -/
def Tile.anyToken (t : Tile) (ck : Nat) (g : Gone) : Bool :=
  t.store.any (fun x => g.tag ck x.2.token.tag) || t.restored.any (fun x => g.tag ck x.2.token.tag) ||
  t.reserved.any (fun r => g ck r.colour r.ctx.toNat) || t.spills.any (fun x => g.tag ck x.token.tag) ||
  t.parked.any fun w => g.tag ck w.tag
/-- Whether a token that would go still stands in one of the places of condition 3 of R318, frozen state included (log 26). -/
def State.anyToken (s : State) (ck : Nat) (g : Gone) : Bool :=
  (s.cluster ck).reorders.any (fun r => g ck r.colour r.ctx && r.held != []) ||
  (s.die (dieOf ck)).cfgreqs.any (fun r => r.ck = ck && g.tag ck r.tag) ||
  (s.thawing ++ s.frozen.flatMap fun e => e.2.tiles).any (fun t => ckOf t.tk = ck && t.anyToken g) ||
  s.tiles.any fun e => ckOf e.1 = ck && e.2.anyToken ck g

/-- Whether a held effect of a context counts as an outstanding acknowledgement (R382). -/
def CommitEntry.awaits (ctx : Nat) (c : CommitEntry) : Bool :=
  c.ctx = ctx && (match c.effect with | .exit _ _ => false | _ => true)
/-- The store acknowledgements that a launch context still awaits, counted from what is under way: requests to slices and
their answers, accesses at banks or filling the stash, parked `stf`, and writes that commit mode holds (12_ops_memory.md R237,
21_faults_preemption.md R382). -/
def State.pendingAcks (s : State) (ck ctx : Nat) : Nat :=
  let mine := fun (r : Request) => r.ack = some (ck, ctx)
  let answered := (s.answers.filter fun a => mine a.request).length
  let inSlices := (s.slices.map fun e =>
    (e.2.conflicts.filter mine).length + (e.2.misses.filter fun m => mine m.request).length).sum
  let inTiles := (s.tiles.map fun (e : Nat × Tile) =>
    if ckOf e.1 != ck then 0
    else
      let t := e.2
      let fe := fun (w : FeWait) => w.kind = .store && ckOf w.src = ck && w.tag.ctx.toNat = ctx
      (t.accesses.filter fun a => a.tag.ctx.toNat = ctx &&
        (((a.phase = .bank || (a.phase = .sent && inWindow a.addr)) && (memWrites a.opc || a.opc = 0x152)) ||
          (a.phase = .sent && !inWindow a.addr && a.isStore))).length +
      (t.parked.filter fe).length + (t.refused.filter fe).length +
      (t.commits.filter (CommitEntry.awaits ctx)).length).sum
  let inFrozen := ((s.thawing ++ s.frozen.flatMap fun e => e.2.tiles).map fun (t : FrozenTile) =>
    if ckOf t.tk != ck then 0 else (t.commits.filter (CommitEntry.awaits ctx)).length).sum
  (s.travelling.filter mine).length + answered + inSlices + inTiles + inFrozen
/-- Counts afresh every launch's acknowledgements, after tokens have gone. -/
def State.recount (s : State) : State :=
  { s with clusters := s.clusters.map fun (e : Nat × Cluster) =>
      (e.1, { e.2 with launches := e.2.launches.map fun (l : Nat × Launch) =>
        (l.1, { l.2 with outstanding := s.pendingAcks e.1 l.1 }) }) }

/-- The tokens of one launch context. -/
def goneCtx (ck ctx : Nat) : Gone := fun k _ c => k = ck && c = ctx
/-- The tokens of one colour. -/
def goneColour (c : Colour) : Gone := fun _ d _ => d = c

/-- Removes bindings and the push generators that run them (R295, R375, R376). -/
def State.unbind (s : State) (ck : Nat) (which : Binding → Bool) : State :=
  let ids : List Nat := ((s.cluster ck).bindings.filter which).map (·.id)
  let s := s.modCluster ck fun k => { k with bindings := k.bindings.filter fun b => !which b }
  { s with slices := s.slices.map fun (e : Nat × Slice) =>
      (e.1, { e.2 with pushes := e.2.pushes.filter fun p => !(p.ck = ck && ids.contains p.binding) }) }
/-- Whether a binding, by id, has finished (R291): its EOS has passed and its writes are acknowledged; one that was
removed, once its accesses have been performed. -/
def State.bindingDone (s : State) (ck id : Nat) : Bool :=
  match (s.cluster ck).bindings.find? fun b => b.id = id with
  | some b => b.finished && b.writes = 0
  | none =>
    let mine := fun (r : Request) => r.src = .stream ck id
    !((s.travelling ++ s.answers.map (·.request)).any mine || s.slices.any fun e =>
      e.2.conflicts.any mine || e.2.misses.any fun m => mine m.request)

/-- Sends a LAUNCH_END record; the JOIN word is decremented after it where asked (R319). -/
def State.launchRecord (s : State) (ck ctx : Nat) (l : Launch) (status bytes : Nat) (join : Bool) : State :=
  s.recordJoin (s.mkRecord ck l.ring l.world 0x05 status 0 l.colour bytes (BitVec.ofNat 64 ctx))
    (if join && l.join != 0 then some ⟨ck, l.colour, l.join.toNat⟩ else none)
/-- The tiles of a cluster. -/
def tilesOf (ck : Nat) : List Nat := (List.range 192).map fun ti => 192 * ck + ti
/-- Clears the slots that hold words of a context (R295), and what the tile counts for it. -/
def Tile.clearCtx (t : Tile) (ctx : Nat) : Tile :=
  { t with
    received := t.received.filter fun e => e.1 != ctx
    receivedNew := t.receivedNew.filter fun e => e.1 != ctx
    sent := t.sent.filter fun e => e.1 != ctx
    markers := t.markers.filter fun e => e.1 != ctx
    savedFor := t.savedFor.filter (· != ctx)
    slots := t.slots.map fun (e : Nat × Slot) =>
      if e.2.ctx = some ctx then (e.1, { Slot.reset with pending := e.2.pending }) else e }
/-- Makes a launch context FREE: slots cleared, streams unbound, port-table entries freed (R295, R316). Tokens that a
stopped context left go with it (log 30). -/
def State.freeCtx (s : State) (ck ctx : Nat) : State :=
  let s := (s.dropTokens (goneCtx ck ctx)).unbind ck fun b => b.ctx = ctx
  let s := { s with tiles := s.tiles.map fun (e : Nat × Tile) => if ckOf e.1 = ck then (e.1, e.2.clearCtx ctx) else e }
  s.modCluster ck fun k =>
    { k with
      launches := Map.del k.launches ctx
      ports := k.ports.filter fun p => p.2.ctx != ctx
      reorders := k.reorders.filter fun r => r.ctx != ctx }
/-- Frees the library instances that served a context (R325 step 7). -/
def State.freeInstances (s : State) (ck ctx : Nat) : State :=
  let d := dieOf ck
  let mine := (s.die d).libs.filter fun l => l.reqCk = ck && l.reqCtx = ctx
  let s := mine.foldl (fun s l => s.freeCtx l.ck l.ctx) s
  s.modDie d fun x => { x with libs := x.libs.filter fun l => !(l.reqCk = ck && l.reqCtx = ctx) }
/-- A context becomes ENDED with a LAUNCH_END record and its JOIN decrement (R319). -/
def State.endLaunch (s : State) (ck ctx status bytes : Nat) : State :=
  match s.launch? ck ctx with
  | none => s
  | some l =>
    let s := s.launchRecord ck ctx l status bytes true
    (s.modLaunch ck ctx fun l => { l with state := .ended }).freeInstances ck ctx
/-- Cancels a held launch (R295, R317): status CANCELLED, its bindings removed. -/
def State.cancelLaunch (s : State) (ck ctx : Nat) : State :=
  (s.endLaunch ck ctx 0x01 0).unbind ck fun b => b.ctx = ctx
/-- The last part of an abort, once no store acknowledgement is outstanding (R376 steps 3 and 4). -/
def State.abortFinish (s : State) (ck : Nat) : State :=
  let k := s.cluster ck
  match s.launch? ck k.lcCtx.toNat with
  | none => s.modCluster ck fun k => { k with lcBusy := false }
  | some l =>
    if k.lcBusy && l.outstanding = 0 then
      (s.endLaunch ck k.lcCtx.toNat 0x02 0).modCluster ck fun k => { k with lcBusy := false }
    else s
/-- ABORT of a RUNNING or HELD context (R376); as the launch ends, the dirty granules of its colours are written back
(08_tile_memory.md R167). -/
def State.abort (s : State) (ck ctx : Nat) : State :=
  match s.launch? ck ctx with
  | some l =>
    if l.state = .running ∨ l.state = .held then
      let s := (s.dropTokens (goneCtx ck ctx)).recount
      let s := (s.unbind ck fun b => b.ctx = ctx).stashEnd ck ctx l.colours
      (s.modCluster ck fun k => { k with lcBusy := true, lcStatus := 0 }).abortFinish ck
    else s.modCluster ck fun k => { k with lcStatus := 1 }
  | none => s.modCluster ck fun k => { k with lcStatus := 1 }

end Sys2Proof.Machine
end

