-- ==== Sys2Proof/Machine/Registers.lean ====
section
/-!
DEFINITION. The device registers of 26_host_and_package.md R414 and R415: which register an address names, what
each reads, who may read or write it, and what a write does. Rights outside world 0 are those that the register's
own rule gives world 1; every other world has none.
-/
namespace Sys2Proof.Machine

/-- The registers, with the block number and index that their address gives. -/
inductive RegName where
  | bootsts | hrefuse | hcxl | wxbase | hwcol (w : Nat) | ethsts | pwrcap
  | cqpool (d : Nat) | pgtbl (d : Nat) | pgretry (d : Nat) | otbl (d : Nat) | ktbl (d : Nat)
  | ohbase (d w : Nat) | ohsize (d w : Nat) | snap (d w : Nat) | rlcfg (d : Nat) | fmlib (d w : Nat)
  | mshctl (ck : Nat) | ccen (ck : Nat) | cqstat (ck q : Nat) | lcabort (ck : Nat) | cpt (ck i : Nat)
  | tsbnd (tk : Nat) | tbpf (tk k : Nat) | cecnt (tk : Nat)
  | slwayc (sk : Nat) | slway (sk w : Nat)
  | stwloc (st w : Nat) | stwxd (st w : Nat) | stcsel (st k : Nat) | stcloc (st k : Nat) | stcxd (st k : Nat)
  | none
  deriving DecidableEq, Repr

/-- Device register space starts here (05_main_memory.md R99). -/
def deviceBase : Nat := 15 * 2 ^ 48
/-- Index of an array of registers with a stride, where an offset lies in it. -/
def indexIn (off base stride n : Nat) : Option Nat :=
  if base ≤ off && (off - base) % stride = 0 && (off - base) / stride < n then some ((off - base) / stride) else none
/-- Hub registers (R415, R393, R424). -/
def hubReg (o : Nat) : RegName :=
  if o = 0 then .bootsts else if o = 8 then .hrefuse else if o = 0x10 then .hcxl else if o = 0x100 then .wxbase
  else if o = 0x400 then .ethsts else if o = 0x408 then .pwrcap
  else match indexIn o 0x200 8 64 with | some w => .hwcol w | none => .none
/-- Die registers (R309, R324, R352, R372, R373, R379, R411). -/
def dieReg (d o : Nat) : RegName :=
  if o = 0x2100 then .pgtbl d else if o = 0x2108 then .pgretry d else if o = 0x2110 then .cqpool d
  else if o = 0x2300 then .otbl d else if o = 0x2308 then .ktbl d else if o = 0x2C00 then .rlcfg d
  else match indexIn o 0x2400 16 64, indexIn o 0x2408 16 64, indexIn o 0x2800 16 64, indexIn o 0x3000 8 64 with
    | some w, _, _, _ => .ohbase d w
    | _, some w, _, _ => .ohsize d w
    | _, _, some w, _ => .snap d w
    | _, _, _, some w => .fmlib d w
    | _, _, _, _ => .none
/-- Cluster registers (R147, R157, R303, R312, R316, R376, R383, R411). -/
def clusterReg (ck o : Nat) : RegName :=
  if o = 0x200 then .mshctl ck else if o = 0x300 then .ccen ck else if o = 0x500 then .lcabort ck
  else match indexIn o 0x400 8 16, indexIn o 0x600 8 64, indexIn o 0x4000 8 192, indexIn o 0x6000 8 768,
      indexIn o 0x8000 32 192 with
    | some q, _, _, _, _ => .cqstat ck q
    | _, some i, _, _, _ => .cpt ck i
    | _, _, some t, _, _ => .tsbnd (192 * ck + t)
    | _, _, _, some j, _ => .tbpf (192 * ck + j / 4) (j % 4)
    | _, _, _, _, some t => .cecnt (192 * ck + t)
    | _, _, _, _, _ => .none
/-- Slice registers (R127). -/
def sliceReg (sk o : Nat) : RegName :=
  if o = 0 then .slwayc sk
  else match indexIn o 0x100 8 64 with | some w => .slway sk w | none => .none
/-- Station registers (R156). -/
def stationReg (st o : Nat) : RegName :=
  match indexIn o 0x1000 16 64, indexIn o 0x1008 16 64, indexIn o 0x800 8 8, indexIn o 0x840 16 8,
      indexIn o 0x848 16 8 with
  | some w, _, _, _, _ => .stwloc st w
  | _, some w, _, _, _ => .stwxd st w
  | _, _, some k, _, _ => .stcsel st k
  | _, _, _, some k, _ => .stcloc st k
  | _, _, _, _, some k => .stcxd st k
  | _, _, _, _, _ => .none
/-- The register at an 8-byte aligned physical address (R414). -/
def regAt (pa : Nat) : RegName :=
  let o := pa - deviceBase
  if pa < deviceBase then .none
  else if o < 0x10000 then hubReg o
  else if 0x100000 ≤ o ∧ o < 0x140000 then dieReg ((o - 0x100000) / 0x10000) (o % 0x10000)
  else if 0x1000000 ≤ o ∧ o < 0x1400000 then clusterReg ((o - 0x1000000) / 0x10000) (o % 0x10000)
  else if 0x2000000 ≤ o ∧ o < 0x2100000 then sliceReg ((o - 0x2000000) / 0x1000) (o % 0x1000)
  else if 0x3000000 ≤ o ∧ o < 0x3100000 then stationReg ((o - 0x3000000) / 0x4000) (o % 0x4000)
  else .none

/-- Runnable records of a queue (R310). -/
def Queue.runnable (q : Queue) : List QRecord :=
  q.records.filter fun r => match r.state with | .runnable _ => true | _ => false
/-- CUR of a world in a slice (R127). -/
def Slice.cur (l : Slice) (w : Nat) : Nat := (l.wayOwner.filter fun e => e.2 = w).length
/-- A way register. -/
def Slice.way (l : Slice) (w : Nat) : WayReg := Map.get l.ways w WayReg.reset
/-- What a register reads. -/
def State.regValue (s : State) : RegName → Nat
  | .bootsts => fieldAt s.bootStage.toNat 60 + fieldAt s.bootErr.toNat 52 + fieldAt s.stkfail.toNat 44
  | .hrefuse => flagAt s.hrefuseV 63 + s.hrefusePa.toNat
  | .hcxl => fieldAt s.hcxl.toNat 30
  | .wxbase => s.wxbase.toNat
  | .hwcol w => (Map.get s.hwcol w 0).toNat
  | .ethsts => s.ethUp.toNat
  | .pwrcap => s.pwrcap.toNat
  | .cqpool d => (s.die d).cqpool.toNat
  | .pgtbl d => fieldAt (s.die d).pgBase.toNat 14 + flagAt (s.die d).pgEn 0
  | .pgretry _ => 0
  | .otbl d => fieldAt (s.die d).otBase.toNat 26 + flagAt (s.die d).otEn 0
  | .ktbl d => fieldAt (s.die d).ktBase.toNat 9 + fieldAt (s.die d).ktLog2b.toNat 1 + flagAt (s.die d).ktEn 0
  | .ohbase d w =>
    let v := Map.get (s.die d).ohbase w 0
    fieldAt (v.toNat / 2) 14 + v.toNat % 2
  | .ohsize d w => (Map.get (s.die d).ohsize w 0).toNat
  | .snap d w => (Map.get (s.die d).snap w 0).toNat
  | .rlcfg d => flagAt (s.die d).rlErr 63 + fieldAt (s.die d).rlWexp.toNat 8 + (s.die d).rlN.toNat
  | .fmlib d w => (Map.get (s.die d).fmlib w 0).toNat
  | .mshctl ck =>
    let k := s.cluster ck
    flagAt k.mshErr 63 + fieldAt k.promo.toNat 16 + fieldAt k.wgt1.toNat 8 + k.wgt0.toNat
  | .ccen ck => (s.cluster ck).ccen.toNat
  | .cqstat ck q =>
    let x := (s.cluster ck).queues.getD q Queue.reset
    fieldAt (min (x.records.length - x.runnable.length) (2 ^ 16 - 1)) 32 + min x.runnable.length (2 ^ 32 - 1)
  | .lcabort ck =>
    let k := s.cluster ck
    flagAt k.lcBusy 63 + fieldAt k.lcStatus.toNat 60 + k.lcCtx.toNat
  | .cpt ck i =>
    match Map.get? (s.cluster ck).ports i with
    | some p => 2 ^ 63 + fieldAt (p.gport % 64) 11 + p.ctx % 2048
    | none => 0
  | .tsbnd tk => fieldAt (s.tile tk).tsWorld.toNat 8 + (s.tile tk).spk.toNat
  | .tbpf tk k => ((s.tile tk).tbpf.getD k 0).toNat
  | .cecnt tk => (s.tile tk).cecnt
  | .slwayc sk => flagAt (s.slice sk).wayErr 1 + flagAt (s.slice sk).wayFreeze 0
  | .slway sk w =>
    let r := (s.slice sk).way w
    fieldAt r.shmiss.toNat 32 + fieldAt ((s.slice sk).cur w) 16 + fieldAt r.ceil.toNat 8 + r.floor.toNat
  | .stwloc st w => (Map.get (s.station st).loc w 0).toNat
  | .stwxd st w => (Map.get (s.station st).xd w 0).toNat
  | .stcsel st k => (Map.get (s.station st).sel k 0).toNat
  | .stcloc st k => (Map.get (s.station st).cloc k 0).toNat
  | .stcxd st k => (Map.get (s.station st).cxd k 0).toNat
  | .none => 0

/-- Whether a plane of a tile holds a graph of world 0 (R383). -/
def State.planeHoldsZero (s : State) (tk plane : Nat) : Bool :=
  (s.cluster (ckOf tk)).launches.any fun e => e.2.plane = plane && e.2.covers (tiOf tk) && e.2.world = 0
/-- Whether a world may read a register (R415 and each register's rule); world 0 reads them all. -/
def State.mayRead (s : State) (world : Nat) (r : RegName) : Bool :=
  world = 0 || (world = 1 &&
    match r with
    | .bootsts | .hrefuse | .hcxl | .wxbase | .hwcol _ | .ethsts => true
    | .ohbase _ w | .ohsize _ w | .fmlib _ w => 1 ≤ w
    | .mshctl _ | .ccen _ | .cqstat _ _ | .lcabort _ | .cpt _ _ => true
    | .tbpf tk k => !s.planeHoldsZero tk (((s.tile tk).tbpf.getD k 0).extractLsb' 59 2).toNat
    | .slwayc _ | .slway _ _ | .stwloc _ _ | .stwxd _ _ | .stcsel _ _ | .stcloc _ _ | .stcxd _ _ => true
    | .none => true
    | _ => false)
/-- Whether a world may write a register with a value; a write to a read-only register by world 0 has no
effect. -/
def State.mayWrite (s : State) (world : Nat) (r : RegName) (v : Nat) : Bool :=
  world = 0 || (world = 1 &&
    match r with
    | .hwcol w | .ohbase _ w | .ohsize _ w | .fmlib _ w => 1 ≤ w
    | .pgretry _ => 1 ≤ (s.colour (colourOf v)).world.toNat
    | .lcabort ck => match s.launch? ck (v % 2048) with | some l => l.world != 0 | none => true
    | .cqstat _ _ | .cpt _ _ => true
    | .tbpf tk k => !s.planeHoldsZero tk (((s.tile tk).tbpf.getD k 0).extractLsb' 59 2).toNat &&
        !s.planeHoldsZero tk (bits v 60 59)
    | .slway _ w => 2 ≤ w
    | .none => true
    | _ => false)
/-- Sum of FLOOR over all worlds with one of them replaced (R128). -/
def Slice.floorSum (l : Slice) (w f : Nat) : Nat :=
  (List.range 64).foldl (fun a v => a + if v = w then f else (l.way v).floor.toNat) 0
/-- A write of SLWAYn (R128). -/
def Slice.writeWay (l : Slice) (w v : Nat) : Slice :=
  let ceil := bits v 12 8
  let floor := bits v 4 0
  if floor > ceil ∨ ceil > 16 ∨ l.floorSum w floor > 16 then { l with wayErr := true }
  else { l with ways := Map.put l.ways w { l.way w with ceil := BitVec.ofNat 5 ceil, floor := BitVec.ofNat 5 floor } }
/-- A write of MSHCTL (R147). -/
def Cluster.writeMesh (k : Cluster) (v : Nat) : Cluster :=
  let k := if bits v 63 63 = 1 then { k with mshErr := false } else k
  let p := bits v 25 16
  if bits v 11 8 = 0 ∨ bits v 3 0 = 0 ∨ (1 ≤ p ∧ p ≤ 7) then { k with mshErr := true }
  else { k with promo := BitVec.ofNat 10 p, wgt1 := BitVec.ofNat 4 (bits v 11 8), wgt0 := BitVec.ofNat 4 (bits v 3 0) }
/-- A write of RLCFG (R411). -/
def Die.writeRl (d : Die) (v : Nat) : Die :=
  let d := if bits v 63 63 = 1 then { d with rlErr := false } else d
  if bits v 7 0 = 0 ∨ bits v 13 8 > 40 then { d with rlErr := true }
  else { d with rlWexp := BitVec.ofNat 6 (bits v 13 8), rlN := BitVec.ofNat 8 (bits v 7 0) }
/-- A write of PGRETRY (R373): the colour's held entries are to be served again. -/
def Die.retry (d : Die) (c : Colour) : Die :=
  { d with
    pager := d.pager.map fun p => if p.colour = c then { p with held := false } else p
    emptied := d.emptied.filter (· != c.toNat) }
/-- The contexts of a cluster under a new CCEN (R303): the bits are kept; pops consult them. -/
def Cluster.writeCcen (k : Cluster) (v : Nat) : Cluster := { k with ccen := BitVec.ofNat 8 v }
/-- Reserved fields of a written value cleared (01_notation.md R22): the given bits are kept. -/
def keepBits (v mask : Nat) : Word := BitVec.ofNat 64 (v &&& mask)
/-- A mask of bits hi to lo. -/
def maskOf (hi lo : Nat) : Nat := (2 ^ (hi - lo + 1) - 1) * 2 ^ lo

/-- What a permitted write does. -/
def State.regWrite (s : State) (v : Nat) : RegName → State
  | .hrefuse => if bits v 63 63 = 1 then { s with hrefuseV := false } else s
  | .hcxl => if bits v 42 30 ≤ 4096 then { s with hcxl := BitVec.ofNat 13 (bits v 42 30) } else s
  | .wxbase => { s with wxbase := BitVec.ofNat 64 v }
  | .hwcol w =>
    { s with hwcol := Map.put s.hwcol w (keepBits v (2 ^ 63 + maskOf 55 36)) }
  | .pwrcap =>
    if 600 ≤ bits v 11 0 ∧ bits v 11 0 ≤ 1800 then { s with pwrcap := BitVec.ofNat 12 (bits v 11 0) } else s
  | .cqpool d => s.modDie d fun x => { x with cqpool := BitVec.ofNat 9 v }
  | .pgtbl d => s.modDie d fun x => { x with pgBase := BitVec.ofNat 38 (bits v 51 14), pgEn := v % 2 = 1 }
  | .pgretry d => s.modDie d fun x => x.retry (colourOf v)
  | .otbl d => s.modDie d fun x => { x with otBase := BitVec.ofNat 26 (bits v 51 26), otEn := v % 2 = 1 }
  | .ktbl d =>
    if bits v 5 1 > 20 then s
    else s.modDie d fun x =>
      { x with ktBase := BitVec.ofNat 43 (bits v 51 9), ktLog2b := BitVec.ofNat 5 (bits v 5 1), ktEn := v % 2 = 1 }
  | .ohbase d w => s.modDie d fun x =>
      { x with ohbase := Map.put x.ohbase w (BitVec.ofNat 34 (2 * bits v 46 14 + v % 2)) }
  | .ohsize d w => s.modDie d fun x => { x with ohsize := Map.put x.ohsize w (BitVec.ofNat 48 (bits v 47 0)) }
  | .snap d w => s.modDie d fun x =>
      { x with snap := Map.put x.snap w (keepBits v (maskOf 63 55 + maskOf 46 14 + maskOf 5 0)) }
  | .rlcfg d => s.modDie d fun x => x.writeRl v
  | .fmlib d w => s.modDie d fun x =>
      { x with fmlib := Map.put x.fmlib w (keepBits v (maskOf 63 55 + maskOf 51 4 + 1)) }
  | .mshctl ck => s.modCluster ck fun k => k.writeMesh v
  | .ccen ck => s.modCluster ck fun k => k.writeCcen v
  | .lcabort ck =>
    let s := s.modCluster ck fun k => { k with lcCtx := if k.lcBusy then k.lcCtx else BitVec.ofNat 11 v }
    if bits v 63 63 = 1 && !(s.cluster ck).lcBusy then s.abort ck (v % 2048) else s
  | .tbpf tk k => s.modTile tk fun t =>
      { t with tbpf := t.tbpf.setIfInBounds k (keepBits v (maskOf 63 44 + maskOf 31 0)) }
  | .slwayc sk => s.modSlice sk fun l =>
      { l with wayErr := if bits v 1 1 = 1 then false else l.wayErr, wayFreeze := v % 2 = 1 }
  | .slway sk w => s.modSlice sk fun l => l.writeWay w v
  | .stwloc st w => s.modStation st fun t => { t with loc := Map.put t.loc w (BitVec.ofNat 64 v) }
  | .stwxd st w => s.modStation st fun t => { t with xd := Map.put t.xd w (BitVec.ofNat 64 v) }
  | .stcsel st k => s.modStation st fun t =>
      { t with sel := Map.put t.sel k (BitVec.ofNat 10 v), cloc := Map.put t.cloc k 0, cxd := Map.put t.cxd k 0 }
  | .stcloc st k => s.modStation st fun t => { t with cloc := Map.put t.cloc k (BitVec.ofNat 64 v) }
  | .stcxd st k => s.modStation st fun t => { t with cxd := Map.put t.cxd k (BitVec.ofNat 64 v) }
  | _ => s

/-- A refused access is recorded (R415). -/
def State.refuseReg (s : State) (pa : Nat) : State :=
  { s with hrefuseV := true, hrefusePa := BitVec.ofNat 52 pa }
/-- The world whose settings a register holds, where TDISP may lock it (R400). -/
def RegName.locksFor : RegName → Option Nat
  | .slway _ w | .fmlib _ w | .ohbase _ w | .ohsize _ w => some w
  | _ => Option.none
/-- A write of world 1 to a locked setting is ignored, with ERR where the register has one (R400). -/
def State.lockedWrite (s : State) : RegName → State
  | .slway sk _ => s.modSlice sk fun l => { l with wayErr := true }
  | _ => s
/-- A read of a register by a world: zero, and recorded, where it is refused (R415). -/
def State.regRead (s : State) (world pa : Nat) : State × Nat :=
  let r := regAt pa
  if s.mayRead world r then (s, s.regValue r) else (s.refuseReg pa, 0)
/-- A write of a register by a world: ignored, and recorded, where it is refused; ignored where TDISP has locked
the setting. -/
def State.regStore (s : State) (world pa v : Nat) : State :=
  let r := regAt pa
  if !s.mayWrite world r v then s.refuseReg pa
  else if world = 1 && (match r.locksFor with | some w => s.tdispLocked w | none => false) then s.lockedWrite r
  else s.regWrite v r
/-- Bytes that an access of n bytes at a physical address reads of a register (log 27). -/
def State.regReadBytes (s : State) (world pa n : Nat) : State × List Byte :=
  let (s, v) := s.regRead world (pa / 8 * 8)
  (s, natBytes n (v / 2 ^ (8 * (pa % 8))))
/-- Bytes written to a register: an access narrower than 8 bytes leaves the register's other bytes as they read
(log 27). -/
def State.regWriteBytes (s : State) (world pa : Nat) (bs : List Byte) : State :=
  let old := natBytes 8 (s.regValue (regAt (pa / 8 * 8)))
  let new := old.take (pa % 8) ++ bs ++ old.drop (pa % 8 + bs.length)
  s.regStore world (pa / 8 * 8) (bytesNat (new.take 8))
/-- Reads n bytes of register space from an 8-byte aligned or narrower place on, register by register. -/
def State.regReadRange (s : State) (world pa n : Nat) : State × List Byte :=
  if n ≤ 8 then s.regReadBytes world pa n
  else (List.range (n / 8)).foldl (fun (acc : State × List Byte) i =>
    let (s, bs) := acc.1.regReadBytes world (pa + 8 * i) 8
    (s, acc.2 ++ bs)) (s, [])
/-- Writes (offset, byte) pairs of a line of register space: each register that they touch is written once, with its
other bytes as they read (log 27). -/
def State.regWritePairs (s : State) (world line : Nat) (ps : List (Nat × Byte)) : State :=
  (List.range 32).foldl (fun s i =>
    let mine := ps.filter fun p => p.1 / 8 = i
    if mine = [] then s
    else
      let old := natBytes 8 (s.regValue (regAt (line + 8 * i)))
      let new := mine.foldl (fun (l : List Byte) p => l.set (p.1 % 8) p.2) old
      s.regStore world (line + 8 * i) (bytesNat new)) s

end Sys2Proof.Machine
end

