-- ==== Sys2Proof/Machine/ControlMem.lean ====
section
/-!
DEFINITION. The control core's loads, stores, atomics and fences (14_control_core.md R282 to R285): the space of an
address, the leased copies (06_slices.md R124), posted stores (07_network.md R154) and atomics at the ordering
point (06_slices.md R121, R125).
-/
namespace Sys2Proof.Machine

/-- The acting context as a source of requests. -/
def State.mySource (s : State) : Source := .context s.actor.ck s.actor.ctx
/-- The leased copy of a line that a context may still read (R124). -/
def Context.leased (c : Context) (pa : Nat) (key : Colour) : Option Lease :=
  c.leases.find? fun l => l.pa = pa / 256 * 256 && l.key = key && c.pts.toNat ≤ l.leaseEnd.toNat
/-- A context without its copy of a line. -/
def Context.dropLease (c : Context) (pa : Nat) : Context :=
  { c with leases := c.leases.filter fun l => l.pa != pa / 256 * 256 }
/-- A fault code, where an address lies outside colour-virtual space or is misaligned (R282, R234). -/
def addrFault (a n : Nat) : Option Nat :=
  if a ≥ 2 ^ 47 then some codeVaRange else if a % n != 0 then some codeAlign else none

/-- A read of the acting context at a translated address: its leased copy, or the home slice with a new lease
(R283, R124). -/
def State.coreLine (s : State) (x : Xlat) (n va : Nat) : Mem (List Byte) :=
  let c := s.me
  match c.leased x.pa x.key with
  | some l =>
    if (List.range n).any fun i => l.poison.getLsbD ((x.pa % 256 + i) / 64) then .fault s codePoison va
    else .done s (lineBytes l.data (x.pa % 256) n)
  | none =>
    if s.ownEarlier s.mySource x.sk || s.lineBusy s.actor.ck x.sk x.pa then .busy
    else
      let (s, d, p, _, fin, pts) := s.leaseRead x.sk x.pa x.key c.world c.pts
      let s := s.countAccess s.actor.ck x.sk 0 4 c.colour c.world
      let s := s.modMe fun c =>
        let c := c.dropLease x.pa
        { c with pts := pts, leases := (⟨x.pa / 256 * 256, x.sk, x.key, fin, p, d⟩ :: c.leases).take 32 }
      if (List.range n).any fun i => p.getLsbD ((x.pa % 256 + i) / 64) then .fault s codePoison va
      else .done s (lineBytes d (x.pa % 256) n)
/-- A read of n bytes by the acting context (R282, R283). -/
def State.coreRead (s : State) (a n : Nat) : Mem (List Byte) :=
  match addrFault a n with
  | some k => .fault s k a
  | none =>
    let ck := s.actor.ck
    let c := s.me.colour
    if inWindow a then
      match s.spCheck ck c (a % 2 ^ 24) n with
      | .error k => .fault s k a
      | .ok (tk, off) =>
        let (bs, p) := (s.tile tk).spRead off n
        if p then .fault s codePoison a else .done s bs
    else
      match s.xlateCore ck c a true false with
      | (s, .error k) => if k = codeNotMapped then .page s a else .fault s k a
      | (s, .ok x) =>
        if x.device then
          let (s, bs) := s.regReadBytes s.me.world.toNat x.pa n
          .done s bs
        else s.coreLine x n a
/-- Posts a store of the acting context to its home slice (R125, R154) under its scope, the page's where the instruction names
none (01_notation.md R16); its own copy of the line takes the bytes. -/
def State.corePost (s : State) (x : Xlat) (c : Colour) (va : Nat) (bs : List Byte) (scope : Option Nat) : State :=
  let ps := pairsAt (x.pa % 256) bs
  let r : Request :=
    { src := s.mySource, sk := x.sk, pa := x.pa, off := x.pa % 256, colour := c, key := x.key,
      world := (s.colour c).world, kind := .write ps false, pts := s.me.pts, scope := scope.getD x.scope, answer := none,
      ack := none, stamp := 0, va := some va }
  (s.post r).modMe fun k =>
    { k with
      leases := k.leases.map fun (l : Lease) =>
        if l.pa = x.pa / 256 * 256 && l.key = x.key then
          { l with data := lineSet l.data ps, poison := poisonAfter l.poison ps false }
        else l }
/-- A write of bytes by the acting context under a colour (R282, R283). -/
def State.coreWrite (s : State) (c : Colour) (a : Nat) (bs : List Byte) (scope : Option Nat) : Mem Unit :=
  match addrFault a bs.length with
  | some k => .fault s k a
  | none =>
    let ck := s.actor.ck
    if inWindow a then
      match s.spCheck ck c (a % 2 ^ 24) bs.length with
      | .error k => .fault s k a
      | .ok (tk, off) => .done (s.modTile tk fun t => t.spWrite (pairsAt off bs) false) ()
    else
      match s.xlateCore ck c a false true with
      | (s, .error k) => if k = codeNotMapped then .page s a else .fault s k a
      | (s, .ok x) =>
        if x.device then .done (s.regWriteBytes s.me.world.toNat x.pa bs) ()
        else .done (s.corePost x c a bs scope) ()
/-- A write of the acting context that is performed at the ordering point before the instruction goes on: a join
word that `cspawn` sets, which the scheduler reads next (R286, 16_scheduling.md R310). -/
def State.coreWriteNow (s : State) (c : Colour) (a : Nat) (bs : List Byte) : Mem Unit :=
  match addrFault a bs.length with
  | some k => .fault s k a
  | none =>
    let ck := s.actor.ck
    if inWindow a then s.coreWrite c a bs (some scopePkg)
    else
      match s.xlateCore ck c a false true with
      | (s, .error k) => if k = codeNotMapped then .page s a else .fault s k a
      | (s, .ok x) =>
        let w := (s.colour c).world
        if x.device then .done (s.regWriteBytes s.me.world.toNat x.pa bs) ()
        else if s.ownEarlier s.mySource x.sk || s.lineBusy s.actor.ck x.sk x.pa then .busy
        else
          let s := s.modMe fun k => { k.dropLease x.pa with touched := touch k.touched (dieOf ck) x.sk }
          let (s, pts) := s.lineWrite x.sk x.pa x.key w (pairsAt (x.pa % 256) bs) false s.me.pts
          .done ((s.countAccess ck x.sk 1 0 c w).modMe fun k => { k with pts := pts }) ()
/-- An atomic of the acting context on `n` bytes: `g` gives the new value of the old one (R284). It drops the
context's copy of the line. -/
def State.coreAtomic (s : State) (a n : Nat) (g : Nat → Nat) : Mem Nat :=
  match addrFault a n with
  | some k => .fault s k a
  | none =>
    let ck := s.actor.ck
    let c := s.me.colour
    if inWindow a then
      match s.spCheck ck c (a % 2 ^ 24) n with
      | .error k => .fault s k a
      | .ok (tk, off) =>
        let (bs, p) := (s.tile tk).spRead off n
        if p then .fault s codePoison a
        else .done (s.modTile tk fun t => t.spWrite (pairsAt off (natBytes n (g (bytesNat bs)))) false) (bytesNat bs)
    else
      match s.xlateCore ck c a true true with
      | (s, .error k) => if k = codeNotMapped then .page s a else .fault s k a
      | (s, .ok x) =>
        let w := s.me.world
        if x.device then
          let (s, bs) := s.regReadBytes w.toNat x.pa n
          .done (s.regWriteBytes w.toNat x.pa (natBytes n (g (bytesNat bs)))) (bytesNat bs)
        else if s.ownEarlier s.mySource x.sk || s.lineBusy s.actor.ck x.sk x.pa then .busy
        else
          let s := s.modMe fun k => { k.dropLease x.pa with touched := touch k.touched (dieOf ck) x.sk }
          let (t, _, p) := s.plainRead x.sk x.pa x.key w
          if p.getLsbD (x.pa % 256 / 64) then .fault t codePoison a
          else
            let new := fun (d : BitVec 2048) => natBytes n (g (bytesNat (lineBytes d (x.pa % 256) n)))
            let (s, d, _, pts) := s.lineUpdate x.sk x.pa x.key w (fun d _ => (pairsAt (x.pa % 256) (new d), false)) s.me.pts
            .done ((s.countAccess ck x.sk 1 1 c w).modMe fun k => { k with pts := pts }) (bytesNat (lineBytes d (x.pa % 256) n))

/-- Finishes an access of the acting context: a fault traps MEMORY, a missing page parks, a locked line is tried
again (R278). -/
def Mem.finish {α : Type} (s : State) (m : Mem α) (k : State → α → State) : State :=
  match m with
  | .done t v => k t v
  | .fault t code va => t.memTrap code va
  | .page t va => t.parkPage t.me.colour va
  | .busy => s

/-- Finishes an access that the acting context makes under a colour that need not be its own: a fault that poisons and a page to
be mapped are that colour's (R278; 21_faults_preemption.md R371, R374). -/
def Mem.finishAs {α : Type} (s : State) (c : Colour) (m : Mem α) (k : State → α → State) : State :=
  match m with
  | .done t v => k t v
  | .fault t code va => (t.poisonDue (dieOf t.actor.ck) c code va).takeTrap 0x04 code 0 (BitVec.ofNat 64 va)
  | .page t va => t.parkPage c va
  | .busy => s
/-- A load: `ext` extends the value read to 64 bits. -/
def State.load (s : State) (n : Nat) (ext : Nat → Word) (xd xa : Reg) (imm : BitVec 32) : Result' :=
  .next ((s.coreRead (s.reg xa + sext imm).toNat n).finish s fun t bs => t.finish xd (ext (bytesNat bs)))
/-- A store of the low n bytes of xb, at the scope that the instruction names or its page's (R69). -/
def State.store (s : State) (n : Nat) (xb xa : Reg) (imm : BitVec 32) (sc : Option Scope) : Result' :=
  .next ((s.coreWrite s.me.colour (s.reg xa + sext imm).toNat (natBytes n (s.reg xb).toNat)
    (sc.map Sys2Proof.Decode.scopeCode)).finish s fun t _ => t.advance)
/-- An atomic on the 8-byte word at xa. -/
def State.amo (s : State) (xd xa : Reg) (g : Word → Word) : Result' :=
  .next ((s.coreAtomic (s.reg xa).toNat 8 fun o => (g (BitVec.ofNat 64 o)).toNat).finish s
    fun t old => t.finish xd (BitVec.ofNat 64 old))
/-- Sign extension from n bits. -/
def signed (n v : Nat) : Word := (BitVec.ofNat n v).signExtend 64

/-- `ldx.b`; the scope of a load places it in the memory order and moves nothing (R283, 17_memory_model.md). -/
def execLdxB (xd xa : Reg) (imm : BitVec 32) (_sc : Option Scope) (s : State) : Result' := s.load 1 (signed 8) xd xa imm
/-- `ldx.bu`. -/
def execLdxBu (xd xa : Reg) (imm : BitVec 32) (_sc : Option Scope) (s : State) : Result' :=
  s.load 1 (BitVec.ofNat 64) xd xa imm
/-- `ldx.h`. -/
def execLdxH (xd xa : Reg) (imm : BitVec 32) (_sc : Option Scope) (s : State) : Result' := s.load 2 (signed 16) xd xa imm
/-- `ldx.hu`. -/
def execLdxHu (xd xa : Reg) (imm : BitVec 32) (_sc : Option Scope) (s : State) : Result' :=
  s.load 2 (BitVec.ofNat 64) xd xa imm
/-- `ldx.w`. -/
def execLdxW (xd xa : Reg) (imm : BitVec 32) (_sc : Option Scope) (s : State) : Result' := s.load 4 (signed 32) xd xa imm
/-- `ldx.wu`. -/
def execLdxWu (xd xa : Reg) (imm : BitVec 32) (_sc : Option Scope) (s : State) : Result' :=
  s.load 4 (BitVec.ofNat 64) xd xa imm
/-- `ldx.d`. -/
def execLdxD (xd xa : Reg) (imm : BitVec 32) (_sc : Option Scope) (s : State) : Result' :=
  s.load 8 (BitVec.ofNat 64) xd xa imm
/-- `stx.b`. -/
def execStxB (xb xa : Reg) (imm : BitVec 32) (sc : Option Scope) (s : State) : Result' := s.store 1 xb xa imm sc
/-- `stx.h`. -/
def execStxH (xb xa : Reg) (imm : BitVec 32) (sc : Option Scope) (s : State) : Result' := s.store 2 xb xa imm sc
/-- `stx.w`. -/
def execStxW (xb xa : Reg) (imm : BitVec 32) (sc : Option Scope) (s : State) : Result' := s.store 4 xb xa imm sc
/-- `stx.d`. -/
def execStxD (xb xa : Reg) (imm : BitVec 32) (sc : Option Scope) (s : State) : Result' := s.store 8 xb xa imm sc
/-- `amo.add`. -/
def execAmoAdd (xd xb xa : Reg) (_sc : Option Scope) (s : State) : Result' := s.amo xd xa fun o => o + s.reg xb
/-- `amo.swap`. -/
def execAmoSwap (xd xb xa : Reg) (_sc : Option Scope) (s : State) : Result' := s.amo xd xa fun _ => s.reg xb
/-- `amo.cas`: xd holds the expected value. -/
def execAmoCas (xd xb xa : Reg) (_sc : Option Scope) (s : State) : Result' :=
  s.amo xd xa fun o => if o = s.reg xd then s.reg xb else o

/-- Runs the rest of an instruction once its release at a scope is complete (R155). -/
def State.afterRelease (s : State) (scope : Nat) (k : State → State) : State :=
  match s.releaseMe scope with
  | (t, true) => k t
  | (t, false) => t
/-- `fence`: the release, then the acquire (R285). -/
def execFence (sc : Scope) (s : State) : Result' :=
  .next (s.afterRelease (Sys2Proof.Decode.scopeCode sc) fun t => (t.acquireMe (Sys2Proof.Decode.scopeCode sc)).advance)
/-- `rel`. -/
def execRel (sc : Scope) (s : State) : Result' := .next (s.afterRelease (Sys2Proof.Decode.scopeCode sc) State.advance)
/-- `acq`. -/
def execAcq (sc : Scope) (s : State) : Result' := .next (s.acquireMe (Sys2Proof.Decode.scopeCode sc)).advance

end Sys2Proof.Machine
end

