-- ==== Sys2Proof/Machine/Pool.lean ====
section
/-!
DEFINITION. The pool table (21_faults_preemption.md R372): taking and returning pages, as the pager does for pages
of colours (R371) and of continuation queues (16_scheduling.md R309).
-/
namespace Sys2Proof.Machine

/-- The page size (05_main_memory.md R98). -/
def pageSize : Nat := 2 ^ 14
/-- The address of a colour's pool entry in a die's pool table. -/
def State.poolAt (s : State) (die : Nat) (c : Colour) : Nat := (s.die die).pgBase.toNat * pageSize + 32 * c.toNat
/-- A colour's pool entry. -/
def State.poolEntry (s : State) (die : Nat) (c : Colour) : Nat := s.peekNat (s.poolAt die c) 32
/-- NFREE. -/
def State.poolFree (s : State) (die : Nat) (c : Colour) : Nat := bits (s.poolEntry die c) 191 160
/-- Whether a page can be taken: PGTBL enabled and NFREE above zero (R371). -/
def State.poolHas (s : State) (die : Nat) (c : Colour) : Bool := (s.die die).pgEn && 0 < s.poolFree die c
/-- Writes NFREE. -/
def State.setPoolFree (s : State) (die : Nat) (c : Colour) (n : Nat) : State :=
  s.poke (s.poolAt die c + 20) (natBytes 4 n)
/-- Takes the page at the top of the array (R371). -/
def State.takePage (s : State) (die : Nat) (c : Colour) : State × Nat :=
  let e := s.poolEntry die c
  let n := bits e 191 160
  let pa := bits (s.peekNat (bits e 243 192 + 8 * (n - 1)) 8) 51 14 * pageSize
  (s.setPoolFree die c (n - 1), pa)
/-- Returns a page: its address at array entry NFREE, then NFREE + 1 (R309). -/
def State.returnPage (s : State) (die : Nat) (c : Colour) (pa : Nat) : State :=
  let e := s.poolEntry die c
  let n := bits e 191 160
  (s.poke (bits e 243 192 + 8 * n) (natBytes 8 pa)).setPoolFree die c (n + 1)
/-- Writes POISON in a colour's pool entry, wherever a die has a pool table (21_faults_preemption.md R375). -/
def State.markPoison (s : State) (c : Colour) (on : Bool) : State :=
  (List.range 4).foldl (fun s d =>
    if !(s.die d).pgEn then s
    else
      let a := s.poolAt d c + 13
      let b := s.peekNat a 1
      s.poke a [BitVec.ofNat 8 (if on then b ||| 0x20 else b - (b &&& 0x20))]) s

end Sys2Proof.Machine
end

