-- ==== Sys2Proof/Machine/Continuations.lean ====
section
/-!
DEFINITION. Continuation records and queues: `cspawn`, `cjoin`, `cend`, `cyield` (14_control_core.md R273, R286,
R287), the queues and the join table (16_scheduling.md R309, R310) and popping a record (R274, R311).
-/
namespace Sys2Proof.Machine

/-- The record of 32 bytes, and whether it breaks no reserved bit (R273). -/
def recordOf (w : Nat) : Record × Bool :=
  (⟨BitVec.ofNat 6 (bits w 214 209), BitVec.ofNat 9 (bits w 208 200), BitVec.ofNat 4 (bits w 195 192),
    BitVec.ofNat 64 (bits w 191 128), BitVec.ofNat 64 (bits w 127 64), BitVec.ofNat 64 (bits w 63 0)⟩,
    bits w 255 215 = 0 && bits w 199 196 = 0)

/-- A queue of a cluster. -/
def State.queue (s : State) (ck q : Nat) : Queue := (s.cluster ck).queues.getD q Queue.reset
/-- Updates a queue. -/
def State.modQueue (s : State) (ck q : Nat) (g : Queue → Queue) : State :=
  s.modCluster ck fun k => { k with queues := k.queues.setIfInBounds q (g (k.queues.getD q Queue.reset)) }
/-- The records of a cluster that stand in the join table (R310). -/
def Cluster.joinTable (k : Cluster) : Nat :=
  (k.queues.toList.map fun q => (q.records.filter fun r => r.state = .joining).length).sum
/-- A record leaves its queue; a page whose 512 records have all left returns to the pool (R309). -/
def State.leaveQueue (s : State) (ck q i : Nat) : State :=
  match (s.queue ck q).records[i]? with
  | none => s
  | some r =>
    let s := s.modQueue ck q fun x =>
      { x with
        records := x.records.eraseIdx i
        pages := x.pages.map fun p => if p.1 = r.page then (p.1, p.2 + 1) else p }
    let full := (s.queue ck q).pages.filter fun p => p.2 ≥ 512
    let s := s.modQueue ck q fun x => { x with pages := x.pages.filter fun p => p.2 < 512 }
    full.foldl (fun s p => s.returnPage (dieOf ck) (s.die (dieOf ck)).cqpool p.1) s
/-- Whether a queue's record stalls behind an earlier one that has found the join table full (R310). -/
def State.stalledBehind (s : State) (ck q i : Nat) : Bool :=
  (((s.queue ck q).records.take i).any fun r => r.state = .appended) && (s.cluster ck).joinTable ≥ 256
/-- The read of a record's join word (R310), under the record's colour; no join word lies in the scratchpad window (log 105). -/
def State.readJoinWord (s : State) (ck : Nat) (r : Record) : Mem (List Byte × Bool) :=
  if inWindow r.joina.toNat then .fault s codeVaRange r.joina.toNat
  else (s.engineRead ck r.colour r.joina.toNat 4 2).bind fun s v =>
    if v.2 then .fault s codePoison r.joina.toNat else .done s v
/-- Examines a queued record (R310): without a join word it is runnable; else the word is read, and zero makes it runnable; another value leaves it in the join
table where there is room; a missing page waits for the pager; another fault drops the record. -/
def State.joinRead (s : State) (ck q i : Nat) : State :=
  match (s.queue ck q).records[i]? with
  | none => s
  | some r =>
    let c := r.record.colour
    let set := fun (s : State) (st : RecordState) => s.modQueue ck q fun x =>
      { x with records := x.records.modify i fun y => { y with state := st } }
    match r.state with
    | .runnable _ => s
    | st =>
      if r.record.joina = 0 then set s (.runnable s.cycles)
      else
        match s.readJoinWord ck r.record with
        | .busy => s
        | .page s va => s.raisePage (dieOf ck) c va
        | .fault s k _ =>
          ((s.poisonDue (dieOf ck) c k r.record.joina.toNat).faultRecord ck c 0x16 k r.record.joina.toNat 0).leaveQueue ck q i
        | .done s v =>
          if bytesNat v.1 = 0 then set s (.runnable s.cycles)
          else if st = .appended ∧ (s.cluster ck).joinTable < 256 then set s .joining
          else s
/-- Whether a queued record of the join table may name the word at an address: the words of its page that lie alike. -/
def QRecord.mayName (r : QRecord) (va : Nat) : Bool := r.state = .joining && r.record.joina.toNat % 2 ^ 14 = va % 2 ^ 14
/-- After a decrement of a word by an agent of the cluster the scheduler reads it again for every matching entry (R310); an entry
that names another word is at most read early. -/
def State.rereadWord (s : State) (ck va : Nat) : State :=
  (List.range 16).foldl (fun s q =>
    (List.range (s.queue ck q).records.length).reverse.foldl (fun s i =>
      if ((s.queue ck q).records[i]?).any fun r => r.mayName va then s.joinRead ck q i else s) s) s
/-- The decrement of a join word by a card or a launch end (R187, R319), and the reread that follows (R310). -/
def State.joinWord (s : State) (j : Join) : State := (s.performJoin j).rereadWord j.ck j.va
/-- Appends a record to its queue, and examines it once (R309, R310); nothing where the queue needs a new
page first. -/
def State.append (s : State) (ck : Nat) (r : Record) : Option State :=
  let q := r.queue.toNat
  let x := s.queue ck q
  match x.pages.getLast? with
  | none => none
  | some p =>
    if x.filled ≥ 512 then none
    else
      let stalled := s.stalledBehind ck q x.records.length
      let s := s.modQueue ck q fun x =>
        { x with records := x.records ++ [⟨r, .appended, p.1⟩], filled := x.filled + 1 }
      some (if stalled then s else s.joinRead ck q x.records.length)
/-- The acting context waits for a page of a queue (R309). -/
def State.parkAppend (s : State) (q : Nat) : State :=
  let d := dieOf s.actor.ck
  (s.askPager ⟨d, (s.die d).cqpool, .queue s.actor.ck q⟩).parkMe .append

/-- Steps 3 and 4 of `cspawn` (R286), after its release: the join word is set under the record's colour, and the record appended. -/
def State.spawn (s : State) (r : Record) (imm : BitVec 32) : State :=
  let x := s.queue s.actor.ck r.queue.toNat
  if imm != 0 && r.joina = 0 then s.report 0x01 0
  else if x.pages = [] ∨ x.filled ≥ 512 then s.parkAppend r.queue.toNat
  else
    (if imm = 0 then Mem.done s () else s.coreWriteNow r.colour r.joina.toNat (natBytes 4 imm.toNat)).finishAs s r.colour fun s _ =>
      match s.append s.actor.ck r with
      | some s => s.report 0 0
      | none => s.parkAppend r.queue.toNat
/-- `cspawn` (R286): the record is checked; then the release, the join word and the append. -/
def execCspawn (xa : Reg) (imm : BitVec 32) (s : State) : Result' :=
  .next ((s.coreRead (s.reg xa).toNat 32).finish s fun t bs =>
    let (r, ok) := recordOf (bytesNat bs)
    if !ok || r.joina.toNat % 4 != 0 then t.report 0x01 0
    else if r.world != t.me.world || (t.colour r.colour).state != .live || (t.colour r.colour).world != t.me.world then
      t.report 0x02 0
    else t.afterRelease scopePkg fun t => t.spawn r imm)
/-- `cjoin` (R287): the release, then the decrement at PKG; the scheduler reads the word again (16_scheduling.md R310). -/
def execCjoin (xa : Reg) (s : State) : Result' :=
  .next (s.afterRelease scopePkg fun t =>
    (t.coreAtomic (t.reg xa).toNat 4 fun o => (o + 2 ^ 32 - 1) % 2 ^ 32).finish t fun t _ =>
      (t.rereadWord t.actor.ck (t.reg xa).toNat).advance)
/-- `cend` (R287): every store of the record has been sent, so the record ends. -/
def execCend (s : State) : Result' := .next s.endRecord
/-- `cyield` (R287). -/
def execCyield (s : State) : Result' :=
  let c := s.me
  let r : Record := ⟨c.world, c.colour, c.queue, 0, c.reg 2, c.pc + 8⟩
  match s.append s.actor.ck r with
  | some t => .next t.endRecord
  | none => .next (s.parkAppend c.queue.toNat)

/-- The queued records that a reread concerns, as queue and place. -/
def Cluster.waitingRecords (k : Cluster) : List (Nat × Nat) :=
  (List.range 16).flatMap fun q =>
    let rs := (k.queues.getD q Queue.reset).records
    (List.range rs.length).filterMap fun i =>
      match (rs[i]? : Option QRecord) with
      | some ⟨_, .runnable _, _⟩ => none
      | some _ => some (q, i)
      | none => none
/-- JOIN_REREAD (R310): the k-th waiting record's join word is read again. Where the table was full when an earlier
record of its queue came, that record is examined first. -/
def execJoinReread (ck k : Nat) (s : State) : Result' :=
  match (s.cluster ck).waitingRecords[k]? with
  | none => .next s
  | some (q, i) =>
    if s.stalledBehind ck q i then .next s else .next (s.joinRead ck q i)

/-- The runnable record of a queue that goes first: earliest runnable, then append order (R311). -/
def Queue.first (x : Queue) : Option (Nat × Nat) :=
  (List.range x.records.length).foldl (fun (b : Option (Nat × Nat)) i =>
    match (x.records[i]? : Option QRecord) with
    | some ⟨_, .runnable t, _⟩ =>
      (match b with
        | some (t', _) => if t < t' then some (t, i) else b
        | none => some (t, i))
    | _ => b) none
/-- The queue that wins (R311): the highest level with a runnable record, in cyclic order after the previous
winner of the level. -/
def Cluster.winner (k : Cluster) : Option Nat :=
  [3, 2, 1, 0].findSome? fun l =>
    let w := (k.lastWin.getD l 3).toNat
    ([1, 2, 3, 4].map fun d => 4 * l + (w + d) % 4).find? fun q => (k.queues.getD q Queue.reset).first.isSome
/-- The idle context in service with the lowest number (R311, R303). -/
def Cluster.idle (k : Cluster) : Option Nat :=
  (List.range 8).find? fun x => !(k.context x).running && k.ccen.getLsbD x
/-- A context set up for a record (R274): its clock and its touched-slice mask stay, and it issues from the next cycle on (R311). -/
def Context.pop (c : Context) (r : Record) (next : Nat) : Context :=
  { c with
    regs := (Vector.replicate 32 0).setIfInBounds 2 r.frame
    pc := r.code, running := true, tm := false, queue := r.queue, colour := r.colour, world := r.world
    tvec := 0, stsValue := 0, stsStatus := 0, park := .none, released := false, armed := false, leases := [], since := next }
/-- RECORD_POP (R311, R274), once in an FCLK cycle; a CODE that is misaligned traps at once with CCTVEC = 0 (R71). -/
def execRecordPop (ck : Nat) (s : State) : Result' :=
  let k := s.cluster ck
  if k.poppedAt = s.cycles + 1 then .next s
  else
    match k.idle, k.winner with
    | some x, some q =>
      match ((s.queue ck q).first.bind fun f => ((s.queue ck q).records[f.2]?).map fun (r : QRecord) => (f.2, r.record)) with
      | none => .next s
      | some (i, r) =>
        let s := (s.leaveQueue ck q i).modCluster ck fun k =>
          { k.modContext x fun c => c.pop r (s.cycles + 1) with
            lastWin := k.lastWin.setIfInBounds (q / 4) (BitVec.ofNat 2 (q % 4)), poppedAt := s.cycles + 1 }
        let s := { s with actor := { s.actor with ck := ck, ctx := x } }
        if r.code.toNat % 8 != 0 then .next (s.takeTrap 0x02 0 0 0) else .next s
    | _, _ => .next s

end Sys2Proof.Machine
end

