-- ==== Sys2Proof/Machine/System.lean ====
section
/-!
DEFINITION. The control core's system instructions (14_control_core.md R276, R279, R302, R303), the invalidation
and discard that a write of MMINVC starts (05_main_memory.md R110, R111, R117), and the time limit of `wfe`.
-/
namespace Sys2Proof.Machine

/-- CCSTAT (R276). -/
def Context.ccstat (c : Context) (x : Nat) : Nat :=
  flagAt c.tm 32 + fieldAt c.queue.toNat 28 + fieldAt c.colour.toNat 16 + fieldAt c.world.toNat 8 + x % 8
/-- CCTRAP (R276). -/
def Context.cctrap (c : Context) : Nat :=
  fieldAt c.trapCode.toNat 16 + fieldAt c.trapFcode.toNat 8 + c.trapCause.toNat
/-- CCSTS (R276, R277). -/
def Context.ccsts (c : Context) : Nat := fieldAt c.stsValue.toNat 16 + c.stsStatus.toNat
/-- MMINVC (R110). -/
def Context.mminvc (c : Context) : Nat :=
  flagAt c.mmBusy 63 + fieldAt c.mmMode.toNat 61 + fieldAt c.mmStatus.toNat 58 + fieldAt c.mmPages.toNat 24 +
    c.mmColour.toNat
/-- What a CSR number reads, where R276 has it. -/
def State.csrValue (s : State) (csr : Nat) : Option Word :=
  let c := s.me
  let w := BitVec.ofNat 64
  if csr = 0x0000 then some (w (c.ccstat s.actor.ctx))
  else if csr = 0x0001 then some (w c.cctrap)
  else if csr = 0x0002 then some c.epc
  else if csr = 0x0003 then some c.tval
  else if csr = 0x0004 then some c.tvec
  else if csr = 0x0005 then some c.scratch
  else if csr = 0x0006 then some (w c.ccsts)
  else if csr = 0x0010 then some s.timebase
  else if csr = 0x0410 then some (w (fieldAt c.mminva.toNat 14))
  else if csr = 0x0411 then some (w c.mminvc)
  else none

/-- Whether a world may name a colour in an invalidation (R110). -/
def State.mayInvalidate (s : State) (w : World) (c : Colour) : Bool :=
  w = 0 || (if w = 1 then (s.colour c).world != 0 else (s.colour c).world = w)
/-- A write of MMINVA (R110): ignored while BUSY; a reserved bit that is set is kept for the start of an operation to refuse. -/
def State.writeMminva (s : State) (v : Word) : State :=
  if s.me.mmBusy then s
  else s.modMe fun c =>
    { c with mminva := v.extractLsb' 14 33, mmBad := v.extractLsb' 47 17 != 0 || v.extractLsb' 0 14 != 0 }
/-- A write of MMINVC (R110): ignored while BUSY; with BUSY = 1 it starts the operation, or reports OWNER or
FORMAT. Where both hold, the model reports OWNER (the rule gives no order, log 110). -/
def State.writeMminvc (s : State) (v : Nat) : State :=
  let c := s.me
  if c.mmBusy then s
  else
    let mode := bits v 62 61
    let n := bits v 47 24
    let colour := colourOf (v % 512)
    let s := s.modMe fun c =>
      { c with mmMode := BitVec.ofNat 2 mode, mmPages := BitVec.ofNat 24 n, mmColour := colour }
    if bits v 63 63 = 0 then s
    else if !s.mayInvalidate c.world colour then s.modMe fun c => { c with mmStatus := 1 }
    else if ((mode = 0 || mode = 3) && (n = 0 || 2 ^ 33 < c.mminva.toNat + n)) || c.mmBad ||
        bits v 57 48 != 0 || bits v 23 9 != 0 then s.modMe fun c => { c with mmStatus := 2 }
    else s.modMe fun c => { c with mmStatus := 0, mmBusy := true, mmDone := false }

/-- `trap` (R302). -/
def execTrap (imm : BitVec 16) (s : State) : Result' := .next (s.takeTrap 0x05 0 imm.toNat 0)
/-- `eret` (R279). -/
def execEret (s : State) : Result' := .next s.trapReturn
/-- `csrrd` (R302). -/
def execCsrrd (xd : Reg) (csr : BitVec 16) (s : State) : Result' :=
  match s.csrValue csr.toNat with
  | some v => .next (s.finish xd v)
  | none => .next s.illegal
/-- `csrwr` (R302): a register or field that R276 does not let be written traps ILLEGAL. -/
def execCsrwr (csr : BitVec 16) (xa : Reg) (s : State) : Result' :=
  let v := s.reg xa
  if csr = 0x0002 ∧ s.me.tm then .next (s.modMe fun c => { c with epc := v }).advance
  else if csr = 0x0004 then .next (s.modMe fun c => { c with tvec := v &&& ~~~7 }).advance
  else if csr = 0x0005 then .next (s.modMe fun c => { c with scratch := v }).advance
  else if csr = 0x0410 then .next (s.writeMminva v).advance
  else if csr = 0x0411 then .next (s.writeMminvc v.toNat).advance
  else .next s.illegal
/-- `wfe` (R302): the context waits until BUSY of its MMINVC falls or 1,024 FCLK cycles have passed; those steps
move it on. -/
def execWfe (s : State) : Result' := .next (s.parkMe (.timer s.cycles))
/-- `halt` (R302, R303): in world 0 the context's service bit is cleared; in every world the record ends. -/
def execHalt (s : State) : Result' :=
  if s.me.world = 0 then
    .next (s.modMyCluster fun k => { k with ccen := k.ccen &&& ~~~((1 : BitVec 8) <<< s.actor.ctx) }).endRecord
  else .next s.endRecord

/-- A context parked in `wfe` goes on (R302). -/
def Context.wakeTimer (c : Context) : Context :=
  match c.park with
  | .timer _ => { c with pc := c.pc + 8, park := .none, released := false, armed := false }
  | _ => c
/-- WFE_TIMEOUT (R302). -/
def execWfeTimeout (ck ctx : Nat) (s : State) : Result' :=
  match (s.context ck ctx).park with
  | .timer t => if s.cycles - t ≥ 1024 then .next (s.modContext ck ctx Context.wakeTimer) else .next s
  | _ => .next s

/-- Which translations an invalidation clears: those of a colour that overlap the pages from `lo` below `hi`. -/
abbrev Stale := TlbEntry → Bool
/-- Translations of one colour in a range of 16 KiB pages. -/
def staleRange (c : Colour) (lo n : Nat) : Stale := fun t =>
  let span := 2 ^ (levelBits t.level - 14)
  t.colour = c && t.vpage * span < lo + n && lo < (t.vpage + 1) * span
/-- A binding's extents, those that satisfy a test translated again in place (R112). -/
def State.repatch (s : State) (ck : Nat) (g : Extent → Bool) (b : Binding) : State :=
  (b.extents.filter g).foldl (fun s x =>
    let (s, new) := s.extentOf ck b.colour (x.page * 2 ^ 14)
    s.modCluster ck fun k => { k with bindings := k.bindings.map fun y =>
      if y.id = b.id then { y with extents := y.extents.flatMap fun e => if e = x then new.toList else [e] } else y }) s
/-- Writes back the dirty granules of the stash lines that colours may hold: stores made under the translations that go (R111;
which of a colour's lines came by which translation no stash keeps, log 41). -/
def State.stashSweep (s : State) (g : Colour → Bool) : State :=
  s.tiles.foldl (fun s e => (e.2.stash.filter fun l => g l.key).foldl (fun s l => s.stashBackFor e.1 none l) s) s
/-- Clears translations from every TLB and generator extent of the package (R111); `keys` are the key colours of the stash lines
that may have come by them. -/
def State.sweep (s : State) (g : Stale) (keys : Colour → Bool) : State :=
  let s := s.stashSweep keys
  let s := { s with
    clusters := s.clusters.map fun (e : Nat × Cluster) =>
      (e.1, { e.2 with tlb := e.2.tlb.filter fun t => !g t, l2tlb := e.2.l2tlb.filter fun t => !g t })
    tiles := s.tiles.map fun (e : Nat × Tile) => (e.1, { e.2 with tlb := e.2.tlb.filter fun t => !g t }) }
  s.clusters.foldl (fun s e => e.2.bindings.foldl (fun s b => s.repatch e.1 (fun x => x.leaf.any g) b) s) s
/-- The lines that a range of a colour's pages maps, with the key colour of each (R104, R115): the walk gives the
leaf of each page. -/
def State.mappedIn (s : State) (c : Colour) (lo n pa : Nat) (key : Colour) : Bool :=
  (List.range n).any fun i =>
    match s.walkFrom ((lo + i) * 2 ^ 14) 3 1 ((s.colour c).root.toNat * 2 ^ 14) with
    | .error _ => false
    | .ok (level, _, e) =>
      let page := bits e 51 14 * 2 ^ 14 + ((lo + i) * 2 ^ 14) % 2 ^ levelBits level
      decide (page / 2 ^ 14 = pa / 2 ^ 14) && key = (if bits e 55 55 = 1 then (s.colour c).kshare else c)
/-- Drops lines of slices and stashes without write-back (R117), and the leased copies that contexts have of them (R118): a
dropped slice line raises its bank's MTS. -/
def State.dropLines (s : State) (g : Nat → Colour → Bool) : State :=
  { s with
    slices := s.slices.map fun (e : Nat × Slice) => (e.1, e.2.discard g)
    clusters := s.clusters.map fun (e : Nat × Cluster) =>
      (e.1, { e.2 with ctxs := e.2.ctxs.map fun (c : Context) => { c with leases := c.leases.filter fun x => !g x.pa x.key } })
    tiles := s.tiles.map fun (e : Nat × Tile) =>
      (e.1, { e.2 with stash := e.2.stash.filter fun x => !g x.pa x.key }) }
/-- Whether requests of the range have come to a slice and wait there for their lines: a discard drops a line once its lock is
free (R117), so that no store that came before it is performed after it (R118). -/
def State.dropWaits (s : State) (g : Nat → Colour → Bool) : Bool :=
  s.slices.any fun e => (e.2.misses.map (·.request) ++ e.2.conflicts).any fun r => g (r.pa / 256 * 256) r.key
/-- The sweep of an invalidation of the given mode: it runs once for each operation. -/
def State.mminv (s : State) (ck ctx mode : Nat) (g : State → Context → State) : Result' :=
  let c := s.context ck ctx
  if c.mmBusy && !c.mmDone && c.mmMode.toNat = mode then
    .next ((g s c).modContext ck ctx fun c => { c with mmDone := true })
  else .next s
/-- Whether a colour may hold lines under a key. -/
def State.mayKey (s : State) (c key : Colour) : Bool := (s.keysOf c.toNat).contains key.toNat
/-- MMINV_RANGE (R110, R111, R112). -/
def execMminvRange (ck ctx : Nat) (s : State) : Result' :=
  s.mminv ck ctx 0 fun s c => s.sweep (staleRange c.mmColour c.mminva.toNat c.mmPages.toNat) (s.mayKey c.mmColour)
/-- MMINV_COLOUR. -/
def execMminvColour (ck ctx : Nat) (s : State) : Result' :=
  s.mminv ck ctx 1 fun s c => s.sweep (fun t => t.colour = c.mmColour) (s.mayKey c.mmColour)
/-- MMINV_WORLD. -/
def execMminvWorld (ck ctx : Nat) (s : State) : Result' :=
  s.mminv ck ctx 2 fun s c =>
    s.sweep (fun t => (s.colour t.colour).world = (s.colour c.mmColour).world)
      fun k => (s.colour k).world = (s.colour c.mmColour).world
/-- MMINV_DISCARD (R117). -/
def execMminvDiscard (ck ctx : Nat) (s : State) : Result' :=
  let c := s.context ck ctx
  let g := s.mappedIn c.mmColour c.mminva.toNat c.mmPages.toNat
  if s.dropWaits g then .next s else s.mminv ck ctx 3 fun s _ => s.dropLines g

/-- Whether an access has still to be performed at a home slice (R111): a request on its way or waiting there, a group's ask or hold,
a write that commit mode holds. `g` tells by the key colour, the colour and, where the access keeps it, the address. -/
def State.accessesLeft (s : State) (g : Colour → Colour → Option Nat → Bool) : Bool :=
  let req := fun (r : Request) => g r.key r.colour r.va
  let ask := fun (a : SliceAsk) => g a.owner a.colour (some a.key.line) || g a.owner a.colour (some a.key.desc)
  s.travelling.any req || s.net.any (fun f => match f.cargo with | .ask _ a => ask a | _ => false) ||
  s.clusters.any (fun e => e.2.pendingKeys.any ask) ||
  s.slices.any (fun e => e.2.asks.any ask || e.2.groupQueue.any ask || e.2.holds.any (fun h => ask h.ask) ||
    e.2.misses.any (fun m => req m.request) || e.2.conflicts.any req) ||
  s.tiles.any fun e => e.2.commits.any fun c =>
    match c.effect with | .slice r => req r | _ => false
/-- INVALIDATION_COMPLETE (R111, R117, R302): BUSY falls once the sweep is done and, in modes 0 to 2, every access
of the range or the colours named has been performed at its home; a context in `wfe` goes on. -/
def execInvalidationComplete (ck ctx : Nat) (s : State) : Result' :=
  let c := s.context ck ctx
  let names : Colour → Colour → Option Nat → Bool := fun key d va =>
    if c.mmMode = 2 then (s.colour d).world = (s.colour c.mmColour).world
    else
      match va with
      | none => s.mayKey c.mmColour key
      | some a => d = c.mmColour && (c.mmMode = 1 ||
          decide (c.mminva.toNat ≤ a / 2 ^ 14 ∧ a / 2 ^ 14 < c.mminva.toNat + c.mmPages.toNat))
  if c.mmBusy && c.mmDone && (c.mmMode = 3 || !s.accessesLeft names) then
    .next (s.modContext ck ctx fun c => ({ c with mmBusy := false, mmDone := false }).wakeTimer)
  else .next s

end Sys2Proof.Machine
end

