-- ==== Sys2Proof/Machine/Objects.lean ====
section
/-!
DEFINITION. Objects (19_objects.md): the object table and the heaps of the allocator engines (R352 to R354), the eight
object instructions (R355 to R363), destruction and reclamation (R364, R365), keys (R359, R360), prefetch (R362).
The engines keep their tables as structures and write every change through to memory (log 8).
-/
namespace Sys2Proof.Machine

/-- Status codes of R277 and R356. -/
def stFormat : Nat := 0x01
/-- NOSPACE. -/
def stNoSpace : Nat := 0x14
/-- STALE. -/
def stStale : Nat := 0x15
/-- NOTFOUND. -/
def stNotFound : Nat := 0x16
/-- KEYDUP. -/
def stKeyDup : Nat := 0x17
/-- KEYFULL. -/
def stKeyFull : Nat := 0x18
/-- COUNT. -/
def stCount : Nat := 0x19

/-- A handle: KIND, home die, index, generation; its low half must be zero (12_ops_memory.md R243). -/
structure Handle where
  strong : Bool
  die : Nat
  index : Nat
  gen : Nat
  low : Nat
  deriving DecidableEq, Repr
/-- The handle of 64 bits. -/
def Handle.ofNat (w : Nat) : Handle := ⟨bits w 63 63 = 1, bits w 62 61, bits w 60 40, bits w 39 32, bits w 31 0⟩
/-- Its 64 bits. -/
def Handle.toNat (h : Handle) : Nat :=
  flagAt h.strong 63 + fieldAt h.die 61 + fieldAt h.index 40 + fieldAt h.gen 32 + h.low
/-- Handle checks made before anything is sent (R356). -/
def Handle.formOk (h : Handle) : Bool := h.low = 0 && h.index != 0

/-- The 512 bits of a key record (R359). -/
def KeyRecord.bits (r : KeyRecord) : Nat :=
  2 ^ 326 + fieldAt r.world.toNat 320 + fieldAt r.handle.toNat 256 + r.key.toNat
/-- The physical address of a key record. -/
def State.keyAddr (s : State) (d k : Nat) : Nat := (s.die d).ktBase.toNat * 2 ^ 9 + 64 * k
/-- Writes a key record, or clears its V. -/
def State.setKey (s : State) (d k : Nat) (r : Option KeyRecord) : State :=
  match r with
  | some r =>
    (s.modDie d fun x => { x with keys := Map.put x.keys k r }).poke (s.keyAddr d k) (natBytes 64 r.bits)
  | none =>
    (s.modDie d fun x => { x with keys := Map.del x.keys k }).poke (s.keyAddr d k + 40) [s.peek (s.keyAddr d k + 40) &&& 0xBF]

/-- TIMEBASE[47:16]. -/
def State.touchNow (s : State) : BitVec 32 := s.timebase.extractLsb' 16 32
/-- The entry of a handle, where it is LIVE, of the handle's generation and of a world (R356, R243). -/
def State.liveObject (s : State) (w : World) (h : Handle) : Option ObjectEntry :=
  let e := s.object h.die h.index
  if e.state = .live ∧ e.gen.toNat = h.gen ∧ e.world = w then some e else none
/-- DESTRUCTION D of an entry (R354, R360). -/
def State.destroyObject (s : State) (d i : Nat) : State :=
  let e := s.object d i
  let g := e.gen + 1
  let s := s.setObject d i { e with
    gen := g, strong := 0, weak := 0, pfen := false, keyp := 0
    state := if e.pin != 0 then .dying else if g = 0 then .retired else .free }
  match s.dies.findSome? (fun x => (x.2.keys.find? fun r => s.keyAddr x.1 r.1 = e.keyp).map fun r => (x.1, r.1)) with
  | some (kd, k) => if e.keyp = 0 then s else s.setKey kd k none
  | none => s
/-- A change of counts, and the destruction where both are zero (R364). -/
def State.setCounts (s : State) (d i : Nat) (e : ObjectEntry) : State :=
  let s := s.setObject d i e
  if e.strong = 0 ∧ e.weak = 0 then s.destroyObject d i else s
/-- The base of a world's heap on a die. -/
def State.heapBase (s : State) (d w : Nat) : Nat := (Map.get (s.die d).ohbase w 0).toNat / 2 * 2 ^ 14
/-- Whether the heap and the table are enabled (R352). -/
def State.heapOn (s : State) (d w : Nat) : Bool :=
  (s.die d).otEn && (Map.get (s.die d).ohbase w 0).toNat % 2 = 1
/-- NGRAN. -/
def State.heapSize (s : State) (d w : Nat) : Nat := bits (Map.get (s.die d).ohsize w 0).toNat 23 0
/-- LOW. -/
def State.heapLow (s : State) (d w : Nat) : Nat := bits (Map.get (s.die d).ohsize w 0).toNat 47 24
/-- Runs of granules that a world's LIVE and DYING entries hold: first granule and length. -/
def State.heapRuns (s : State) (d w : Nat) : List (Nat × Nat) :=
  ((s.die d).objects.filter fun e => e.2.world.toNat = w && (e.2.state = .live || e.2.state = .dying)).map
    fun e => ((e.2.base - s.heapBase d w) / 2 ^ 14, e.2.size)
/-- Free granules of a heap. -/
def State.heapFree (s : State) (d w : Nat) : Nat := s.heapSize d w - ((s.heapRuns d w).map (·.2)).sum
/-- The lowest run of n free granules. -/
def State.heapFit (s : State) (d w n : Nat) : Option Nat :=
  let rs := s.heapRuns d w
  let ok := fun (g : Nat) => g + n ≤ s.heapSize d w && rs.all fun r => g + n ≤ r.1 || r.1 + r.2 ≤ g
  ((0 :: rs.map fun r => r.1 + r.2).filter ok).foldl (fun b g => match b with
    | none => some g
    | some x => if g < x then some g else b) none
/-- The first reclaim candidate of a world (R365). -/
def State.candidate (s : State) (d w : Nat) : Option Nat :=
  let cs := (s.die d).objects.filter fun e => e.2.world.toNat = w && e.2.state = .live && e.2.strong = 0
  (cs.foldl (fun (b : Option (Nat × ObjectEntry)) e => match b with
    | none => some e
    | some x =>
      if e.2.prio.toNat < x.2.prio.toNat ∨ (e.2.prio = x.2.prio ∧ e.2.touch.toNat < x.2.touch.toNat) then some e
      else b) none).map (·.1)
/-- Whether a DYING entry still holds granules of a heap. -/
def State.heapDying (s : State) (d w : Nat) : Bool :=
  (s.die d).objects.any fun e => e.2.world.toNat = w && e.2.state = .dying
/-- The lowest FREE entry of index 1 or more. -/
def freeObject (m : Map ObjectEntry) : Nat → Nat → Option Nat
  | 0, _ => none
  | k + 1, i => if (Map.get m i ObjectEntry.reset).state = .free then some i else freeObject m k (i + 1)

/-- How an attempt to create an object ends: made, with its handle; another step needed first (a destruction was
made, or granules of DYING victims are awaited); or NOSPACE. -/
inductive Creation where
  | made (s : State) (h : Handle)
  | wait (s : State)
  | noSpace
/-- Creates an object of n granules, one step at a time (R357). -/
def State.create (s : State) (d : Nat) (w : World) (n : Nat) (prio : Nat) (weak : Bool) : Creation :=
  if !s.heapOn d w.toNat then .noSpace
  else
    match freeObject (s.die d).objects (2 ^ 21 - 1) 1, s.heapFit d w.toNat n with
    | some i, some g =>
      let e := s.object d i
      let e' : ObjectEntry := { ObjectEntry.reset with
        gen := e.gen, base := s.heapBase d w.toNat + 2 ^ 14 * g, size := n, world := w, hdie := BitVec.ofNat 2 d
        prio := BitVec.ofNat 4 prio, state := .live, strong := if weak then 0 else 1, weak := if weak then 1 else 0
        touch := s.touchNow }
      .made (s.setObject d i e') ⟨!weak, d, i, e.gen.toNat, 0⟩
    | _, _ =>
      match s.candidate d w.toNat with
      | some i => .wait (s.destroyObject d i)
      | none => if s.heapDying d w.toNat then .wait s else .noSpace

/-- Ends an object instruction with a result register (R356): xd is 0 where the status is not OK. -/
def State.objectResult (s : State) (xd : Reg) (status : Nat) (v : Nat) : State :=
  (s.setReg xd (if status = 0 then BitVec.ofNat 64 v else 0)).report status 0

/-- `onew` (R357): it is issued again after each destruction, and while granules are awaited. -/
def execOnew (xd xa : Reg) (imm : BitVec 32) (s : State) : Result' :=
  let size := (s.reg xa).toNat
  let hsel := bits imm.toNat 7 5
  if size = 0 ∨ size > 2 ^ 38 - 2 ^ 14 ∨ hsel ≥ 5 then .next (s.objectResult xd stFormat 0)
  else
    let d := if hsel = 0 then dieOf s.actor.ck else hsel - 1
    match s.create d s.me.world ((size + 2 ^ 14 - 1) / 2 ^ 14) (imm.toNat % 16) (imm.getLsbD 4) with
    | .made s h => .next (s.objectResult xd 0 h.toNat)
    | .wait s => .next s
    | .noSpace => .next (s.objectResult xd stNoSpace 0)

/-- The hash of a key (R359). -/
def keyHash (key : Nat) : Nat :=
  let h := (List.range 8).foldl (fun a i => a ^^^ bits key (32 * i + 31) (32 * i)) 0
  let h := h * 0x9E3779B1 % 2 ^ 32
  h ^^^ (h / 2 ^ 15)
/-- The die and bucket of a key. -/
def State.keyBucket (s : State) (key : Nat) : Nat × Nat :=
  let h := keyHash key
  let d := h / 2 ^ 30
  (d, h % 2 ^ (s.die d).ktLog2b.toNat)
/-- The matching record of a bucket. -/
def State.keyMatch (s : State) (d b : Nat) (w : World) (key : Nat) : Option (Nat × KeyRecord) :=
  (List.range 8).findSome? fun r =>
    match Map.get? (s.die d).keys (8 * b + r) with
    | some x => if x.world = w ∧ x.key.toNat = key then some (8 * b + r, x) else none
    | none => none
/-- A free record of a bucket. -/
def State.keyFree (s : State) (d b : Nat) : Option Nat :=
  ((List.range 8).find? fun r => (Map.get? (s.die d).keys (8 * b + r)).isNone).map (8 * b + ·)

/-- `oname` (R360). -/
def execOname (xa xb : Reg) (s : State) : Result' :=
  let h := Handle.ofNat (s.reg xa).toNat
  if !h.formOk || !h.strong then .next (s.report stFormat 0)
  else
    .next ((s.coreRead (s.reg xb).toNat 32).finish s fun s bs =>
      let key := bytesNat bs
      let (d, b) := s.keyBucket key
      if !(s.die d).ktEn then s.report stNoSpace 0
      else if (s.keyMatch d b s.me.world key).isSome then s.report stKeyDup 0
      else
        match s.keyFree d b with
        | none => s.report stKeyFull 0
        | some k =>
          match s.liveObject s.me.world h with
          | none => s.report stStale 0
          | some e =>
            if e.keyp != 0 then s.report stKeyDup 0
            else
              let s := s.setKey d k (some ⟨s.me.world, BitVec.ofNat 64 { h with strong := false }.toNat,
                BitVec.ofNat 256 key⟩)
              (s.setObject h.die h.index { e with keyp := s.keyAddr d k, touch := s.touchNow }).report 0 0)
/-- `ofind` (R360). -/
def execOfind (xd xa : Reg) (s : State) : Result' :=
  .next ((s.coreRead (s.reg xa).toNat 32).finish s fun s bs =>
    let key := bytesNat bs
    let (d, b) := s.keyBucket key
    if !(s.die d).ktEn then s.objectResult xd stNoSpace 0
    else
      match s.keyMatch d b s.me.world key with
      | none => s.objectResult xd stNotFound 0
      | some (_, r) =>
        let h := Handle.ofNat r.handle.toNat
        match s.liveObject s.me.world h with
        | none => s.objectResult xd stNotFound 0
        | some e =>
          if e.weak = 65535 then s.objectResult xd stCount 0
          else (s.setObject h.die h.index { e with weak := e.weak + 1, touch := s.touchNow }).objectResult xd 0
            r.handle.toNat)
/-- `oup` (R358). -/
def execOup (xd xa : Reg) (s : State) : Result' :=
  let h := Handle.ofNat (s.reg xa).toNat
  if !h.formOk then .next (s.objectResult xd stFormat 0)
  else
    match s.liveObject s.me.world h with
    | none => .next (s.objectResult xd stStale 0)
    | some e =>
      if h.strong then .next ((s.setObject h.die h.index { e with touch := s.touchNow }).objectResult xd 0 h.toNat)
      else if e.strong = 65535 then .next (s.objectResult xd stCount 0)
      else .next ((s.setObject h.die h.index { e with strong := e.strong + 1, touch := s.touchNow }).objectResult xd 0
        { h with strong := true }.toNat)
/-- `oweak` (R358). -/
def execOweak (xd xa : Reg) (s : State) : Result' :=
  let h := Handle.ofNat (s.reg xa).toNat
  if !h.formOk then .next (s.objectResult xd stFormat 0)
  else
    match s.liveObject s.me.world h with
    | none => .next (s.objectResult xd stStale 0)
    | some e =>
      if e.weak = 65535 then .next (s.objectResult xd stCount 0)
      else .next ((s.setObject h.die h.index { e with weak := e.weak + 1, touch := s.touchNow }).objectResult xd 0
        { h with strong := false }.toNat)
/-- Takes one reference of a handle's kind from a live entry (R358, R246); nothing where the count is 0. -/
def State.dropRef (s : State) (h : Handle) (e : ObjectEntry) : Option State :=
  let c := if h.strong then e.strong else e.weak
  if c = 0 then none
  else
    let e := { e with touch := s.touchNow }
    some (s.setCounts h.die h.index
      (if h.strong then { e with strong := c - 1 } else { e with weak := c - 1 }))
/-- `orel` (R358). -/
def execOrel (xa : Reg) (s : State) : Result' :=
  let h := Handle.ofNat (s.reg xa).toNat
  if !h.formOk then .next (s.report stFormat 0)
  else
    match s.liveObject s.me.world h with
    | none => .next (s.report (if h.strong then stStale else 0) 0)
    | some e =>
      match s.dropRef h e with
      | none => .next (s.report stCount 0)
      | some s => .next (s.report 0 0)
/-- `oprio` (R361). -/
def execOprio (xa : Reg) (imm : BitVec 32) (s : State) : Result' :=
  let h := Handle.ofNat (s.reg xa).toNat
  let pfen := imm.getLsbD 4
  let col := colourOf (bits imm.toNat 13 5)
  if !h.formOk || (!pfen && col != 0) then .next (s.report stFormat 0)
  else
    match s.liveObject s.me.world h with
    | none => .next (s.report stStale 0)
    | some e =>
      if pfen && !((s.colour col).state = .live && (s.colour col).world = s.me.world) then .next (s.report 0x0A 0)
      else .next ((s.setObject h.die h.index { e with
        prio := imm.extractLsb' 0 4, pfen := pfen, pfcol := col, touch := s.touchNow }).report 0 0)
/-- The first page of a range whose translation fails, with its code (R363, R367). -/
def State.rangeFault (s : State) (c : Colour) (base n : Nat) : Option (Nat × Nat) :=
  (List.range n).findSome? fun i =>
    let va := base + 2 ^ 14 * i
    match s.xlate [] c va false false with
    | (_, _, .error k) => some (k, va)
    | (_, _, .ok _) => none
/-- `odisc` (R363): the context waits until the lines are free and have been dropped. -/
def execOdisc (xa : Reg) (s : State) : Result' :=
  let h := Handle.ofNat (s.reg xa).toNat
  if !h.formOk || !h.strong then .next (s.report stFormat 0)
  else
    match s.liveObject s.me.world h with
    | none => .next (s.report stStale 0)
    | some e =>
      let c := s.me.colour
      match s.rangeFault c e.base e.size with
      | some (k, va) => if k = codeNotMapped then .next (s.parkPage c va) else .next (s.memTrap k va)
      | none =>
        let g := s.mappedIn c (e.base / 2 ^ 14) e.size
        if s.dropWaits g then .next s else .next ((s.dropLines g).report 0 0)

/-- OBJECT_RECLAIM (R365): one destruction, where the world's free granules number fewer than LOW. -/
def execObjectReclaim (die w : Nat) (s : State) : Result' :=
  if s.heapOn die w && s.heapFree die w < s.heapLow die w then
    match s.candidate die w with
    | some i => .next (s.destroyObject die i)
    | none => .next s
  else .next s

/-- Reads the lines of a range into their home slices under a colour; a read that faults is dropped (R362). -/
def State.prefetchLines (s : State) (ck : Nat) (c : Colour) (base n : Nat) : State :=
  (List.range n).foldl (fun s i =>
    match s.engineReadLine ck c (base + 256 * i) 256 with
    | .done s _ => s
    | _ => s) s
/-- PREFETCH_NOTICE (R362): the k-th notice under way reaches its die. -/
def execPrefetchNotice (k : Nat) (s : State) : Result' :=
  match s.prefetches[k]? with
  | none => .next s
  | some (d, c) =>
    let s := { s with prefetches := s.prefetches.eraseIdx k }
    let es := ((s.die d).objects.filter fun e => e.2.state = .live && e.2.pfen && e.2.pfcol = c).take 16
    .next (es.foldl (fun s e =>
      (s.setObject d e.1 { e.2 with touch := s.touchNow }).prefetchLines (16 * d) c e.2.base (64 * e.2.size)) s)

end Sys2Proof.Machine
end

