-- ==== Sys2Proof/Machine/Groups.lean ====
section
/-!
DEFINITION. Multicast group loads (06_slices.md R133 to R141): the descriptor, the group agent, hold entries, fills
and the delivery table; `gjoin` and `gleave` (14_control_core.md R297).
-/
namespace Sys2Proof.Machine

/-- Completion codes of `ldg` (12_ops_memory.md R242). -/
def grpFull : Nat := 0
/-- TIMEOUT. -/
def grpTimeout : Nat := 1
/-- LATE. -/
def grpLate : Nat := 2
/-- NOTMEMBER. -/
def grpNotMember : Nat := 3
/-- COLOUR. -/
def grpColour : Nat := 4
/-- RANGE. -/
def grpRange : Nat := 5
/-- FAULT. -/
def grpFault : Nat := 6
/-- Fault code GROUP_FORM (R135). -/
def codeGroupForm : Nat := 0x2B

/-- A group descriptor (R133). -/
structure GroupDesc where
  offset : Nat
  timer : Nat
  colour : Colour
  enrolled : Word
  asked : Word
  seqNo : Nat
  member : List Nat
  formOk : Bool
  deriving DecidableEq, Repr
/-- The descriptor of 256 bytes. -/
def GroupDesc.ofNat (w : Nat) : GroupDesc :=
  let ms := (List.range 64).map fun m => bits w (512 + 16 * m + 15) (512 + 16 * m)
  let timer := bits w 39 19
  let offset := bits w 55 40
  { offset := offset, timer := timer, colour := colourOf (bits w 8 0)
    enrolled := BitVec.ofNat 64 (bits w 127 64), asked := BitVec.ofNat 64 (bits w 191 128)
    seqNo := bits w 223 192, member := ms
    formOk := bits w 63 56 = 0 && bits w 18 9 = 0 && bits w 255 224 = 0 && bits w 511 256 = 0 &&
      bits w 2047 1536 = 0 && offset % 256 = 0 && 1 ≤ timer && timer ≤ 2 ^ 20 &&
      ms.all fun m => bits m 14 12 = 0 && bits m 7 4 = 0 }
/-- The descriptor at a physical address. -/
def State.groupDesc (s : State) (pa : Nat) : GroupDesc := GroupDesc.ofNat (s.peekNat pa 256)
/-- The tile index that a MEMBER entry names. -/
def memberTile (m : Nat) : Nat := 16 * bits m 11 8 + bits m 3 0
/-- The number of the valid MEMBER entry of a tile. -/
def GroupDesc.memberOf (g : GroupDesc) (ti : Nat) : Option Nat :=
  (List.range 64).find? fun m =>
    let e := g.member.getD m 0
    bits e 15 15 = 1 && memberTile e = ti
/-- The members enrolled, with their tiles. -/
def GroupDesc.members (g : GroupDesc) : List (Nat × Nat) :=
  (List.range 64).filterMap fun m =>
    let e := g.member.getD m 0
    if g.enrolled.getLsbD m && bits e 15 15 = 1 then some (m, memberTile e) else none
/-- Whether a mask covers the enrolled members. -/
def GroupDesc.covered (g : GroupDesc) (asked : Word) : Bool := g.enrolled &&& ~~~asked = 0

/-- The operands of a group's `ldg` leave the store: its line is translated, or the request has ended (12_ops_memory.md R242). -/
def State.groupGoes (s : State) (a : GroupAsk) : State :=
  s.modTile a.tk fun t => { t with store := t.store.filter fun e => e.2.state != .group a.access }
/-- Completes the `ldg` of a request with a status (R137): the completion goes to its tile on VC2 (07_network.md R142). -/
def State.groupDone (s : State) (a : GroupAsk) (status : Nat) : State :=
  ((s.groupGoes a).modTile a.tk fun t =>
    { t with accesses := t.accesses.map fun x => if x.id = a.access then { x with value := status, phase := .sent } else x }).inject
    (ckOf a.tk) (.port unitPort) (tiOf a.tk, 4) true 2 (.reply a.tk a.access)
/-- Completes and removes the requests of a cluster that satisfy a test. -/
def State.groupDoneAll (s : State) (ck : Nat) (which : GroupAsk → Bool) (status : Nat) : State :=
  let mine := (s.cluster ck).asks.filter which
  let s := mine.foldl (fun s a => s.groupDone a status) s
  s.modCluster ck fun k => { k with asks := k.asks.filter fun a => !which a }
/-- Records an uncorrected error on ring 0 (25_reliability.md R409), by the event unit of a cluster. -/
def State.errorRecord (s : State) (ck status code fault : Nat) (tag : Word) (c : Colour) : State :=
  s.record ck 0 0 0x08 status fault c code tag
/-- The cluster whose event unit writes the records of a slice: the first of its quadrant (log 52). -/
def sliceUnit (sk : Nat) : Nat := 4 * (sk / 16)
/-- The place of a slice's error in the TAG of its record (R409). -/
def sliceTag (sk bank : Nat) : Word := BitVec.ofNat 64 (fieldAt (sk / 64) 24 + fieldAt (sk % 64) 16 + fieldAt bank 8)
/-- A fault ends a key (R140): one record goes to the ring of the colour, every waiter and asker of the key completes FAULT, and
its hold entries and asks are gone. -/
def State.groupFaulted (s : State) (ck : Nat) (key : GroupKey) (c : Colour) (code : Nat) : State :=
  let s := (s.poisonDue (dieOf ck) c code key.line).faultRecord ck c 0x13 code key.line 0
  let s := s.groupDoneAll ck (fun a => a.key = key) grpFault
  let keep := fun (a : SliceAsk) => !(a.key = key && a.ck = ck)
  let s := s.modCluster ck fun k => { k with pendingKeys := k.pendingKeys.filter keep }
  { s with
    net := s.net.filter fun f => match f.cargo with | .ask _ a => keep a | _ => true
    slices := s.slices.map fun (e : Nat × Slice) => (e.1, { e.2 with
      holds := e.2.holds.filter fun h => keep h.ask, asks := e.2.asks.filter keep, groupQueue := e.2.groupQueue.filter keep }) }

/-- The fill of a hold entry (R136): the slice reads the line once; nothing while the line is locked. A colour that is poisoned or
no longer LIVE by then faults (R140; 21_faults_preemption.md R375). -/
def State.groupFill (s : State) (sk : Nat) (h : GroupHold) : State :=
  let a := h.ask
  if (s.colour a.colour).poisoned then s.groupFaulted a.ck a.key a.colour codeColourPoisoned
  else if (s.colour a.colour).state != .live then s.groupFaulted a.ck a.key a.colour codeColourState
  else if (s.slice sk).waits a.pa then s
  else
    let w := (s.colour a.colour).world
    let (s, d, p) := s.plainRead sk a.pa a.owner w
    let s := if p = 0 then s else s.errorRecord (sliceUnit sk) 0x02 4 codePoison (sliceTag sk (bankOf a.pa)) a.colour
    let s := s.modSlice sk fun l => { l with holds := l.holds.filter fun x => x != h }
    let f : GroupFillMsg := ⟨a.key, (s.groupDesc a.key.desc).members, h.asked, d, p, h.cause = some true⟩
    s.netSend s.nclk 1 (sliceStop sk) (engineStop a.ck sk) a.colour w 0xF (.fill a.ck f)
/-- A hold entry that fills, with its cause, fills now where its line is free (R136). -/
def State.groupCause (s : State) (sk : Nat) (h : GroupHold) (byTimer : Bool) : State :=
  let h' := { h with cause := some byTimer }
  (s.modSlice sk fun l => { l with holds := l.holds.map fun x => if x = h then h' else x }).groupFill sk h'
/-- Tests the hold entries of a descriptor after a change of ENROLLED or of an asked mask (R136). -/
def State.groupTest (s : State) (sk desc : Nat) : State :=
  ((s.slice sk).holds.filter fun h => h.ask.key.desc = desc && h.cause.isNone).foldl (fun s h =>
    if (s.groupDesc desc).covered h.asked then s.groupCause sk h false else s) s
/-- Whether a slice holds an ask's key and still takes asks of it. -/
def Slice.holdOf (l : Slice) (a : SliceAsk) : Option GroupHold :=
  l.holds.find? fun h => h.ask.key = a.key && h.ask.ck = a.ck
/-- An ask is taken at its slice: its key's hold entry, or a new one of the 32 (R136). The Bool says whether there
was room; an entry that is about to fill takes no further ask. -/
def State.groupTake (s : State) (sk : Nat) (a : SliceAsk) : State × Bool :=
  let l := s.slice sk
  match l.holdOf a with
  | some h =>
    if h.cause.isSome then (s, false)
    else
      let h' := { h with asked := h.asked ||| ((1 : Word) <<< a.member) }
      ((s.modSlice sk fun l => { l with holds := l.holds.map fun x => if x = h then h' else x }).groupTest sk a.key.desc, true)
  | none =>
    if l.holds.length < 32 then
      ((s.modSlice sk fun l => { l with holds := l.holds ++ [⟨a, (1 : Word) <<< a.member, a.timer, none⟩] }).groupTest sk
        a.key.desc, true)
    else (s, false)
/-- GROUP_ASK (R136): the k-th ask at the slice's stop is taken, the first one first; one that needs a new hold entry waits behind
those of the group queue, and one that finds the queue full stays at the stop. -/
def execGroupAsk (sk k : Nat) (s : State) : Result' :=
  if k != 0 then .next s
  else
    match (s.slice sk).asks with
    | [] => .next s
    | a :: rest =>
      let gone := s.modSlice sk fun l => { l with asks := rest }
      let l := s.slice sk
      match if (l.holdOf a).isSome || l.groupQueue = [] then gone.groupTake sk a else (gone, false) with
      | (t, true) => .next t
      | (t, false) =>
        if l.groupQueue.length < 8 then .next (t.modSlice sk fun l => { l with groupQueue := l.groupQueue ++ [a] })
        else .next s
/-- GROUP_QUEUE_ADMIT (R136). -/
def execGroupQueueAdmit (sk : Nat) (s : State) : Result' :=
  match (s.slice sk).groupQueue with
  | [] => .next s
  | a :: rest =>
    match (s.modSlice sk fun l => { l with groupQueue := rest }).groupTake sk a with
    | (t, true) => .next t
    | (_, false) => .next s
/-- GROUP_TIMER_EXPIRY (R136): the k-th hold entry fills where its timer is zero; one that has to fill and found its line locked
is tried again. -/
def execGroupTimerExpiry (sk k : Nat) (s : State) : Result' :=
  match (s.slice sk).holds[k]? with
  | none => .next s
  | some h =>
    if h.cause.isSome then .next (s.groupFill sk h)
    else if h.timer = 0 then .next (s.groupCause sk h true)
    else .next s

/-- Changes a request at the agent. -/
def State.modAsk (s : State) (ck k : Nat) (g : GroupAsk → GroupAsk) : State :=
  s.modCluster ck fun x => { x with asks := x.asks.modify k g }
/-- Sends an ask to the line's home slice, by the rings (R135, 07_network.md R148): the tag's operands are waited for no more. -/
def State.sendAsk (s : State) (ck k : Nat) (a : SliceAsk) (sk : Nat) : State :=
  let s := match (s.cluster ck).asks[k]? with | some y => s.groupGoes y | none => s
  (s.modAsk ck k fun y => { y with sent := some a.member }).netSend s.nclk 0 (engineStop ck sk) (sliceStop sk) a.colour
    (s.colour a.colour).world 0 (.ask sk a)
/-- The translation of a key for member m, and its ask (R135 from step 3 on): a request whose key waits for a page waits with it;
one whose key has been translated is sent; otherwise the agent translates the line. -/
def State.forwardAsk (s : State) (ck k : Nat) (a : GroupAsk) (m timer : Nat) : State :=
  let key := a.key
  let c := a.tag.colour
  let wait := fun (s : State) (p : Option (Nat × Nat)) =>
    s.modAsk ck k fun y => { y with waitPage := p, passed := some (m, timer) }
  match (s.cluster ck).asks.find? (fun b => b.key = key && b.waitPage.isSome) with
  | some b => wait s b.waitPage
  | none =>
    match (s.cluster ck).pendingKeys.find? fun p => p.key = key with
    | some p => s.sendAsk ck k { p with member := m } (homeOf p.home p.near p.pa)
    | none =>
      match s.xlateEngine ck c key.line true false with
      | (s, .error e) =>
        if e = codeNotMapped then wait (s.raisePage (dieOf ck) c key.line) (some (c.toNat, key.line / 2 ^ 14))
        else s.groupFaulted ck key c e
      | (s, .ok x) =>
        if x.device then s.groupFaulted ck key c codePerm
        else
          let p : SliceAsk := ⟨ck, key, m, x.pa, x.home, x.near, c, x.key, timer, x.scope⟩
          (s.modCluster ck fun y => { y with pendingKeys := y.pendingKeys ++ [p] }).sendAsk ck k p x.sk
/-- The delivery table without the entries of a descriptor whose masks cover its members (R139). -/
def State.tidy (s : State) (desc : Nat) : State :=
  { s with clusters := s.clusters.map fun (e : Nat × Cluster) => (e.1, { e.2 with
      deliveries := e.2.deliveries.filter fun d => !(d.key.desc = desc && (s.groupDesc desc).covered d.asked) }) }
/-- GROUP_REQUEST (R135): the k-th request at the cluster's agent; one that has passed the checks and waited for a page is
forwarded. -/
def execGroupRequest (ck k : Nat) (s : State) : Result' :=
  match (s.cluster ck).asks[k]? with
  | none => .next s
  | some a =>
    if a.sent.isSome || a.waitPage.isSome then .next s
    else
      let key := a.key
      let c := a.tag.colour
      let g := s.groupDesc key.desc
      let drop := fun (s : State) => s.modCluster ck fun x => { x with asks := x.asks.eraseIdx k }
      let done := fun (s : State) (st : Nat) => (drop s).groupDone a st
      let bad := (List.range 4).any fun u => s.peekPoison (key.desc + 64 * u)
      match a.passed with
      | some (m, timer) => .next (s.forwardAsk ck k a m timer)
      | none =>
        if bad || !g.formOk then
          .next (done (s.faultRecord ck c 0x13 (if bad then codePoison else codeGroupForm) key.line a.tag.toWord) grpFault)
        else
          match g.memberOf (tiOf a.tk) with
          | none => .next (done s grpNotMember)
          | some m =>
            if !g.enrolled.getLsbD m then .next (done s grpNotMember)
            else if c != g.colour then .next (done s grpColour)
            else if g.offset + key.disp + 256 > 4096 * (s.tile a.tk).spk.toNat then .next (done s grpRange)
            else if (s.cluster ck).deliveries.any fun d => d.key = key then
              .next (done ((s.modCluster ck fun x => { x with deliveries := x.deliveries.map fun d =>
                if d.key = key then { d with asked := d.asked ||| ((1 : Word) <<< m) } else d }).tidy key.desc) grpLate)
            else .next (s.forwardAsk ck k a m g.timer)

/-- Writes a fill into a member's scratchpad, where it reaches (R137, R138). -/
def State.fillMember (s : State) (ck : Nat) (g : GroupDesc) (f : GroupFillMsg) (ti : Nat) : State :=
  let tk := 192 * ck + ti
  let t := s.tile tk
  let off := g.offset + f.key.disp
  if off + 256 > 4096 * t.spk.toNat ∨ t.tsWorld != (s.colour g.colour).world then s
  else (List.range 4).foldl (fun s u =>
    s.spFill tk (off + 64 * u) (lineBytes f.data (64 * u) 64) (f.poison.getLsbD u)) s
/-- Whether some slice holds the lock of a line. -/
def State.lockedAnywhere (s : State) (pa : Nat) : Bool := s.slices.any fun e => e.2.locked pa
/-- GROUP_FILL (R137, R139): the k-th fill reaches the agent, which writes ASKED and SEQ once the descriptor's line is free. The full
delivery table loses its oldest entry. -/
def execGroupFill (ck k : Nat) (s : State) : Result' :=
  match (s.cluster ck).fills[k]? with
  | none => .next s
  | some f =>
    if s.lockedAnywhere f.key.desc then .next s
    else
      let g := s.groupDesc f.key.desc
      let s := f.members.foldl (fun s m => s.fillMember ck g f m.2) s
      let s := s.poke (f.key.desc + 16) (natBytes 8 f.asked.toNat ++ natBytes 4 ((g.seqNo + 1) % 2 ^ 32))
      let s := s.groupDoneAll ck
        (fun a => a.key = f.key && (match a.sent with | some m => f.asked.getLsbD m | none => false))
        (if f.byTimer then grpTimeout else grpFull)
      .next ((s.modCluster ck fun x =>
        { x with
          fills := x.fills.eraseIdx k
          deliveries := x.deliveries.drop (x.deliveries.length + 1 - 64) ++ [⟨f.key, f.asked, BitVec.ofNat 32 (g.seqNo + 1)⟩]
          pendingKeys := x.pendingKeys.filter fun p => p.key != f.key }).tidy f.key.desc)

/-- The descriptor of `gjoin` and `gleave`, at its physical address (R297). -/
def State.coreGroup (s : State) (a : Nat) : Mem Nat :=
  match addrFault a 256 with
  | some k => .fault s k a
  | none =>
    match s.xlateCore s.actor.ck s.me.colour a true true with
    | (s, .error k) => if k = codeNotMapped then .page s a else .fault s k a
    | (s, .ok x) =>
      if x.device then .fault s codePerm a
      else if s.ownEarlier s.mySource x.sk || s.lineBusy s.actor.ck x.sk x.pa then .busy
      else if (List.range 4).any fun u => s.peekPoison (x.pa + 64 * u) then .fault s codePoison a
      else .done (s.modMe fun c => c.dropLease x.pa) x.pa
/-- Changes a member of a descriptor: its MEMBER entry, its ENROLLED bit, and COLOUR where given; then every hold
entry of the group and the entries of the delivery table are tested (R136, R139, R297). -/
def State.setMember (s : State) (pa : Nat) (g : GroupDesc) (m entry : Nat) (on : Bool) (c : Option Colour) : State :=
  let e := if on then g.enrolled ||| ((1 : Word) <<< m) else g.enrolled &&& ~~~((1 : Word) <<< m)
  let s := s.poke (pa + 64 + 2 * m) (natBytes 2 entry)
  let s := s.poke (pa + 8) (natBytes 8 e.toNat)
  let s := match c with
    | none => s
    | some c => s.poke pa (natBytes 2 (s.peekNat pa 2 / 512 * 512 + c.toNat))
  (s.slices.foldl (fun s x => s.groupTest x.1 pa) s).tidy pa
/-- `gjoin` (R297). -/
def execGjoin (xa : Reg) (imm : BitVec 32) (s : State) : Result' :=
  let ti := 16 * bits imm.toNat 7 4 + bits imm.toNat 3 0
  if imm.toNat ≥ 256 then .next (s.report 0x01 0)
  else if bits imm.toNat 7 4 > 11 then .next (s.report 0x0B 0)
  else .next ((s.coreGroup (s.reg xa).toNat).finish s fun s pa =>
    let g := s.groupDesc pa
    if !g.formOk then s.report 0x01 0
    else if (g.memberOf ti).isSome then s.report 0 0
    else if g.enrolled != 0 && g.colour != s.me.colour then s.report 0x0A 0
    else
      match (List.range 64).find? fun m => bits (g.member.getD m 0) 15 15 = 0 with
      | none => s.report 0x08 0
      | some m =>
        (s.setMember pa g m (2 ^ 15 + fieldAt (ti / 16) 8 + ti % 16) true
          (if g.enrolled = 0 then some s.me.colour else none)).report 0 m)
/-- `gleave` (R297). -/
def execGleave (xa : Reg) (imm : BitVec 32) (s : State) : Result' :=
  let ti := 16 * bits imm.toNat 7 4 + bits imm.toNat 3 0
  if imm.toNat ≥ 256 then .next (s.report 0x01 0)
  else if bits imm.toNat 7 4 > 11 then .next (s.report 0x0B 0)
  else .next ((s.coreGroup (s.reg xa).toNat).finish s fun s pa =>
    let g := s.groupDesc pa
    if !g.formOk then s.report 0x01 0
    else
      match g.memberOf ti with
      | none => s.report 0x09 0
      | some m => (s.setMember pa g m 0 false none).report 0 m)

end Sys2Proof.Machine
end

