-- ==== Sys2Proof/Machine/KvState.lean ====
section
/-!
DEFINITION. KV state in a tile's scratchpad: the configuration register, the sequence descriptors, and the append of a
quarter of a position (13_ops_matrix.md R262 to R265).
-/
namespace Sys2Proof.Machine

/-- A KV configuration register (R262). -/
structure KvCfg where
  bits : Nat
  deriving DecidableEq, Repr

/-- Field RIDX. -/
def KvCfg.ridx (g : KvCfg) : Nat := g.bits / 2 ^ 24 % 256
/-- Field T. -/
def KvCfg.tiles (g : KvCfg) : Nat := g.bits / 2 ^ 16 % 256
/-- Field TABLE. -/
def KvCfg.table (g : KvCfg) : Nat := g.bits % 2 ^ 16
/-- The table of R262 is kept. -/
def KvCfg.ok (g : KvCfg) : Bool :=
  g.bits < 2 ^ 32 && 1 ≤ g.tiles && g.tiles ≤ 192 && g.ridx < g.tiles && g.table % 64 = 0
/-- The descriptor of sequence q (R263). -/
def KvCfg.desc (g : KvCfg) (q : Nat) : Nat := g.table + 64 * q
/-- `cnt(X)`: the positions below X that the tile owns (R263). -/
def KvCfg.cnt (g : KvCfg) (x : Nat) : Nat := if x > g.ridx then (x - g.ridx - 1) / g.tiles + 1 else 0

/-- The control granule of a sequence (R263). -/
structure KvSeq where
  base : Nat
  cap : Nat
  len : Nat
  nd : Nat
  deriving DecidableEq, Repr

/-- Reads a control granule. -/
def Tile.kvSeq (t : Tile) (d : Nat) : KvSeq :=
  ⟨t.word32 d % 2 ^ 16, t.word32 d / 2 ^ 16 % 256, t.word32 (d + 4), t.word32 (d + 8) % 128⟩
/-- The bytes of a control granule. -/
def KvSeq.bytes (k : KvSeq) : List Byte := natBytes 16 (k.base + 2 ^ 16 * k.cap + 2 ^ 32 * k.len + 2 ^ 64 * k.nd)
/-- The offset of page g's header. -/
def headerAt (d g : Nat) : Nat := d + 16 + 16 * g
/-- The bytes of a page header (R263). -/
def headerBytes (k v clip : Nat) (kset vset : Bool) : List Byte :=
  natBytes 16 (k + 2 ^ 32 * v + 2 ^ 64 * clip + 2 ^ 80 * (if kset then 1 else 0) + 2 ^ 81 * (if vset then 1 else 0))
/-- Where local slot n of a sequence begins. -/
def KvSeq.slot (k : KvSeq) (n : Nat) : Nat := k.base + 256 * n
/-- The control word of `kvapp` (R265): position, part, sequence and scale. -/
def kvPos (w : Nat) : Nat := w % 2 ^ 24
/-- Field PART. -/
def kvPart (w : Nat) : Nat := w / 2 ^ 24 % 4

/-- One element as `kvapp` stores it (R265): its byte, and whether it was clipped. -/
def kvByte (x sin sc : Nat) : Nat × Bool :=
  let a := Fp.decode Fp.e4m3 x
  let i := Fp.decode Fp.f32 sin
  let b := Fp.decode Fp.f32 sc
  let bad := fun (v : Fp.Val) => match v with | .fin _ m _ => m = 0 | _ => true
  if bad i || bad b || a = .nan then (0x7F, false)
  else
    let p := Fp.mul a i
    let mag := fun (v : Fp.Val) => if Fp.isNeg v then Fp.neg v else v
    if Fp.lt (Fp.mul (.fin false 448 0) (mag b)) (mag p) then (if xor (Fp.isNeg p) (Fp.isNeg b) then 0xFE else 0x7E, true)
    else (Fp.div Fp.e4m3 p b, false)

/-- The append of R265, with the tile as it becomes, and whether a granule it read was poisoned. Nothing is written
where the position has no slot in the sequence. -/
def Tile.kvAppend (t : Tile) (g : KvCfg) (w : Nat) (x : WideVal) (poison : Bool) : Tile × Bool :=
  let d := g.desc (w / 2 ^ 26 % 64)
  let k := t.kvSeq d
  let n := kvPos w / g.tiles
  let h := headerAt d (n / 64)
  let part := kvPart w
  if n ≥ k.cap ∨ k.slot n + 256 > 4096 * t.spk.toNat then (t, false)
  else
    let isK := part < 2
    let flags := t.word32 (h + 8)
    let kset := flags / 2 ^ 16 % 2 = 1
    let vset := flags / 2 ^ 17 % 2 = 1
    let sin := w / 2 ^ 32
    let sc := if isK then (if kset then t.word32 h else sin) else (if vset then t.word32 (h + 4) else sin)
    let els := (List.range 64).filterMap fun e =>
      if Lanes.on x.mask (e / 4) then some (e, kvByte (Lanes.byte x.data e).toNat sin sc) else none
    let clip := min (flags % 2 ^ 16 + (els.filter fun y => y.2.2).length) 0xFFFF
    let hdr := headerBytes (if isK then sc else t.word32 h) (if isK then t.word32 (h + 4) else sc) clip
      (kset || isK) (vset || !isK)
    let read := (t.spRead d 16).2 || (t.spRead h 16).2
    let t := t.spWrite (els.map fun y => (k.slot n + 64 * part + y.1, BitVec.ofNat 8 y.2.1)) poison
    (t.spWrite (pairsAt h hdr) read, read)

/-- The checks that every KV operator makes first (R264): the configuration register, and the descriptor's place in the
tile. -/
def State.kvCheck (s : State) (tk : Nat) (c : Colour) (g : KvCfg) (q : Nat) : Except Nat Unit :=
  if !g.ok then .error codeKvForm
  else if (s.colour c).poisoned then .error codeColourPoisoned
  else if g.desc q + 64 > 4096 * (s.tile tk).spk.toNat then .error codeSpRange
  else if (s.colour c).world != (s.tile tk).tsWorld then .error codeSpWorld
  else .ok ()
/-- The configuration register that an operator's SREG names. -/
def Tile.kvCfg (t : Tile) (f : OpFields) : KvCfg := ⟨(t.regs.s.getD (OpTable.immField f 3 0) 0).toNat⟩

end Sys2Proof.Machine
end

