-- ==== Sys2Proof/Machine/Stash.lean ====
section
/-!
DEFINITION. Atomics on a 64-byte block (12_ops_memory.md R241), and effects that commit mode has held
(21_faults_preemption.md R382).
-/
namespace Sys2Proof.Machine

/-- The new lane of an atomic (R241). -/
def atomicLane (opc : Nat) (o x c : Lane) : Lane :=
  if opc = 0x160 then o + x
  else if opc = 0x161 then BitVec.ofNat 32 (Fp.add32 o.toNat x.toNat)
  else if opc = 0x162 then Lanes.minS o x
  else if opc = 0x163 then Lanes.maxS o x
  else if opc = 0x164 then o &&& x
  else if opc = 0x165 then o ||| x
  else if opc = 0x166 then x
  else if o = c then x else o
/-- An atomic on 64 bytes (R241): the active lanes with their new values, and the old values. -/
def atomicBlock (opc : Nat) (old : Wide) (r : WideVal) (c : Option WideVal) : WideVal × WideVal :=
  let m := match c with | some c => r.mask &&& c.mask | none => r.mask
  let cl := fun i => match c with | some c => Lanes.lane c.data i | none => 0
  (Lanes.masked m fun i => atomicLane opc (Lanes.lane old i) (Lanes.lane r.data i) (cl i),
   Lanes.masked m (Lanes.lane old))

/-- An atomic at a scratchpad bank (R241): the answer is given to access `id` of tile `src`. -/
def State.bankAtomic (s : State) (tk off opc : Nat) (r : WideVal) (c : Option WideVal) (poison : Bool) :
    State × WideVal × Bool :=
  let (bs, p) := (s.tile tk).spRead off 64
  let (new, old) := atomicBlock opc (BitVec.ofNat 512 (bytesNat bs)) r c
  (s.modTile tk fun t => t.spWrite (activeBytes off new) (p || poison), old, p)

/-- Performs an effect that commit mode has held (R382): it is sent or performed now. A write to a home slice was
already counted when it was held. -/
def State.release (s : State) (tk : Nat) (e : CommitEntry) : State :=
  match e.effect with
  | .slice r => ((s.stashDrop tk e.ctx r.pa).acknowledge r.ack).post r
  | .bank dst ps p => (s.modTile dst fun t => t.spWrite ps p).acknowledge (some (ckOf tk, e.ctx))
  | .fill dst off v p tag =>
    let (s, i) := s.newId
    s.feArrive dst ⟨tk, i, off, .store, v, p, tag, 0, 0⟩
  | .bankAtomic dst off opc r c p => ((s.bankAtomic dst off opc r c p).1).acknowledge (some (ckOf tk, e.ctx))
  | .kvapp dst cfg w x p => (s.modTile dst fun t => (t.kvAppend ⟨cfg⟩ w x p).1).acknowledge (some (ckOf tk, e.ctx))
  | .exit x n => (List.range x.token.payload.beats).foldl (fun s b =>
      s.inject (ckOf tk) (.tile (tiOf tk)) (portPlace x.phys) n 0 (.exit x (b + 1 = x.token.payload.beats))) s
/-- Releases the held effects of a tile that satisfy a test, in firing order. -/
def State.releaseHeld (s : State) (tk : Nat) (which : CommitEntry → Bool) : State :=
  let es := (s.tile tk).commits.filter which
  let s := s.modTile tk fun t => { t with commits := t.commits.filter fun e => !which e }
  es.foldl (fun s e => s.release tk e) s
/-- Holds an effect in the commit buffer; a write counts as an outstanding store acknowledgement from now on. -/
def State.holdEffect (s : State) (tk ctx : Nat) (c : Colour) (e : Effect) : State :=
  (s.modTile tk fun t => { t with commits := t.commits ++ [⟨ctx, c, e, false⟩] }).expectAck (ckOf tk) ctx

end Sys2Proof.Machine
end

