-- ==== Sys2Proof/Machine/SliceSteps.lean ====
section
/-!
DEFINITION. Steps of the slices and the stack ports: requests at their ordering points (06_slices.md R121 to R125),
fills and write-backs (05_main_memory.md R100, R115), clocks of lease holders (R123), keys (24_trust.md R394), the
epochs of way allocation (R129), and the probes of a release (07_network.md R155).
-/
namespace Sys2Proof.Machine

/-- Raises a lease holder's clock (R124, R125). -/
def State.raiseClock (s : State) (src : Source) (w : Word) : State :=
  match src with
  | .tile tk => s.modTile tk fun t => { t with pts := maxTime t.pts w }
  | .context ck x => s.modContext ck x fun c => { c with pts := maxTime c.pts w }
  | .stream _ _ => s
/-- The cluster of a source. -/
def Source.ck : Source → Nat
  | .tile tk => ckOf tk
  | .context ck _ => ck
  | .stream ck _ => ck
/-- A write of a stream is acknowledged (14_control_core.md R291). -/
def State.streamAck (s : State) (src : Source) : State :=
  match src with
  | .stream ck id => s.modCluster ck fun k =>
      { k with bindings := k.bindings.map fun (b : Binding) => if b.id = id then { b with writes := b.writes - 1 } else b }
  | _ => s
/-- The bytes that a store of an access writes into its line (12_ops_memory.md R238). -/
def Access.storeBytes (a : Access) (off : Nat) : List (Nat × Byte) :=
  match a.r with
  | some (.wide v) => activeBytes off v
  | some p => pairsAt off (natBytes (memAlign a.opc) (p.value % (2 ^ 64 : Nat)).toNat)
  | none => []
/-- The address that an access reads next: a chunk of `gcoal` that lies in two lines has its second part still to come, and `value`
counts the bytes that it has (10_ops_routing.md R205). -/
def Access.cursor (a : Access) : Nat := if a.opc = 0x021 then a.addr + a.value.toNat else a.addr
/-- A chunk of `gcoal` takes the bytes that a line has of it. -/
def Access.chunkLoaded (a : Access) (d : BitVec 2048) (p : BitVec 4) (off : Nat) : Access :=
  let got := a.value.toNat
  let n := min (64 - got) (256 - off)
  let bad := (List.range n).any fun i => p.getLsbD ((off + i) / 64)
  { a with
    data := ⟨BitVec.ofNat 512 (a.data.data.toNat + bytesNat (lineBytes d off n) * 256 ^ got), Lanes.full⟩
    value := got + n, memPoison := a.memPoison || bad, phase := if got + n = 64 then .answered else .reissue }
/-- The answer of a load from a line: 64 bytes, or a signed number (R238). -/
def Access.loaded (a : Access) (d : BitVec 2048) (p : BitVec 4) (off : Nat) : Access :=
  let n := memAlign a.opc
  let bs := lineBytes d off n
  { a with
    data := ⟨BitVec.ofNat 512 (bytesNat bs), Lanes.full⟩
    value := (BitVec.ofNat (8 * n) (bytesNat bs)).toInt
    memPoison := p.getLsbD (off / 64), phase := .answered }
/-- An access that gets a line. -/
def State.load' (s : State) (tk id : Nat) (d : BitVec 2048) (p : BitVec 4) (off : Nat) : State :=
  s.modTile tk fun t => { t with accesses := t.accesses.map fun a =>
    if a.id = id then { (if a.opc = 0x021 then a.chunkLoaded d p off else a.loaded d p off) with since := s.cycles + 1 } else a }
/-- One read serves every queued chunk of `gcoal` that lies in the line (10_ops_routing.md R205). -/
def State.shareLine (s : State) (tk : Nat) (a : Access) (d : BitVec 2048) (p : BitVec 4) : State :=
  s.modTile tk fun t =>
    { t with accesses := t.accesses.map fun (b : Access) =>
        if b.opc = 0x021 && b.id != a.id && b.phase = .reissue && b.tag.colour = a.tag.colour && b.cursor / 256 = a.cursor / 256 &&
            t.gatherOpen b
        then { b.chunkLoaded d p (b.cursor % 256) with since := s.cycles + 1 } else b }
/-- The copy that a tile keeps when a line arrives (R165, R168): the line, or a copy of its own that has taken a store since or is
newer. -/
def Tile.keeps (t : Tile) (l : StashLine) : StashLine :=
  match t.stashLine l.pa with
  | some x => if x.key = l.key && (x.dirty != 0 || decide (l.wts.toNat ≤ x.wts.toNat)) then x else l
  | none => l
/-- A copy becomes the stash's copy of its line, at once where it has one, else as R165 installs it. -/
def State.stashPut (s : State) (tk ctx : Nat) (l : StashLine) : State :=
  if (s.tile tk).stash.any fun x => x.pa = l.pa && x.key = l.key then s.stashUse tk l else s.stashInstall tk ctx l
/-- The line of a tile's read arrives (R165, R166): it is installed in the stash, and the access is answered; a
store at SELF or TILE scope is merged into it. -/
def State.fillStash (s : State) (r : Request) (d : BitVec 2048) (p : BitVec 4) (wts fin : Word) : State :=
  match r.src, r.answer with
  | .tile tk, some id =>
    match (s.tile tk).accesses.find? fun a => a.id = id with
    | none => s
    | some a =>
      let ctx := a.tag.ctx.toNat
      let l := (s.tile tk).keeps ⟨r.pa / 256 * 256, r.sk, r.key, r.world, wts, fin, 0, p, d, 0⟩
      if a.isStore then
        let s := s.stashPut tk ctx (l.merge (a.storeBytes r.off) a.poison)
        let s := if (s.tile tk).stashCap != 0 then s
          else s.post { r with kind := .write (a.storeBytes r.off) a.poison, answer := none, ack := some (ckOf tk, ctx) }
        (s.answer tk id (fun a => a)).acknowledge (some (ckOf tk, ctx))
      else
        let s := (s.stashPut tk ctx l).load' tk id l.data l.poison r.off
        if a.opc = 0x021 then s.shareLine tk a l.data l.poison else s
  | _, _ => s

/-- An answer reaches the source of its request (R124, 12_ops_memory.md R237, R241; 14_control_core.md R291). -/
def State.takeAnswer (s : State) (a : Answer) : State :=
  let r := a.request
  match a.data with
  | .line d p wts fin => (s.raiseClock r.src wts).fillStash r d p wts fin
  | .old v bad =>
    match r.src, r.answer with
    | .tile tk, some id => (s.answer tk id fun x => { x with data := v, memPoison := bad }).acknowledge r.ack
    | _, _ => s.acknowledge r.ack
  | .ack => (s.streamAck r.src).acknowledge r.ack
/-- A slice answers a request: by the rings, and a context's posted store not at all. -/
def State.answerTo (s : State) (r : Request) (d : AnswerData) : State :=
  match r.src with
  | .context _ _ => s
  | _ => s.sendAnswer ⟨r, d⟩
/-- A completion reaches its tile (R161, 12_ops_memory.md R237, R242): a write's acknowledgement is outstanding no more, and an `ldg`
is followed by the acquire of its scope (17_memory_model.md R336). -/
def State.takeReply (s : State) (tk id : Nat) : State :=
  match (s.tile tk).accesses.find? fun a => a.id = id with
  | none => s
  | some a =>
    let s := if a.opc = 0x158 then s.stashAcquire tk a.tag.ctx.toNat else s
    (s.answer tk id fun x => x).acknowledge
      (if memWrites a.opc || a.opc = 0x152 then some (ckOf tk, a.tag.ctx.toNat) else none)
/-- Performs a request on its line, which has been obtained (R124, R125); an atomic on a poisoned block answers poison. -/
def State.performOn (t : State × Line × Bool) (r : Request) : State :=
  match r.kind with
  | .read =>
    let (s, d, p, wts, fin, _) := State.leaseOf t r.sk r.pts
    s.answerTo r (.line d p wts fin)
  | .write ps p =>
    let (s, _, _, pts) := State.updateOf t r.sk (fun _ _ => (t.1.unlocked r.world r.pa ps, p)) r.pts
    (s.raiseClock r.src pts).answerTo r .ack
  | .atomic opc x c p =>
    let block := fun (d : BitVec 2048) => atomicBlock opc (lineUnit d (r.off / 64)) x c
    let (s, d, q, pts) := State.updateOf t r.sk
      (fun d q => (t.1.unlocked r.world r.pa (activeBytes r.off (block d).1), p || q.getLsbD (r.off / 64))) r.pts
    (s.raiseClock r.src pts).answerTo r (.old (block d).2 (q.getLsbD (r.off / 64)))
/-- Performs a request at its ordering point, with the line present. -/
def State.performRequest (s : State) (r : Request) : State := State.performOn (s.serve r.sk r.pa r.key r.world) r
/-- Takes the line lock for a request (R121): a hit is performed; a miss asks the stack port for the line (05_main_memory.md R100)
and waits for its fill, after a line of another owner has been written back and dropped (R115); a write that no way can hold goes to
the stack port at once (R122). -/
def State.startRequest (s : State) (r : Request) : State :=
  if s.hits r.sk r.pa r.key then s.performRequest r
  else
    let s := s.modSlice r.sk fun l =>
      match l.line? r.pa with | some x => (l.evict x).queueBack x | none => l
    let l := s.slice r.sk
    let bypass := l.bankOff.getLsbD (bankOf r.pa) || (l.pickWay r.pa r.world.toNat).isNone
    if bypass && r.kind != .read then s.performRequest r
    else (s.modSlice r.sk fun l => { l with misses := l.misses ++ [⟨r, false, none, false⟩] }).netSend s.nclk 0 (sliceStop r.sk)
      (memoryPort r.pa) r.colour r.world 0 (.lineRead r.sk (r.pa / 256 * 256))
/-- The k-th request at a slice's stop enters its bank (R121), in order of arrival there and not before an earlier one of its source
(12_ops_memory.md R235): it takes the lock, waits in its bank's conflict queue, or is refused while that queue is full. -/
def State.arriveSlice (s : State) (k : Nat) (want : ReqKind → Bool) : State :=
  match s.requests[k]? with
  | none => s
  | some r =>
    let l := s.slice r.sk
    if !want r.kind || (s.requests.take k).any (fun x => x.sk = r.sk && (x.src = r.src || bankOf x.pa = bankOf r.pa)) ||
        l.conflicts.any (fun x => x.src = r.src) then s
    else
      let gone := { s with requests := s.requests.eraseIdx k }
      if !l.waits r.pa then gone.startRequest r
      else if l.queued r.pa < 16 then gone.modSlice r.sk fun l => { l with conflicts := l.conflicts ++ [r] }
      else s
/-- SLICE_READ (R124). -/
def execSliceRead (k : Nat) (s : State) : Result' := .next (s.arriveSlice k fun x => x = .read)
/-- SLICE_WRITE (R125). -/
def execSliceWrite (k : Nat) (s : State) : Result' := .next (s.arriveSlice k fun x => x != .read)
/-- CONFLICT_QUEUE_LOCK (R121): the k-th queued request takes its line's lock, in queue order. -/
def execConflictQueueLock (sk k : Nat) (s : State) : Result' :=
  let l := s.slice sk
  match l.conflicts[k]? with
  | none => .next s
  | some r =>
    if l.locked r.pa || (l.conflicts.take k).any (fun x => x.pa / 256 = r.pa / 256) then .next s
    else .next ((s.modSlice sk fun l => { l with conflicts := l.conflicts.eraseIdx k }).startRequest r)
/-- PTS_ADVANCE (R123, R164). -/
def execPtsAdvance (holder : Holder) (s : State) : Result' :=
  match holder with
  | .tile tk => .next (s.modTile tk fun t => { t with pts := t.pts + 1 })
  | .context ck x => .next (s.modContext ck x fun c => { c with pts := c.pts + 1 })
/-- RDLINE (R100): the base die reads, corrects and decrypts the line of the k-th miss, once the request has come to the stack
port and after the write-backs of the line that it received before; the line goes back by the rings. -/
def execRdline (sk k : Nat) (s : State) : Result' :=
  match (s.slice sk).misses[k]? with
  | none => .next s
  | some m =>
    if m.data.isSome || !m.asked then .next s
    else
      let r := m.request
      let s := s.readOrder sk r.pa
      let d := s.rdlineData (r.pa / 256 * 256) r.key
      .next ((s.modSlice sk fun l => { l with misses := l.misses.set k { m with data := some d } }).netSend s.nclk 1
        (memoryPort r.pa) (sliceStop sk) r.colour r.world 0xF (.lineData sk (r.pa / 256 * 256)))
/-- A write-back that has come to its stack port reaches the base die, after the earlier ones of its line (R100). -/
def State.writeBack (s : State) (sk k : Nat) (whole : Bool) : State :=
  let l := s.slice sk
  match l.writeBacks[k]? with
  | none => s
  | some w =>
    if !w.asked || (w.units = 0xF) != whole || (l.writeBacks.take k).any (fun x => x.pa = w.pa) then s
    else (s.writeUnits w.pa w.key w.units w.poison w.data).modSlice sk fun l =>
      { l with writeBacks := l.writeBacks.eraseIdx k }
/-- WRLINE (R100). -/
def execWrline (sk k : Nat) (s : State) : Result' := .next (s.writeBack sk k true)
/-- WRMASK (R100). -/
def execWrmask (sk k : Nat) (s : State) : Result' := .next (s.writeBack sk k false)
/-- LINE_FILL (R121, R122): the line of the k-th miss has come back: it is installed and its request performed; the lock is free. -/
def execLineFill (sk k : Nat) (s : State) : Result' :=
  match (s.slice sk).misses[k]? with
  | none => .next s
  | some m =>
    match m.data, m.back with
    | some (d, p), true =>
      let r := m.request
      let s := (s.modSlice sk fun l => { l with misses := l.misses.eraseIdx k }).seen sk r.pa r.world
      .next (State.performOn (s.filled sk r.pa r.key r.world d p) r)
    | _, _ => .next s
/-- Sends the write-backs of a slice that are not yet on their way to their stack ports (R100, R121). -/
def State.sendBacks (s : State) (sk : Nat) : State :=
  let fresh := (s.slice sk).writeBacks.filter fun w => !w.sent
  let s := fresh.foldl (fun s w => s.netSend s.nclk 0 (sliceStop sk) (memoryPort w.pa) w.key (s.colour w.key).world w.units
    (.lineWrite sk w.pa)) s
  if fresh = [] then s else s.modSlice sk fun l => { l with writeBacks := l.writeBacks.map fun w => { w with sent := true } }
/-- A miss's request, or the line that it returned, reaches the other end (R100). -/
def Slice.missOf (l : Slice) (pa : Nat) (g : Miss → Miss) : Slice :=
  { l with misses := l.misses.map fun m => if m.request.pa / 256 * 256 = pa then g m else m }
/-- The oldest write-back of a line on its way is accepted by the stack port; its lock is free (R121). -/
def Slice.backOf (l : Slice) (pa : Nat) : Slice :=
  match l.writeBacks.findIdx? fun w => w.pa = pa && w.sent && !w.asked with
  | none => l
  | some i => { l with writeBacks := l.writeBacks.modify i fun w => { w with asked := true, locks := false } }
/-- What a ring flit brings to the place where it leaves the network. A tile's answer goes on by the mesh, from the edge port of the
tile's column on VC1, an acknowledgement on the narrow plane (07_network.md R142, R144; log 108). -/
def State.netArrive (s : State) (f : RingFlit) : State :=
  match f.cargo with
  | .request r => { s with requests := s.requests ++ [r] }
  | .answer a =>
    (match a.request.src with
      | .tile tk => s.inject (ckOf tk) (.port (sliceExit tk a.request.sk)) (tiOf tk, 4) (a.data = .ack) 1 (.answer a)
      | _ => s.takeAnswer a)
  | .lineRead sk pa => s.modSlice sk fun l => l.missOf pa fun m => { m with asked := true }
  | .lineData sk pa => s.modSlice sk fun l => l.missOf pa fun m => { m with back := true }
  | .lineWrite sk pa => s.modSlice sk fun l => l.backOf pa
  | .ask sk a => s.modSlice sk fun l => { l with asks := l.asks ++ [a] }
  | .fill ck g => s.modCluster ck fun k => { k with fills := k.fills ++ [g] }
/-- KEYSET (R100, R394): the security processor installs a key that it draws afresh, in one holder's slot of a colour
that is not in use. -/
def execKeyset (holder colour : Nat) (s : State) : Result' :=
  if (s.colour (colourOf colour)).state = .free ∧ holder < 9 then
    .next { s with keySlots := Map.put s.keySlots (512 * holder + colour % 512) s.keyFresh, keyFresh := s.keyFresh + 1 }
  else .next s
/-- KEYKILL (R100, R394): the slot holds zeros, once no line of the colour is left. -/
def execKeykill (holder colour : Nat) (s : State) : Result' :=
  if (s.colour (colourOf colour)).state != .live ∧ holder < 9 ∧
      !s.slices.any (fun e => e.2.lines.any fun x => x.key = colourOf colour) then
    .next { s with keySlots := Map.del s.keySlots (512 * holder + colour % 512) }
  else .next s

/-- Gives a way to a world. -/
def Slice.giveWay (l : Slice) (v w : Nat) : Slice := { l with wayOwner := Map.put l.wayOwner v w }
/-- The lowest unassigned way. -/
def Slice.freeWay (l : Slice) : Option Nat := (List.range 16).find? fun v => (Map.get? l.wayOwner v).isNone
/-- The lowest way of a world. -/
def Slice.wayOf (l : Slice) (w : Nat) : Option Nat := (List.range 16).find? fun v => Map.get? l.wayOwner v = some w
/-- H_w(k). -/
def Slice.hitsAt (l : Slice) (w k : Nat) : Nat := Map.get l.shadowHits (64 * w + k) 0
/-- The world for which a measure is largest among those that pass a test, the lower number first. -/
def bestWorld (ok : Nat → Bool) (g : Nat → Nat) : Option Nat :=
  ((List.range 64).filter ok).foldl (fun b w => match b with
    | none => some w
    | some v => if g v < g w then some w else b) none
/-- Raises CUR to FLOOR (R128): one way. -/
def Slice.raiseFloor (l : Slice) (w : Nat) : Slice :=
  if l.cur w ≥ (l.way w).floor.toNat then l
  else
    match l.freeWay with
    | some v => l.giveWay v w
    | none =>
      match bestWorld (fun x => decide (x ≠ w) && decide ((l.way x).floor.toNat < l.cur x))
          (fun x => l.cur x - (l.way x).floor.toNat) with
      | none => l
      | some x => match l.wayOf x with | some v => l.giveWay v w | none => l
/-- One step of the end of an epoch (R129); the Bool says whether to go on. -/
def Slice.moveWay (l : Slice) : Slice × Bool :=
  match bestWorld (fun w => decide (l.cur w < (l.way w).ceil.toNat) && decide (0 < l.hitsAt w (l.cur w + 1)))
      (fun w => l.hitsAt w (l.cur w + 1)) with
  | none => (l, false)
  | some g =>
    match l.freeWay with
    | some v => (l.giveWay v g, true)
    | none =>
      match bestWorld (fun w => decide (w ≠ g) && decide ((l.way w).floor.toNat < l.cur w))
          (fun w => 2 ^ 64 - l.hitsAt w (l.cur w)) with
      | none => (l, false)
      | some x =>
        if l.hitsAt g (l.cur g + 1) > l.hitsAt x (l.cur x) then
          match l.wayOf x with | some v => (l.giveWay v g, true) | none => (l, false)
        else (l, false)
/-- Up to n such steps. -/
def Slice.moveWays (l : Slice) : Nat → Slice
  | 0 => l
  | n + 1 => match l.moveWay with | (l, true) => l.moveWays n | (l, false) => l
/-- The end of an epoch (R128, R129). -/
def Slice.endEpoch (l : Slice) : Slice :=
  let l := (List.range 64).foldl (fun l w => (List.range 16).foldl (fun l _ => l.raiseFloor w) l) l
  let l := l.moveWays 4
  let ws := (List.range 64).filter fun w => (Map.get? l.shadowMiss w).isSome || (Map.get? l.ways w).isSome
  let l := ws.foldl (fun (l : Slice) w => { l with
    ways := Map.put l.ways w { l.way w with shmiss := BitVec.ofNat 32 (Map.get l.shadowMiss w 0) } }) l
  { l with shadowHits := [], shadowMiss := [] }
/-- SLICE_EPOCH_END (R128, R129): an epoch of 1,048,576 SCLK cycles is over; while FREEZE is 1 nothing else happens. -/
def execSliceEpochEnd (sk : Nat) (s : State) : Result' :=
  if s.sclk / 2 ^ 20 ≤ (s.slice sk).epochs then .next s
  else
    .next (s.modSlice sk fun l =>
      let l := { l with epochs := l.epochs + 1 }
      if l.wayFreeze then l else l.endEpoch)

/-- Whether every request that a release's source issued to a slice before the release has passed its ordering point (R155). -/
def State.slicePassed (s : State) (r : Release) (sk : Nat) : Bool := (s.pendingOf r.src sk).all fun q => r.stamp ≤ q.stamp
/-- A probe that a slice has acknowledged. -/
def ProbeTarget.acked (sk : Nat) : ProbeTarget → Option ProbeTarget
  | .slice x => if x = sk then none else some (.slice x)
  | .hub d => some (.hub d)
  | .forwarded l => if l.erase sk = [] then none else some (.forwarded (l.erase sk))
/-- RELEASE_PROBE (R155): slice sk acknowledges the k-th release's probe, once the source's requests have passed. -/
def execReleaseProbe (k sk : Nat) (s : State) : Result' :=
  match s.releases[k]? with
  | none => .next s
  | some r =>
    if s.slicePassed r sk && !s.cut r.src.ck sk then
      .next { s with releases := s.releases.set k { r with probes := r.probes.filterMap (ProbeTarget.acked sk) } }
    else .next s
/-- HUB_PROBE_FORWARD (R155): a remote hub crossbar forwards the probe to its die's 64 slices. -/
def execHubProbeForward (k die : Nat) (s : State) : Result' :=
  match s.releases[k]? with
  | none => .next s
  | some r =>
    let fwd : ProbeTarget → ProbeTarget := fun p =>
      if p = .hub die then .forwarded ((List.range 64).map fun i => 64 * die + i) else p
    if s.cut r.src.ck (64 * die) then .next s
    else .next { s with releases := s.releases.set k { r with probes := r.probes.map fwd } }
/-- The ask of an `ldg` leaves its tile for the cluster's group agent, on VC2 (06_slices.md R135; 07_network.md R142): the access
keeps the line's address, and the descriptor's physical address in `object`. -/
def State.askGroup (s : State) (tk : Nat) (a : Access) : State :=
  let ask : GroupAsk :=
    { key := ⟨a.object.getD 0, a.addr, 256 * OpTable.immField a.fields 15 8⟩, tk := tk, access := a.id, tag := a.tag, passed := none
      waitPage := none, sent := none }
  (s.modTile tk fun t => { t with accesses := t.accesses.map fun b => if b.id = a.id then { b with phase := .group } else b }).inject
    (ckOf tk) (.tile (tiOf tk)) (portPlace unitPort) true 2 (.ask ask)
/-- What follows a tile's release (R155; 12_ops_memory.md R242, R247): a fence acquires and is answered, an `ldg` asks. -/
def State.released (s : State) (tk : Nat) (a : Access) : State :=
  if a.opc = 0x158 then s.askGroup tk a else (s.stashAcquire tk a.tag.ctx.toNat).answer tk a.id (fun a => a)
/-- A write of a tile to a scratchpad that its bank has still to acknowledge. -/
def Access.bankWrite (a : Access) : Bool :=
  inWindow a.addr && (memWrites a.opc || a.opc = 0x152) && (a.phase = .bank || a.phase = .sent || a.phase = .parked)
/-- A tile's release for one of its accesses at a scope beyond TILE (R155; 17_memory_model.md R336): every dirty granule is written
back, the mask is captured and cleared, and the probes are sent. -/
def State.releaseTile (s : State) (tk : Nat) (a : Access) : State :=
  let s := s.stashBackAll tk a.tag.ctx.toNat
  let ps := probesOf (dieOf (ckOf tk)) (s.tile tk).touched
  if ps = [] && !(s.tile tk).accesses.any (fun b => b.id != a.id && b.bankWrite) then s.released tk a
  else
    let s := s.modTile tk fun t =>
      { t with touched := 0, accesses := t.accesses.map fun b => if b.id = a.id then { b with phase := .fence } else b }
    { s with nextId := s.nextId + 1
             releases := s.releases ++ [{ id := s.nextId, stamp := s.nextId, src := .tile tk, access := some a.id, probes := ps }] }
/-- Whether a tile's earlier scratchpad writes have been acknowledged by their banks (17_memory_model.md R336). -/
def State.banksDone (s : State) (r : Release) : Bool :=
  match r.src, r.access with
  | .tile tk, some _ => !(s.tile tk).accesses.any fun b => b.id < r.id && b.bankWrite
  | _, _ => true
/-- RELEASE_COMPLETE (R155, R247): every answer has arrived; the context goes on, or the tile's access does. -/
def execReleaseComplete (k : Nat) (s : State) : Result' :=
  match s.releases[k]? with
  | none => .next s
  | some r =>
    if r.probes != [] || !s.banksDone r then .next s
    else
      let s := { s with releases := s.releases.eraseIdx k }
      match r.src, r.access with
      | .context ck x, _ => .next (s.modContext ck x fun c =>
          if c.park = .release then { c with park := .none, released := true } else c)
      | .tile tk, some id =>
        match (s.tile tk).accesses.find? fun a => a.id = id with
        | none => .next s
        | some a => .next (s.released tk a)
      | _, _ => .next s

end Sys2Proof.Machine
end

