-- ==== Sys2Proof/Machine/MemoryOps.lean ====
section
/-!
DEFINITION. The memory operators (12_ops_memory.md): translation and walks, issue, accesses at the stash, the home
slices and the scratchpad banks, handle operators, group loads, fences, results and the faults that end a firing.
-/
namespace Sys2Proof.Machine

/-- The result tag of a firing that cannot fault (R236, R247): TAGOP's, or the tag as it is where TAGOP has none (log 111). -/
def State.tagOr (s : State) (q : Site) (m : Match) : State × Tag :=
  let (s, v) := s.lValue m
  (s, (s.tagOp q.ck q.f.tagop m.tag v).getD m.tag)
/-- A FIRING OF THE MEMORY UNIT (R235, R236): EOS is forwarded; a false guard suppresses the access; an address that
misses in the TLB starts a walk, and the entries pass to FAULT state; otherwise the tag issues, once its result tag is formed
(21_faults_preemption.md R369; log 111). -/
def State.fireMem (s : State) (opc : Nat) (f : OpFields) (act : State → Site → Match → Tag → State) : State :=
  let q := s.site opc f
  match s.best q with
  | none => s
  | some m =>
    if !s.canStart q m then s
    else
      let used := (s.started q).pointGrants q m
      let taken := (used.consume q.tk m.operands).noteClosed q m
      if m.eos then taken.forwardEos q m
      else if poisonEnds opc m then taken.faultFiring q m codePoison 0
      else if suppressed opc m then
        if f.flags.order then
          let (s, t) := taken.tagOr q m
          s.output q m (q.toAll .order t) (m.at? .l)
        else taken.returnCredits q.tk m.operands
      else if opc = 0x170 then
        let (s, t) := taken.tagOr q m
        act s q m t
      else if s.needsWalk q m then
        let ids := m.operands.map (·.idx)
        used.modTile q.tk fun t =>
          { t with
            walks := t.walks ++ [⟨q.slot, m.tag, (s.lookedUp q m).getD 0, memWrites opc⟩]
            store := t.store.map fun (e : Nat × Entry) =>
              if ids.contains e.1 then (e.1, { e.2 with state := .walking }) else e }
      else taken.withTag q m m.tag fun s t => act s q m t

/-- The site of an access. -/
def Access.site (a : Access) (tk : Nat) : Site := ⟨tk, a.plane, a.slot, a.opc, a.fields⟩
/-- ISSUE (R235): the operands have been consumed; reservations are taken at the destinations, L's credit stays
with the access, and it joins the outstanding table. -/
def State.issueAccess (s : State) (q : Site) (m : Match) (t : Tag) (addr : Nat) (k : State → Access → State) : State :=
  let (s, i) := s.newId
  let first := match m.at? .l with | some o => [o.idx] | none => []
  let s := s.returnCredits q.tk (m.operands.filter fun o => !first.contains o.idx)
  let s := s.holdAll q (s.emissions q (q.toAll .order t) none false)
  let a : Access :=
    { id := i, slot := q.slot, plane := q.plane, opc := q.opc, fields := q.f, tag := m.tag, out := t
      r := m.payload? .r, c := m.payload? .c, credit := (m.at? .l).bind (·.entry.token.credit)
      poison := m.poison, epoch := (s.tile q.tk).epochs.getLsbD q.plane, addr := addr, object := none
      pinned := false, phase := .sent, data := ⟨0, 0⟩, memPoison := false, value := 0, ok := true, since := 0 }
  k (s.modTile q.tk fun t => { t with accesses := t.accesses ++ [a] }) a
/-- Changes the phase of an access. -/
def State.setPhase (s : State) (tk id : Nat) (p : AccessPhase) : State :=
  s.modTile tk fun t =>
    { t with accesses := t.accesses.map fun a => if a.id = id then { a with phase := p } else a }
/-- The data operand of a store or atomic as a WIDE payload. -/
def Access.rWide (a : Access) : WideVal := (a.r.getD .order).wideOr
/-- The compare operand of `acas`. -/
def Access.cWide? (a : Access) : Option WideVal := if a.opc = 0x167 then some (a.c.getD .order).wideOr else none
/-- The store payload of an access: R, for `sth.v` too. -/
def Access.scope (a : Access) (page : Nat) : Nat := if OpTable.so a.fields then OpTable.scopeBits a.fields else page
/-- The request of an access to its home slice. -/
def Access.request (a : Access) (tk : Nat) (x : Xlat) (w : World) (pts : Word) (k : ReqKind) (ans : Bool)
    (ack : Bool) : Request :=
  { src := .tile tk, sk := x.sk, pa := x.pa, off := x.pa % 256, colour := a.tag.colour, key := x.key, world := w
    kind := k, pts := pts, scope := a.scope x.scope, answer := if ans then some a.id else none
    ack := if ack then some (ckOf tk, a.tag.ctx.toNat) else none, stamp := 0, va := some a.cursor }
/-- A handle operator, whose access to a line counts as a written-through store for the stash's copy (R166). -/
def Access.isHandle (a : Access) : Bool := 0x159 ≤ a.opc && a.opc ≤ 0x15B

/-- A colour-virtual access after its translation (R238, R241; R165, R166): loads through the stash; stores in the
stash at SELF and TILE scope, written through otherwise; atomics at the home. COMMIT holds a write (R382; log 28). -/
def State.accessLine (s : State) (tk : Nat) (a : Access) (x : Xlat) : State :=
  let t := s.tile tk
  let ctx := a.tag.ctx.toNat
  let w := (s.colour a.tag.colour).world
  let off := x.pa % 256
  let req := fun (k : ReqKind) (ans ack : Bool) => a.request tk x w t.pts k ans ack
  let hit := if a.isHandle then none else t.stashHit x.pa x.key
  if x.device then
    let n := memAlign a.opc
    let (s, bs) := s.regReadRange w.toNat x.pa n
    let line := x.pa / 256 * 256
    let data := BitVec.ofNat 512 (bytesNat bs)
    let ps := if isAtomic a.opc then activeBytes off (atomicBlock a.opc data a.rWide a.cWide?).1
      else if a.isStore then a.storeBytes off else []
    (s.regWritePairs w.toNat line ps).answer tk a.id fun a =>
      { a with data := ⟨data, Lanes.full⟩, value := (BitVec.ofNat (8 * n) (bytesNat bs)).toInt }
  else if isAtomic a.opc then
    if a.fields.flags.commit then
      (s.holdEffect tk ctx a.tag.colour (.slice (req (.atomic a.opc a.rWide a.cWide? a.poison) false true))).post
        (req .read true false)
    else (s.stashDrop tk ctx x.pa).post (req (.atomic a.opc a.rWide a.cWide? a.poison) true true)
  else if a.isStore then
    let ps := a.storeBytes off
    let wr := req (.write ps a.poison) false true
    if a.fields.flags.commit then
      (s.holdEffect tk ctx a.tag.colour (.slice wr)).answer tk a.id fun a => a
    else if localScope (a.scope x.scope) && t.stashCap != 0 && !a.isHandle then
      match hit with
      | some l => ((s.modTile tk fun t => t.setStash (l.merge ps a.poison)).stashUse tk (l.merge ps a.poison)).answer
          tk a.id fun a => a
      | none => ((s.stashDrop tk ctx x.pa).expectAck (ckOf tk) ctx).post (req .read true false)
    else ((s.stashDrop tk ctx x.pa).post wr).answer tk a.id fun a => a
  else
    match hit with
    | some l => (s.stashUse tk l).load' tk a.id l.data l.poison off
    | none => (s.stashDrop tk ctx x.pa).post (req .read true false)
/-- The scratchpad bytes and the effect of a store or atomic there. -/
def Access.bankEffect (a : Access) (dst off : Nat) : Effect :=
  if isAtomic a.opc then .bankAtomic dst off a.opc a.rWide a.cWide? a.poison
  else if a.opc = 0x152 then .fill dst off a.rWide a.poison a.tag
  else .bank dst (a.storeBytes off) a.poison
/-- Sends an access to the scratchpad of another tile, on VC0 (R161; 07_network.md R142, log 108); one beyond the grid of tiles is
found wanting at once (08_tile_memory.md R160). -/
def State.sendRemote (s : State) (tk : Nat) (a : Access) : State :=
  let dst := a.addr % 2 ^ 24 / 2 ^ 16
  if dst < 192 then (s.setPhase tk a.id .sent).inject (ckOf tk) (.tile (tiOf tk)) (dst, 4) false 0 (.remote tk a.id)
  else s.setPhase tk a.id .bank
/-- Starts an access whose address is known: at a bank of the scratchpad, or by its translation (R233). A page that
is not mapped is waited for (R243); another fault ends it (R248). -/
def State.startAccess (s : State) (tk : Nat) (a : Access) : State :=
  let ctx := a.tag.ctx.toNat
  if inWindow a.addr then
    if a.fields.flags.commit && OpTable.commits a.opc then
      match s.spCheck (ckOf tk) a.tag.colour (a.addr % 2 ^ 24) (memAlign a.opc) with
      | .error k => s.setPhase tk a.id (.faulted k)
      | .ok (dst, off) =>
        let s := s.holdEffect tk ctx a.tag.colour (a.bankEffect dst off)
        let (bs, p) := (s.tile dst).spRead off 64
        s.answer tk a.id fun a =>
          if isAtomic a.opc then { a with data := ⟨BitVec.ofNat 512 (bytesNat bs), Lanes.full⟩, memPoison := p } else a
    else
      let s := if memWrites a.opc || a.opc = 0x152 then s.expectAck (ckOf tk) ctx else s
      if a.addr % 2 ^ 24 / 2 ^ 16 = tiOf tk then s.setPhase tk a.id .bank else s.sendRemote tk a
  else
    match s.xlateWalk tk a.tag.colour a.cursor (memReads a.opc) (memWrites a.opc) with
    | (s, .error k) =>
      if k = codeNotMapped then
        (s.tilePage tk a.tag.colour a.cursor).setPhase tk a.id (.page a.tag.colour.toNat (a.cursor / 2 ^ 14))
      else (s.tilePoison tk a.tag.colour k a.cursor).setPhase tk a.id (.faulted k)
    | (s, .ok x) => s.accessLine tk a x

/-- An address operator (R233, R234): the checks in their order, then the access. -/
def State.fireAddr (s : State) (opc : Nat) (f : OpFields) : State :=
  s.fireMem opc f fun s q m t =>
    let a := memAddr q m
    match addrCheck opc a with
    | .error k => s.faultFiring q m k (a % (2 ^ 64 : Nat)).toNat
    | .ok va =>
      if inWindow va then s.issueAccess q m t va fun s x => s.startAccess q.tk x
      else
        match s.xlateTile q.tk m.tag.colour va (memReads opc) (memWrites opc) with
        | .error k => (s.tilePoison q.tk m.tag.colour k va).faultFiring q m k va
        | .ok _ => s.issueAccess q m t va fun s x => s.startAccess q.tk x

/-- `ldv` (R238). -/
def execLdv (f : OpFields) (s : State) : Result' := .next (s.fireAddr 0x140 f)
/-- `stv` (R238). -/
def execStv (f : OpFields) (s : State) : Result' := .next (s.fireAddr 0x141 f)
/-- `ld8` (R238). -/
def execLd8 (f : OpFields) (s : State) : Result' := .next (s.fireAddr 0x142 f)
/-- `ld16` (R238). -/
def execLd16 (f : OpFields) (s : State) : Result' := .next (s.fireAddr 0x143 f)
/-- `ld32` (R238). -/
def execLd32 (f : OpFields) (s : State) : Result' := .next (s.fireAddr 0x144 f)
/-- `ld64` (R238). -/
def execLd64 (f : OpFields) (s : State) : Result' := .next (s.fireAddr 0x145 f)
/-- `st8` (R238). -/
def execSt8 (f : OpFields) (s : State) : Result' := .next (s.fireAddr 0x146 f)
/-- `st16` (R238). -/
def execSt16 (f : OpFields) (s : State) : Result' := .next (s.fireAddr 0x147 f)
/-- `st32` (R238). -/
def execSt32 (f : OpFields) (s : State) : Result' := .next (s.fireAddr 0x148 f)
/-- `st64` (R238). -/
def execSt64 (f : OpFields) (s : State) : Result' := .next (s.fireAddr 0x149 f)
/-- `ldfe.c` (R239). -/
def execLdfeC (f : OpFields) (s : State) : Result' := .next (s.fireAddr 0x150 f)
/-- `ldfe.k` (R239). -/
def execLdfeK (f : OpFields) (s : State) : Result' := .next (s.fireAddr 0x151 f)
/-- `stf` (R239). -/
def execStf (f : OpFields) (s : State) : Result' := .next (s.fireAddr 0x152 f)
/-- `aadd.i32` (R241). -/
def execAaddI32 (f : OpFields) (s : State) : Result' := .next (s.fireAddr 0x160 f)
/-- `aadd.f32` (R241). -/
def execAaddF32 (f : OpFields) (s : State) : Result' := .next (s.fireAddr 0x161 f)
/-- `amin.i32` (R241). -/
def execAminI32 (f : OpFields) (s : State) : Result' := .next (s.fireAddr 0x162 f)
/-- `amax.i32` (R241). -/
def execAmaxI32 (f : OpFields) (s : State) : Result' := .next (s.fireAddr 0x163 f)
/-- `aand` (R241). -/
def execAand (f : OpFields) (s : State) : Result' := .next (s.fireAddr 0x164 f)
/-- `aor` (R241). -/
def execAor (f : OpFields) (s : State) : Result' := .next (s.fireAddr 0x165 f)
/-- `axchg` (R241). -/
def execAxchg (f : OpFields) (s : State) : Result' := .next (s.fireAddr 0x166 f)
/-- `acas` (R241). -/
def execAcas (f : OpFields) (s : State) : Result' := .next (s.fireAddr 0x167 f)

/-- `ldg`'s effect on the stash's copy of its line (R166), where the line is mapped: dirty granules are sent and the copy is
dropped. -/
def State.groupDrop (s : State) (tk : Nat) (t : Tag) (va : Nat) : State :=
  match (s.xlate (s.tile tk).tlb t.colour va true false).2.2 with
  | .ok x => s.stashDrop tk t.ctx.toNat x.pa
  | .error _ => s
/-- `ldg` (R242): its tile's release at GROUP scope (17_memory_model.md R336), then the request to the cluster's group agent with the
descriptor's physical address. The operands stay in the store until the agent has the line's translation or ends the request (log
112). -/
def execLdg (f : OpFields) (s : State) : Result' :=
  .next (s.fireMem 0x158 f fun s q m t =>
    let a := memAddr q m
    match addrCheck 0x158 a with
    | .error k => s.faultFiring q m k (a % (2 ^ 64 : Nat)).toNat
    | .ok va =>
      match addrCheck 0x158 (s.groupAddr q : Nat) with
      | .error k => s.faultFiring q m k (s.groupAddr q)
      | .ok d =>
        match s.xlateTile q.tk m.tag.colour d true false with
        | .error k => (s.tilePoison q.tk m.tag.colour k d).faultFiring q m k d
        | .ok x => s.issueAccess q m t va fun s a =>
            let a := { a with object := some x.pa }
            let s := s.modTile q.tk fun t => { t.setAccess a with
              store := m.operands.foldl (fun st o =>
                Map.put st o.idx { o.entry with state := .group a.id, age := 0, token := { o.entry.token with credit := none } }) t.store }
            (s.groupDrop q.tk m.tag va).releaseTile q.tk a)

/-- The offset of a handle operator (R233). -/
def handleOff (q : Site) (p : Option Payload) : Int := (match p with | some x => x.value | none => 0) + q.f.imm.toInt
/-- The handle operand (R243). -/
def handleOf (m : Match) : Handle := Handle.ofNat (m.value .l % (2 ^ 64 : Nat)).toNat
/-- Sets TOUCH of a checked entry. -/
def State.touchObject (s : State) (h : Handle) (e : ObjectEntry) : State :=
  s.setObject h.die h.index { e with touch := s.touchNow }
/-- A load or store through a strong handle (R244). -/
def State.fireHandle (s : State) (opc : Nat) (f : OpFields) (p : Port) : State :=
  s.fireMem opc f fun s q m t =>
    let h := handleOf m
    let off := handleOff q (m.payload? p)
    let w := (s.colour m.tag.colour).world
    if off % 64 != 0 then s.faultFiring q m codeAlign (off % (2 ^ 64 : Nat)).toNat
    else if h.low != 0 || !h.strong then s.faultFiring q m codeHandleForm 0
    else
      match s.liveObject w h with
      | none => s.faultFiring q m codeObjStale 0
      | some e =>
        if off < 0 ∨ off + 64 > ((2 ^ 14 * e.size : Nat) : Int) then s.faultFiring q m codeObjRange 0
        else (s.touchObject h e).issueAccess q m t (e.base + off.toNat) fun s a => s.startAccess q.tk a
/-- `ldh.v` (R244). -/
def execLdhV (f : OpFields) (s : State) : Result' := .next (s.fireHandle 0x159 f .r)
/-- `sth.v` (R244). -/
def execSthV (f : OpFields) (s : State) : Result' := .next (s.fireHandle 0x15A f .c)
/-- `ldw.v` (R245): a gone object reads nothing; otherwise the object is pinned until its data reaches the tile. -/
def execLdwV (f : OpFields) (s : State) : Result' :=
  .next (s.fireMem 0x15B f fun s q m t =>
    let h := handleOf m
    let off := handleOff q (m.payload? .r)
    let w := (s.colour m.tag.colour).world
    if off % 64 != 0 then s.faultFiring q m codeAlign (off % (2 ^ 64 : Nat)).toNat
    else if h.low != 0 then s.faultFiring q m codeHandleForm 0
    else
      match s.liveObject w h with
      | none => s.issueAccess q m t 0 fun s a => s.answer q.tk a.id fun a => { a with ok := false }
      | some e =>
        if off < 0 ∨ off + 64 > ((2 ^ 14 * e.size : Nat) : Int) then s.faultFiring q m codeObjRange 0
        else
          let s := s.setObject h.die h.index { e with pin := e.pin + 1, touch := s.touchNow }
          s.issueAccess q m t (e.base + off.toNat) fun s a =>
            let a := { a with object := some (2 ^ 21 * h.die + h.index), pinned := true }
            (s.modTile q.tk fun t => t.setAccess a).startAccess q.tk a)
/-- `hup` (R246). -/
def execHup (f : OpFields) (s : State) : Result' :=
  .next (s.fireMem 0x168 f fun s q m t =>
    let h := handleOf m
    let v := m.value .l
    let reply := fun (s : State) (v : Int) (ok : Bool) => s.issueAccess q m t 0 fun s a =>
      s.answer q.tk a.id fun a => { a with value := v, ok := ok }
    if h.low != 0 then s.faultFiring q m codeHandleForm 0
    else if h.strong then reply s v true
    else
      match s.liveObject (s.colour m.tag.colour).world h with
      | none => reply s v false
      | some e =>
        if e.strong = 65535 then s.faultFiring q m codeObjCount 0
        else reply (s.setObject h.die h.index { e with strong := e.strong + 1, touch := s.touchNow })
          (BitVec.ofNat 64 { h with strong := true }.toNat).toInt true)
/-- `hrel` (R246). -/
def execHrel (f : OpFields) (s : State) : Result' :=
  .next (s.fireMem 0x169 f fun s q m t =>
    let h := handleOf m
    let ack := fun (s : State) => s.issueAccess q m t 0 fun s a => s.answer q.tk a.id fun a => a
    if h.low != 0 then s.faultFiring q m codeHandleForm 0
    else
      match s.liveObject (s.colour m.tag.colour).world h with
      | none => if h.strong then s.faultFiring q m codeObjStale 0 else ack s
      | some e =>
        match s.dropRef h e with
        | none => s.faultFiring q m codeObjCount 0
        | some s => ack s)

/-- The scope of a `fence` (R231). -/
def fenceScope (f : OpFields) : Nat := OpTable.scopeBits f
/-- `fence.s` (R247): the write-back, the release and the acquire of the tile's memory unit; at SELF and TILE
nothing is waited for. -/
def execFenceS (f : OpFields) (s : State) : Result' :=
  .next (s.fireMem 0x170 f fun s q m t =>
    s.issueAccess q m t 0 fun s a =>
      if localScope (fenceScope f) then s.answer q.tk a.id fun a => a else s.releaseTile q.tk a)

/-- The results of an access that has its answer (R231, R237, R238, R241, R242, R245, R246). A NARROW result carries the canonical digit
string of its value: the manual lets any string of that value (01_notation.md R25; log 5). -/
def Access.results (a : Access) (q : Site) : List Result :=
  let ack : Payload := .narrow 4 0 .canonical
  let all := fun (p : Payload) => q.toAll p a.out
  let flag := fun (g : Bool) => (q.toAll ack a.out).map fun r =>
    if a.fields.flags.order then r
    else if r.index = 1 then
      { r with payload := if r.dest.port = .g then .guard g else .narrow 4 (if g then 1 else 0) .canonical }
    else r
  let others := fun (p : Payload) (rs : List Result) => rs.map fun r =>
    if a.fields.flags.order || r.index = 1 then r else { r with payload := p }
  if a.opc = 0x140 ∨ (0x150 ≤ a.opc ∧ a.opc ≤ 0x151) ∨ a.opc = 0x159 then all (.wide a.data)
  else if 0x142 ≤ a.opc ∧ a.opc ≤ 0x145 then all (.narrow a.fields.etype.digits a.value .canonical)
  else if a.opc = 0x158 then (q.toAll ack a.out).map fun r =>
    if a.fields.flags.order then r
    else { r with payload := if r.dest.port = .g then .guard (decide (a.value ≤ 2)) else .narrow 4 a.value .canonical }
  else if a.opc = 0x15B then others (.wide (if a.ok then a.data else ⟨0, 0⟩)) (flag a.ok)
  else if a.opc = 0x168 then others (.narrow 32 a.value .canonical) (flag a.ok)
  else if isAtomic a.opc then
    let m := match a.cWide? with | some c => a.rWide.mask &&& c.mask | none => a.rWide.mask
    all (.wide (Lanes.masked m (Lanes.lane a.data.data)))
  else if a.opc = 0x170 then all .order
  else if a.opc = 0x1A1 then all (.narrow a.fields.etype.digits a.value .canonical)
  else all ack
/-- Takes an access out of the table, and its pin off the object (R245). -/
def State.dropAccess (s : State) (tk : Nat) (a : Access) : State :=
  (s.modTile tk fun t => { t with accesses := t.accesses.filter fun b => b.id != a.id }).unpinFor a
/-- Releases the reservations of an access's results. -/
def State.unholdAccess (s : State) (tk : Nat) (a : Access) : State :=
  let q := a.site tk
  (s.emissions q (q.toAll .order a.out) none false).foldl (fun s e =>
    match s.exitAt q.ck a.out.ctx.toNat (tiOf tk) e.dest, destTile (tiOf tk) e.dest with
    | none, some ti => s.unhold (192 * q.ck + ti) ⟨a.out.colour, a.out.ctx, e.dest.slot.toNat, q.plane⟩
    | _, _ => s) s
/-- The tag of a record about an access. -/
def Access.fullTag (a : Access) : Word := { a.tag with slot := BitVec.ofNat 6 a.slot, port := 0 }.toWord
/-- Emits the results of an access and ends it (R237); a load that found poison is recorded once (25_reliability.md
R410). -/
def State.emitAccess (s : State) (tk : Nat) (a : Access) : State :=
  let q := a.site tk
  let s := s.dropAccess tk a
  let s := if a.memPoison then s.faultRecord (ckOf tk) a.tag.colour 0x10 codePoison a.addr a.fullTag else s
  let rs := a.results q
  if rs = [] then s.returnCredit tk a.credit a.tag.colour
  else s.deliverAll tk a.plane (if a.opc = 0x170 then 0 else 1) (s.emissions q rs a.credit (a.poison || a.memPoison))
/-- Ends an access by a fault found after issue (R248): no result, the reservations are released, and the credit is
returned. -/
def State.faultAccess (s : State) (tk : Nat) (a : Access) (code : Nat) : State :=
  ((s.unholdAccess tk a).dropAccess tk a).returnCredit tk a.credit a.tag.colour |>.faultRecord (ckOf tk) a.tag.colour 0x10 code
    a.addr a.fullTag
/-- Performs an access at its scratchpad bank (R161, R238, R239, R241), or faults it there (R248). -/
def State.atBank (s : State) (tk : Nat) (a : Access) : State :=
  let ack := some (ckOf tk, a.tag.ctx.toNat)
  let writes := memWrites a.opc || a.opc = 0x152
  let n := memAlign a.opc
  match s.spCheck (ckOf tk) a.tag.colour (a.addr % 2 ^ 24) n with
  | .error k =>
    if writes then (s.acknowledge ack).setPhase tk a.id (.faulted k) else s.setPhase tk a.id (.faulted k)
  | .ok (dst, off) =>
    let fe := fun (k : FeKind) (v : WideVal) => s.feArrive dst ⟨tk, a.id, off, k, v, a.poison, a.tag, 0, 0⟩
    if a.opc = 0x150 then fe .consume ⟨0, 0⟩
    else if a.opc = 0x151 then fe .keep ⟨0, 0⟩
    else if a.opc = 0x152 then fe .store a.rWide
    else if isAtomic a.opc then
      let (s, old, p) := s.bankAtomic dst off a.opc a.rWide a.cWide? a.poison
      s.bankAnswer dst tk a.id a.tag.ctx.toNat true fun a => { a with data := old, memPoison := p }
    else if a.isStore then
      (s.modTile dst fun t => t.spWrite (a.storeBytes off) a.poison).bankAnswer dst tk a.id a.tag.ctx.toNat true id
    else
      let (bs, p) := (s.tile dst).spRead off n
      s.bankAnswer dst tk a.id a.tag.ctx.toNat false fun a =>
        { a with
          data := ⟨BitVec.ofNat 512 (bytesNat bs), Lanes.full⟩
          value := (BitVec.ofNat (8 * n) (bytesNat bs)).toInt
          memPoison := p }
/-- A gather card that feeds a context completes with status FABRIC (09_block_transfer.md R183, R187;
10_ops_routing.md R205). -/
def State.fabricFail (s : State) (ck ctx : Nat) (c : Colour) : State :=
  s.modCluster ck fun k =>
    let feeds := fun (d : Card) => d.colour = c && k.bindings.any fun (b : Binding) =>
      !b.isExit && b.phys = 32 + d.cport && b.ctx = ctx && b.colour = c.toNat
    { k with cards := k.cards.map fun (d : Card) =>
        match d.state with
        | .fabric _ _ _ => if feeds d then { d with state := .done, status := 0x09 } else d
        | _ => d }
/-- Whether two chunks belong to the same index firing of a `gcoal`. -/
def Access.sameIndex (a b : Access) : Bool :=
  b.opc = 0x021 && a.slot = b.slot && a.plane = b.plane && a.tag = b.tag
/-- Takes the reservations of emissions where every one is granted. -/
def State.tryHold (s : State) (q : Site) (es : List Emission) : Option State :=
  es.foldl (fun acc e =>
    match acc with
    | none => none
    | some s =>
      let t := e.token.tag
      match s.exitAt q.ck t.ctx.toNat (tiOf q.tk) e.dest, destTile (tiOf q.tk) e.dest with
      | some p, _ => if s.exitRoom q.ck p t.ctx.toNat t.colour [t.iter] then some s else none
      | none, some ti =>
        if s.grants (192 * q.ck + ti) t.colour t.ctx.toNat
        then some (s.hold (192 * q.ck + ti) ⟨t.colour, t.ctx, e.dest.slot.toNat, q.plane⟩) else none
      | none, none => none) (some s)
/-- Emits a chunk to DEST0 and DEST1 (R205) where they have room. The first chunk of the index that is emitted carries
its credit; poison that a read found is recorded once for the index. -/
def State.emitChunk (s : State) (tk : Nat) (a : Access) : State :=
  let q := a.site tk
  let mates := (s.tile tk).accesses.filter a.sameIndex
  let credit := mates.findSome? fun b => b.credit
  let es := s.emissions q (q.toSome [0, 1] (.wide a.data) a.out) credit (a.poison || a.memPoison)
  match s.tryHold q es with
  | none => s
  | some s =>
    let told := mates.any fun b => !b.ok
    let s := s.modTile tk fun t =>
      { t with accesses := (t.accesses.filter fun b => b.id != a.id).map fun (b : Access) =>
          if a.sameIndex b then
            { b with credit := if es = [] then b.credit else none, ok := b.ok && !a.memPoison } else b }
    let s := if a.memPoison && !told then s.faultRecord (ckOf tk) a.tag.colour 0x10 codePoison a.addr a.fullTag else s
    let s := if es = [] ∧ mates.length = 1 then s.returnCredit tk credit a.tag.colour else s
    s.deliverAll tk a.plane 1 es
/-- Ends an index's firing by a fault (R205): its chunks go, and the card completes FABRIC. -/
def State.faultGather (s : State) (tk : Nat) (a : Access) (code : Nat) : State :=
  let credit := ((s.tile tk).accesses.filter a.sameIndex).findSome? fun b => b.credit
  let s := s.modTile tk fun t => { t with accesses := t.accesses.filter fun b => !a.sameIndex b }
  ((s.returnCredit tk credit a.tag.colour).faultRecord (ckOf tk) a.tag.colour 0x10 code a.addr a.fullTag).fabricFail (ckOf tk)
    a.tag.ctx.toNat a.tag.colour
/-- The chunk that is read next (R205): the oldest that may be read of the first queue, in rotation after the one read last, that has
one. -/
def Tile.gatherNext (t : Tile) : Option Access :=
  let open' := t.accesses.filter fun a => a.opc = 0x021 && a.phase = .reissue && t.gatherOpen a
  [1, 2, 3, 4].findSome? fun d => open'.find? fun a => a.object = some ((t.gatherBank + d) % 4)
/-- A chunk goes on: read within the window, one line in an FCLK cycle; emitted; or ended by its fault. -/
def State.gatherArrive (s : State) (tk : Nat) (a : Access) : State :=
  match a.phase with
  | .reissue =>
    let t := s.tile tk
    if t.gatherCycle = s.cycles + 1 || t.gatherNext != some a then s
    else (s.modTile tk fun t => { t with gatherCycle := s.cycles + 1, gatherBank := a.object.getD 0 }).startAccess tk a
  | .answered => s.emitChunk tk a
  | .faulted c => s.faultGather tk a c
  | _ => s
/-- The tile that a scratchpad access of a tile goes to. -/
def Access.bankTile (a : Access) : Nat := a.addr % 2 ^ 24 / 2 ^ 16
/-- MEMORY_RESULT_ARRIVAL (R237): the k-th outstanding access goes on: performed at its bank after the earlier ones
there (R161), started again after a page fault (R243), ended by its fault, or, in the cycle after it has its answer, its results are emitted. -/
def execMemoryResultArrival (tk k : Nat) (s : State) : Result' :=
  let as := (s.tile tk).accesses
  match as[k]? with
  | none => .next s
  | some a =>
    let still : Bool := match s.planeWorld tk a.plane with | some w => s.isFrozen w | none => false
    if a.phase = .answered ∧ a.since = s.cycles + 1 then .next s
    else if a.opc = 0x021 ∧ a.phase != .bank then (if still then .next s else .next (s.gatherArrive tk a))
    else match a.phase with
    | .bank =>
      if (as.take k).any fun b => b.phase = .bank && b.bankTile = a.bankTile then .next s
      else .next (s.atBank tk a)
    | .answered => if still then .next s else .next (s.emitAccess tk a)
    | .faulted c => if still then .next s else .next (s.faultAccess tk a c)
    | .reissue => if still then .next s else .next (s.startAccess tk a)
    | _ => .next s

/-- Ends the tag whose walk met a fault (R235, R248): its waiting entries are consumed. -/
def State.endWalking (s : State) (tk : Nat) (w : Walk) (code : Nat) : State :=
  let mine := (s.tile tk).store.filterMap fun (e : Nat × Entry) =>
    if e.2.state = .walking && e.2.token.tag.slot.toNat = w.slot && e.2.token.tag.same w.tag
    then some ({ idx := e.1, entry := e.2 } : Operand) else none
  ((s.consume tk mine).returnCredits tk mine).faultRecord (ckOf tk) w.tag.colour 0x10 code w.va
    { w.tag with slot := BitVec.ofNat 6 w.slot, port := 0 }.toWord
/-- Sets the state of a tag's walking entries. -/
def State.walked (s : State) (tk : Nat) (w : Walk) (st : EntryState) : State :=
  s.modTile tk fun t => { t with store := t.store.map fun (e : Nat × Entry) =>
    if e.2.state = .walking && e.2.token.tag.slot.toNat = w.slot && e.2.token.tag.same w.tag
    then (e.1, { e.2 with state := st, age := 0 }) else e }
/-- WALK_COMPLETE (R235): the k-th walk of a tile ends. -/
def execWalkComplete (tk k : Nat) (s : State) : Result' :=
  match (s.tile tk).walks[k]? with
  | none => .next s
  | some w =>
    let s := s.modTile tk fun t => { t with walks := t.walks.eraseIdx k }
    match s.xlateWalk tk w.tag.colour w.va (!w.write) w.write with
    | (s, .ok _) => .next (s.walked tk w .wait)
    | (s, .error c) =>
      if c = codeNotMapped then
        .next ((s.tilePage tk w.tag.colour w.va).walked tk w
          (.page w.tag.colour.toNat (w.va / 2 ^ 14)))
      else .next ((s.tilePoison tk w.tag.colour c w.va).endWalking tk w c)

/-- FE_TIMEOUT (R170, R240): the k-th parked access of a tile has reached its colour's stall-age limit. -/
def execFeTimeout (tk k : Nat) (s : State) : Result' :=
  match (s.tile tk).parked[k]? with
  | none => .next s
  | some w =>
    let lim := (s.colour w.tag.colour).age
    if lim = 0 ∨ w.age < lim then .next s
    else
      let s := s.modTile tk fun t => { t with parked := t.parked.eraseIdx k }
      let s := s.recordColour (ckOf tk) w.tag.colour 0x02 0x03 0 64 w.tag.toWord
      let s := if w.kind = .store then s.acknowledge (some (ckOf w.src, w.tag.ctx.toNat)) else s
      let s := match (s.tile w.src).accesses.find? fun a => a.id = w.id with
        | some a => ((s.unholdAccess w.src a).dropAccess w.src a).returnCredit tk a.credit a.tag.colour
        | none => s
      .next (s.feServe tk (w.off / 64) 17)
/-- FE_RESEND (R170): the k-th refused access is sent again, 16 cycles after its refusal. -/
def execFeResend (tk k : Nat) (s : State) : Result' :=
  match (s.tile tk).refused[k]? with
  | none => .next s
  | some w =>
    if s.cycles < w.resendAt then .next s
    else
      let s := s.modTile tk fun t => { t with refused := t.refused.eraseIdx k }
      match if w.src = tk then none else (s.tile w.src).accesses.find? fun a => a.id = w.id with
      | some a => .next (s.sendRemote w.src a)
      | none => .next (s.feArrive tk w)

end Sys2Proof.Machine
end

