-- ==== Sys2Proof/Machine/Matrix.lean ====
section
/-!
DEFINITION. The cell array (13_ops_matrix.md R252 to R261): its operands, its products and sums (04_numbers.md R90 to
R93), its accumulators, and the end of its firings.
-/
namespace Sys2Proof.Machine

/-- A firing of the cell array (R253): its operands' credits are settled, the destinations reserved, and it stays in
progress for `busy` cycles; `last` completes the record of the firing. -/
def State.arrayStart (s : State) (q : Site) (m : Match) (rs : List Result) (poison : Bool) (busy : Nat)
    (last : ArrayFiring → ArrayFiring) : State :=
  let carry := m.at? .l
  let rest := match carry with
    | some o => if rs = [] then m.operands else m.operands.filter fun x => x.idx != o.idx
    | none => m.operands
  let s := s.returnCredits q.tk rest
  let es := s.emissions q rs (carry.bind (·.entry.token.credit)) (m.poison || poison)
  (s.holdAll q es).modTile q.tk fun t =>
    { t with array := some (last ⟨q.plane, s.cycles + busy - 1, none, es, [], none, []⟩) }
/-- A firing of the cell array's operators: EOS takes one busy cycle (R253); data is `act`'s, once its result tag is formed: TAG_RANGE
changes nothing (R256; 21_faults_preemption.md R369, log 111). -/
def State.fireCells (s : State) (opc : Nat) (f : OpFields) (act : State → Site → Match → Tag → State) : State :=
  s.fire opc f fun s q m =>
    if m.eos then s.arrayStart q m (q.eosAll m.tag.level m.tag) false 1 id else s.withTag q m m.tag fun s t => act s q m t
/-- A record of poison that a firing read in scratchpad (25_reliability.md R410). -/
def State.poisonRead (s : State) (q : Site) (m : Match) (bad : Bool) : State :=
  if bad then s.faultRecord q.ck m.tag.colour 0x10 codePoison 0 { m.tag with slot := BitVec.ofNat 6 q.slot, port := 0 }.toWord
  else s
/-- The firing emits L to every destination. -/
def State.emitL (s : State) (q : Site) (m : Match) (t : Tag) (poison : Bool) (busy : Nat) (last : ArrayFiring → ArrayFiring) :
    State :=
  s.arrayStart q m (q.toAll ((m.payload? .l).getD .order) t) poison busy last

/-- An element of an accumulator. -/
def FabRegs.cell (r : FabRegs) (n i j : Nat) : Lane := Map.get r.acc (256 * n + 16 * i + j) 0
/-- Writes elements of an accumulator. -/
def FabRegs.setCells (r : FabRegs) (n : Nat) (g : Nat → Nat → Option Lane) : FabRegs :=
  { r with acc := (List.range 256).foldl (fun a x =>
      match g (x / 16) (x % 16) with | some v => Map.put a (256 * n + x) v | none => a) r.acc }
/-- Row i of an accumulator. -/
def FabRegs.row (r : FabRegs) (n i : Nat) : WideVal := ⟨Lanes.ofLanes fun j => r.cell n i j, Lanes.full⟩
/-- Updates a tile's registers. -/
def State.modRegs (s : State) (tk : Nat) (g : FabRegs → FabRegs) : State :=
  s.modTile tk fun t => { t with regs := g t.regs }

/-- A scalar pair (R255). -/
structure Pair where
  lo : Nat
  hi : Nat
  deriving DecidableEq, Repr
/-- The pair that begins at scalar register n. -/
def FabRegs.pair (r : FabRegs) (n : Nat) : Pair := ⟨(r.s.getD n 0).toNat, (r.s.getD (n + 1) 0).toNat⟩
/-- Field BASE. -/
def Pair.base (p : Pair) : Nat := p.lo % 2 ^ 24
/-- Field RP. -/
def Pair.rp (p : Pair) : Nat := p.hi % 2 ^ 16
/-- Field TP. -/
def Pair.tp (p : Pair) : Nat := p.hi / 2 ^ 16 % 2 ^ 16
/-- Field RC. -/
def Pair.rc (p : Pair) : Nat := p.hi / 2 ^ 32 % 4
/-- The pair keeps R255 and R256. -/
def Pair.ok (p : Pair) : Bool :=
  p.lo < 2 ^ 24 && p.hi < 2 ^ 34 && p.base % 16 = 0 && p.rp % 16 = 0 && p.tp % 16 = 0 && (p.rc = 0 || p.rp % 256 = 0)
/-- The address of a byte of a row: rotation of R163. -/
def rotated (b rp rc i byte : Nat) : Nat :=
  let a := b + i * rp + byte
  let s := if rc = 0 then 0 else 2 ^ rc
  a / 256 * 256 + (a / 16 % 16 + i * s) % 16 * 16 + a % 16
/-- The first byte of a tile's scratchpad space (R160). -/
def spaOf (tk : Nat) : Nat := tiOf tk * 2 ^ 16
/-- A circular buffer's entry size E and first entry (R171). -/
def Tile.bufferEntry (t : Tile) (h : Nat) : Nat × Nat := (16 * (t.word64 (h + 8) / 2 ^ 32 % 512), h + 16)
/-- Where entry k of a circular buffer begins. -/
def Tile.entryAt (t : Tile) (h k : Nat) : Nat :=
  let (e, first) := t.bufferEntry h
  first + k % (t.bufferCount h).2 * e
/-- The header of a circular buffer that a mode-2 pair names, checked (R256, R172): its offset in the tile. -/
def State.bufferCheck (s : State) (q : Site) (c : Colour) (p : Pair) : Except Nat Nat :=
  if !p.ok || p.base / 2 ^ 16 != tiOf q.tk then .error codeMx
  else
    match s.spCheck q.ck c p.base 16 with
    | .error k => .error k
    | .ok (tk, h) => if (s.tile tk).bufferBroken h then .error codeCbuf else .ok h
/-- A matrix operand in scratchpad: the SPA of row 0 of step 0, its pitches and rotation, and the header of its
buffer. -/
structure Region where
  b0 : Nat
  pair : Pair
  header : Option Nat
  deriving DecidableEq, Repr
/-- The source of an operand (R254): a register, or a region whose pair and header hold their checks. -/
def State.sourceOf (s : State) (q : Site) (c : Colour) (mode reg : Nat) : Except Nat (Option Region) :=
  let t := s.tile q.tk
  let p := t.regs.pair reg
  if mode = 0 then .ok none
  else if mode = 1 then (if p.ok then .ok (some ⟨p.base, p, none⟩) else .error codeMx)
  else
    match s.bufferCheck q c p with
    | .error k => .error k
    | .ok h => .ok (some ⟨spaOf q.tk + t.entryAt h (t.word32 (h + 4)), p, some h⟩)
/-- The granules of row i of step t. -/
def Region.granules (r : Region) (n t i : Nat) : List Nat :=
  (List.range (n / 16)).map fun g => rotated (r.b0 + t * r.pair.tp) r.pair.rp r.pair.rc i (16 * g)
/-- The first fault of a region's whole extent (R256). -/
def State.extentFault (s : State) (q : Site) (c : Colour) (r : Region) (n steps : Nat) : Option Nat :=
  ((List.range steps).flatMap fun t => (List.range 16).flatMap fun i => r.granules n t i).findSome? fun a =>
    if a ≥ 2 ^ 24 then some codeSpRange
    else match s.spCheck q.ck c a 16 with | .error k => some k | .ok _ => none
/-- A granule of the cluster's scratchpad space: its 16 bytes, and its poison. -/
def State.granule (s : State) (ck a : Nat) : List Byte × Bool :=
  (s.tile (192 * ck + a / 2 ^ 16)).spRead (a % 2 ^ 16) 16

/-- Element formats of A and B by opcode (R90 to R92, R252). -/
def mmaFormat (opc : Nat) (isA : Bool) : Nat :=
  if opc = 0x180 then 0 else if opc = 0x181 then 1 else if opc = 0x182 then (if isA then 0 else 1)
  else if opc = 0x183 then 2 else if opc = 0x184 then 3 else (if isA then 4 else 0)
/-- Bytes of a row of 64 elements (R254). -/
def rowBytes (fmt : Nat) : Nat := if fmt = 2 then 128 else if fmt = 4 then 32 else 64
/-- Element k of a row. -/
def rowElement (fmt : Nat) (bs : Array Byte) (k : Nat) : Fp.Val :=
  let b := fun (i : Nat) => (bs.getD i 0).toNat
  if fmt = 0 then Fp.decode Fp.e4m3 (b k)
  else if fmt = 1 then Fp.decode Fp.e5m2 (b k)
  else if fmt = 2 then Fp.decode Fp.bf16 (b (2 * k) + 256 * b (2 * k + 1))
  else if fmt = 3 then Fp.ofInt (BitVec.ofNat 8 (b k)).toInt
  else Fp.q16n (if k % 2 = 0 then b (k / 2) % 16 else b (k / 2) / 16)
/-- The 64 elements of a row. -/
def rowElements (fmt : Nat) (bs : List Byte) : List Fp.Val := (List.range 64).map (rowElement fmt bs.toArray)
/-- A row held in registers (R254). -/
def FabRegs.rowOf (r : FabRegs) (fmt reg : Nat) : List Byte :=
  let bytes := fun (n : Nat) => (List.range 64).map fun i => Lanes.byte (r.v.getD n 0) i
  (bytes reg ++ bytes (reg + 1)).take (rowBytes fmt)
/-- The 16 rows of an operand at step t. -/
def State.operandRows (s : State) (q : Site) (src : Option Region) (fmt reg t : Nat) : List (List Fp.Val) :=
  match src with
  | none => let row := rowElements fmt ((s.tile q.tk).regs.rowOf fmt reg); List.replicate 16 row
  | some r => (List.range 16).map fun i =>
      rowElements fmt ((r.granules (rowBytes fmt) t i).flatMap fun a => (s.granule q.ck a).1)
/-- Whether a source holds a poisoned granule. -/
def State.sourcePoison (s : State) (q : Site) (src : Option Region) (fmt steps : Nat) : Bool :=
  match src with
  | none => false
  | some r => (List.range steps).any fun t => (List.range 16).any fun i =>
      (r.granules (rowBytes fmt) t i).any fun a => (s.granule q.ck a).2

/-- An exact integer product: zero has no sign (R90). -/
def intProduct : Fp.Val → Fp.Val
  | .fin neg m e => .fin (neg && m != 0) m e
  | v => v
/-- Exact products of two rows. -/
def products (a b : List Fp.Val) : List Fp.Val := List.zipWith Fp.mul a b
/-- Sums of consecutive groups of `n`, each rounded once (R90, R91). -/
def groupSums (n : Nat) (ps : List Fp.Val) : List Nat :=
  (List.range (ps.length / n)).map fun g => Fp.rne Fp.f32 (Fp.sum ((ps.drop (n * g)).take n))
/-- One step of a product into an accumulator element (R90 to R92). -/
def mmaCell (opc : Nat) (a b : List Fp.Val) (c : Nat) : Nat :=
  if opc = 0x185 then Fp.rne Fp.f32 (Fp.sum (products a b))
  else if opc = 0x184 then (groupSums 16 ((products a b).map intProduct)).foldl Fp.add32 c
  else (groupSums (if opc = 0x183 then 8 else 16) (products a b)).foldl Fp.add32 c

/-- Writes a payload to a vector register; an inactive lane becomes zero (R258, R32). -/
def FabRegs.setV (r : FabRegs) (n : Nat) (v : WideVal) : FabRegs :=
  { r with v := r.v.setIfInBounds n (Lanes.masked v.mask fun i => Lanes.lane v.data i).data }
/-- The LD field of an `mma` (R254, R258). -/
def loadRegs (r : FabRegs) (q : Site) (m : Match) : FabRegs :=
  let g := OpTable.immField q.f
  let put := fun (n : Nat) =>
    let r := r.setV n (m.wide .l)
    if q.opc = 0x183 then r.setV (n + 1) (m.wide .r) else r
  if g 5 4 = 1 then put (g 15 12) else if g 5 4 = 2 then put (g 9 6) else r
/-- Advances a pointer word of a circular buffer by 1. -/
def Tile.advanceWord (t : Tile) (a : Nat) : Tile :=
  { t with scratch := Memory.writePairs t.scratch 0 (pairsAt a (natBytes 4 (t.word32 a + 1))) }
/-- Busy cycles of an `mma` (R253). -/
def mmaBusy (opc steps : Nat) : Nat := if opc = 0x183 then 64 * steps else if opc = 0x185 then 16 else 32 * steps

/-- An `mma` (R256 to R258): its whole extent is checked first, then the registers are loaded and every step performed. -/
def State.fireMma (s : State) (opc : Nat) (f : OpFields) : State :=
  s.fireCells opc f fun s q m tag =>
    let g := OpTable.immField f
    let steps := g 27 24 + 1
    let c := m.tag.colour
    let fa := mmaFormat opc true
    let fb := mmaFormat opc false
    let bad := fun (k : Nat) => s.faultFiring q m k 0
    match s.sourceOf q c (g 17 16) (g 15 12), s.sourceOf q c (g 11 10) (g 9 6) with
    | .error k, _ => bad k
    | _, .error k => bad k
    | .ok a, .ok b =>
      match (a.bind fun r => s.extentFault q c r (rowBytes fa) steps).orElse fun _ =>
          b.bind fun r => s.extentFault q c r (rowBytes fb) steps with
      | some k => bad k
      | none =>
        let poison := s.sourcePoison q a fa steps || s.sourcePoison q b fb steps
        let acc := g 23 22
        let s := s.modRegs q.tk fun r => loadRegs r q m
        let s := if g 21 21 = 1 then s.modRegs q.tk fun r => r.setCells acc fun _ _ => some 0 else s
        let s := (List.range steps).foldl (fun s t =>
          let ra := (s.operandRows q a fa (g 15 12) t).toArray
          let rb := (s.operandRows q b fb (g 9 6) t).toArray
          s.modRegs q.tk fun r => r.setCells acc fun i j =>
            some (BitVec.ofNat 32 (mmaCell opc (ra.getD i []) (rb.getD j []) (r.cell acc i j).toNat))) s
        let hs := (a.bind (·.header)).toList ++ (b.bind (·.header)).toList
        let used := hs.foldl NatSet.insert []
        (s.poisonRead q m poison).emitL q m tag poison (mmaBusy opc steps) fun x => { x with cons := used }
/-- `mma.e4m3` (R258). -/
def execMmaE4m3 (f : OpFields) (s : State) : Result' := .next (s.fireMma 0x180 f)
/-- `mma.e5m2` (R258). -/
def execMmaE5m2 (f : OpFields) (s : State) : Result' := .next (s.fireMma 0x181 f)
/-- `mma.e4e5` (R258). -/
def execMmaE4e5 (f : OpFields) (s : State) : Result' := .next (s.fireMma 0x182 f)
/-- `mma.bf16` (R258). -/
def execMmaBf16 (f : OpFields) (s : State) : Result' := .next (s.fireMma 0x183 f)
/-- `mma.i8` (R258). -/
def execMmaI8 (f : OpFields) (s : State) : Result' := .next (s.fireMma 0x184 f)
/-- `mma.q16n` (R258). -/
def execMmaQ16n (f : OpFields) (s : State) : Result' := .next (s.fireMma 0x185 f)

/-- The scale of a row of `scalc` (R259). -/
def scalcScale (sup code : Lane) : Nat :=
  Fp.rne Fp.f32 (Fp.mul (Fp.decode Fp.f32 sup.toNat) (.fin false (code.toNat % 256 + 1) (-8)))
/-- `scalc` (R259). -/
def execScalc (f : OpFields) (s : State) : Result' :=
  .next (s.fireCells 0x188 f fun s q m t =>
    let d := OpTable.immField f 3 2
    let p := OpTable.immField f 1 0
    let l := m.wide .l
    let r := m.wide .r
    let s := s.modRegs q.tk fun x => x.setCells d fun i j =>
      if Lanes.on l.mask i && Lanes.on r.mask i then
        let sc := scalcScale (Lanes.lane l.data i) (Lanes.lane r.data i)
        some (BitVec.ofNat 32 (Fp.add32 (x.cell d i j).toNat (Fp.mul32 (x.cell p i j).toNat sc)))
      else none
    s.emitL q m t false 16 id)
/-- `accz` (R260). -/
def execAccz (f : OpFields) (s : State) : Result' :=
  .next (s.fireCells 0x189 f fun s q m t =>
    (s.modRegs q.tk fun x => x.setCells (OpTable.immField f 1 0) fun _ _ => some 0).emitL q m t false 1 id)
/-- `accwr` (R260). -/
def execAccwr (f : OpFields) (s : State) : Result' :=
  .next (s.fireCells 0x18B f fun s q m t =>
    let l := m.wide .l
    (s.modRegs q.tk fun x => x.setCells (OpTable.immField f 1 0) fun i j =>
      if i = OpTable.immField f 7 4 && Lanes.on l.mask j then some (Lanes.lane l.data j) else none).emitL q m t false 1 id)
/-- `accrd` (R260): a row, or the whole accumulator into the entry PROD of a circular buffer. -/
def execAccrd (f : OpFields) (s : State) : Result' :=
  .next (s.fireCells 0x18A f fun s q m t =>
    let g := OpTable.immField f
    let x := s.tile q.tk
    let acc := g 1 0
    if g 9 8 = 2 then
      match s.bufferCheck q m.tag.colour (x.regs.pair (g 13 10)) with
      | .error k => s.faultFiring q m k 0
      | .ok h =>
        if (x.bufferEntry h).1 < 1024 then s.faultFiring q m codeMx 0
        else
          let a := x.entryAt h (x.word32 h)
          if a + 1024 > 4096 * x.spk.toNat then s.faultFiring q m codeSpRange 0
          else
            let rows := (List.range 16).flatMap fun i => pairsAt (a + 64 * i)
              ((List.range 64).map fun b => Lanes.byte (x.regs.row acc i).data b)
            s.emitL q m t false 16 fun y => { y with prod := some h, rows := rows }
    else
      let row := if g 9 8 = 1 then ((m.payload? .l).getD .order).value.toNat % 16 else g 7 4
      s.arrayStart q m (q.toAll (.wide (x.regs.row acc row)) t) false 1 id)
/-- `xsort` (R261). -/
def execXsort (f : OpFields) (s : State) : Result' :=
  .next (s.fireCells 0x190 f fun s q m t =>
    let (keys, idx) := Lanes.xsort f.etype (OpTable.immField f 0 0 = 1) (m.wide .l)
    let rs := (q.toAll (.wide keys) t).map fun (r : Result) => if r.index = 1 then { r with payload := .wide idx } else r
    s.arrayStart q m rs false 10 id)

/-- The results of a firing that ends: one token to each destination, and of an `ascan`'s groups of nine the others in the cycles that
follow (R268). -/
def State.arrayOut (s : State) (tk : Nat) (a : ArrayFiring) : State :=
  if a.scanOf.isNone then s.deliverAll tk a.plane 0 a.out
  else
    let per := a.out.length / 9
    let nth := fun (i : Nat) => (List.range per).filterMap fun j => a.out[9 * j + i]?
    (s.deliverAll tk a.plane 0 (nth 0)).modTile tk fun t =>
      { t with trail := t.trail ++ (List.range 8).map fun i => ⟨a.plane, s.cycles + 1 + i, nth (i + 1)⟩ }
/-- The tokens of groups that are due leave, one a cycle to each destination (R268). -/
def State.trailOut (s : State) (tk : Nat) : State :=
  let due := (s.tile tk).trail.filter fun v => v.due ≤ s.cycles
  due.foldl (fun s v => s.deliverAll tk v.plane 0 v.out)
    (s.modTile tk fun t => { t with trail := t.trail.filter fun v => !decide (v.due ≤ s.cycles) })
/-- ARRAY_FIRING_END (R253): what is due of an earlier firing's groups leaves; after the last busy cycle of the firing in progress the
rows of an `accrd` are written, the buffer pointers advance (R257, R260), and the results are emitted. -/
def execArrayFiringEnd (tk : Nat) (s : State) : Result' :=
  let s := s.trailOut tk
  match (s.tile tk).array with
  | none => .next s
  | some a =>
    if s.cycles ≤ a.lastBusy then .next s
    else
      let s := s.modTile tk fun t =>
        let t := { t with array := none }
        let t := if a.rows = [] then t else t.spWrite a.rows false
        let t := match a.prod with | some h => t.advanceWord h | none => t
        a.cons.foldl (fun t h => t.advanceWord (h + 4)) t
      .next (s.arrayOut tk a)

end Sys2Proof.Machine
end

