-- ==== Sys2Proof/Machine/Attention.lean ====
section
/-!
DEFINITION. Attention: the KV operators (13_ops_matrix.md R265 to R267), the score of a query (R269; 04_numbers.md
R95), and the merge and the normalisation of triples (R270; R96).
-/
namespace Sys2Proof.Machine

/-- A KV operator of the memory unit: the checks of R264, then `act`, which ends by a fault or by an answer. -/
def State.fireKv (s : State) (opc : Nat) (f : OpFields)
    (act : State → Site → Match → KvCfg → Nat → Except Nat (State × (Access → Access))) : State :=
  s.fireMem opc f fun s q m tag =>
    let w := (m.value .l % (2 ^ 64 : Nat)).toNat
    let g := (s.tile q.tk).kvCfg f
    match s.kvCheck q.tk m.tag.colour g (kvSeq opc (m.value .l)) with
    | .error k => s.faultFiring q m k 0
    | .ok _ =>
      match act s q m g w with
      | .error k => s.faultFiring q m k 0
      | .ok (s, ans) => s.issueAccess q m tag 0 fun s a => s.answer q.tk a.id ans
/-- `kvapp` (R265); under COMMIT the append is held (21_faults_preemption.md R382). -/
def execKvapp (f : OpFields) (s : State) : Result' :=
  .next (s.fireKv 0x1A0 f fun s q m g w =>
    let t := s.tile q.tk
    let k := t.kvSeq (g.desc (w / 2 ^ 26 % 64))
    let n := kvPos w / g.tiles
    let x := m.wide .r
    if kvPos w % g.tiles != g.ridx then .error codeKvOwner
    else if n ≥ k.cap then .error codeKvRange
    else if k.slot n + 256 > 4096 * t.spk.toNat then .error codeSpRange
    else if f.flags.commit then
      .ok (s.holdEffect q.tk m.tag.ctx.toNat m.tag.colour (.kvapp q.tk g.bits w x m.poison), fun a => a)
    else
      let (t, read) := t.kvAppend g w x m.poison
      .ok (s.modTile q.tk fun _ => t, fun a => { a with memPoison := read }))

/-- Zeroes page headers. -/
def Tile.clearHeaders (t : Tile) (d : Nat) (which : Nat → Bool) : Tile :=
  (List.range 3).foldl (fun (t : Tile) i =>
    if which i then t.spWrite (pairsAt (headerAt d i) (natBytes 16 0)) false else t) t
/-- The effect of `kvseq` on a control granule (R266), or its fault; the Bool asks for the headers to be zeroed. -/
def kvSeqStep (g : KvCfg) (spk w : Nat) (k : KvSeq) : Except Nat (KvSeq × Bool) :=
  let op := w / 2 ^ 62 % 4
  let base := w / 2 ^ 40 % 2 ^ 16
  let cap := w / 2 ^ 32 % 256
  let n := w % 2 ^ 32
  let fits := fun (k : KvSeq) => g.cnt (k.len + k.nd) ≤ k.cap
  if op = 1 then
    if n != 0 || base % 256 != 0 || cap = 0 || cap > 192 || base + 256 * cap > 4096 * spk then .error codeKvForm
    else .ok (⟨base, cap, 0, 0⟩, true)
  else if base != 0 || cap != 0 then .error codeKvForm
  else if op = 0 then (if n != 0 then .error codeKvForm else .ok (k, false))
  else if op = 2 then
    if k.len + n ≥ 2 ^ 32 then .error codeKvForm
    else if fits { k with len := k.len + n } then .ok ({ k with len := k.len + n }, false) else .error codeKvRange
  else if n > 64 then .error codeKvForm
  else if fits { k with nd := n } then .ok ({ k with nd := n }, false) else .error codeKvRange
/-- `kvseq`, whatever OP its control word holds (R266). Its result carries the canonical digit string (log 5). -/
def State.fireKvseq (s : State) (f : OpFields) : State :=
  s.fireKv 0x1A1 f fun s q _ g w =>
    let t := s.tile q.tk
    let d := g.desc (w / 2 ^ 56 % 64)
    match kvSeqStep g t.spk.toNat w (t.kvSeq d) with
    | .error k => .error k
    | .ok (k, opened) =>
      let bad := (t.spRead d 16).2 && !opened
      let t := if w / 2 ^ 62 % 4 = 0 then t else (t.spWrite (pairsAt d k.bytes) bad).clearHeaders d fun _ => opened
      .ok (s.modTile q.tk fun _ => t, fun a => { a with value := k.len + 2 ^ 32 * k.nd, memPoison := bad })
/-- `kvseq` READ (R266); the four OPs share the word, and the control word chooses. -/
def execKvseqRead (f : OpFields) (s : State) : Result' := .next (s.fireKvseq f)
/-- `kvseq` OPEN (R266). -/
def execKvseqOpen (f : OpFields) (s : State) : Result' := .next (s.fireKvseq f)
/-- `kvseq` ADVANCE (R266). -/
def execKvseqAdvance (f : OpFields) (s : State) : Result' := .next (s.fireKvseq f)
/-- `kvseq` DRAFT (R266). -/
def execKvseqDraft (f : OpFields) (s : State) : Result' := .next (s.fireKvseq f)
/-- `kvtrim` (R267). -/
def execKvtrim (f : OpFields) (s : State) : Result' :=
  .next (s.fireKv 0x1A2 f fun s q _ g w =>
    let t := s.tile q.tk
    let d := g.desc (w / 2 ^ 56 % 64)
    let trunc := w / 2 ^ 54 % 2 = 1
    let n := w % 2 ^ 32
    if w / 2 ^ 62 != 0 || w / 2 ^ 32 % 2 ^ 22 != 0 || (!trunc && n != 0) then .error codeKvForm
    else
      let k := t.kvSeq d
      let nd := if w / 2 ^ 55 % 2 = 1 then 0 else k.nd
      let k := { k with nd := nd, len := if trunc then min k.len n else k.len }
      let bad := (t.spRead d 16).2
      let t := (t.spWrite (pairsAt d k.bytes) bad).clearHeaders d fun i => decide (64 * i ≥ g.cnt (k.len + k.nd))
      .ok (s.modTile q.tk fun _ => t, fun a => { a with memPoison := bad }))

/-- A triple (R268): m, l and o. -/
structure Triple where
  m : Nat
  l : Nat
  o : List Nat
  deriving DecidableEq, Repr
/-- The pattern of -∞. -/
def negInf : Nat := 0xFF800000
/-- The triple of no key. -/
def Triple.empty : Triple := ⟨negInf, 0, List.replicate 128 0⟩
/-- `RNE(exp2(RNE(a - b)))`. -/
def expDiff (a b : Nat) : Nat := Fp.exp2 Fp.f32 (Fp.decode Fp.f32 (Fp.sub32 a b))
/-- R95 over visible keys: each with its score and its 128 value elements, in ascending position order. -/
def Triple.score (keys : List (Nat × List Nat)) : Triple :=
  let m := keys.foldl (fun m k => Fp.minMax true m k.1) negInf
  keys.foldl (fun t k =>
    let p := expDiff k.1 m
    { t with l := Fp.add32 t.l p, o := List.zipWith (fun o v => Fp.add32 o (Fp.mul32 p v)) t.o k.2 }) { Triple.empty with m := m }
/-- The merge of R96. -/
def Triple.merge (x y : Triple) : Triple :=
  let m := Fp.minMax true x.m y.m
  if m = negInf then .empty
  else
    let a := expDiff x.m m
    let b := expDiff y.m m
    let mix := fun p q => Fp.add32 (Fp.mul32 p a) (Fp.mul32 q b)
    ⟨m, mix x.l y.l, List.zipWith mix x.o y.o⟩
/-- The division of `anorm` (R96). -/
def Triple.norm (x : Triple) : List Nat := x.o.map fun o => if x.l = 0 then 0 else Fp.div32 o x.l
/-- Sixteen elements as a WIDE payload with the mask all ones. -/
def lanesOf (xs : List Nat) : WideVal := ⟨Lanes.ofLanes fun i => BitVec.ofNat 32 (xs.getD i 0), Lanes.full⟩
/-- The nine payloads of a group (R268). -/
def Triple.group (x : Triple) : List WideVal :=
  lanesOf [x.m, x.l] :: (List.range 8).map fun c => lanesOf ((x.o.drop (16 * c)).take 16)
/-- The triple of nine tokens, in order of arrival (R268). -/
def Triple.ofOps (os : List Operand) : Triple :=
  let lane := fun (c i : Nat) => ((os[c]?).map fun o => (Lanes.lane o.entry.token.payload.wideOr.data i).toNat).getD 0
  ⟨lane 0 0, lane 0 1, (List.range 128).map fun d => lane (d / 16 + 1) (d % 16)⟩
/-- Every destination receives each of the payloads, in order; the tags are those of `tag`. -/
def Site.groups (q : Site) (ps : List WideVal) (tag : Nat → Tag) : List Result :=
  (OpTable.dests q.f).flatMap fun d => (List.range ps.length).map fun i =>
    ⟨d.1, d.2, .wide (ps.getD i ⟨0, 0⟩), tag i⟩

/-- The control payload of `ascan` keeps its table (R269). -/
def scanOk (c : WideVal) : Bool :=
  ((List.range 5).all fun i => Lanes.on c.mask i) &&
  (Lanes.lane c.data 3).toNat < 64 && (List.range 11).all fun i => Lanes.lane c.data (5 + i) = 0
/-- Positions that a query sees in a tile (R269), in ascending order. -/
def visible (g : KvCfg) (k : KvSeq) (c : WideVal) : List Nat :=
  let lane := fun i => (Lanes.lane c.data i).toNat
  let anc := lane 0 + 2 ^ 32 * lane 1
  ((List.range (g.cnt (min k.len (lane 2)))).map fun i => g.ridx + g.tiles * i) ++
    ((List.range k.nd).filter fun j => anc / 2 ^ j % 2 = 1).filterMap fun j =>
      if (k.len + j) % g.tiles = g.ridx then some (k.len + j) else none
/-- The query's 128 elements (R269); inactive lanes read zero. -/
def queryOf (l r : WideVal) : List Fp.Val :=
  (List.range 128).map fun d =>
    let x := if d < 64 then l else r
    let e := d % 64
    if Lanes.on x.mask (e / 4) then Fp.decode Fp.e4m3 (Lanes.byte x.data e).toNat else .fin false 0 0
/-- A key's score and its value elements (R269, R95). -/
def Tile.scoreKey (t : Tile) (d : Nat) (k : KvSeq) (query : List Fp.Val) (qs slot : Nat) : Nat × List Nat :=
  let h := headerAt d (slot / 64)
  let bytes := (Memory.readBytes t.scratch (k.slot slot) 256).map fun b => Fp.decode Fp.e4m3 b.toNat
  let dot := match groupSums 16 (products query (bytes.take 128)) with | [] => 0 | x :: xs => xs.foldl Fp.add32 x
  (Fp.mul32 (Fp.mul32 dot qs) (t.word32 h),
   (bytes.drop 128).map fun v => Fp.rne Fp.f32 (Fp.mul v (Fp.decode Fp.f32 (t.word32 (h + 4)))))
/-- `ascan` (R269). -/
def execAscan (f : OpFields) (s : State) : Result' :=
  .next (s.fireCells 0x198 f fun s q m tag =>
    let t := s.tile q.tk
    let g := t.kvCfg f
    let c := m.wide .c
    let seq := scanSeq c
    if !g.ok then s.faultFiring q m codeKvForm 0
    else if !scanOk c then s.faultFiring q m codeKvForm 0
    else
      match s.kvCheck q.tk m.tag.colour g seq with
      | .error k => s.faultFiring q m k 0
      | .ok _ =>
        let d := g.desc seq
        let k := t.kvSeq d
        let slots := (visible g k c).map fun p => p / g.tiles
        if slots.any fun n => n ≥ k.cap then s.faultFiring q m codeKvRange 0
        else if slots.any fun n => k.slot n + 256 > 4096 * t.spk.toNat then s.faultFiring q m codeSpRange 0
        else
          let query := queryOf (m.wide .l) (m.wide .r)
          let keys := slots.map fun n => t.scoreKey d k query (Lanes.lane c.data 4).toNat n
          let bad := (t.spRead d 16).2 || slots.any fun n =>
            (t.spRead (k.slot n) 256).2 || (t.spRead (headerAt d (n / 64)) 16).2
          (s.poisonRead q m bad).arrayStart q m (q.groups (Triple.score keys).group fun _ => tag) bad
            (4 + 8 * ((slots.length + 15) / 16)) fun x => { x with scanOf := some seq })
/-- `ared` (R270). -/
def execAred (f : OpFields) (s : State) : Result' :=
  .next (s.fire 0x199 f fun s q m =>
    if m.eos then s.forwardEos q m
    else
      let x := (Triple.ofOps (m.every .l)).merge (Triple.ofOps (m.every .r))
      s.withTag q m m.tag fun s tag => s.output q m (q.groups x.group fun _ => tag) (m.at? .l))
/-- `anorm` (R270). -/
def execAnorm (f : OpFields) (s : State) : Result' :=
  .next (s.fire 0x19A f fun s q m =>
    if m.eos then s.forwardEos q m
    else
      let ls := s.levelsOf q.ck m.tag.ctx.toNat
      let os := (Triple.ofOps (m.every .l)).norm
      let ps := (List.range 8).map fun c => lanesOf ((os.drop (16 * c)).take 16)
      let (s, v) := s.lValue m
      let tags := (List.range 8).map fun (c : Nat) => (m.tag.push ls c).bind fun t => s.tagOp q.ck f.tagop t v
      if tags.any fun t => t = none then s.faultFiring q m codeTagRange 0
      else s.output q m (q.groups ps fun i => ((tags[i]?).bind id).getD m.tag) (m.at? .l))

end Sys2Proof.Machine
end

