-- ==== Sys2Proof/Machine/Fetch.lean ====
section
/-!
DEFINITION. Fetching: the control core reads 8 bytes at PC (14_control_core.md R275, R278), a slot of a tile's
active plane holds its operator word (03_formats.md R59). The decoder's traps are those of R71.
-/
namespace Sys2Proof.Machine

/-- What a fetch gives: an instruction to run, or a state in which none runs. -/
inductive Fetched where
  | run (s : State) (i : Instr)
  | none (s : State)
  deriving DecidableEq, Repr

/-- The state with a context as the actor. -/
def State.act (s : State) (ck ctx : Nat) : State := { s with actor := { s.actor with ck := ck, ctx := ctx } }
/-- The state with a slot of a tile as the actor. -/
def State.actTile (s : State) (tk slot : Nat) : State := { s with actor := { s.actor with tk := tk, slot := slot } }
/-- Whether a context is ready (R275): it runs a record, is not parked, and its first instruction is due (16_scheduling.md R311). -/
def State.isReady (s : State) (ck x : Nat) : Bool :=
  let c := s.context ck x
  c.running && c.park = .none && decide (c.since ≤ s.cycles)
/-- The context of a cluster whose turn it is: the first ready one after the one that issued last (R275). -/
def State.turn (s : State) (ck : Nat) : Option Nat :=
  ((List.range 8).map fun i => ((s.cluster ck).lastIssued + 1 + i) % 8).find? (s.isReady ck)
/-- Whether the acting context can issue: no context of its cluster has issued in this cycle, it is its turn, and no scan stalls the
cluster (R275; 21_faults_preemption.md R377). -/
def State.canIssue (s : State) : Bool :=
  s.myCluster.issuedAt != s.cycles + 1 && !s.scanning s.actor.ck && s.turn s.actor.ck = some s.actor.ctx
/-- The 8 bytes at an address, read as an instruction fetch at the line's home (log 25). -/
def State.fetchWord (s : State) (pc : Nat) : Mem Nat :=
  let c := s.me.colour
  match s.xlateCore s.actor.ck c pc true false with
  | (s, .error k) => if k = codeNotMapped then .page s pc else .fault s k pc
  | (s, .ok x) =>
    if x.device then .fault s codePerm pc
    else if s.lineBusy s.actor.ck x.sk x.pa then .busy
    else
      let (s, d, p) := s.plainRead x.sk x.pa x.key (s.colour c).world
      let s := s.countAccess s.actor.ck x.sk 0 1 c (s.colour c).world
      if p.getLsbD (x.pa % 256 / 64) then .fault s codePoison pc
      else .done s (bytesNat (lineBytes d (x.pa % 256) 8))
/-- The fetch of the acting context: a misaligned PC, which only a popped record can give, traps; a word that
the decoder refuses traps ILLEGAL, or PRIVILEGED for `freeze` outside world 0 (R71). -/
def State.fetchCore (s : State) : Fetched :=
  if !s.canIssue then .none s
  else
    let s := s.modCluster s.actor.ck fun k => { k with lastIssued := s.actor.ctx, issuedAt := s.cycles + 1 }
    if s.me.pc.toNat % 8 != 0 then .none (s.takeTrap 0x02 0 0 0)
    else
      match s.fetchWord s.me.pc.toNat with
      | .busy => .none s
      | .page s va => .none (s.parkPage s.me.colour va)
      | .fault s k va => .none (s.memTrap k va)
      | .done s w =>
        match decodeCore w with
        | .ok i => .run s i
        | .error _ => .none s.illegal
/-- The operator of the acting slot in the tile's active plane. -/
def State.fetchSlot (s : State) : Fetched :=
  let t := s.tile s.actor.tk
  match decodeFabric (t.slot (64 * t.plane.toNat + s.actor.slot)).word.toNat with
  | .ok i => .run s i
  | .error _ => .none s
/-- Whether a constructor is a step of the device that no word encodes. -/
def isStep (i : Instr) : Bool := (encodeCore i).isNone && (fabricOf i).isNone
/-- Where `withFetchWord` maps the fetched page: physical 64 GiB, one leaf of level 1. -/
def fetchBase : Nat := 2 ^ 36
/-- Stores an instruction's bytes where the next step fetches it (see Machine/Step.lean, log 15): a control-core
word under a leaf for the context's colour, an operator word in a slot of a tile. -/
def State.place (s : State) (nbits w : Nat) : State :=
  if nbits ≤ 64 then
    let s := s.act 0 0
    let c := s.me
    let s := { s with agenda := .issue 0 0 :: s.agenda }
    let s := s.setColour c.colour fun e => { e with state := .live, world := c.world, poisoned := false }
    let pc := c.pc.toNat / 8 * 8
    let s := s.modMe fun c => { c with running := true, park := .none, since := 0, pc := BitVec.ofNat 64 (pc % 2 ^ 36) }
    let pte := fetchBase + 16 + 8 + 4 + 2 + 1
    let s := s.modCluster 0 fun k => { k with lastIssued := 7, issuedAt := 0, tlb := [⟨c.colour, 1, 0, BitVec.ofNat 64 pte⟩] }
    let s := s.poke (s.wxbase.toNat + 128 * c.world.toNat)
      (natBytes 16 ((2 ^ 38 - 1) * 2 ^ 78 + 1))
    let a := fetchBase + pc % 2 ^ 36
    let s := s.poke a (natBytes 8 w)
    { s with dramKey := Map.put s.dramKey (a / 64) (s.keyIn (holderOf a) c.colour) }
  else
    let s := { s with agenda := .fire 0 0 :: s.agenda }
    s.modTile 0 fun t => t.modSlot (64 * t.plane.toNat) fun x => { x with word := BitVec.ofNat 128 w }

end Sys2Proof.Machine
end

