-- ==== Sys2Proof/Machine/Mesh.lean ====
section
/-!
DEFINITION. The mesh of a cluster (07_network.md R142 to R147): routes, the heads of the router buffers, and which flit an output
grants.
-/
namespace Sys2Proof.Machine

/-- The output by which a flit leaves its router: along x, then along y, then by its goal's own (R143). -/
def Flit.output (f : Flit) : Nat :=
  if f.router % 16 < f.dst % 16 then 1 else if f.dst % 16 < f.router % 16 then 3
  else if f.router / 16 < f.dst / 16 then 2 else if f.dst / 16 < f.router / 16 then 0 else f.out
/-- Whether a flit stands at its goal's router. -/
def Flit.atGoal (f : Flit) : Bool := f.router = f.dst
/-- The router behind an output, and the input by which a flit enters it. -/
def nextRouter (r out : Nat) : Nat × Nat :=
  if out = 0 then (r - 16, 2) else if out = 1 then (r + 1, 3) else if out = 2 then (r + 16, 0) else (r - 1, 1)
/-- Whether two flits stand in one buffer: a virtual channel of a plane at an input of a router (R142). -/
def Flit.sameBuffer (f g : Flit) : Bool :=
  f.router = g.router && f.inp = g.inp && f.narrow = g.narrow && f.vc = g.vc
/-- Flits of a buffer that stand before the k-th of the cluster. -/
def Cluster.ahead (k : Cluster) (i : Nat) (f : Flit) : Nat := ((k.flits.take i).filter f.sameBuffer).length
/-- Whether the k-th flit is the head of its buffer. -/
def Cluster.isHead (k : Cluster) (i : Nat) (f : Flit) : Bool := k.ahead i f = 0
/-- Whether a buffer has room at the next hop: four flits stand in it at most (R142). -/
def Cluster.bufferRoom (k : Cluster) (f : Flit) : Bool :=
  let n := nextRouter f.router f.output
  decide ((k.flits.filter { f with router := n.1, inp := n.2 }.sameBuffer).length < 4)
/-- Whether a flit has stood in its buffer long enough to be granted in a cycle: a link takes two cycles, and a flit leaves the mesh
in the cycle in which it comes over its last link (R143). -/
def Flit.timely (f : Flit) (now : Nat) : Bool := if f.atGoal && f.inp != 4 then f.enters ≤ now else f.enters < now
/-- Whether the tile or port behind its last output takes a flit: a token needs its plane to be active (16_scheduling.md R327), and
nothing moves in a cluster that a scan stalls (21_faults_preemption.md R377). -/
def State.takes (s : State) (ck : Nat) (f : Flit) : Bool :=
  match f.cargo with
  | .token _ plane _ _ _ => plane = (s.tile (192 * ck + f.dst)).plane.toNat
  | _ => true
/-- The level at which a flit competes (R145, R146). -/
def Flit.level (f : Flit) : Nat := if f.vc = 3 then 1 else if f.vc = 2 || f.promoted then 2 else 3
/-- The state of an output that has granted nothing yet: the north input comes first. -/
def OutPort.reset : OutPort := ⟨4, 0, 0, 0, []⟩
/-- The key of an output of a router on one plane. -/
def outKey (router out : Nat) (narrow : Bool) : Nat := 2 * (8 * router + out) + (if narrow then 1 else 0)
/-- An output of a router. -/
def Cluster.outPort (k : Cluster) (router out : Nat) (narrow : Bool) : OutPort :=
  Map.get k.routers (outKey router out narrow) OutPort.reset
/-- Whether an output leads out of the mesh by an edge link (R144). -/
def edgeOut (router out : Nat) : Bool :=
  (out = 0 && router < 16) || (out = 2 && 176 ≤ router) || (out = 3 && router % 16 = 0)
/-- Whether an output may grant one more flit of a channel in a cycle: one a plane, or two on different channels at an edge link
(R144, R145). -/
def OutPort.free (p : OutPort) (now vc : Nat) (edge : Bool) : Bool :=
  p.stamp != now + 1 || p.granted = [] || (edge && p.granted.length < 2 && !p.granted.contains vc)
/-- The head flits of a router that an output could grant now, with their places in the cluster's list. -/
def State.meshHeads (s : State) (ck router out : Nat) (narrow : Bool) : List (Nat × Flit) :=
  let k := s.cluster ck
  let p := k.outPort router out narrow
  if s.scanning ck then []
  else (List.range k.flits.length).filterMap fun i =>
    k.flits[i]?.bind fun f =>
      if f.router = router && f.narrow = narrow && f.output = out && k.isHead i f && f.timely s.cycles &&
          p.free s.cycles f.vc (edgeOut router out) && (if f.atGoal then s.takes ck f else k.bufferRoom f)
      then some (i, f) else none
/-- The channel whose turn it is at level 3 (R145): the other one where this has no eligible flit (log 113). -/
def OutPort.turnOf (p : OutPort) (xs : List (Nat × Flit)) : Nat :=
  if xs.any fun x => x.2.vc = p.turn then p.turn else 1 - p.turn
/-- The order of flits of one level (R145): the greater age, then the input that comes first after the one granted last. -/
def OutPort.prefers (p : OutPort) (a b : Flit) : Bool :=
  b.age < a.age || (a.age = b.age && (a.inp + 4 - p.last) % 5 < (b.inp + 4 - p.last) % 5)
/-- The first of some flits in the order of an output. -/
def OutPort.choose (p : OutPort) (xs : List (Nat × Flit)) : Option (Nat × Flit) :=
  xs.foldl (fun b x => match b with | none => some x | some y => if p.prefers x.2 y.2 then some x else b) none
/-- THE GRANT OF AN OUTPUT (R145): VC3, then VC2 and promoted flits, then VC0 and VC1 in weighted turns. -/
def State.meshGrant (s : State) (ck router out : Nat) (narrow : Bool) : Option (Nat × Flit) :=
  let p := (s.cluster ck).outPort router out narrow
  let xs := s.meshHeads ck router out narrow
  let one := xs.filter fun x => x.2.level = 1
  let two := xs.filter fun x => x.2.level = 2
  if one != [] then p.choose one
  else if two != [] then p.choose two
  else p.choose (xs.filter fun x => x.2.vc = p.turnOf xs)
/-- Grants left to a channel in its turn: its weight at the turn's start (R145, R147). -/
def Cluster.turnLeft (k : Cluster) (p : OutPort) (vc : Nat) : Nat :=
  if p.turn = vc ∧ p.left != 0 then p.left else if vc = 0 then k.wgt0.toNat else k.wgt1.toNat
/-- An output once it has granted a flit: a turn ends with its last grant, and the other channel's begins. -/
def Cluster.grantedOut (k : Cluster) (p : OutPort) (now : Nat) (f : Flit) : OutPort :=
  let p := { p with last := f.inp, stamp := now + 1, granted := if p.stamp = now + 1 then p.granted ++ [f.vc] else [f.vc] }
  if f.level != 3 then p
  else
    let n := k.turnLeft p f.vc - 1
    if n = 0 then { p with turn := 1 - f.vc, left := 0 } else { p with turn := f.vc, left := n }
/-- Takes the i-th flit of a cluster from its buffer, by a grant of its output. -/
def State.meshTake (s : State) (ck i : Nat) (f : Flit) : State :=
  s.modCluster ck fun k =>
    { k with
      flits := k.flits.eraseIdx i
      routers := Map.put k.routers (outKey f.router f.output f.narrow)
        (k.grantedOut (k.outPort f.router f.output f.narrow) s.cycles f) }
/-- Moves a flit that an output grants to the next router (R143): its age starts again there (R146). -/
def State.meshHop (s : State) (ck i : Nat) (f : Flit) : State :=
  let n := nextRouter f.router f.output
  (s.meshTake ck i f).modCluster ck fun k =>
    { k with flits := k.flits ++ [{ f with router := n.1, inp := n.2, enters := s.cycles + 1, age := 0, promoted := false }] }
/-- Whether a flit's age has reached the promotion threshold at the head of its buffer (R146, R147). -/
def Cluster.promotes (k : Cluster) (i : Nat) (f : Flit) : Bool :=
  k.promo != 0 && decide (k.promo.toNat ≤ f.age) && decide (f.vc ≤ 1) && !f.promoted && k.isHead i f
/-- A flit of a cluster at the end of a cycle (R146): its age grows while it stands in its buffer. -/
def Cluster.ageFlit (k : Cluster) (now i : Nat) (f : Flit) : Flit :=
  if f.enters ≤ now && decide (k.ahead i f < 4) then { f with age := min (f.age + 1) 1023 } else f

end Sys2Proof.Machine
end

