-- ==== Sys2Proof/Machine/Tokens.lean ====
section
/-!
DEFINITION. Tokens between firings (02_tokens.md): arrival at a matching store (R36 to R39, R61), credits (R48), stall
ages, purge and spill (R50 to R57), stall counters (R45), and the promotion of flits (07_network.md R146).
-/
namespace Sys2Proof.Machine

/-- The operator word that a token of a context meets at a slot: the one installed, or one of the context's image that a
splice has still to install (16_scheduling.md R322). -/
def State.wordFor (s : State) (tk plane slot ctx : Nat) : Option (BitVec 128) :=
  let x := (s.tile tk).slot (64 * plane + slot)
  if x.ctx = some ctx then some x.word
  else
    match s.launch? (ckOf tk) ctx with
    | none => none
    | some l => if l.state != .splicing then none
      else (l.words.find? fun w => w.ti = tiOf tk && w.slot = slot).map (·.word)
/-- Whether a port of a word accepts a token's kind and length (R31, R35, R36, R61). -/
def accepts (opc : Nat) (f : OpFields) (p : Port) (x : Payload) : Bool :=
  OpTable.declares f p &&
  match x with
  | .wide _ => p != .g && f.etype != .ord && OpTable.inputNarrow opc f.etype p != some true
  | .narrow _ _ _ => p != .g && f.etype != .ord && OpTable.inputNarrow opc f.etype p != some false &&
      (OpTable.anyLength opc p || x.beats = f.etype.beats)
  | .eos _ => p != .g
  | .guard _ => p = .g || f.etype = .ord
  | .order => p = .g || f.etype = .ord
/-- Whether a token's port accepts it. -/
def State.accepted (s : State) (tk plane : Nat) (t : Token) : Bool :=
  match s.wordFor tk plane t.tag.slot.toNat t.tag.ctx.toNat with
  | none => false
  | some w =>
    match decodeFabric w.toNat with
    | .error _ => false
    | .ok i => match fabricOf i with | none => false | some (opc, f) => accepts opc f (portOf t.tag.port) t.payload
/-- The lowest free index of a matching store (R38). -/
def Tile.freeEntry (t : Tile) : Option Nat := Map.lowestFree t.store 256 0
/-- An operand fills an entry (R38), with the beats of its token that are held; a spilled operand of the same tag at the slot is read
back (R57). -/
def State.fillEntry (s : State) (tk i id : Nat) (beats : List Nat) (t : Token) : State :=
  let (s, n) := s.newSeq
  let e : Entry := ⟨t, id, beats, s.cycles, n, 0, .wait, false⟩
  s.modTile tk fun x =>
    { x with
      store := Map.put x.store i e
      spills := x.spills.map fun y =>
        if y.token.tag.slot = t.tag.slot && y.token.tag.same t.tag then { y with reading := true } else y }
/-- An operand fills an entry whole. -/
def State.fillWhole (s : State) (tk i : Nat) (t : Token) : State :=
  let (s, id) := s.newId
  s.fillEntry tk i id (List.replicate t.payload.beats s.cycles) t
/-- A further beat of a token is held (R33): at its entry, or behind the firing of the narrow unit that has taken it. A beat of a token
that is gone is gone with it. -/
def Tile.holdBeat (t : Tile) (id now : Nat) : Tile :=
  { t with
    store := t.store.map fun (e : Nat × Entry) => if e.2.id = id then (e.1, { e.2 with beats := e.2.beats ++ [now] }) else e
    narrow := t.narrow.map fun (n : NarrowFiring) =>
      { n with sources := n.sources.map fun (b : BeatSource) => if b.id = id then { b with held := b.held ++ [now] } else b } }
/-- Whether an edge is one of a context's back edges (21_faults_preemption.md R380). -/
def State.isBack (s : State) (ck ctx : Nat) (e : Edge) : Bool :=
  match s.launch? ck ctx with
  | none => false
  | some l => match l.words.find? fun w => w.ti = e.src && w.slot = e.slot with
    | some w => w.back.getLsbD e.dest
    | none => false
/-- Whether a token of a context under snapshot is one of the new EPOCH at a tile (R380). -/
def State.newEpoch (s : State) (tk plane : Nat) (t : Token) : Bool :=
  let x := s.tile tk
  let ctx := t.tag.ctx.toNat
  (s.snapshotOf (ckOf tk) ctx).isSome &&
    (if x.savedFor.contains ctx then t.epoch = x.epochs.getLsbD plane else t.epoch != x.epochs.getLsbD plane)
/-- Counts an arrival on its edge. -/
def State.countArrival (s : State) (tk plane : Nat) (e : Edge) (t : Token) : State :=
  let ctx := t.tag.ctx.toNat
  let new := s.newEpoch tk plane t
  s.modTile tk fun x =>
    if new then { x with receivedNew := bump x.receivedNew ctx e } else { x with received := bump x.received ctx e }
/-- Whether a token of the old EPOCH has come on a back edge after the tile's save: it is caught on the link (R380). -/
def State.isCaught (s : State) (tk plane : Nat) (e : Edge) (t : Token) : Bool :=
  (s.tile tk).savedFor.contains t.tag.ctx.toNat && !s.newEpoch tk plane t &&
    (s.snapshotOf (ckOf tk) t.tag.ctx.toNat).isSome && s.isBack (ckOf tk) t.tag.ctx.toNat e
/-- Records a caught token in its image; in STOP mode it is freed and fires no more (23_prog_preemption.md R389). -/
def State.catchToken (s : State) (tk : Nat) (e : Edge) (t : Token) (fill : State → State) : State :=
  let ctx := t.tag.ctx.toNat
  let s := s.modCluster (ckOf tk) fun k =>
    { k with snapshots := k.snapshots.map fun (n : Snapshot) =>
        if n.ctx = ctx then { n with caught := n.caught ++ [(e, tiOf tk, t)] } else n }
  if (s.snapshotOf (ckOf tk) ctx).any fun n => n.stop then s else fill s
/-- A token that is discarded on its arrival with fault TOKEN_KIND (R36): its credit is returned. -/
def State.discardToken (s : State) (tk : Nat) (t : Token) : State :=
  (s.returnCredit tk t.credit t.tag.colour).faultRecord (ckOf tk) t.tag.colour 0x11 0x01 0 t.tag.toWord
/-- The first beat of a token, or a token of one flit, reaches its tile (R33, R39): its reservation becomes an entry. -/
def State.firstBeat (s : State) (tk i plane id : Nat) (edge : Edge) (t : Token) : State :=
  let s := (s.unhold tk ⟨t.tag.colour, t.tag.ctx, t.tag.slot.toNat, plane⟩).countArrival tk plane edge t
  if !s.accepted tk plane t then s.discardToken tk t
  else if s.isCaught tk plane edge t then s.catchToken tk edge t fun s => s.fillEntry tk i id [s.cycles] t
  else s.fillEntry tk i id [s.cycles] t
/-- TOKEN_ARRIVAL (R39): the k-th flit of a cluster's mesh is one of a token, and its tile's router grants it (07_network.md R145). -/
def execTokenArrival (ck k : Nat) (s : State) : Result' :=
  match (s.cluster ck).flits[k]? with
  | none => .next s
  | some f =>
    match f.cargo, (s.tile (192 * ck + f.dst)).freeEntry with
    | .token edge plane id beat t, some i =>
      if !f.atGoal || s.meshGrant ck f.router f.out f.narrow != some (k, f) then .next s
      else
        let tk := 192 * ck + f.dst
        let s := s.meshTake ck k f
        .next (if beat = 0 then s.firstBeat tk i plane id edge t else s.modTile tk fun x => x.holdBeat id s.cycles)
    | _, _ => .next s

/-- CREDIT_RETURN (R48): the k-th credit under way reaches its port, where it takes effect at the end of the FCLK cycle. -/
def execCreditReturn (ck k : Nat) (s : State) : Result' :=
  match (s.cluster ck).credits[k]? with
  | none => .next s
  | some c => .next (s.modCluster ck fun x => { x with credits := x.credits.eraseIdx k, returned := x.returned ++ [c] })
/-- A credit that has come to its port is one token less in flight there (R47). -/
def Cluster.creditTaken (k : Cluster) (c : Nat × Colour) : Cluster :=
  match Map.get? k.ports c.1 with
  | none => k
  | some e =>
    { k with ports := Map.put k.ports c.1 { e with inFlight := Map.put e.inFlight c.2.toNat (Map.get e.inFlight c.2.toNat 0 - 1) } }
/-- The credits that came in a cycle take effect at its end (R48). -/
def Cluster.creditsTaken (k : Cluster) : Cluster := k.returned.foldl Cluster.creditTaken { k with returned := [] }

/-- Changes an entry of a matching store. -/
def State.setEntry (s : State) (tk i : Nat) (e : Entry) : State :=
  s.modTile tk fun t => { t with store := Map.put t.store i e }
/-- Frees an entry and purges its token (R52). -/
def State.purgeEntry (s : State) (tk i : Nat) (e : Entry) (status : Nat) : State :=
  (s.modTile tk fun t => { t with store := Map.del t.store i }).purge tk e.token status 0
/-- The kind code of a payload (R31). -/
def Payload.kind : Payload → Nat
  | .wide _ => 0 | .narrow _ _ _ => 1 | .eos _ => 2 | .guard _ => 3 | .order => 4
/-- The stored beats of a narrow payload, as bytes (04_numbers.md R86). -/
def narrowBytes (n : Nat) (v : Int) (form : DigitForm) : List Byte :=
  (Num.storedBeats (form.string n v) ((n + 7) / 8)).flatMap fun w => natBytes 4 w
/-- Digits of `b` beats. -/
def beatDigits (b : Nat) : Nat := 8 * b
/-- The payload of a spill record as 64 bytes (R55). The manual gives payload bytes of a WIDE operand and beats of a NARROW one; that
the level of an EOS and the predicate of a GUARD stand in the lowest byte, and are not read back, is a DESIGN CHOICE (log 115). -/
def Payload.stored (p : Payload) : List Byte :=
  match p with
  | .wide v => (List.range 64).map fun i => Lanes.byte v.data i
  | .narrow n v form => (narrowBytes n v form ++ List.replicate 64 0).take 64
  | .eos l => natBytes 64 l.toNat
  | .guard g => natBytes 64 (if g then 1 else 0)
  | .order => List.replicate 64 0
/-- The lane mask of a payload. -/
def Payload.mask : Payload → Nat | .wide v => v.mask.toNat | _ => 0
/-- A spill record (R55): 80 bytes. -/
def Token.spillRecord (t : Token) : List Byte :=
  let origin := match t.credit with | some c => 128 + c.port % 64 | none => 0
  natBytes 16 (t.tag.toWord.toNat + 2 ^ 67 * t.payload.kind + 2 ^ 70 * ((t.payload.beats - 1) % 4) +
    2 ^ 80 * t.payload.mask + 2 ^ 96 * origin) ++ t.payload.stored
/-- Where an operand's record stands (R54). -/
def State.spillAt (s : State) (tk : Nat) (t : Tag) : Nat := s.spillFrame t.colour tk + 64 + 80 * t.place
/-- A spill access that met a fault: a page is waited for in FAULT state (R54); another fault ends the operand. -/
def State.spillFault (s : State) (tk i : Nat) (e : Entry) (code va : Nat) : State :=
  let c := e.token.tag.colour
  if code = codeNotMapped then
    (s.tilePage tk c va).setEntry tk i { e with state := .page c.toNat (va / 2 ^ 14), spilling := false, age := 0 }
  else
    let s := s.modTile tk fun t => { t with store := Map.del t.store i }
    ((s.tilePoison tk c code va).returnCredit tk e.token.credit c).faultRecord (ckOf tk) c 0x10 code va e.token.tag.toWord
/-- A step of a spill: `k` goes on where the access was made; a fault ends or holds the operand (R54), and nothing is done while a line
is not free. -/
def State.spillStep {α : Type} (s : State) (tk i : Nat) (e : Entry) (m : Mem α) (k : State → α → State) : State :=
  match m with
  | .busy => s
  | .page s va => s.spillFault tk i e codeNotMapped va
  | .fault s c va => s.spillFault tk i e c va
  | .done s v => k s v
/-- Whether the directory of a tile has no place for an operand (R56): sixteen are there or on their way there, or one of the same
slot and port is on its way. That spills without their acknowledgement count so is a DESIGN CHOICE (log 116). -/
def Tile.spillFull (t : Tile) (i : Nat) (tag : Tag) : Bool :=
  (t.store.any fun y => y.1 != i && y.2.spilling && y.2.token.tag.colour = tag.colour && y.2.token.tag.place = tag.place) ||
    decide (16 ≤ t.spills.length + (t.store.filter fun y => y.2.spilling).length)
/-- What a colour's policy does to an entry (R52, R56; 16_scheduling.md R316): it is purged with `status`, or its spill
begins with the write of its record at TILE scope (R54); a spill is refused where the directory is full, the presence bit of its
place is set, or the credit is another cluster's. -/
def State.actOn (s : State) (tk i : Nat) (e : Entry) (status : Nat) : State :=
  let tag := e.token.tag
  let t := s.tile tk
  let x := s.colour tag.colour
  if !x.spill || x.spillBase.isNone then s.purgeEntry tk i e status
  else
    let foreign := match e.token.credit with | some c => c.ck != ckOf tk | none => false
    if foreign || t.spillFull i tag then s.purgeEntry tk i e 0x02
    else s.spillStep tk i e (s.present tk tag) fun s set =>
      if set then s.purgeEntry tk i e 0x02
      else s.spillStep tk i e (s.tileWrite tk tag.colour (s.spillAt tk tag) e.token.spillRecord e.token.poison 3) fun s _ =>
        s.setEntry tk i { e with spilling := true }
/-- Marks that a tile has acted on an entry in this cycle (R50). -/
def State.acted (s : State) (tk : Nat) : State :=
  s.modTile tk fun t => { t with lastFired := t.lastFired.setIfInBounds 4 (s.cycles + 1) }
/-- STALL_AGE_EXPIRY (R50): the lowest entry of a tile whose age has reached its colour's limit is acted on. -/
def execStallAgeExpiry (tk : Nat) (s : State) : Result' :=
  let t := s.tile tk
  if t.lastFired.getD 4 0 = s.cycles + 1 then .next s
  else
    match t.store.find? fun e =>
        e.2.state = .wait && !e.2.spilling && (s.colour e.2.token.tag.colour).age != 0 &&
          (s.colour e.2.token.tag.colour).age ≤ e.2.age with
    | none => .next s
    | some (i, e) => .next ((s.acted tk).actOn tk i e 0x01)

/-- Whether a partner of an operand has come: another operand of its tag at its slot (R56). -/
def Tile.hasPartner (t : Tile) (i : Nat) (e : Entry) : Bool :=
  t.store.any fun y => y.1 != i && y.2.token.tag.slot = e.token.tag.slot && y.2.token.tag.same e.token.tag
/-- SPILL_ACK (R56): the write of the k-th spilling entry's record is acknowledged; the presence bit is set, the directory entry made
and the entry freed. Where a partner has come first, the record is abandoned and the entry stays. -/
def execSpillAck (tk k : Nat) (s : State) : Result' :=
  match ((s.tile tk).store.filter fun e => e.2.spilling)[k]? with
  | none => .next s
  | some (i, e) =>
    if (s.tile tk).hasPartner i e then .next (s.setEntry tk i { e with spilling := false })
    else .next (s.spillStep tk i e (s.presence tk e.token.tag true) fun s _ =>
      s.modTile tk fun x => { x with store := Map.del x.store i, spills := x.spills ++ [⟨e.token, false⟩] })
/-- A payload as a spill record gives it back (R57, R88), or nothing where the digit check fails. -/
def readPayload (p : Payload) (bs : List Byte) : Option Payload :=
  match p with
  | .wide v => some (.wide ⟨BitVec.ofNat 512 (bytesNat bs), v.mask⟩)
  | .narrow n _ _ =>
    match Num.readBeats ((List.range p.beats).map fun i => bytesNat ((bs.drop (4 * i)).take 4)) n with
    | some d => some (.narrow n (Num.digitsValue d) (.exact d))
    | none => none
  | x => some x
/-- SPILL_READBACK (R57): the k-th operand whose partner has arrived is read back and re-enters; one whose digits are
invalid is purged with fault DIGIT (R88). It waits for its plane, for room and for a page. -/
def execSpillReadback (tk k : Nat) (s : State) : Result' :=
  match ((s.tile tk).spills.filter fun x => x.reading)[k]? with
  | none => .next s
  | some x =>
    let t := x.token
    let ck := ckOf tk
    let c := t.tag.colour
    let here : Bool := match s.launch? ck t.tag.ctx.toNat with
      | some l => l.plane = (s.tile tk).plane.toNat && !s.isFrozen l.world
      | none => false
    match (s.tile tk).freeEntry, s.colourRoom tk c && here with
    | some i, true =>
      match s.tileRead tk c (s.spillAt tk t.tag) 80 3 with
      | .busy => .next s
      | .page s va => .next (s.tilePage tk c va)
      | .fault s code va =>
        let s := s.modTile tk fun y => { y with spills := y.spills.erase x }
        .next (((s.tilePoison tk c code va).returnCredit tk t.credit c).faultRecord ck c 0x10 code va t.tag.toWord)
      | .done s (bs, bad) =>
        let s := (s.presence tk t.tag false).stateOr s
        let s := s.modTile tk fun y => { y with spills := y.spills.erase x }
        match readPayload t.payload (bs.drop 16) with
        | none => .next (s.purge tk t 0x05 0x03)
        | some p => .next (s.fillWhole tk i { t with payload := p, poison := t.poison || bad })
    | _, _ => .next s

/-- A 32-bit saturating count. -/
def satInc (x : BitVec 32) : BitVec 32 := if x = 0xFFFFFFFF then x else x + 1
/-- Whether a port refuses a colour for its quota: `Admit` fails while as many of its tokens are in flight (R47). -/
def State.quotaFull (s : State) (ck : Nat) (b : Binding) : Bool :=
  let e := (s.launch? ck b.ctx).bind fun (l : Launch) => l.ports[b.gport]?.bind fun g => g.table.bind fun i => Map.get? (s.cluster ck).ports i
  e.any fun e => decide (Map.get e.quota b.colour.toNat 32 ≤ Map.get e.inFlight b.colour.toNat 0)
/-- Whether an operand stands in FAULT state (R38); one of an `ldg`, once its group agent waits for a page (12_ops_memory.md R242). -/
def State.inFault (s : State) (tk : Nat) (e : Entry) : Bool :=
  match e.state with
  | .wait => false
  | .group id => (s.cluster (ckOf tk)).asks.any fun a => a.tk = tk && a.access = id && a.waitPage.isSome
  | _ => true
/-- The exit ports that a slot drives. -/
def State.drivenExits (s : State) (tk key : Nat) : List Nat :=
  match s.slotOp tk (key / 64) (key % 64), ((s.tile tk).slot key).ctx with
  | some (_, f), some ctx => (OpTable.dests f).filterMap fun d => s.exitAt (ckOf tk) ctx (tiOf tk) d.2
  | _, _ => []
/-- Whether a slot drives an entry port of another graph that refuses its colour (R45): a token of a colour that the slot holds waits
there for its quota. -/
def State.quotaWait (s : State) (tk key : Nat) (here : List Entry) : Bool :=
  let ctx := (((s.tile tk).slot key).ctx).getD 2048
  (s.drivenExits tk key).any fun p => (s.cluster (ckOf tk)).bindings.any fun b =>
    match b.kind with
    | .link sc sp => decide (sc = ctx) && b.ready != [] && s.quotaFull (ckOf tk) b && (here.any fun e => e.token.tag.colour = b.colour) &&
        (s.launch? (ckOf tk) ctx).any fun l => decide (l.ports.findIdx? (fun g => g.isExit && g.phys = p) = some sp)
    | _ => false
/-- The cause that a slot's stall counts (R45), in its order, or nothing where the slot holds no operand. A handle access that waits
for a page of its object counts nothing at its slot (12_ops_memory.md R243). -/
def State.stallCause (s : State) (tk key : Nat) : Option Nat :=
  let t := s.tile tk
  let here := ((t.store.filter fun e => e.2.token.tag.slot.toNat = key % 64 && (t.slot key).ctx = some e.2.token.tag.ctx.toNat)).map (·.2)
  let mine := t.accesses.filter fun a => a.slot = key % 64 && a.plane = key / 64
  let faulted := here.any (s.inFault tk) || mine.any fun a => !a.isHandle && match a.phase with | .page _ _ => true | _ => false
  let waits := mine.any fun a => a.opc = 0x021 && a.phase = .answered
  let ready := match s.slotOp tk (key / 64) (key % 64) with
    | none => false
    | some (opc, f) =>
      let q : Site := ⟨tk, key / 64, key % 64, opc, f⟩
      (s.matches' q).any fun m => m.eos || !(0x180 ≤ opc && opc ≤ 0x185) || s.bufferOk q
  if here = [] ∧ !faulted ∧ !waits then none
  else if key / 64 != t.plane.toNat then some 1
  else if faulted then some 2
  else if s.quotaWait tk key here then some 3
  else if ready || waits then some 4
  else some 5
/-- Whether a slot could still start a firing in this cycle. -/
def State.slotStarts (s : State) (tk key : Nat) : Bool :=
  key / 64 = (s.tile tk).plane.toNat &&
    match s.slotOp tk (key / 64) (key % 64) with
    | none => false
    | some (opc, f) =>
      let q : Site := ⟨tk, key / 64, key % 64, opc, f⟩
      (s.best q).any (s.canStart q)
/-- The counters of a slot with one of them raised (R45). -/
def Slot.stalled (x : Slot) (c now : Nat) : Slot :=
  { x with
    countedAt := now + 1
    waitPlane := if c = 1 then satInc x.waitPlane else x.waitPlane
    waitFault := if c = 2 then satInc x.waitFault else x.waitFault
    waitQuota := if c = 3 then satInc x.waitQuota else x.waitQuota
    waitOutput := if c = 4 then satInc x.waitOutput else x.waitOutput
    waitOperand := if c = 5 then satInc x.waitOperand else x.waitOperand }
/-- A tile's aggregate counters with the one raised that a STALL field selects (03_formats.md R60). -/
def Tile.stalled (t : Tile) (sel : Nat) : Tile :=
  { t with
    stall1 := if sel = 1 then satInc t.stall1 else t.stall1
    stall2 := if sel = 2 then satInc t.stall2 else t.stall2
    stall3 := if sel = 3 then satInc t.stall3 else t.stall3 }
/-- STALL_COUNT (R45, 03_formats.md R60): in a cycle in which the slot does not fire, one counter of the slot grows, once, and the
aggregate counter that its word's STALL field selects. -/
def execStallCount (tk slot : Nat) (s : State) : Result' :=
  let x := (s.tile tk).slot slot
  if x.countedAt = s.cycles + 1 ∨ x.firedAt = s.cycles + 1 ∨ s.slotStarts tk slot ∨ s.isFrozen ((s.planeWorld tk (slot / 64)).getD 0) then .next s
  else
    match s.stallCause tk slot with
    | none => .next s
    | some c =>
      let sel := match s.slotOp tk (slot / 64) (slot % 64) with | some (_, f) => f.flags.stall.toNat | none => 0
      .next (s.modTile tk fun t => (t.modSlot slot fun x => x.stalled c s.cycles).stalled sel)

/-- FLIT_PROMOTION (07_network.md R146): the k-th flit of a cluster is the head of a buffer of VC0 or VC1 and its age has reached
PROMO; from now on it competes at level 2 of R145. -/
def execFlitPromotion (ck k : Nat) (s : State) : Result' :=
  match (s.cluster ck).flits[k]? with
  | none => .next s
  | some f =>
    if (s.cluster ck).promotes k f then .next (s.modCluster ck fun x => { x with flits := x.flits.set k { f with promoted := true } })
    else .next s

end Sys2Proof.Machine
end

