-- ==== Sys2Proof/Machine/Streams.lean ====
section
/-!
DEFINITION. Streams (14_control_core.md R288 to R292; 16_scheduling.md R314 to R317; 06_slices.md R130 to R132):
bindings, the dispatcher that reads and admits their elements (02_tokens.md R46, R47), exit ports (R49) with their reorder
units (12_ops_memory.md R249, R250), and the barriers `sbar` and `scond`.
-/
namespace Sys2Proof.Machine

/-- What a stream specification, push descriptor or link specification says of the pattern (R289, R130). -/
structure StreamSpec where
  gport : Nat
  colour : Colour
  elem : Nat
  ordered : Bool
  base : Nat
  stride1 : Int
  stride2 : Int
  count0 : Nat
  count1 : Nat
  count2 : Nat
  deriving DecidableEq, Repr

/-- A signed 32-bit field. -/
def signedField (d hi lo : Nat) : Int := (BitVec.ofNat 32 (bits d hi lo)).toInt
/-- Bytes of an element of a kind ELEM (R289). -/
def elemBytes (elem : Nat) : Nat := if elem = 0 then 64 else 4 * 2 ^ (elem - 1)
/-- The fields that the three descriptors share. -/
def StreamSpec.of (d : Nat) : StreamSpec :=
  ⟨bits d 206 201, colourOf (bits d 200 192), bits d 209 208, bits d 210 210 = 1, bits d 46 0, signedField d 159 128,
    signedField d 191 160, bits d 83 64, bits d 103 84, bits d 123 104⟩
/-- The limits of the pattern: counts of 1 or more, and addresses in whole elements. -/
def StreamSpec.patternOk (p : StreamSpec) (n : Nat) : Bool :=
  p.count0 != 0 && p.count1 != 0 && p.count2 != 0 && p.base % n = 0 && p.stride1 % (n : Int) = 0 &&
    p.stride2 % (n : Int) = 0
/-- A stream specification with its reserved bits and limits kept (R289). -/
def streamSpecOk (d : Nat) : Bool :=
  bits d 511 211 = 0 && bits d 207 207 = 0 && bits d 127 124 = 0 && bits d 63 47 = 0 &&
    (StreamSpec.of d).patternOk (elemBytes (StreamSpec.of d).elem)
/-- A link specification with its reserved bits and zero fields kept (R289). -/
def linkSpecOk (d : Nat) : Bool :=
  bits d 511 210 = 0 && bits d 207 207 = 0 && bits d 191 64 = 0 && bits d 63 17 = 0
/-- A push descriptor that R132 does not refuse. -/
def pushSpecOk (d : Nat) : Bool :=
  bits d 511 212 = 0 && bits d 127 124 = 0 && bits d 63 47 = 0 && bits d 211 208 != 0 &&
    (StreamSpec.of d).patternOk 64 && decide ((bits d 207 206 < 2) = (bits d 205 201 < 16))
/-- The slice that a push descriptor of a cluster names (R130). -/
def pushSlice (ck d : Nat) : Nat :=
  let c := ck % 4
  let i := bits d 207 206
  64 * dieOf ck + 16 * (ck % 16 / 4) + (if i < 2 then 2 * c + i else 6 + 2 * c + i)

/-- The word of a launch at a slot of a tile. -/
def Launch.wordAt (l : Launch) (ti slot : Nat) : Option (Nat × OpFields) :=
  match l.words.find? fun w => w.ti = ti && w.slot = slot with
  | none => none
  | some w => match decodeFabric w.word.toNat with | .ok i => fabricOf i | .error _ => none
/-- The plane of the input that an entry port feeds (true: narrow), where its operator fixes one. -/
def Launch.entryPlane (l : Launch) (g : GraphPort) : Option Bool :=
  match l.wordAt g.ti g.slot with
  | none => none
  | some (opc, f) => OpTable.inputNarrow opc f.etype g.port
/-- Beats of a narrow element. -/
def elemBeats (elem : Nat) : Nat := 2 ^ (elem - 1)
/-- Whether ELEM fits a node's type: the beat count of a narrow element is that of a narrow ETYPE (R289). -/
def beatsFit (e : EType) (elem : Nat) : Bool := elem = 0 || e.isWide || e = .ord || e.beats = elemBeats elem
/-- Beats of the narrow token that an operator sends to its i-th destination, where they are fixed (10_ops_routing.md
R208, R209; 12_ops_memory.md R231): those of the ETYPE for the operators that keep it. -/
def resultBeats (opc : Nat) (f : OpFields) (i : Nat) : Option Nat :=
  if 0x048 ≤ opc ∧ opc ≤ 0x04B then some 1
  else if opc = 0x052 then (EType.ofCode f.sub.toNat).map (·.beats)
  else if opc = 0x168 ∧ i != 1 then some 4
  else if (0x140 ≤ opc ∧ opc ≤ 0x1A0) && !(0x142 ≤ opc ∧ opc ≤ 0x145) then some 1
  else if f.etype.isWide || f.etype = .ord then none
  else some f.etype.beats
/-- ELEM agrees with the plane of the port's node, and its beats with the node's ETYPE; at an exit port, with the token
sent to it (R289). -/
def Launch.elemFits (l : Launch) (g : GraphPort) (elem : Nat) : Bool :=
  if g.isExit then
    l.words.all fun w =>
      match decodeFabric w.word.toNat with
      | .error _ => true
      | .ok i =>
        match fabricOf i with
        | none => true
        | some (opc, f) => (OpTable.dests f).all fun d =>
          !(OpTable.exitForm d.2 && (destTile w.ti d.2).bind edgePort = some g.phys) ||
            (d.2.narrow = (elem != 0) && (elem = 0 || (resultBeats opc f d.1).all fun b => b = elemBeats elem))
  else
    match l.wordAt g.ti g.slot with
    | none => true
    | some (opc, f) =>
      (match OpTable.inputNarrow opc f.etype g.port with | none => true | some n => n = (elem != 0)) &&
        beatsFit f.etype elem

/-- Changes a binding of a cluster. -/
def State.modBinding (s : State) (ck id : Nat) (g : Binding → Binding) : State :=
  s.modCluster ck fun k => { k with bindings := k.bindings.map fun (b : Binding) => if b.id = id then g b else b }
/-- The EPOCH that a new binding's tokens carry (21_faults_preemption.md R380): the plane's at the node's tile, and its
flip where the port's marker has gone and the tile has still to save. -/
def State.bindingEpoch (s : State) (ck ctx : Nat) (l : Launch) (g : GraphPort) : Bool :=
  let t := s.tile (192 * ck + g.ti)
  let e := t.epochs.getLsbD l.plane
  if (s.snapshotOf ck ctx).isSome && !t.savedFor.contains ctx then !e else e
/-- Elements of a pattern. -/
def Binding.total (b : Binding) : Nat := b.count0 * b.count1 * b.count2
/-- The address of element n (R131, R290). -/
def Binding.addr (b : Binding) (n : Nat) : Int :=
  (b.base : Int) + elemBytes b.elem * (n % b.count0 : Nat) + b.stride1 * (n / b.count0 % b.count1 : Nat) +
    b.stride2 * (n / (b.count0 * b.count1) : Nat)
/-- An element's address as a number: one below zero lies outside the address space (05_main_memory.md R107). -/
def Binding.elemAt (b : Binding) (n : Nat) : Nat := if b.addr n < 0 then 2 ^ 47 else (b.addr n).toNat
/-- Whether an extent translates an address. -/
def Extent.covers (x : Extent) (va : Nat) : Bool :=
  match x.leaf with
  | some t => t.vpage = va / 2 ^ levelBits t.level
  | none => x.page = va / 2 ^ 14
/-- Whether two bindings share an address generator: those of one physical port (R315); a push generator has a binding of its own
(R130). -/
def Binding.sharesGenerator (a b : Binding) : Bool :=
  a.id = b.id || (a.phys = b.phys && a.kind = .memory && b.kind = .memory)
/-- Whether a binding's generator holds its 32 extents (05_main_memory.md R108). -/
def Cluster.extentsFull (k : Cluster) (b : Binding) : Bool :=
  decide (32 ≤ ((k.bindings.filter b.sharesGenerator).map fun x => x.extents.length).sum)
/-- A generator keeps an extent: where it holds 32, the binding's oldest makes room, and with none of its own nothing is kept
(log 117). -/
def State.keepExtent (s : State) (ck id : Nat) (e : Extent) : State :=
  s.modCluster ck fun k => { k with bindings := k.bindings.map fun b =>
    if b.id != id then b
    else if !(k.extentsFull b) then { b with extents := b.extents ++ [e] }
    else if b.extents = [] then b
    else { b with extents := b.extents.drop 1 ++ [e] } }
/-- The pages of row r of a pattern: its contiguous elements (R131). -/
def Binding.rowPages (b : Binding) (r : Nat) : List Nat :=
  let lo := b.addr (r * b.count0)
  let hi := lo + elemBytes b.elem * b.count0 - 1
  let first := (lo / 2 ^ 14).toNat
  ((List.range (hi.toNat / 2 ^ 14 + 1 - first)).map (first + ·)).filter fun p =>
    decide (0 ≤ hi) && decide (p < 2 ^ 33) && !inWindow (p * 2 ^ 14)
/-- The configuration loader translates the pages of some rows into extents, while the generator has room (05_main_memory.md
R112). -/
def State.translateRows (s : State) (ck : Nat) (b : Binding) (r : Nat) : Nat → State
  | 0 => s
  | n + 1 =>
    let s := (b.rowPages r).foldl (fun s p =>
      let here := (s.cluster ck).bindings.find? fun x => x.id = b.id
      if (here.any fun x => (s.cluster ck).extentsFull x || x.extents.any fun e => e.covers (p * 2 ^ 14)) then s
      else match s.extentOf ck b.colour (p * 2 ^ 14) with
        | (s, some e) => s.keepExtent ck b.id e
        | (s, none) => s) s
    if (s.cluster ck).extentsFull b then s else s.translateRows ck b (r + 1) n
/-- The translation of a new binding's pattern (R112); a link has none. -/
def State.translatePattern (s : State) (ck : Nat) (b : Binding) : State :=
  match b.kind with
  | .link _ _ => s
  | _ => s.translateRows ck b 0 (b.count1 * b.count2)
/-- The translation that a generator has of an address of its pattern, under the checks of 05_main_memory.md R107: by its extent, an
absent one giving NOT_MAPPED (R112); what no extent covers is translated now (log 117). -/
def State.xlateStream (s : State) (ck : Nat) (b : Binding) (va : Nat) (rd wr : Bool) : State × Except Nat Xlat :=
  let x := s.colour b.colour
  if x.poisoned then (s, .error codeColourPoisoned)
  else if va ≥ 2 ^ 47 then (s, .error codeVaRange)
  else if x.state != .live then (s, .error codeColourState)
  else
    let go := fun (s : State) (e : Extent) => match e.leaf with
      | some t => s.leafCheck b.colour t.level t.pte.toNat va rd wr
      | none => .error codeNotMapped
    match b.extents.find? fun e => e.covers va with
    | some e => (s, go s e)
    | none =>
      match s.extentOf ck b.colour va with
      | (s, some e) => (s.keepExtent ck b.id e, go s e)
      | (s, none) => s.xlateEngine ck b.colour va rd wr
/-- Makes a binding; one of a restored context begins at the element that its port's marker counted
(21_faults_preemption.md R381). An exit binding is active from now on (R315). -/
def State.addBinding (s : State) (ctx : Nat) (l : Launch) (g : GraphPort) (kind : BindingKind) (p : StreamSpec) :
    State :=
  let ck := s.actor.ck
  let (s, id) := s.newId
  let total := p.count0 * p.count1 * p.count2
  let start := match l.starts.find? fun e => e.1 = p.gport && e.2.1 = p.colour.toNat with
    | some e => if g.isExit then 0 else e.2.2
    | none => 0
  let past : Bool := (match kind with | .link _ _ => false | _ => true) && !g.isExit && decide (start > total)
  let stop := match s.snapshotOf ck ctx with | some n => n.stop && !g.isExit | none => false
  let b : Binding :=
    { id := id, kind := kind, ctx := ctx, colour := p.colour, gport := p.gport, phys := g.phys, isExit := g.isExit
      ordered := p.ordered, elem := p.elem, base := p.base, stride1 := p.stride1, stride2 := p.stride2
      count0 := p.count0, count1 := p.count1, count2 := p.count2, nextRead := start, nextAdmit := start, ready := []
      active := g.isExit, finished := past
      writes := 0, epoch := s.bindingEpoch ck ctx l g, stopped := false, halted := stop, waitPage := none, extents := [] }
  ((s.modCluster ck fun k => { k with bindings := k.bindings ++ [b] }).modLaunch ck ctx fun l =>
    { l with bound := true, colours := NatSet.insert l.colours p.colour.toNat }).translatePattern ck b
/-- Whether a colour is already bound at a port of a context, a link out of an exit port included (R288, R289). -/
def State.boundAt (s : State) (ck ctx gport : Nat) (colour : Colour) : Bool :=
  (s.cluster ck).bindings.any fun b =>
    b.colour = colour && ((b.ctx = ctx && b.gport = gport) ||
      (match b.kind with | .link sc sp => sc = ctx && sp = gport | _ => false))
/-- Whether a colour is LIVE and the acting context's world owns it. -/
def State.ownsColour (s : State) (c : Colour) : Bool :=
  (s.colour c).state = .live && (s.colour c).world = s.me.world

/-- A memory stream (R288, R289). -/
def State.bindMemory (s : State) (ctx : Nat) (l : Launch) (d : Nat) : State :=
  let p := StreamSpec.of d
  if !streamSpecOk d then s.report 0x01 0
  else
    match l.ports[p.gport]? with
    | none => s.report 0x03 0
    | some g =>
      if p.ordered && !g.isExit then s.report 0x01 0
      else if !l.elemFits g p.elem then s.report 0x03 0
      else if !s.ownsColour p.colour then s.report 0x0A 0
      else if s.boundAt s.actor.ck ctx p.gport p.colour then s.report 0x04 0
      else (s.addBinding ctx l g .memory p).report 0 0
/-- A link from an exit port of a source context (R289). -/
def State.bindLink (s : State) (ctx : Nat) (l : Launch) (d : Nat) : State :=
  let p := StreamSpec.of d
  let ck := s.actor.ck
  let sc := bits d 10 0
  let sp := bits d 16 11
  if !linkSpecOk d then s.report 0x01 0
  else if s.worldOfCtx ck sc != some l.world then s.report 0x02 0
  else
    match l.ports[p.gport]?, (s.launch? ck sc).bind fun (m : Launch) => m.ports[sp]? with
    | some g, some h =>
      if g.isExit || !h.isExit || !l.elemFits g p.elem then s.report 0x03 0
      else if !s.ownsColour p.colour then s.report 0x0A 0
      else if s.boundAt ck ctx p.gport p.colour || s.boundAt ck sc sp p.colour then s.report 0x04 0
      else (s.addBinding ctx l g (.link sc sp) p).report 0 0
    | _, _ => s.report 0x03 0
/-- A pushed stream (R130, R132): it takes a free generator of the slice. A colour that cannot be bound to the port has the status
that R288 gives it (log 119). -/
def State.bindPush (s : State) (ctx : Nat) (l : Launch) (d : Nat) : State :=
  let ck := s.actor.ck
  let sk := pushSlice ck d
  if !pushSpecOk d then s.report 0x05 0
  else
    match l.ports.findIdx? fun g => !g.isExit && g.phys = bits d 205 201 with
    | none => s.report 0x03 0
    | some i =>
      match l.ports[i]? with
      | none => s.report 0x03 0
      | some g =>
        let p : StreamSpec := { StreamSpec.of d with gport := i, elem := 0, ordered := false }
        if !l.elemFits g 0 then s.report 0x03 0
        else if !s.ownsColour p.colour then s.report 0x0A 0
        else if s.boundAt ck ctx i p.colour then s.report 0x04 0
        else if (s.slice sk).pushes.length ≥ 8 then s.report 0x06 0
        else
          let id := s.nextId
          ((s.addBinding ctx l g (.push sk (bits d 211 208)) p).modSlice sk fun x =>
            { x with pushes := x.pushes ++ [⟨ck, id⟩] }).report 0 0
/-- `sspec` (R288). -/
def execSspec (xa : Reg) (imm : BitVec 32) (s : State) : Result' :=
  let i := imm.toNat
  let ctx := i % 2048
  let kind := bits i 12 11
  if bits i 31 13 != 0 || kind = 3 then .next (s.report 0x01 0)
  else if s.worldOfCtx s.actor.ck ctx != some s.me.world then .next (s.report 0x02 0)
  else
    .next ((s.coreRead (s.reg xa).toNat 64).finish s fun t bs =>
      match t.launch? t.actor.ck ctx with
      | none => t.report 0x02 0
      | some l =>
        let d := bytesNat bs
        if kind = 0 then t.bindMemory ctx l d else if kind = 1 then t.bindPush ctx l d else t.bindLink ctx l d)

/-- Ids of the bindings of a context that have not finished. -/
def State.unfinished (s : State) (ck ctx : Nat) : List Nat :=
  (((s.cluster ck).bindings.filter fun b => b.ctx = ctx).map (·.id)).filter fun i => !s.bindingDone ck i
/-- `sbar` (R291): the context waits for the streams that are bound now. -/
def execSbar (imm : BitVec 32) (s : State) : Result' :=
  let ctx := imm.toNat % 2048
  if imm.toNat ≥ 2048 then .next (s.report 0x01 0)
  else if s.worldOfCtx s.actor.ck ctx != some s.me.world then .next (s.report 0x02 0)
  else .next (s.parkMe (.streams (s.unfinished s.actor.ck ctx)))
/-- SBAR_RETIRE (R291, R317): the streams have finished, so the context acquires at PKG and moves on. -/
def execSbarRetire (ck ctx : Nat) (s : State) : Result' :=
  let t := s.act ck ctx
  match t.me.park with
  | .streams ids =>
    if ids.all (fun i => s.bindingDone ck i) then .next ((t.acquireMe scopePkg).report 0 0)
    else .next s
  | _ => .next s

/-- `scond` (R292): the context waits as under `sbar`. The scope places its read in the memory order and moves nothing
(R283, 17_memory_model.md). -/
def execScond (xa : Reg) (imm : BitVec 32) (_sc : Option Scope) (s : State) : Result' :=
  let ck := s.actor.ck
  let w := imm.toNat % 2048
  let l := bits imm.toNat 21 11
  let mine := fun (c : Nat) => s.worldOfCtx ck c = some s.me.world
  if imm.toNat ≥ 2 ^ 22 then .next (s.report 0x01 0)
  else if !mine w || !mine l then .next (s.report 0x02 0)
  else if w = l then .next (s.report 0x01 0)
  else if (s.launch? ck l).any fun x => x.state != .held then .next (s.report 0x13 0)
  else .next (s.parkMe (.cond l (s.reg xa) (s.unfinished ck w)))
/-- SCOND_RETIRE (R292, R317): the acquire, the second test of LCTX, and the one read of the word; a missing page is
waited for at this instant. -/
def execScondRetire (ck ctx : Nat) (s : State) : Result' :=
  let t := s.act ck ctx
  match t.me.park with
  | .cond l a ids =>
    if !ids.all (fun i => s.bindingDone ck i) then .next s
    else
      let t := t.acquireMe scopePkg
      match t.launch? ck l with
      | none => .next (t.report 0x13 0)
      | some x =>
        if x.state != .held || x.world != t.me.world then .next (t.report 0x13 0)
        else
          match t.coreRead a.toNat 8 with
          | .busy => .next s
          | .page t va => .next (t.raisePage (dieOf ck) t.me.colour va)
          | .fault t k va => .next (t.memTrap k va)
          | .done t bs =>
            if bytesNat bs != 0 then .next ((t.modLaunch ck l fun x => { x with state := .running }).report 0 1)
            else .next ((t.cancelLaunch ck l).report 0 0)
  | _ => .next s

/-- BINDING_ACTIVATE (R315): the port of the k-th binding falls free, and its stream starts. -/
def execBindingActivate (ck k : Nat) (s : State) : Result' :=
  let c := s.cluster ck
  match c.bindings[k]? with
  | none => .next s
  | some b =>
    match s.launch? ck b.ctx with
    | none => .next s
    | some l =>
      let word : Bool := match l.ports[b.gport]? with
        | some g => ((s.tile (192 * ck + g.ti)).slot (64 * l.plane + g.slot)).ctx = some b.ctx
        | none => false
      let open' := l.state = .running || (l.state = .splicing && word)
      let here := c.bindings.filter fun x => x.phys = b.phys && !x.isExit
      let earlier := (c.bindings.take k).any fun x =>
        x.phys = b.phys && x.isExit = b.isExit && x.colour = b.colour && !s.bindingDone ck x.id
      if b.isExit || b.active || b.finished || !open' || earlier || (here.filter (·.active)).length ≥ 16 ||
          s.isFrozen l.world then .next s
      else
        let epoch : Bool := match l.ports[b.gport]? with
          | some g => s.bindingEpoch ck b.ctx l g
          | none => b.epoch
        .next (s.modBinding ck b.id fun b => { b with active := true, epoch := epoch })

/-- Digits of a narrow element: those of the node's ETYPE where it has the element's beats, else eight a beat (R87, R88;
log 5). -/
def Launch.elemDigits (l : Launch) (b : Binding) : Nat :=
  match l.ports[b.gport]? with
  | none => beatDigits (elemBeats b.elem)
  | some g =>
    match l.wordAt g.ti g.slot with
    | none => beatDigits (elemBeats b.elem)
    | some (_, f) =>
      if f.etype.isWide || f.etype = .ord || f.etype.beats != elemBeats b.elem then beatDigits (elemBeats b.elem)
      else f.etype.digits
/-- A token that a stream has read, before its port stamps colour and context. -/
def streamToken (n : Nat) (p : Payload) (poison : Bool) : Token :=
  ⟨⟨0, 0, 0, 0, 0, BitVec.ofNat 32 n⟩, p, none, poison, false⟩
/-- EOS at level 0 (R290, R314). -/
def streamEos : Token := streamToken 0 (.eos 0) false
/-- Where a binding's reads set out: at the slice of a push generator (R130), or at the cluster. -/
def Binding.reader (b : Binding) (ck sk : Nat) : NetGoal :=
  match b.kind with | .push g _ => sliceStop g | _ => engineStop ck sk
/-- Reads bytes for a binding by its extents, in memory or in the cluster's scratchpads. -/
def State.streamRead (s : State) (ck : Nat) (b : Binding) (a n : Nat) : Mem (List Byte × Bool) :=
  if inWindow a then
    match s.spCheck ck b.colour (a % 2 ^ 24) n with
    | .error k => .fault s k a
    | .ok (tk, off) => .done s ((s.tile tk).spRead off n)
  else
    match s.xlateStream ck b a true false with
    | (s, .error k) => if k = codeNotMapped then .page s a else .fault s k a
    | (s, .ok x) => s.readAt (b.reader ck x.sk) b.colour a n x
/-- A fault that stops a stream or generator (R132): one FAULT record, and EOS after what has been read. -/
def State.stopStream (s : State) (ck : Nat) (b : Binding) (code va : Nat) : State :=
  let c := b.colour
  ((s.poisonDue (dieOf ck) c code va).faultRecord ck c 0x12 code va 0).modBinding ck b.id fun b =>
    { b with stopped := true, nextRead := max b.nextRead b.total }
/-- A binding waits for a page. -/
def State.streamPage (s : State) (ck : Nat) (b : Binding) (va : Nat) : State :=
  (s.raisePage (dieOf ck) b.colour va).modBinding ck b.id fun b => { b with waitPage := some (va / 2 ^ 14) }
/-- An element read for a binding: its token, or the discard of R88 where a narrow element's digits are invalid. The tag of that
record names no slot or port, since the token has not been admitted (DESIGN CHOICE, log 118). -/
def State.takeElement (s : State) (ck : Nat) (l : Launch) (b : Binding) (bs : List Byte) (poison : Bool) : State :=
  let next := fun (t : List Token) => fun (s : State) =>
    s.modBinding ck b.id fun b => { b with ready := b.ready ++ t, nextRead := b.nextRead + 1 }
  if b.elem = 0 then
    next [streamToken b.nextRead (.wide ⟨BitVec.ofNat 512 (bytesNat bs), Lanes.full⟩) poison] s
  else
    let n := elemBeats b.elem
    match Num.readBeats ((List.range n).map fun i => bytesNat ((bs.drop (4 * i)).take 4)) (l.elemDigits b) with
    | some d => next [streamToken b.nextRead (.narrow d.length (Num.digitsValue d) (.exact d)) poison] s
    | none =>
      let tag : Tag := ⟨b.colour, BitVec.ofNat 11 b.ctx, 0, 0, 0, BitVec.ofNat 32 b.nextRead &&& iterMask l.levels⟩
      next [] (s.faultRecord ck b.colour 0x11 0x03 0 tag.toWord)
/-- Appends the EOS of a stream after its last element (R290). -/
def State.endElements (s : State) (ck : Nat) (b : Binding) : State :=
  s.modBinding ck b.id fun b => { b with ready := b.ready ++ [streamEos], nextRead := b.nextRead + 1 }
/-- Reads the next element of a binding, or appends its EOS after the last. -/
def State.readElement (s : State) (ck : Nat) (l : Launch) (b : Binding) : State :=
  if b.nextRead = b.total then s.endElements ck b
  else if b.nextRead > b.total || b.waitPage.isSome then s
  else
    match s.streamRead ck b (b.elemAt b.nextRead) (elemBytes b.elem) with
    | .busy => s
    | .page s va => s.streamPage ck b va
    | .fault s k va => s.stopStream ck b k va
    | .done s (bs, p) => s.takeElement ck l b bs p

/-- Bytes of a token as an exit stream writes them, by offset in the element (R290, R86). -/
def exitBytes (p : Payload) : List (Nat × Byte) :=
  match p with
  | .wide v => activeBytes 0 v
  | .narrow n v form => pairsAt 0 (narrowBytes n v form)
  | _ => []
/-- Writes the oldest token that waits at an exit binding: a store at the page's scope, counted among the launch's
acknowledgements (R290). A page of device register space gives PERM (log 104). -/
def State.flushOne (s : State) (ck : Nat) (b : Binding) : State :=
  match b.ready with
  | [] => s
  | t :: rest =>
    let c := b.colour
    let drop := fun (s : State) => s.modBinding ck b.id fun b => { b with ready := rest }
    let a := b.elemAt t.tag.iter.toNat
    let ps := (exitBytes t.payload).filter fun q => q.1 < elemBytes b.elem
    if b.stopped then drop s
    else if inWindow a then
      match s.spCheck ck c (a % 2 ^ 24) (elemBytes b.elem) with
      | .error k => drop (s.stopStream ck b k a)
      | .ok (tk, off) => drop (s.modTile tk fun x => x.spWrite (ps.map fun q => (off + q.1, q.2)) t.poison)
    else
      match s.xlateStream ck b a false true with
      | (s, .error k) => if k = codeNotMapped then s.streamPage ck b a else drop (s.stopStream ck b k a)
      | (s, .ok x) =>
        let off := x.pa % 256
        if x.device then drop (s.stopStream ck b codePerm a)
        else if ps = [] then drop s
        else
          ((drop s).post { src := .stream ck b.id, sk := x.sk, pa := x.pa, off := off, colour := c, key := x.key
                           world := (s.colour c).world, kind := .write (ps.map fun q => (off + q.1, q.2)) t.poison, pts := 0
                           scope := x.scope, answer := none, ack := some (ck, b.ctx), stamp := 0
                           va := some a }).modBinding ck b.id fun b => { b with writes := b.writes + 1 }
/-- Writes what waits at an exit binding, in order of arrival, until one must wait for a page. -/
def State.flushExit (s : State) (ck id : Nat) : Nat → State
  | 0 => s
  | fuel + 1 =>
    match (s.cluster ck).bindings.find? fun b => b.id = id with
    | none => s
    | some b =>
      if b.waitPage.isSome || b.ready = [] then s else (s.flushOne ck b).flushExit ck id fuel

/-- The gather card that sends its indices through a vector port, or writes what leaves at one (09_block_transfer.md
R183). -/
def Cluster.fabricCard (k : Cluster) (phys : Nat) (colour : Colour) (exit : Bool) : Option Card :=
  k.cards.find? fun c =>
    (match c.state with | .fabric _ _ _ => true | _ => false) && c.colour = colour &&
      phys = 32 + (if exit then c.rport else c.cport)
/-- Changes a card. -/
def State.modCard (s : State) (ck id : Nat) (g : Card → Card) : State :=
  s.modCluster ck fun k => { k with cards := k.cards.map fun (c : Card) => if c.id = id then g c else c }
/-- A card ends with a status and fault code (R187); a gather through the fabric has written the rows that have arrived. -/
def Card.ends (c : Card) (status fault : Nat) : Card :=
  { c with
    state := .done, status := worse c.status status, fault := fault
    bytes := match c.state with | .fabric _ got _ => min got c.count | _ => c.bytes }
/-- A fault that stops a card (R177). -/
def State.stopCard (s : State) (ck : Nat) (c : Card) (code va : Nat) : State :=
  (s.poisonDue (dieOf ck) c.colour code va).modCard ck c.id fun x => x.ends 0x04 code
/-- A gather card reads its next index and sends it to its entry port: an index out of range goes as -1, and after the
last comes EOS (R183). The index token carries the canonical digit string (log 5). -/
def State.readIndex (s : State) (ck : Nat) (b : Binding) (c : Card) : State :=
  match c.state with
  | .fabric sent got eos =>
    let put := fun (s : State) (t : Token) (status : Nat) =>
      (s.modBinding ck b.id fun b => { b with ready := b.ready ++ [t] }).modCard ck c.id fun c =>
        { c with state := .fabric (sent + 1) got eos, status := worse c.status status }
    if sent > c.rows || b.waitPage.isSome then s
    else if sent = c.rows then put s streamEos 0
    else
      match s.cardRead ck c.colour c.rd1.window (c.rd1.base + c.indexBytes * sent) c.indexBytes 3 with
      | .busy => s
      | .page s va => s.streamPage ck b va
      | .fault s k va => s.stopCard ck c k va
      | .done s (bs, p) =>
        let i := bytesNat bs
        let bad := decide ((i + 1) * c.rowb > c.rd0.len)
        put s (streamToken sent (.narrow (if c.iw then 32 else 16) (if bad then -1 else
          (BitVec.ofNat (8 * c.indexBytes) i).toInt) .canonical) p) (worse (if bad then 0x05 else 0) (if p then 0x06 else 0))
  | _ => s

/-- STREAM_ELEMENT_READ (R290): the k-th binding of a cluster reads its next element; a gather card's entry port gets the
card's next index; an exit stream writes what waits (R290). -/
def execStreamElementRead (ck k : Nat) (s : State) : Result' :=
  let c := s.cluster ck
  match c.bindings[k]? with
  | none => .next s
  | some b =>
    match s.launch? ck b.ctx with
    | none => .next s
    | some l =>
      if s.isFrozen l.world then .next s
      else if b.isExit then .next (s.flushExit ck b.id (b.ready.length + 1))
      else if !b.active then .next s
      else
        match c.fabricCard b.phys b.colour false, b.kind with
        | some d, _ => .next (s.readIndex ck b d)
        | none, .memory => .next (s.readElement ck l b)
        | none, _ => .next s

/-- Lines that a generator has read and not yet delivered: runs of elements in one line (R131). -/
def Binding.linesHeld (b : Binding) : Nat :=
  let line := fun (n : Nat) => b.addr n / 256
  ((List.range (b.nextRead - b.nextAdmit)).filter fun i =>
    i = 0 || line (b.nextAdmit + i) != line (b.nextAdmit + i - 1)).length
/-- The elements from n on that follow each other in one line (R131). -/
def Binding.run (b : Binding) (line : Int) (n : Nat) : Nat → List Nat
  | 0 => []
  | fuel + 1 => if b.addr n / 256 = line then n :: b.run line (n + 1) fuel else []
/-- The elements of a line that has been read once (R131), each with the poison of its unit. -/
def State.takeLine (s : State) (ck : Nat) (b : Binding) (bs : List Byte) (bad : Nat → Bool) : State :=
  let ns := b.run (b.addr b.nextRead / 256) b.nextRead (b.total - b.nextRead)
  let token := fun (n : Nat) =>
    let off := b.elemAt n % 256
    streamToken n (.wide ⟨BitVec.ofNat 512 (bytesNat ((bs.drop off).take 64)), Lanes.full⟩) (bad (off / 64))
  s.modBinding ck b.id fun b => { b with ready := b.ready ++ ns.map token, nextRead := b.nextRead + ns.length }
/-- Reads the line of the next element of a push generator, at its ordering point, with no lease (R131). -/
def State.readLine (s : State) (ck : Nat) (b : Binding) : State :=
  let a := b.elemAt b.nextRead
  if b.waitPage.isSome then s
  else
    match s.xlateStream ck b a true false with
    | (s, .error k) => if k = codeNotMapped then s.streamPage ck b a else s.stopStream ck b k a
    | (s, .ok x) =>
      if x.device then s.stopStream ck b codePerm a
      else if (s.slice x.sk).waits x.pa || s.cutFrom (b.reader ck x.sk) x.sk then s
      else
        let w := (s.colour b.colour).world
        let (s, d, p) := s.plainRead x.sk x.pa x.key w
        (s.countFrom (b.reader ck x.sk) x.sk 0 4 b.colour w).takeLine ck b (lineBytes d 0 256) p.getLsbD
/-- PUSH_LINE_READ (R131, R132): the k-th generator of a slice reads its next line, or ends its stream. -/
def execPushLineRead (sk k : Nat) (s : State) : Result' :=
  match (s.slice sk).pushes[k]? with
  | none => .next s
  | some g =>
    match (s.cluster g.ck).bindings.find? fun b => b.id = g.binding with
    | none => .next s
    | some b =>
      match s.launch? g.ck b.ctx, b.kind with
      | some l, .push _ window =>
        if !b.active || s.isFrozen l.world then .next s
        else if b.nextRead = b.total then .next (s.endElements g.ck b)
        else if b.nextRead > b.total || b.linesHeld ≥ window then .next s
        else .next (s.readLine g.ck b)
      | _, _ => .next s

/-- Whether an entry binding's oldest token may be admitted now (R46, R47, R315): its port has credit for the colour, and
the node's tile grants a reservation (R39). A token of a colour that is not LIVE is offered, and refused. -/
def State.admits (s : State) (ck : Nat) (b : Binding) : Bool :=
  match s.launch? ck b.ctx with
  | none => false
  | some l =>
    match l.ports[b.gport]? with
    | none => false
    | some g =>
      b.active && !b.isExit && !b.halted && b.ready != [] && !s.scanning ck && !s.halted l.world &&
        ((s.colour b.colour).state != .live || (!s.quotaFull ck b && s.grants (192 * ck + g.ti) b.colour b.ctx))
/-- The binding that a physical port serves in this cycle (R315): the first that may, in an order that rotates. -/
def State.portTurn (s : State) (ck phys : Nat) : Option Binding :=
  let k := s.cluster ck
  let (last, cycle) := Map.get k.lastAdmitted phys (0, 0)
  if cycle = s.cycles + 1 then none
  else
    let xs := k.bindings.filter fun b => b.phys = phys && s.admits ck b
    match xs.find? fun b => b.id > last with
    | some b => some b
    | none => xs.head?
/-- A prefetch notice for every die, where the context admits its first token of the colour (19_objects.md R362). -/
def State.notePrefetch (s : State) (ck ctx : Nat) (c : Colour) : State :=
  match s.launch? ck ctx with
  | none => s
  | some l =>
    if l.admitted.contains c.toNat then s
    else
      let s := { s with prefetches := s.prefetches ++ (List.range 4).map fun d => (d, c) }
      s.modLaunch ck ctx fun l => { l with admitted := NatSet.insert l.admitted c.toNat }
/-- The tag that a port gives a token (R46, R314): a stream's ITER in the declared levels (01_notation.md R20; log 106), a link's as it
was. -/
def Launch.admitTag (l : Launch) (b : Binding) (g : GraphPort) (t : Token) : Tag :=
  let iter := match b.kind with | .link _ _ => t.tag.iter | _ => t.tag.iter &&& iterMask l.levels
  ⟨b.colour, BitVec.ofNat 11 b.ctx, BitVec.ofNat 6 g.slot, portCode g.port, t.tag.level, iter⟩
/-- One more token of a colour is in flight from a port (R47). -/
def Cluster.admitCount (k : Cluster) (g : GraphPort) (c : Nat) : Cluster :=
  match g.table.bind fun i => (Map.get? k.ports i).map fun e => (i, e) with
  | none => k
  | some (i, e) => { k with ports := Map.put k.ports i { e with inFlight := Map.put e.inFlight c (Map.get e.inFlight c 0 + 1) } }
/-- A token leaves an entry port for its node (07_network.md R142), beat after beat; the entry there is reserved. -/
def State.enterPort (s : State) (ck plane : Nat) (g : GraphPort) (narrow : Bool) (t : Token) : State :=
  let (s, id) := (s.hold (192 * ck + g.ti) ⟨t.tag.colour, t.tag.ctx, g.slot, plane⟩).newId
  let edge : Edge := ⟨192 + g.phys, 0, 0⟩
  (List.range t.payload.beats).foldl (fun s b => s.inject ck (.port g.phys) (g.ti, 4) narrow 1 (.token edge plane id b t)) s
/-- ADMISSION of a binding's oldest token (R46, R47): colour and context are stamped, the port is the origin credit, and
the token sets out for its node. A token of a colour that is not LIVE is refused (05_main_memory.md R113). -/
def State.admitNext (s : State) (ck : Nat) (b : Binding) : State :=
  match s.launch? ck b.ctx, b.ready with
  | some l, t :: rest =>
    match l.ports[b.gport]? with
    | none => s
    | some g =>
      let c := b.colour
      let tag := l.admitTag b g t
      let last := t.payload = .eos 0
      let live := (s.colour c).state = .live
      let s := s.modBinding ck b.id fun b =>
        { b with ready := rest, nextAdmit := b.nextAdmit + 1, finished := last && live, active := !last }
      let s := s.modCluster ck fun k => { k with lastAdmitted := Map.put k.lastAdmitted b.phys (b.id, s.cycles + 1) }
      let s := match b.kind with
        | .push sk _ => if last then s.modSlice sk fun x =>
            { x with pushes := x.pushes.filter fun p => !(p.ck = ck && p.binding = b.id) } else s
        | _ => s
      if !live then s.faultRecord ck c 0x11 codeColourState 0 tag.toWord
      else
        let narrow := (l.entryPlane g).getD (match t.payload with | .narrow _ _ _ => true | _ => false)
        let u : Token := ⟨tag, t.payload, g.table.map fun i => ⟨ck, i⟩, t.poison, b.epoch⟩
        ((s.enterPort ck l.plane g narrow u).modCluster ck fun k => k.admitCount g c.toNat).notePrefetch ck b.ctx c
  | _, _ => s
/-- ADMIT (R47): physical port k of a cluster admits a token of the binding whose turn it is. -/
def execAdmitToken (ck k : Nat) (s : State) : Result' :=
  match s.portTurn ck k with
  | none => .next s
  | some b => match b.kind with | .push _ _ => .next s | _ => .next (s.admitNext ck b)
/-- PUSH_ELEMENT_DELIVER (R131): the k-th generator of a slice delivers its next element, once it is admitted. -/
def execPushElementDeliver (sk k : Nat) (s : State) : Result' :=
  match (s.slice sk).pushes[k]? with
  | none => .next s
  | some g =>
    match (s.cluster g.ck).bindings.find? fun b => b.id = g.binding with
    | none => .next s
    | some b =>
      match s.portTurn g.ck b.phys with
      | none => .next s
      | some x => if x.id = b.id then .next (s.admitNext g.ck b) else .next s

/-- Notes that an exit port has passed EOS at level 0 of a colour (16_scheduling.md R318). -/
def State.noteExitEos (s : State) (ck ctx phys : Nat) (t : Token) : State :=
  if t.payload != .eos 0 then s
  else s.modLaunch ck ctx fun l =>
    match l.ports.findIdx? fun g => g.isExit && g.phys = phys with
    | none => l
    | some i =>
      let m := (i, t.tag.colour.toNat)
      { l with exitEos := if l.exitEos.contains m then l.exitEos else l.exitEos ++ [m] }
/-- A token at an exit port, whose credit returns from there (R47). -/
def State.exitCredit (s : State) (ck phys : Nat) (t : Token) : State :=
  match t.credit with
  | none => s
  | some k => s.inject ck (.port phys) (s.creditGoal ck k) true 3 (.credit k t.tag.colour)
/-- A token that no binding takes (R49): its credit goes back and a record of kind EXIT_UNBOUND is written. -/
def State.unbound (s : State) (ck phys : Nat) (t : Token) (status : Nat) : State :=
  (s.exitCredit ck phys t).recordColour ck t.tag.colour 0x06 status 0 t.payload.bytes t.tag.toWord
/-- The requester's word of a CFGREQ, with its k-th destination alone (10_ops_routing.md R204). -/
def CfgReturn.site (r : CfgReturn) (k : Nat) : Option (Site × Nat × Dest) :=
  match decodeFabric r.word.toNat with
  | .error _ => none
  | .ok i =>
    (fabricOf i).bind fun o => ((OpTable.dests o.2).find? fun d => d.1 = k).map fun d =>
      (⟨r.tk, r.plane, r.slot, o.1, { o.2 with dest0 := some d.2, dest1 := none, dest2 := none }⟩, d)
/-- A token leaves a library instance for the requester's destination k (16_scheduling.md R325 step 6), with CTX, LEVEL
and ITER of the requesting tag; it waits where it has no room there yet. The Bool says whether it has gone. -/
def State.passInstance (s : State) (ck phys : Nat) (x : LibInstance) (t : Token) : State × Bool :=
  let k := ((s.launch? ck x.ctx).map fun (l : Launch) =>
    ((l.ports.filter (·.isExit)).findIdx? fun g => g.phys = phys).getD 0).getD 0
  let mine := x.returns.filter fun r => r.tag.colour = t.tag.colour
  let back := match (mine.filter fun r => r.tag.iter = t.tag.iter).getLast? with
    | some r => some r
    | none => mine.getLast?
  match back.bind fun r => (r.site k).map fun x => (r, x) with
  | none => (s.exitCredit ck phys t, true)
  | some (r, q, d) =>
    match s.reserveAll q r.tag (fun _ => if t.payload.isEos then [] else [r.tag.iter]) fun _ => 1 with
    | none => (s, false)
    | some u =>
      let p : Payload := match t.payload with | .eos _ => .eos r.tag.level | y => y
      ((u.exitCredit ck phys t).deliver q.tk q.plane 0 (s.emission q d r.tag p none t.poison), true)
/-- A token goes to a gather card (09_block_transfer.md R183): WIDE tokens are written one after another from WR.BASE, and
EOS at level 0 ends them. A page that is missing is asked for, and the token waits at the port, which `b` binds. -/
def State.passCard (s : State) (ck : Nat) (c : Card) (b : Binding) (t : Token) : State × Bool :=
  match c.state with
  | .fabric sent got eos =>
    let goes := fun (s : State) (got : Nat) (eos : Bool) =>
      ((s.exitCredit ck b.phys t).modCard ck c.id fun c =>
        { c with state := .fabric sent got eos, status := worse c.status (if t.poison then 0x06 else 0) }, true)
    if b.waitPage.isSome then (s, false)
    else match t.payload with
    | .eos l => goes s got (eos || l = 0)
    | p =>
      if got + 64 > c.count then goes s (got + 64) eos
      else
        match s.cardWrite ck c.colour c.wr.window (c.wr.base + got) ((List.range 64).map fun i => Lanes.byte p.wideOr.data i) t.poison with
        | .done s _ => goes s (got + 64) eos
        | .fault s k va => ((s.exitCredit ck b.phys t).stopCard ck c k va, true)
        | .page s va => (s.streamPage ck b va, false)
        | .busy => (s, false)
  | _ => (s, true)
/-- The link that takes a colour's tokens from an exit port. -/
def State.linkFrom (s : State) (ck ctx phys : Nat) (c : Colour) : Option Binding :=
  let gport := ((s.launch? ck ctx).bind fun (l : Launch) => l.ports.findIdx? fun g => g.isExit && g.phys = phys).getD 64
  (s.cluster ck).bindings.find? fun b =>
    b.colour = c && (match b.kind with | .link sc sp => sc = ctx && sp = gport | _ => false) && !b.finished
/-- Where the token of an exit port goes (R49): to a gather card, a library instance's requester, a link or an exit stream, or to
nobody. -/
def State.passTo (s : State) (ck phys : Nat) (t : Token) : State × Bool :=
  let ctx := t.tag.ctx.toNat
  let c := t.tag.colour
  let k := s.cluster ck
  let last := t.payload = .eos 0
  match (s.die (dieOf ck)).libs.find? fun x => x.ck = ck && x.ctx = ctx with
  | some x => s.passInstance ck phys x t
  | none =>
    let link := s.linkFrom ck ctx phys c
    let exit := k.bindings.find? fun b => b.isExit && b.ctx = ctx && b.phys = phys && b.colour = c
    match (link <|> exit).bind fun b => (k.fabricCard phys c true).map fun d => (b, d), link, exit with
    | some (b, d), _, _ =>
      let r := s.passCard ck d { b with phys := phys } t
      (if r.2 && b.isExit then r.1.modBinding ck b.id fun b => { b with finished := b.finished || last } else r.1, r.2)
    | _, some b, _ => ((s.exitCredit ck phys t).modBinding ck b.id fun b => { b with ready := b.ready ++ [t] }, true)
    | _, _, some b =>
      if last then ((s.exitCredit ck phys t).modBinding ck b.id fun b => { b with finished := true }, true)
      else if t.payload.isEos then (s.exitCredit ck phys t, true)
      else if t.tag.iter.toNat ≥ b.total then (s.unbound ck phys t 1, true)
      else
        let s := (s.exitCredit ck phys t).modBinding ck b.id fun b => { b with ready := b.ready ++ [t] }
        (s.flushExit ck b.id (b.ready.length + 1), true)
    | _, _, none => (s.unbound ck phys t 0, true)
/-- A TOKEN PASSES AN EXIT PORT (R49), and its credit returns (R47); the Bool says whether it has, or has to wait. An EOS at level 0
that has passed is noted (16_scheduling.md R318). -/
def State.passExit (s : State) (ck phys : Nat) (t : Token) : State × Bool :=
  let r := s.passTo ck phys t
  if r.2 then (r.1.noteExitEos ck t.tag.ctx.toNat phys t, true) else r

/-- Whether a reorder unit is that of a port for a colour and context. -/
def Reorder.isFor (r : Reorder) (ctx gport : Nat) (c : Colour) : Bool :=
  r.ctx = ctx && r.gport = gport && r.colour = c
/-- Updates a port's reorder unit for a colour and context, which begins with NEXT = 0 (R249). -/
def State.modReorder (s : State) (ck ctx gport : Nat) (c : Colour) (g : Reorder → Reorder) : State :=
  s.modCluster ck fun k =>
    if k.reorders.any fun r => r.isFor ctx gport c then
      { k with reorders := k.reorders.map fun (r : Reorder) => if r.isFor ctx gport c then g r else r }
    else { k with reorders := k.reorders ++ [g ⟨ctx, c, gport, 0, []⟩] }
/-- The reorder unit. -/
def State.reorder (s : State) (ck ctx gport : Nat) (c : Colour) : Reorder :=
  match (s.cluster ck).reorders.find? fun r => r.isFor ctx gport c with
  | some r => r
  | none => ⟨ctx, c, gport, 0, []⟩
/-- Marks that a port has passed a token in its order in this cycle. -/
def State.exitStamp (s : State) (ck phys : Nat) : State :=
  s.modCluster ck fun k => { k with lastAdmitted := Map.put k.lastAdmitted (64 + phys) (0, s.cycles + 1) }
/-- NEXT moves past the token that has passed (R249). -/
def State.passedNext (s : State) (ck phys : Nat) (r : Reorder) (h : Option (Token × Nat)) : State :=
  (s.modReorder ck r.ctx r.gport r.colour fun x =>
    { x with next := x.next + 1, held := match h with | some h => x.held.erase h | none => x.held }).exitStamp ck phys
/-- The physical port of a reorder unit. -/
def State.reorderPort (s : State) (ck : Nat) (r : Reorder) : Nat :=
  ((s.launch? ck r.ctx).bind fun (l : Launch) => (l.ports[r.gport]?).map (·.phys)).getD 0
/-- The held token of a unit that equals NEXT passes, one in an FCLK cycle (R249). -/
def State.passHeld (s : State) (ck : Nat) (r : Reorder) : State :=
  let phys := s.reorderPort ck r
  if (Map.get (s.cluster ck).lastAdmitted (64 + phys) (0, 0)).2 = s.cycles + 1 || s.scanning ck ||
      s.isFrozen ((s.worldOfCtx ck r.ctx).getD 0) then s
  else
    match r.held.find? fun h => h.1.tag.iter = r.next with
    | none => s
    | some h =>
      match s.passExit ck phys h.1 with
      | (s, false) => s
      | (s, true) => s.passedNext ck phys r (some h)
/-- The held token of the smallest ITER. -/
def Reorder.lowest (r : Reorder) : Option (Token × Nat) :=
  r.held.foldl (fun (b : Option (Token × Nat)) h =>
    match b with | none => some h | some x => if h.1.tag.iter.toNat < x.1.tag.iter.toNat then some h else b) none
/-- Every held token passes in ascending ITER (R250); one that has to wait stops those behind it. -/
def State.releaseReorder (s : State) (ck phys ctx gport : Nat) (c : Colour) : Nat → State
  | 0 => s
  | fuel + 1 =>
    match (s.reorder ck ctx gport c).lowest with
    | none => s
    | some h =>
      match s.passExit ck phys h.1 with
      | (s, false) => s
      | (s, true) =>
        (s.modReorder ck ctx gport c fun r => { r with held := r.held.erase h }).releaseReorder ck phys ctx gport c fuel
/-- Whether an exit port has an entry free for a colour: 64 in all, 48 for a colour (R249). -/
def Cluster.entryFree (k : Cluster) (r : Reorder) : Bool :=
  let at' := k.reorders.filter fun x => x.gport = r.gport && x.ctx = r.ctx
  decide ((at'.map fun x => x.held.length).sum < 64) && decide (r.held.length < 48)
/-- A token arrives at an exit with ordered delivery (R249, R250); the Bool says whether the port has taken it. -/
def State.orderedArrival (s : State) (ck phys gport : Nat) (t : Token) : State × Bool :=
  let ctx := t.tag.ctx.toNat
  let c := t.tag.colour
  let r := s.reorder ck ctx gport c
  if t.payload = .eos 0 then
    let s := s.releaseReorder ck phys ctx gport c 64
    if (s.reorder ck ctx gport c).held != [] then (s, false)
    else
      match s.passExit ck phys t with
      | (s, true) => (s.modReorder ck ctx gport c fun r => { r with next := 0 }, true)
      | x => x
  else if t.payload.isEos then s.passExit ck phys t
  else if t.tag.iter = r.next then
    match s.passExit ck phys t with
    | (s, true) => (s.passedNext ck phys r none, true)
    | x => x
  else if (t.tag.iter - r.next).toNat ≤ 63 && (s.cluster ck).entryFree r then
    (s.modReorder ck ctx gport c fun r => { r with held := r.held ++ [(t, 0)] }, true)
  else (s, false)
/-- The k-th token on its way out of a cluster reaches its exit port (R49); data tokens that an ordered exit holds back do not hold
back others (R249). -/
def State.exitArrival (s : State) (ck k : Nat) (e : ExitToken) : State :=
  let c := s.cluster ck
  let t := e.token
  let world := (s.worldOfCtx ck t.tag.ctx.toNat).getD 0
  let ordered := c.orderedExit e.phys t.tag.ctx.toNat t.tag.colour
  let free := fun (u : Token) => ordered.isSome && !t.payload.isEos && !u.payload.isEos
  if s.scanning ck || s.isFrozen world ||
      (c.exits.take k).any fun x => x.phys = e.phys && x.edge = e.edge && !free x.token then s
  else
    let r := match ordered with
      | some b => s.orderedArrival ck e.phys b.gport t
      | none => s.passExit ck e.phys t
    if r.2 then r.1.modCluster ck fun x => { x with exits := x.exits.eraseIdx k } else r.1
/-- EXIT_DELIVERY (R49, R249): the k-th token on its way out of a cluster reaches its exit port; the numbers that follow stand for the
reorder units, whose next held token passes. -/
def execExitDelivery (ck k : Nat) (s : State) : Result' :=
  let c := s.cluster ck
  match c.exits[k]?, c.reorders[k - c.exits.length]? with
  | some e, _ => .next (s.exitArrival ck k e)
  | none, some r => .next (s.passHeld ck r)
  | none, none => .next s
/-- EXIT_REORDER_AGE_RELEASE (R250): the oldest token that the k-th reorder unit holds has reached its colour's stall age,
and NEXT jumps to the smallest held ITER; release then goes on under R249. -/
def execExitReorderAgeRelease (ck k : Nat) (s : State) : Result' :=
  match (s.cluster ck).reorders[k]? with
  | none => .next s
  | some r =>
    let age := (s.colour r.colour).age
    match r.lowest with
    | none => .next s
    | some h =>
      if age = 0 || r.held.all (fun x => x.2 < age) || s.scanning ck then .next s
      else .next (s.modReorder ck r.ctx r.gport r.colour fun r => { r with next := h.1.tag.iter })

end Sys2Proof.Machine
end

