-- ==== Sys2Proof/Machine/Image.lean ====
section
/-!
DEFINITION. Loader images: how one is read and which bytes are one (26_host_and_package.md R427), and the checks of the
configuration loader (03_formats.md R65 to R67), with race refusal (17_memory_model.md R346).
-/
namespace Sys2Proof.Machine

/-- A word of an image with its place in the region (R427). -/
structure ImageWord where
  word : BitVec 128
  x : Nat
  y : Nat
  slot : Nat
  back : Nat
  deriving DecidableEq, Repr
/-- A port of an image: its physical index (0 to 31 fp, 32 to 39 vp), and the node of an entry. -/
structure ImagePort where
  phys : Nat
  isExit : Bool
  port : Port
  node : Nat
  quotas : List (Nat × Nat)
  deriving DecidableEq, Repr
/-- A tile record of an image. -/
structure ImageTile where
  x : Nat
  y : Nat
  need : Nat
  regs : Option FabRegs
  scratch : List Byte
  deriving DecidableEq, Repr
/-- An object record of an image. -/
structure ImageObject where
  size : Nat
  prio : Nat
  weak : Bool
  home : Nat
  va : Nat
  deriving DecidableEq, Repr
/-- A loader image (R427). `saved` numbers the saved state of a snapshot image (log 16), `bytes` is the whole image. -/
structure Image where
  snapshot : Bool
  saved : Nat
  world : Nat
  warn : Bool
  x : Nat
  y : Nat
  w : Nat
  h : Nat
  plane : Nat
  levels : List Nat
  words : List ImageWord
  ports : List ImagePort
  tiles : List ImageTile
  objects : List ImageObject
  bytes : List Byte
  deriving DecidableEq, Repr

/-- Bytes a number of a byte string: `n` bytes at an offset. -/
def numAt (bs : List Byte) (off n : Nat) : Nat := bytesNat ((bs.drop off).take n)
/-- Reads bytes of an image by the loader, under a colour; poisoned bytes fault. -/
def State.imageRead (s : State) (ck : Nat) (c : Colour) (base off n : Nat) : Mem (List Byte) :=
  (s.engineRead ck c (base + off) n (n / 256 + 2)).bind fun s r =>
    if r.2 then .fault s codePoison (base + off) else .done s r.1
/-- A multiple of 16. -/
def round16 (n : Nat) : Nat := (n + 15) / 16 * 16

/-- The counts and offsets of a header. -/
structure ImageHead where
  words : Nat
  ports : Nat
  tiles : Nat
  objects : Nat
  pl : Nat
  pt : Nat
  tr : Nat
  ob : Nat
  deriving DecidableEq, Repr
/-- Reads the counts and offsets. -/
def ImageHead.of (b : List Byte) : ImageHead :=
  ⟨numAt b 32 4, numAt b 36 4, numAt b 40 4, numAt b 44 4, numAt b 48 4, numAt b 52 4, numAt b 56 4, numAt b 60 4⟩
/-- The checks of a header that need no other bytes (R427). -/
def headOk (b : List Byte) : Bool :=
  let h := ImageHead.of b
  let nlev := numAt b 13 1
  let place := fun (n off : Nat) => n = 0 || (off % 16 = 0 && 64 + 16 * h.words ≤ off)
  numAt b 0 4 = 0x464F4C44 && numAt b 4 1 = 1 && numAt b 5 1 < 2 && numAt b 6 1 < 64 && numAt b 7 1 < 2 &&
    numAt b 12 1 < 4 && 1 ≤ nlev && nlev ≤ 16 && numAt b 14 2 = 0 &&
    ((List.range 16).all fun k => k < nlev || numAt b (16 + k) 1 = 0) &&
    1 ≤ h.words && h.ports ≤ 63 && place h.words h.pl && place h.ports h.pt && place h.tiles h.tr &&
    place h.objects h.ob

/-- Port of a 2-bit code (R14). -/
def portOfCode (n : Nat) : Port := portOf (BitVec.ofNat 2 n)
/-- Word i of an image, from its array and its placement; nothing where a zero field is not zero. -/
def imageWord (wa pl : List Byte) (i : Nat) : Option ImageWord :=
  let p := numAt pl (4 * i) 4
  if p ≥ 2 ^ 17 then none
  else some ⟨BitVec.ofNat 128 (numAt wa (16 * i) 16), bits p 3 0, bits p 7 4, bits p 13 8, bits p 16 14⟩
/-- A quota entry (R427). -/
def imageQuota (n : Nat) : Option (Nat × Nat) :=
  if bits n 15 9 = 0 && bits n 31 25 = 0 && 1 ≤ bits n 24 16 && bits n 24 16 ≤ 256 then
    some (bits n 8 0, bits n 24 16)
  else none
/-- Reads the tile records from an offset on; the offset after the last is answered too, and nothing where a zero field
is not zero. -/
def State.readTiles (s : State) (ck : Nat) (c : Colour) (base : Nat) : Nat → Nat → Mem (Option (List ImageTile) × Nat)
  | 0, off => .done s (some [], off)
  | n + 1, off =>
    (s.imageRead ck c base off 16).bind fun s b =>
      let reg := numAt b 3 1
      let len := numAt b 4 4
      let body := 640 * (reg % 2) + len
      if reg > 1 || numAt b 8 8 != 0 || numAt b 2 1 > 16 then .done s (none, off)
      else
        (s.imageRead ck c base (off + 16) body).bind fun s d =>
          let regs : Option FabRegs :=
            if reg = 0 then none
            else some
              { s := Vector.ofFn fun i => BitVec.ofNat 64 (numAt d (8 * i.val) 8)
                v := Vector.ofFn fun i => BitVec.ofNat 512 (numAt d (128 + 64 * i.val) 64)
                acc := [] }
          let t : ImageTile := ⟨numAt b 0 1, numAt b 1 1, numAt b 2 1, regs, d.drop (640 * reg)⟩
          (s.readTiles ck c base n (off + round16 (16 + body))).bind fun s r =>
            .done s (r.1.map (t :: ·), r.2)
/-- Reads the quota entries of ports; `raw` is the port table. -/
def State.readQuotas (s : State) (ck : Nat) (c : Colour) (base : Nat) (raw : List Byte) :
    Nat → Nat → Mem (Option (List (List (Nat × Nat))) × List (Nat × Nat))
  | 0, _ => .done s (some [], [])
  | n + 1, i =>
    let nq := numAt raw (16 * i + 4) 4
    let off := numAt raw (16 * i + 8) 4
    (s.imageRead ck c base off (4 * nq)).bind fun s b =>
      (s.readQuotas ck c base raw n (i + 1)).bind fun s r =>
        .done s (match ((List.range nq).mapM fun j => imageQuota (numAt b (4 * j) 4)), r.1 with
          | some q, some qs => some (q :: qs)
          | _, _ => none, (off, 4 * nq) :: r.2)
/-- A port of an image; nothing where a zero field is not zero or its node is no word. -/
def imagePort (raw : List Byte) (words i : Nat) (quotas : List (Nat × Nat)) : Option ImagePort :=
  let b0 := numAt raw (16 * i) 1
  let b1 := numAt raw (16 * i + 1) 1
  let node := numAt raw (16 * i + 2) 2
  let vp := bits b0 6 6 = 1
  let exit := bits b0 7 7 = 1
  let n := bits b0 5 0
  if b1 > 3 || numAt raw (16 * i + 12) 4 != 0 || n ≥ (if vp then 8 else 32) ||
      (if exit then node != 0xFFFF else node ≥ words) then none
  else some ⟨if vp then 32 + n else n, exit, portOfCode b1, node, quotas⟩
/-- An object record; nothing where a zero field is not zero. -/
def imageObject (b : List Byte) (i : Nat) : Option ImageObject :=
  let o := 32 * i
  let k := numAt b (o + 8) 1
  if k ≥ 32 || numAt b (o + 9) 1 > 8 || numAt b (o + 10) 6 != 0 || numAt b (o + 24) 8 != 0 then none
  else some ⟨numAt b o 8, k % 16, bits k 4 4 = 1, numAt b (o + 9) 1, numAt b (o + 16) 8⟩
/-- Sections that do not overlap; an empty one overlaps nothing. -/
def apart : List (Nat × Nat) → Bool
  | [] => true
  | (a, n) :: r => (n = 0 || r.all fun x => x.2 = 0 || a + n ≤ x.1 || x.1 + x.2 ≤ a) && apart r
/-- Whether every section lies in the bytes that the counts imply (R427): the header and the sections, each of a whole number of 16
bytes (log 120). -/
def sectionsFit (secs : List (Nat × Nat)) : Bool :=
  let size := 64 + (secs.map fun x => round16 x.2).sum
  secs.all fun x => x.2 = 0 || x.1 + x.2 ≤ size
/-- Reads an image at a colour-virtual address (R427): nothing where the bytes are no image. Two words at one slot of a
tile, a tile outside the region, or a place past the region count as a broken limit (log 29). -/
def State.readImage (s : State) (ck : Nat) (c : Colour) (base : Nat) : Mem (Option Image) :=
  (s.imageRead ck c base 0 64).bind fun s b =>
    if !headOk b then .done s none
    else
      let h := ImageHead.of b
      let w := numAt b 10 1
      let ht := numAt b 11 1
      (s.imageRead ck c base 64 (16 * h.words)).bind fun s wa =>
      (s.imageRead ck c base h.pl (4 * h.words)).bind fun s pl =>
      (s.imageRead ck c base h.pt (16 * h.ports)).bind fun s pt =>
      (s.imageRead ck c base h.ob (32 * h.objects)).bind fun s ob =>
      if h.tiles > w * ht then .done s none
      else
      (s.readTiles ck c base h.tiles h.tr).bind fun s tr =>
      (s.readQuotas ck c base pt h.ports 0).bind fun s qs =>
        let secs := (64, 16 * h.words) :: (h.pl, 4 * h.words) :: (h.pt, 16 * h.ports) :: (h.tr, if h.tiles = 0 then 0 else tr.2 - h.tr) ::
          (h.ob, 32 * h.objects) :: qs.2
        let fin := round16 (secs.foldl (fun m x => if x.2 = 0 then m else max m (x.1 + x.2)) 64)
        let snap := numAt b 5 1 = 1
        (s.imageRead ck c base 0 (fin + if snap then 16 else 0)).bind fun s all =>
          match (List.range h.words).mapM (imageWord wa pl), tr.1,
              qs.1.bind fun (q : List (List (Nat × Nat))) =>
                (List.range h.ports).mapM fun i => imagePort pt h.words i (q.getD i []),
              (List.range h.objects).mapM (imageObject ob) with
          | some ws, some ts, some ps, some os =>
            let places := ws.map fun x => (x.x, x.y, x.slot)
            if !apart secs || !sectionsFit secs || !(qs.2.all fun x => x.2 = 0 || 64 + 16 * h.words ≤ x.1) || !decide places.Nodup ||
                ws.any (fun x => x.x ≥ w || x.y ≥ ht) || ts.any (fun t => t.x ≥ w || t.y ≥ ht) then .done s none
            else
              .done s (some ⟨snap, numAt all fin 16, numAt b 6 1, numAt b 7 1 = 1, numAt b 8 1, numAt b 9 1, w, ht,
                numAt b 12 1, (List.range (numAt b 13 1)).map fun k => numAt b (16 + k) 1, ws, ps, ts, os, all⟩)
          | _, _, _, _ => .done s none

/-- The word of an image with the fields of its bits; codes that stand in place of bits no field can hold are listed
(R66). -/
structure CheckedWord where
  ti : Nat
  slot : Nat
  opc : Nat
  f : OpFields
  codes : List Nat
  deriving DecidableEq, Repr

/-- A destination field read for the checks: what it names, and whether it is malformed. -/
def lenientDest (x : Nat) : Option Dest × Bool :=
  match Decode.destOf x with | .ok d => (d, false) | .error _ => (none, true)
/-- Reads a word for the checks: a field that holds no value is replaced, with its code noted. -/
def checkedWord (ti slot : Nat) (w : Nat) : CheckedWord :=
  let t := Decode.tagOpOf (bits w 115 112)
  let e := EType.ofCode (bits w 111 108)
  let d0 := lenientDest (bits w 99 80)
  let d1 := lenientDest (bits w 79 60)
  let d2 := lenientDest (bits w 59 40)
  let opc := bits w 127 119
  ⟨ti, slot, opc,
    { arityN := BitVec.ofNat 2 (bits w 118 117), arityG := bits w 116 116 = 1, tagop := t.getD .keep
      etype := e.getD (match OpTable.row opc with | some r => r.etypes.headD .ord | none => .ord)
      sub := BitVec.ofNat 8 (bits w 107 100), dest0 := d0.1, dest1 := d1.1, dest2 := d2.1
      imm := BitVec.ofNat 32 (bits w 39 8)
      flags := { brk := bits w 7 7 = 1, order := bits w 6 6 = 1, stall := BitVec.ofNat 2 (bits w 5 4), commit := bits w 3 3 = 1 } },
    (if t.isNone then [0x04] else []) ++ (if e.isNone then [0x05] else []) ++
      (if d0.2 || d1.2 || d2.2 then [0x08] else []) ++ (if bits w 2 0 != 0 then [0x0A] else [])⟩

/-- An image placed with its region's origin at (ox, oy): the words by tile and slot, and the ports after the shift of
20_prog_merge_sort.md R368. -/
structure Placed where
  ox : Nat
  oy : Nat
  w : Nat
  h : Nat
  last : Nat
  words : List CheckedWord
  exits : List Nat
  entries : List (Nat × Nat × Port)
  regs : List (Nat × FabRegs)
  deriving DecidableEq, Repr

/-- The word at a place of the image. -/
def Placed.at? (p : Placed) (ti slot : Nat) : Option CheckedWord := p.words.find? fun w => w.ti = ti && w.slot = slot
/-- Whether a tile lies in the region. -/
def Placed.holds (p : Placed) (ti : Nat) : Bool :=
  p.ox ≤ ti % 16 && ti % 16 < p.ox + p.w && p.oy ≤ ti / 16 && ti / 16 < p.oy + p.h
/-- Whether a destination from a tile is an exit of the image (15_prog_two_colours.md R306). -/
def Placed.exits? (p : Placed) (ti : Nat) (d : Dest) : Bool :=
  OpTable.exitForm d &&
    match (destTile ti d).bind edgePort with | some e => p.exits.contains e | none => false
/-- Operators whose only results are GUARD and ORDER tokens: `ojoin`, `fence`, and those with FLAGS.ORDER (R203, R232). -/
def onlyOrder (opc : Nat) (f : OpFields) : Bool := f.flags.order || opc = 0x01F || opc = 0x170
/-- The codes 0x08, 0x09 and 0x0C of R66 at a destination. -/
def Placed.destCodes (p : Placed) (w : CheckedWord) (i : Nat) (d : Dest) : List Nat :=
  let twin := (OpTable.dests w.f).any fun e => e.1 != i && e.2 = d
  let plane := match OpTable.resultNarrow w.opc w.f i with | none => false | some b => d.narrow != b
  match destTile w.ti d with
  | none => [0x08]
  | some ti =>
    let form := if twin || plane || !p.holds ti then [0x08] else []
    if p.exits? w.ti d then form ++ (if onlyOrder w.opc w.f then [0x09] else [])
    else
      let g := if d.port = .g && (!OpTable.gDestOk w.opc w.f i || !d.narrow) then [0x09] else []
      match p.at? ti d.slot.toNat with
      | none => form ++ g ++ (if onlyOrder w.opc w.f && d.port != .g then [0x09] else []) ++ [0x0C]
      | some r =>
        let order := if onlyOrder w.opc w.f && d.port != .g && r.f.etype != .ord then [0x09] else []
        let cross := match OpTable.inputNarrow r.opc r.f.etype d.port with
          | none => []
          | some b => if d.narrow = b then [] else [0x09]
        form ++ g ++ order ++ cross ++ (if OpTable.declares r.f d.port then [] else [0x0C])
/-- Every code that a word meets, but for RACE. -/
def Placed.codes (p : Placed) (w : CheckedWord) : List Nat :=
  let ds := OpTable.dests w.f
  let exits := ds.any fun d => p.exits? w.ti d.2
  let own := OpTable.wordCode p.last exits w.opc w.f
  let blocked := w.slot = 63 && (match edgePort w.ti with | some e => p.exits.contains e | none => false)
  if own = 0x01 then [0x01]
  else w.codes ++ (if own = 0 then [] else [own]) ++ (if blocked then [0x08] else []) ++
    ds.flatMap fun d => p.destCodes w d.1 d.2

/-- Words that a word's destinations lead to, by index. -/
def Placed.next (p : Placed) (i : Nat) : List Nat :=
  match p.words[i]? with
  | none => []
  | some w => (OpTable.dests w.f).filterMap fun d =>
      (destTile w.ti d.2).bind fun ti => p.words.findIdx? fun x => x.ti = ti && x.slot = d.2.slot.toNat
/-- Words reached from a list of words by destination edges. -/
def Placed.reach (p : Placed) : Nat → List Nat → List Nat → List Nat
  | 0, seen, _ => seen
  | _ + 1, seen, [] => seen
  | n + 1, seen, i :: rest =>
    let new := (p.next i).filter fun j => !seen.contains j
    p.reach n (seen ++ new.eraseDups) (rest ++ new.eraseDups)
/-- Whether a path of destination edges leads from word i to word j (17_memory_model.md R333, part 2). -/
def Placed.path (p : Placed) (i j : Nat) : Bool := (p.reach (p.words.length + 1) [] [i]).contains j
/-- The producers of an input: words of the image, and whether an entry port feeds it. -/
def Placed.producers (p : Placed) (w : CheckedWord) (port : Port) : List CheckedWord × Bool :=
  (p.words.filter fun x => (OpTable.dests x.f).any fun d =>
      d.2.port = port && d.2.slot.toNat = w.slot && destTile x.ti d.2 = some w.ti,
    p.entries.contains (w.ti, w.slot, port))
/-- The value of the `const` at which an input's producer chain starts, through `pass` alone (R346). -/
def Placed.constOf (p : Placed) : Nat → CheckedWord → Option Int
  | 0, _ => none
  | n + 1, w =>
    match p.producers w .l with
    | ([x], false) =>
      if x.opc = 0x001 then
        some (if x.f.etype.isWide then (x.f.imm.toNat : Int) else Num.wrap x.f.imm.toInt x.f.etype.width)
      else if x.opc = 0x002 then p.constOf n x
      else none
    | _ => none
/-- Bytes that a checked operator accesses. -/
def memSize (opc : Nat) : Nat :=
  if opc = 0x142 ∨ opc = 0x146 then 1 else if opc = 0x143 ∨ opc = 0x147 then 2
  else if opc = 0x144 ∨ opc = 0x148 then 4 else if opc = 0x145 ∨ opc = 0x149 then 8 else 64
/-- The declared range of a checked operator (R346): whether it writes, its first byte, and the byte after its last. -/
def Placed.range (p : Placed) (w : CheckedWord) : Option (Bool × Int × Int) :=
  let all : Int × Int := (0, 2 ^ 47)
  if 0x140 ≤ w.opc ∧ w.opc ≤ 0x149 then
    let r := match p.constOf (p.words.length + 1) w with
      | none => all
      | some v => (v + w.f.imm.toInt, v + w.f.imm.toInt + memSize w.opc)
    some (w.opc = 0x141 || 0x146 ≤ w.opc, r)
  else if w.opc = 0x159 ∨ w.opc = 0x15B then some (false, all)
  else if w.opc = 0x15A then some (true, all)
  else if w.opc = 0x021 then
    let d := match p.regs.find? fun r => r.1 = w.ti with
      | some r => (r.2.s.getD (OpTable.immField w.f 3 0) 0).toNat
      | none => 0
    some (false, (bits d 46 0 : Nat), (bits d 46 0 + 64 * bits d 63 47 : Nat))
  else none
/-- Whether a word is in conflict with another (R346). -/
def Placed.races (p : Placed) (i : Nat) : Bool :=
  match (p.words[i]?).bind p.range with
  | none => false
  | some (wr, lo, hi) =>
    (List.range p.words.length).any fun j =>
      i != j &&
      match (p.words[j]?).bind p.range with
      | none => false
      | some (wr', lo', hi') => (wr || wr') && lo < hi' && lo' < hi && !p.path i j && !p.path j i
/-- The failing words in image order with their lowest codes; RACE_WARN stands in place of RACE where the image asks for
it (R66, R67). -/
def Placed.failures (p : Placed) (warn : Bool) : List (Nat × Nat) :=
  (List.range p.words.length).filterMap fun i =>
    match p.words[i]? with
    | none => none
    | some w =>
      let cs := p.codes w ++ (if p.races i then [if warn then 0x0E else 0x0D] else [])
      (cs.foldl (fun (b : Option Nat) c => match b with | none => some c | some x => some (min x c)) none).map fun c => (i, c)
/-- Whether the failures refuse the image: any but RACE_WARN. -/
def refused (fs : List (Nat × Nat)) : Bool := fs.any fun x => x.2 != 0x0E

/-- The placement in the tag of a CFG_ERROR record (R67). -/
def placeTag (ck ti plane slot : Nat) : Word :=
  BitVec.ofNat 64 (dieOf ck * 2 ^ 24 + ck % 16 * 2 ^ 20 + ti % 16 * 2 ^ 16 + ti / 16 * 2 ^ 12 + plane * 2 ^ 8 + slot)
/-- Writes the CFG_ERROR records of failing words (R67), by the event unit of a cluster; `ck` and `plane` are their placement. -/
def State.cfgErrors (s : State) (unit ring : Nat) (world : World) (ck plane : Nat) (p : Placed) (fs : List (Nat × Nat)) : State :=
  let s := (fs.take 16).foldl (fun s x =>
    match p.words[x.1]? with
    | none => s
    | some w => s.record unit ring world 0x03 x.2 0 0 (64 + 16 * x.1) (placeTag ck w.ti plane w.slot)) s
  if fs.length > 16 then s.record unit ring world 0x03 0x0F 0 0 fs.length 0 else s

/-- The physical port of a shifted region (R368); nothing where it leaves its edge. -/
def shiftPort (xoff yoff : Int) (phys : Nat) : Option Nat :=
  let x : Int := (phys % 16 : Nat) + xoff
  if phys < 32 then
    if 0 ≤ x ∧ x ≤ 15 then some (phys / 16 * 16 + x.toNat) else none
  else
    let y : Int := (phys - 32 : Nat) + yoff
    if xoff = 0 ∧ 0 ≤ y ∧ y ≤ 7 then some (32 + y.toNat) else none
/-- The placement of an image with its origin at (ox, oy), and the ports that the launch declares; nothing where the
region does not fit the mesh or a port leaves its edge (R293, R368). -/
def Image.placeAt (g : Image) (ox oy : Nat) : Option (Placed × List GraphPort) :=
  let at' := fun (x y : Nat) => 16 * (oy + y) + (ox + x)
  if ox + g.w > 16 || oy + g.h > 12 || g.w = 0 || g.h = 0 then none
  else
    (g.ports.mapM fun p =>
      (shiftPort ((ox : Int) - g.x) ((oy : Int) - g.y) p.phys).map fun n =>
        let w := g.words.getD p.node ⟨0, 0, 0, 0, 0⟩
        (⟨n, p.isExit, p.port, at' w.x w.y, w.slot, none⟩ : GraphPort)).map fun ps =>
      (⟨ox, oy, g.w, g.h, g.levels.length - 1,
        g.words.map fun w => checkedWord (at' w.x w.y) w.slot w.word.toNat,
        (ps.filter (·.isExit)).map (·.phys),
        (ps.filter fun p => !p.isExit).map fun p => (p.ti, p.slot, p.port),
        g.tiles.filterMap fun t => t.regs.map fun r => (at' t.x t.y, r)⟩, ps)

end Sys2Proof.Machine
end

