-- ==== Sys2Proof/Machine/Sha.lean ====
section
/-!
DEFINITION. SHA-256 over byte strings, as 24_trust.md R402 and 26_host_and_package.md R420 use it. The manual names the
function and does not give it: it is FIPS 180-4's (PRESUMED, log 13). Its constants are computed here from the primes.
-/
namespace Sys2Proof.Machine.Sha

/-- A 32-bit word of the hash. -/
abbrev W := BitVec 32

/-- The largest number that adds bits below `b` to `r` and whose e-th power is at most n. -/
def rootBits (e n : Nat) : Nat → Nat → Nat
  | 0, r => r
  | b + 1, r => rootBits e n b (if (r + 2 ^ b) ^ e ≤ n then r + 2 ^ b else r)
/-- The first 32 bits of the fractional part of the e-th root of p. -/
def fraction (e p : Nat) : W := BitVec.ofNat 32 (rootBits e (p * 2 ^ (32 * e)) 36 0)
/-- The primes below 312: the first 64 primes. -/
def primes : List Nat :=
  (List.range 312).filter fun p => 2 ≤ p && (List.range 18).all fun d => d < 2 || p ≤ d || p % d != 0
/-- What each of the 64 rounds adds. -/
def roundConstants : List W := primes.map (fraction 3)

/-- The eight words that a block changes. -/
structure Chain where
  a : W
  b : W
  c : W
  d : W
  e : W
  f : W
  g : W
  h : W
/-- The words in order. -/
def Chain.words (x : Chain) : List W := [x.a, x.b, x.c, x.d, x.e, x.f, x.g, x.h]
/-- Eight words. -/
def Chain.of (xs : List W) : Chain :=
  let n := fun i => xs.getD i 0
  ⟨n 0, n 1, n 2, n 3, n 4, n 5, n 6, n 7⟩
/-- The chain before the first block. -/
def Chain.start : Chain := .of ((primes.take 8).map (fraction 2))
/-- Three turns of a word, added without carries. -/
def turns (x : W) (i j k : Nat) : W := x.rotateRight i ^^^ x.rotateRight j ^^^ x.rotateRight k
/-- Two turns of a word and a shift. -/
def spread (x : W) (i j k : Nat) : W := x.rotateRight i ^^^ x.rotateRight j ^^^ (x >>> k)
/-- One round, in which `x` is the word of the schedule with the round's constant. -/
def Chain.round (v : Chain) (x : W) : Chain :=
  let picked := (v.e &&& v.f) ||| (~~~v.e &&& v.g)
  let most := (v.a &&& v.b) ||| (v.c &&& (v.a ||| v.b))
  let t := x + v.h + picked + turns v.e 6 11 25
  { a := t + most + turns v.a 2 13 22, b := v.a, c := v.b, d := v.c, e := v.d + t, f := v.e, g := v.f, h := v.g }
/-- The rounds of a block: `win` holds the next sixteen words of its schedule. -/
def Chain.rounds : List W → List W → Chain → Chain
  | [], _, v => v
  | k :: ks, win, v =>
    let n := fun i => win.getD i 0
    let new := spread (n 14) 17 19 10 + n 9 + spread (n 1) 7 18 3 + n 0
    Chain.rounds ks (win.drop 1 ++ [new]) (v.round (k + n 0))
/-- A number of bytes, the first highest. -/
def big (bs : List Byte) : Nat := bs.foldl (fun a b => 256 * a + b.toNat) 0
/-- `n` bytes of a number, the highest first. -/
def bigBytes (n x : Nat) : List Byte := (natBytes n x).reverse
/-- The chain after one block of 64 bytes. -/
def Chain.block (v : Chain) (bs : List Byte) : Chain :=
  let win := (List.range 16).map fun i => BitVec.ofNat 32 (big ((bs.drop (4 * i)).take 4))
  .of (List.zipWith (· + ·) v.words (Chain.rounds roundConstants win v).words)
/-- The chain after n blocks. -/
def Chain.blocks (v : Chain) (bs : List Byte) : Nat → Chain
  | 0 => v
  | n + 1 => (v.block (bs.take 64)).blocks (bs.drop 64) n
/-- A message with its end mark and its length in bits, filled up to whole blocks. -/
def padded (m : List Byte) : List Byte :=
  m ++ 0x80 :: List.replicate ((119 - m.length % 64) % 64) 0 ++ bigBytes 8 (8 * m.length)
/-- The digest, its first byte highest. -/
def hash (m : List Byte) : BitVec 256 :=
  let p := padded m
  BitVec.ofNat 256 (big ((Chain.start.blocks p (p.length / 64)).words.flatMap fun w => bigBytes 4 w.toNat))
/-- The 32 bytes of a digest. -/
def digestBytes (d : BitVec 256) : List Byte := bigBytes 32 d.toNat

end Sys2Proof.Machine.Sha
end

