-- ==== Sys2Proof/Machine/Loader.lean ====
section
/-!
DEFINITION. The configuration loader's work on an image that its checks accept: TSBND and the scratchpad
(08_tile_memory.md R158, R159), objects (19_objects.md R366), the measurement (24_trust.md R402), the port table
(16_scheduling.md R316), the words and registers (14_control_core.md R293), and what a snapshot image restores
(21_faults_preemption.md R381).
-/
namespace Sys2Proof.Machine

/-- Whether a plane of a cluster holds a graph of another world (R293). -/
def State.planeTaken (s : State) (ck plane : Nat) (w : World) : Bool :=
  (s.cluster ck).launches.any fun e => e.2.plane = plane && e.2.world != w
/-- Whether the slots that an image uses are free, or hold words of the given context (R293, R320). -/
def State.slotsFree (s : State) (ck plane : Nat) (p : Placed) (but : Option Nat) : Bool :=
  p.words.all fun w =>
    let c := ((s.tile (192 * ck + w.ti)).slot (64 * plane + w.slot)).ctx
    c = none || (c = but && but.isSome)
/-- The free indexes of a cluster's port table, lowest first (R316). -/
def Cluster.freePorts (k : Cluster) : List Nat := (List.range 64).filter fun i => (Map.get? k.ports i).isNone
/-- Whether a tile's scratchpad belongs to another world that still holds a graph there (R158). -/
def State.spOwned (s : State) (tk need : Nat) (w : World) : Bool :=
  let t := s.tile tk
  need != 0 && t.tsWorld != w &&
    (s.cluster (ckOf tk)).launches.any fun e => e.2.world = t.tsWorld && e.2.covers (tiOf tk)
/-- The stash gives up all lines but the `keep` used last; their dirty granules are written back first (R159). -/
def State.stashShrink (s : State) (tk keep : Nat) : Option State :=
  let lines := (s.tile tk).stash
  let gone := lines.filter fun l => (lines.filter fun m => l.used < m.used).length ≥ keep
  gone.foldl (fun acc l => acc.bind fun s => s.stashSettle tk l) (some s)
/-- Sets the full/empty bits of a tile; parked accesses of the granules whose bits change are served (R170). -/
def State.setBits (s : State) (tk : Nat) (full : List Nat) : State :=
  let old := (s.tile tk).full
  (s.modTile tk fun t => { t with full := full }).feChanged tk
    ((old.filter fun g => !full.contains g) ++ full.filter fun g => !old.contains g)
/-- Sets TSBND of a tile with a need (R158, R159): SPK grows, or the whole SRAM is scrubbed for another world. Nothing
where the loader has to wait for the stash. -/
def State.setBound (s : State) (tk need : Nat) (w : World) : Option State :=
  let t := s.tile tk
  if need = 0 then some s
  else if t.tsWorld = w then
    if need ≤ t.spk.toNat then some s
    else (s.stashShrink tk (16 * (16 - need))).map fun s => s.modTile tk fun t => { t with spk := BitVec.ofNat 5 need }
  else
    (s.stashShrink tk 0).map fun s =>
      (s.modTile tk fun t => { t with tsWorld := w, spk := BitVec.ofNat 5 need, scratch := [], poison := [] }).setBits tk []

/-- How the creation of an image's objects ends (R366): made, with their handles; to be tried again, with the victims
that reclamation destroyed; or NOSPACE. -/
inductive Creations where
  | made (s : State) (handles : List Handle)
  | wait (victims : List (Nat × Nat))
  | noSpace (s : State)
/-- Creates objects one after another (R366, R357); `made` lists the handles so far and `gone` the victims. -/
def State.createAll (s : State) (ck : Nat) (w : World) (handles : List Handle) (gone : List (Nat × Nat)) :
    Nat → List ImageObject → Creations
  | 0, _ => .wait gone
  | _ + 1, [] => .made s handles
  | fuel + 1, o :: rest =>
    let d := if 1 ≤ o.home ∧ o.home ≤ 4 then o.home - 1 else dieOf ck
    match s.create d w ((o.size + 2 ^ 14 - 1) / 2 ^ 14) o.prio o.weak with
    | .made s h => s.createAll ck w (handles ++ [h]) gone fuel rest
    | .noSpace => .noSpace (handles.foldl (fun s h => s.destroyObject h.die h.index) s)
    | .wait t =>
      match s.candidate d w.toNat with
      | some i => t.createAll ck w handles (gone ++ [(d, i)]) fuel (o :: rest)
      | none => .wait gone
/-- Writes the handles of created objects into their labels (R366). -/
def State.writeHandles (s : State) (c : Colour) : List (ImageObject × Handle) → Mem Unit
  | [] => .done s ()
  | (o, h) :: rest => (s.coreWriteNow c o.va (natBytes 8 h.toNat)).bind fun s _ => s.writeHandles c rest

/-- A world's measurement is extended with an accepted image (R402). -/
def State.extendMeasure (s : State) (w : Nat) (bytes : List Byte) : State :=
  let m := s.measure w
  let new : Measurement := ⟨Sha.hash (Sha.digestBytes m.digest ++ Sha.digestBytes (Sha.hash bytes)), m.count + 1⟩
  { s with measures := Map.put s.measures w new }
/-- Puts a word of a context into a slot; the slot starts afresh, but for its pending register (R320). -/
def Tile.install (t : Tile) (key : Nat) (word : BitVec 128) (ctx : Option Nat) : Tile :=
  t.modSlot key fun x => { Slot.reset with word := word, ctx := ctx, pending := x.pending }
/-- Writes a tile's registers for a plane: those of the active plane, or those that the world will find (R329). -/
def Tile.loadRegs (t : Tile) (plane : Nat) (w : World) (r : FabRegs) : Tile :=
  if t.plane.toNat = plane then { t with regs := { r with acc := t.regs.acc } }
  else { t with saved := Map.put t.saved w.toNat { r with acc := (Map.get t.saved w.toNat FabRegs.reset).acc } }
/-- A tile is to change to a plane (R328); of several the lowest is taken. -/
def State.wantPlane (s : State) (tk plane : Nat) : State :=
  s.modTile tk fun t =>
    if t.plane.toNat = plane then t
    else match t.swap with
      | some x => if x.target ≤ plane then t else { t with swap := some { x with target := plane } }
      | none => { t with swap := some ⟨plane, s.cycles, none⟩ }
/-- Images `.data scratch` bytes of a tile; their granules become FULL (R169). -/
def State.imageScratch (s : State) (tk : Nat) (bs : List Byte) : State := if bs = [] then s else s.spFill tk 0 bs false

/-- Gives each entry port of a launch a port-table entry, lowest index first (R316). -/
def Cluster.givePorts (k : Cluster) (ctx : Nat) (g : Image) : Nat → List GraphPort → Cluster × List GraphPort
  | _, [] => (k, [])
  | i, p :: rest =>
    if p.isExit then
      let (k, ps) := k.givePorts ctx g (i + 1) rest
      (k, p :: ps)
    else
      match k.freePorts with
      | [] =>
        let (k, ps) := k.givePorts ctx g (i + 1) rest
        (k, p :: ps)
      | n :: _ =>
        let q := match g.ports[i]? with | some x => x.quotas | none => []
        let e : PortEntry := ⟨i, ctx, q.foldl (fun m c => Map.put m c.1 c.2) [], []⟩
        let (k, ps) := Cluster.givePorts { k with ports := Map.put k.ports n e } ctx g (i + 1) rest
        (k, { p with table := some n } :: ps)
/-- The words of a placed image as its launch keeps them. -/
def Image.placedWords (g : Image) (p : Placed) : List PlacedWord :=
  g.words.map fun w => ⟨16 * (p.oy + w.y) + p.ox + w.x, w.slot, w.word, BitVec.ofNat 3 w.back⟩
/-- The launch that an image makes. -/
def Image.launch (g : Image) (p : Placed) (ports : List GraphPort) (plane ring : Nat) (join : Word) (c : Colour)
    (st : LaunchState) : Launch :=
  { state := st, world := BitVec.ofNat 6 g.world, plane := plane, x := p.ox, y := p.oy, w := p.w, h := p.h
    levels := g.levels, words := g.placedWords p, ports := ports, ring := ring, join := join, colour := c
    predecessor := none, successor := none, spliceRegs := [], bound := false, colours := [], admitted := []
    starts := [], sinkEos := [], exitEos := [], outstanding := 0, requester := none, writtenBack := false, race := g.warn, quiet := none }
/-- Makes a launch context with its port-table entries. -/
def State.allocate (s : State) (ck ctx : Nat) (g : Image) (l : Launch) : State :=
  s.modCluster ck fun k =>
    let (k, ps) := k.givePorts ctx g 0 l.ports
    { k with launches := Map.put k.launches ctx { l with ports := ps } }
/-- The tile of a tile record. -/
def Placed.tileOf (p : Placed) (t : ImageTile) : Nat := 16 * (p.oy + t.y) + p.ox + t.x
/-- TSBND of every tile of an image. -/
def State.setBounds (s : State) (ck : Nat) (p : Placed) (w : World) (ts : List ImageTile) : Option State :=
  ts.foldl (fun acc t => acc.bind fun s => s.setBound (192 * ck + p.tileOf t) t.need w) (some s)
/-- Installs words, registers and scratch images; registers of the region that the image does not name are zero
(18_prog_q16n_matvec.md R349); the tiles change to the image's plane (R293, R328). -/
def State.installImage (s : State) (ck ctx plane : Nat) (g : Image) (p : Placed) : State :=
  let w : World := BitVec.ofNat 6 g.world
  let s := (g.placedWords p).foldl (fun s x =>
    (s.modTile (192 * ck + x.ti) fun t => t.install (64 * plane + x.slot) x.word (some ctx)).wantPlane
      (192 * ck + x.ti) plane) s
  let s := (List.range (p.w * p.h)).foldl (fun s i =>
    let ti := 16 * (p.oy + i / p.w) + p.ox + i % p.w
    let r := ((g.tiles.find? fun t => p.tileOf t = ti).bind (·.regs)).getD FabRegs.reset
    s.modTile (192 * ck + ti) fun y => y.loadRegs plane w r) s
  g.tiles.foldl (fun s t => s.imageScratch (192 * ck + p.tileOf t) t.scratch) s

/-- The credit of a restored token: the entry of the new context that stands for the port of the old one. -/
def mapCredit (ck : Nat) (old new : Launch) (c : Option Credit) : Option Credit :=
  c.bind fun c =>
    (old.ports.findIdx? fun g => !g.isExit && g.table = some c.port).bind fun i =>
      (new.ports[i]?).bind fun g => g.table.map fun n => ⟨ck, n⟩
/-- A token of a restored context (R381): CTX and credit rewritten, EPOCH that of its tile. -/
def restoreToken (ck ctx : Nat) (old new : Launch) (epoch : Bool) (t : Token) : Token :=
  { t with tag := { t.tag with ctx := BitVec.ofNat 11 ctx }, credit := mapCredit ck old new t.credit, epoch := epoch }
/-- Puts an operand into a matching store with age 0 in WAIT state, or keeps it until its plane is active (R381). -/
def State.restoreEntry (s : State) (tk plane : Nat) (t : Token) : State :=
  let (s, n) := s.newSeq
  let (s, id) := s.newId
  let e : Entry := ⟨t, id, List.replicate t.payload.beats s.cycles, s.cycles, n, 0, .wait, false⟩
  s.modTile tk fun x =>
    match x.freeEntry, x.plane.toNat = plane && x.swap.isNone with
    | some i, true => { x with store := Map.put x.store i e }
    | _, _ => { x with restored := x.restored ++ [(plane, e)] }
/-- A table keyed by colour and context, for another context. -/
def rekey {α : Type} (old ctx : Nat) (m : Map α) : Map α :=
  m.foldl (fun (r : Map α) e =>
    if e.1 % 2048 = old then Map.put r (e.1 / 2048 * 2048 + ctx) e.2 else r) []
/-- The tokens that a snapshot image holds for a tile: its operands, those it had spilled, and those caught on the way to
it. -/
def SnapImage.tokens (g : SnapImage) (t : SavedTile) : List Token :=
  (t.entries.map fun e => e.token) ++ (t.spills.map fun e => e.token) ++
    (g.caught.filter fun c => c.2.1 = t.ti).map fun c => c.2.2
/-- Restores the scratchpad of a tile, with its full/empty bits, where the tile's bound is the world's (R169, R381). -/
def State.restoreScratch (s : State) (tk : Nat) (w : World) (t : SavedTile) : State :=
  if (s.tile tk).tsWorld != w then s
  else (s.modTile tk fun x => { x with scratch := t.scratch, poison := t.poison }).setBits tk t.full
/-- Restores what a snapshot image holds beside its words (R381, R389), in a launch that has just been installed. -/
def State.restore (s : State) (ck ctx oldCtx : Nat) (g : SnapImage) : State :=
  match s.launch? ck ctx with
  | none => s
  | some l =>
    let old := g.launch
    let shift := fun (ti : Nat) => (ti + 16 * l.y + l.x) - (16 * old.y + old.x)
    let plane := l.plane
    let s := g.tiles.foldl (fun s t =>
      let tk := 192 * ck + shift t.ti
      let s := (s.restoreScratch tk l.world t).modTile tk fun x =>
        let x := if x.plane.toNat = plane then { x with regs := t.regs }
          else { x with saved := Map.put x.saved l.world.toNat t.regs }
        t.slots.foldl (fun x e => x.modSlot e.1 fun y =>
          { y with
            active := rekey oldCtx ctx e.2.active
            next := rekey oldCtx ctx e.2.next
            closed := e.2.closed
            chosen := e.2.chosen }) x
      let epoch := (s.tile tk).epochs.getLsbD plane
      (g.tokens t).foldl (fun s u => s.restoreEntry tk plane (restoreToken ck ctx old l epoch u)) s) s
    let units := g.reorders.map fun (r : Reorder) =>
      { r with ctx := ctx, held := r.held.map fun h => (restoreToken ck ctx old l false h.1, 0) }
    let credits := (g.tiles.flatMap g.tokens ++ g.reorders.flatMap fun r => r.held.map (·.1)).filterMap fun t =>
      (mapCredit ck old l t.credit).map fun c => (c.port, t.tag.colour)
    s.modCluster ck fun k =>
      { k with
        reorders := k.reorders ++ units
        ports := credits.foldl (fun ps c =>
          match Map.get? ps c.1 with
          | none => ps
          | some e => Map.put ps c.1
              { e with inFlight := Map.put e.inFlight c.2.toNat (Map.get e.inFlight c.2.toNat 0 + 1) }) k.ports
        launches := Map.put k.launches ctx
          { l with
            starts := g.ports
            sinkEos := old.sinkEos.map fun x => (shift x.1, x.2.1, x.2.2)
            exitEos := old.exitEos } }

end Sys2Proof.Machine
end

