-- ==== Sys2Proof/Machine/Planes.lean ====
section
/-!
DEFINITION. Planes of a tile (16_scheduling.md R327 to R329): when a tile swaps its active plane, the drain before a
swap, the exchange of registers; and the return of a tile's frozen state (21_faults_preemption.md R378).
-/
namespace Sys2Proof.Machine

/-- Whether a word of a launch, in a tile where its plane is active, has a ready tag and a destination in a tile. -/
def State.wordWants (s : State) (ck ti : Nat) (l : Launch) (w : PlacedWord) : Bool :=
  let tk := 192 * ck + w.ti
  let t := s.tile tk
  t.plane.toNat = l.plane && t.swap.isNone &&
    match s.slotOp tk l.plane w.slot with
    | none => false
    | some (opc, f) =>
      (OpTable.dests f).any (fun d => destTile w.ti d.2 = some ti) &&
        s.matches' ⟨tk, l.plane, w.slot, opc, f⟩ != []
/-- Whether a reservation for a context's plane has been refused at a tile (R327): a port of the context whose node lies
there has a token, or a ready firing sends there (log 32). -/
def State.planeRefused (s : State) (ck ti ctx : Nat) (l : Launch) : Bool :=
  (s.cluster ck).bindings.any (fun b =>
    b.ctx = ctx && !b.isExit && b.active && !b.halted && b.ready != [] &&
      l.ports.any fun g => !g.isExit && g.phys = b.phys && g.ti = ti) ||
  l.words.any fun w => s.wordWants ck ti l w
/-- The plane that a tile should change to where its active plane holds no RUNNING or SPLICING context (R328). -/
def State.planeDemand (s : State) (tk : Nat) : Option Nat :=
  let ck := ckOf tk
  let t := s.tile tk
  let ls := (s.cluster ck).launches
  let live := fun (l : Launch) => (l.state = .running || l.state = .splicing) && l.covers (tiOf tk)
  if ls.any fun e => live e.2 && e.2.plane = t.plane.toNat then none
  else (List.range 4).find? fun p => p != t.plane.toNat && ls.any fun e =>
    live e.2 && e.2.plane = p && !s.isFrozen e.2.world && s.planeRefused ck (tiOf tk) e.1 e.2
/-- Whether nothing of the outgoing plane is left in a tile: entries, reservations, results of units, accesses; parked
full/empty accesses stay (R329). -/
def Tile.drained (t : Tile) : Bool :=
  let p := t.plane.toNat
  t.store = [] && t.reserved.all (fun r => r.plane != p) && t.vector.all (fun v => v.plane != p) && t.trail.all (fun v => v.plane != p) &&
    t.narrow.all (fun n => n.plane != p) && t.array.all (fun a => a.plane != p) &&
    t.accesses.all fun a => a.plane != p || a.phase = .parked
/-- Steps 5 and 6 of R329: the registers of the outgoing world are saved and those of the incoming world loaded, zeroed
where none were saved; the active plane changes. -/
def Tile.exchange (t : Tile) (out into : Option World) (target : Nat) : Tile :=
  let saved := match out with | some w => Map.put t.saved w.toNat t.regs | none => t.saved
  { t with
    saved := saved
    regs := (match into with | some w => Map.get saved w.toNat FabRegs.reset | none => FabRegs.reset)
    plane := BitVec.ofNat 2 target
    swap := none }
/-- An entry that comes back from a freeze area: a fault that it waited for is looked at again (R378). -/
def Entry.thawed (e : Entry) : Entry :=
  match e.state with
  | .walking => { e with state := .wait }
  | .page _ _ => { e with state := .wait }
  | _ => e
/-- Writes the saved state of a thawed tile back (R378); a latched tag fires first, unless its world is in a debug stop
(`held`, R385). -/
def Tile.putBack (t : Tile) (x : FrozenTile) (held : Bool) : Tile :=
  { t with
    resume := t.resume || (x.latch.isSome && !held)
    store := x.store.map fun e => (e.1, e.2.thawed)
    reserved := t.reserved ++ x.reserved
    vector := t.vector ++ x.vector
    trail := t.trail ++ x.trail
    narrow := t.narrow ++ x.narrow
    array := (match t.array with | some a => some a | none => x.array)
    commits := t.commits ++ x.commits
    latch := (match t.latch with | some l => some l | none => x.latch) }
/-- Operands that waited for their plane enter the store (R381), as far as it has entries. -/
def Tile.takeRestored (t : Tile) : Tile :=
  t.restored.foldl (fun (t : Tile) (e : Nat × Entry) =>
    match t.freeEntry, decide (e.1 = t.plane.toNat) with
    | some i, true => { t with store := Map.put t.store i e.2 }
    | _, _ => { t with restored := t.restored ++ [e] }) { t with restored := [] }
/-- The change of the active plane, with what comes back on it. -/
def State.swapNow (s : State) (tk target : Nat) : State :=
  let out := s.planeWorld tk (s.tile tk).plane.toNat
  let into := s.planeWorld tk target
  let mine := fun (x : FrozenTile) => x.tk = tk && x.plane = target
  let back := s.thawing.find? mine
  let held := match into with | some w => s.debugStops.contains w.toNat | none => false
  let s := { s with thawing := s.thawing.filter fun x => !mine x }
  s.modTile tk fun t =>
    let t := t.exchange out into target
    (match back with | some x => t.putBack x held | none => t).takeRestored
/-- PLANE_SWAP (R328, R329): a swap begins where another plane is wanted; once the outgoing plane is drained, the exchange of registers
takes 64 FCLK cycles, and the plane changes. -/
def execPlaneSwap (tk : Nat) (s : State) : Result' :=
  let t := s.tile tk
  match t.swap with
  | none =>
    (match s.planeDemand tk with
      | none => .next s
      | some p => .next (s.wantPlane tk p))
  | some w =>
    if !t.drained || s.scanning (ckOf tk) then .next s
    else match w.exchange with
      | none => .next (s.modTile tk fun t => { t with swap := some { w with exchange := some s.cycles } })
      | some since => if s.cycles - since < 64 then .next s else .next (s.swapNow tk w.target)
/-- SWAP_DRAIN_EXPIRY (R329): 4,096 FCLK cycles after the swap began, every WAIT entry that remains is acted on with
status SWAP; entries that leave FAULT state later are treated in the same way. -/
def execSwapDrainExpiry (tk : Nat) (s : State) : Result' :=
  let t := s.tile tk
  match t.swap with
  | none => .next s
  | some w =>
    if s.cycles - w.since < 4096 then .next s
    else .next ((t.store.filter fun e => e.2.state = .wait && !e.2.spilling).foldl (fun s e => s.actOn tk e.1 e.2 0x04) s)

end Sys2Proof.Machine
end

