-- ==== Sys2Proof/Machine/Freeze.lean ====
section
/-!
DEFINITION. Freezing a world in place and thawing it (21_faults_preemption.md R377, R378, R385; 14_control_core.md R304).
-/
namespace Sys2Proof.Machine

/-- Whether a launch context of a cluster belongs to a world. -/
def State.ctxIn (s : State) (ck : Nat) (w : World) (ctx : Nat) : Bool := s.worldOfCtx ck ctx = some w
/-- The tiles of a cluster whose active plane is a world's. -/
def State.activeTiles (s : State) (ck : Nat) (w : World) : List Nat :=
  (tilesOf ck).filter fun tk => s.planeWorld tk (s.tile tk).plane.toNat = some w
/-- The tag context of what a router buffer holds of a graph: tokens, credit returns, markers, SPLICE tokens (R377). The accesses that
have been issued, and their answers, go on. -/
def State.flitCtx (s : State) (f : Flit) : Option (Option Nat × Nat) :=
  match f.cargo with
  | .credit k _ => (Map.get? (s.cluster k.ck).ports k.port).map fun e => (some k.ck, e.ctx)
  | .marker m => some (none, m.ctx)
  | .splice x _ => some (none, x.ctx)
  | .token _ _ _ _ t => some (none, t.tag.ctx.toNat)
  | .exit x _ => some (none, x.token.tag.ctx.toNat)
  | _ => none
/-- Whether a flit of a cluster is a world's. -/
def State.flitIn (s : State) (ck : Nat) (w : World) (f : Flit) : Bool :=
  (s.flitCtx f).any fun x => s.ctxIn (x.1.getD ck) w x.2
/-- The clusters that hold an active plane or a flit of a world (R377). -/
def State.clustersOf (s : State) (w : World) : List Nat :=
  (s.clusters.map (·.1)).filter fun ck =>
    let k := s.cluster ck
    s.activeTiles ck w != [] || k.flits.any (s.flitIn ck w) ||
      k.exits.any fun e => s.ctxIn ck w e.token.tag.ctx.toNat
/-- Begins a freeze: the clusters stall (R377 step 1). -/
def State.freezeStart (s : State) (w : World) : State :=
  if s.isFrozen w then s
  else
    let cks := s.clustersOf w
    { s with frozen := Map.put s.frozen w.toNat ⟨s.cycles, cks, cks, false, [], [], [], [], []⟩ }

/-- What the scan takes from a tile (R377 step 2). -/
def State.scanTile (s : State) (w : World) (tk : Nat) : FrozenTile :=
  let t := s.tile tk
  let p := t.plane.toNat
  let mine := fun (c : CommitEntry) => s.ctxIn (ckOf tk) w c.ctx
  let words := (t.slots.filter fun e => e.1 / 64 = p).map fun (e : Nat × Slot) => (e.1, e.2.word)
  { tk := tk, plane := p, words := words, store := t.store, reserved := t.reserved.filter fun r => r.plane = p
    vector := t.vector.filter fun v => v.plane = p, trail := t.trail.filter fun v => v.plane = p, narrow := t.narrow.filter fun n => n.plane = p
    array := (match t.array with | some a => if a.plane = p then some a else none | none => none)
    commits := t.commits.filter mine, latch := t.latch }
/-- The tile without it. -/
def Tile.scannedOut (t : Tile) (x : FrozenTile) : Tile :=
  { t with
    store := []
    reserved := t.reserved.filter fun r => r.plane != x.plane
    vector := t.vector.filter fun v => v.plane != x.plane
    trail := t.trail.filter fun v => v.plane != x.plane
    narrow := t.narrow.filter fun n => n.plane != x.plane
    array := (match t.array with | some a => if a.plane = x.plane then none else some a | none => none)
    commits := t.commits.filter fun c => !x.commits.contains c
    walks := []
    latch := none
    resume := false }
/-- The plane that a tile of a frozen world changes to: the lowest that holds a graph of another world which is not
frozen, else the lowest other one (R377 step 4, R328). -/
def State.planeAfter (s : State) (tk : Nat) : Nat :=
  let others := (List.range 4).filter fun p => p != (s.tile tk).plane.toNat
  let good := fun (p : Nat) => match s.planeWorld tk p with | some v => !s.isFrozen v | none => false
  match others.find? good with
  | some p => p
  | none => others.headD 0
/-- Takes a tile's state out and swaps it. -/
def State.freezeTile (s : State) (w : World) (tk : Nat) : State × FrozenTile :=
  let x := s.scanTile w tk
  let s := s.modTile tk fun t => t.scannedOut x
  (s.swapNow tk (s.planeAfter tk), x)
/-- What the scan of a cluster adds to a freeze area, and the machine after it (R377 steps 2 to 4). -/
def State.freezeCluster (s : State) (w : World) (x : Frozen) (ck : Nat) : State × Frozen :=
  let k := s.cluster ck
  let mine := fun (c : Nat) => s.ctxIn ck w c
  let portMine := fun (p : Nat) => match Map.get? k.ports p with | some e => mine e.ctx | none => false
  let (s, ts) := (s.activeTiles ck w).foldl (fun (r : State × List FrozenTile) tk =>
    let (s, t) := r.1.freezeTile w tk
    (s, r.2 ++ [t])) (s, [])
  let x := { x with
    tiles := x.tiles ++ ts
    flits := x.flits ++ (k.flits.filter (s.flitIn ck w)).map fun f => (ck, f)
    exits := x.exits ++ (k.exits.filter fun e => mine e.token.tag.ctx.toNat).map fun e => (ck, e)
    credits := x.credits ++ (k.credits.filter fun c => portMine c.1).map fun c => (ck, c.1, c.2)
    markers := x.markers ++ (k.markers.filter fun m => mine m.ctx).map fun m => (ck, m) }
  (s.modCluster ck fun k =>
    { k with
      flits := k.flits.filter fun f => !s.flitIn ck w f
      exits := k.exits.filter fun e => !mine e.token.tag.ctx.toNat
      credits := k.credits.filter fun c => !portMine c.1
      markers := k.markers.filter fun m => !mine m.ctx }, x)
/-- The contexts that wait for a scan issue their instruction again. -/
def State.wakeScan (s : State) : State :=
  { s with clusters := s.clusters.map fun (e : Nat × Cluster) =>
      (e.1, { e.2 with ctxs := e.2.ctxs.map fun c => if c.park = .scan then { c with park := .none } else c }) }
/-- The end of the scan of a freeze. -/
def State.freezeEnd (s : State) (w : World) (x : Frozen) : State :=
  let (s, x) := x.clusters.foldl (fun (r : State × Frozen) ck => r.1.freezeCluster w r.2 ck) (s, x)
  { s with frozen := Map.put s.frozen w.toNat { x with scanning := [] } }
/-- A thawed tile gets its state back, at once where it stands on the plane or can change to it, else by an ordinary
swap (R378). -/
def State.thawTile (w : World) (s : State) (x : FrozenTile) : State :=
  let t := s.tile x.tk
  if t.plane.toNat = x.plane then s.modTile x.tk fun t => t.putBack x (s.debugStops.contains w.toNat)
  else
    let s := { s with thawing := s.thawing ++ [x] }
    if t.drained then s.swapNow x.tk x.plane else s.wantPlane x.tk x.plane
/-- The end of the scan of a thaw. -/
def State.thawEnd (s : State) (w : World) (x : Frozen) : State :=
  let s := { s with frozen := Map.del s.frozen w.toNat }
  let back := fun (k : Cluster) (ck : Nat) => ({ k with
    flits := k.flits ++ (x.flits.filter fun e => e.1 = ck).map (·.2)
    exits := k.exits ++ (x.exits.filter fun e => e.1 = ck).map (·.2)
    credits := k.credits ++ (x.credits.filter fun e => e.1 = ck).map (·.2)
    markers := k.markers ++ (x.markers.filter fun e => e.1 = ck).map (·.2) } : Cluster)
  let s := x.clusters.foldl (fun s ck => s.modCluster ck fun k => back k ck) s
  x.tiles.foldl (State.thawTile w) s
/-- FREEZE_SCAN_COMPLETE (R377, R378): every cluster has finished, 2,600 FCLK cycles after it began; the contexts that wait go on. -/
def execFreezeScanComplete (world : Nat) (s : State) : Result' :=
  match Map.get? s.frozen world with
  | none => .next s
  | some x =>
    let w : World := BitVec.ofNat 6 world
    if x.scanning = [] ∨ s.cycles - x.since < 2600 then .next s
    else if x.thawing then .next (s.thawEnd w x).wakeScan
    else .next (s.freezeEnd w x).wakeScan

/-- Whether every frozen tile holds its words and its world's boundary (R378). -/
def State.thawOk (s : State) (w : World) (x : Frozen) : Bool :=
  x.tiles.all fun t =>
    (s.tile t.tk).tsWorld = w &&
      ((s.tile t.tk).slots.filter fun e => e.1 / 64 = t.plane).map (fun (e : Nat × Slot) => (e.1, e.2.word)) = t.words
/-- Starts a scan for the acting context, which waits for it. -/
def State.scanFor (s : State) : State := (s.modMe fun c => { c with armed := true }).parkMe .scan
/-- Freezes a world for the acting context (R377). -/
def State.freezeMe (s : State) (w : World) : State :=
  if s.isFrozen w then s.report 0 0
  else
    let t := s.freezeStart w
    if s.clustersOf w = [] then t.report 0 0 else t.scanFor
/-- Thaws a world for the acting context (R378). -/
def State.thawMe (s : State) (w : World) : State :=
  match Map.get? s.frozen w.toNat with
  | none => s.report 0x13 0
  | some x =>
    if x.scanning != [] then s
    else if !s.thawOk w x then s.report 0x10 0
    else if x.clusters = [] then ({ s with frozen := Map.del s.frozen w.toNat }).report 0 0
    else ({ s with frozen := Map.put s.frozen w.toNat { x with since := s.cycles, scanning := x.clusters, thawing := true } }).scanFor
/-- `freeze` and `thaw` are one word (R304): privileged, with xa[8] to thaw; VALUE is the number of clusters frozen. -/
def State.freezeOp (s : State) (xa : Reg) : State :=
  let v := (s.reg xa).toNat
  let w : World := BitVec.ofNat 6 v
  let area := Map.get? s.frozen w.toNat
  if s.me.world != 0 then s.takeTrap 0x03 0 0 0
  else if s.me.armed then
    (match area with
      | some x => if x.scanning != [] then s.parkMe .scan else s.report 0 x.clusters.length
      | none => s.report 0 0)
  else if v ≥ 512 || bits v 7 6 != 0 then s.report 0x01 0
  else if w = 0 then s.report 0x02 0
  else if v ≥ 256 then s.thawMe w
  else s.freezeMe w
/-- `freeze` (R304, R377). -/
def execFreeze (xa : Reg) (s : State) : Result' := .next (s.freezeOp xa)
/-- `thaw`: the same word with xa[8] = 1 (R304, R378). -/
def execThaw (xa : Reg) (s : State) : Result' := .next (s.freezeOp xa)

end Sys2Proof.Machine
end

