-- ==== Sys2Proof/Machine/Colours.lean ====
section
/-!
DEFINITION. Limits and retirement of colours (14_control_core.md R298, R299; 05_main_memory.md R113), event rings (R300;
09_block_transfer.md R188 to R190), barrier objects (R301; 08_tile_memory.md R173 to R175).
-/
namespace Sys2Proof.Machine

/-- Whether the value of an ITEM of `colq` lies in its range (R298). -/
def colqOk (item v : Nat) : Bool :=
  match item with
  | 0 => v ≤ 32
  | 1 => v = 0 || (64 ≤ v && v ≤ 1048576)
  | 2 => v ≤ 1
  | 3 => v % 2 ^ 14 = 0
  | 4 => v ≤ 65535
  | 5 => 1 ≤ v && v ≤ 256
  | _ => false
/-- Whether the other bits of the immediate are zero; ITEM 5 has a port index in imm[21:16]. -/
def colqImmOk (imm : Nat) : Bool :=
  let item := imm % 16
  item ≤ 5 && (if item = 5 then bits imm 15 4 = 0 && bits imm 31 22 = 0 else bits imm 31 4 = 0)
/-- The floors of a world's colours other than one (R41). -/
def State.otherFloors (s : State) (w : World) (c : Colour) : Nat :=
  s.floorSum w - (if (s.colour c).world = w ∧ (s.colour c).state ≠ .free then (s.colour c).floor else 0)
/-- Sets a limit of a colour. -/
def ColourEntry.limit (e : ColourEntry) (item v : Nat) : ColourEntry :=
  match item with
  | 0 => { e with floor := v }
  | 1 => { e with age := v }
  | 2 => { e with spill := v = 1 }
  | 3 => { e with spillBase := some v }
  | _ => { e with ring := some v }
/-- `colq` (R298): its outcome in CCSTS. -/
def execColq (xa xb : Reg) (imm : BitVec 32) (s : State) : Result' :=
  let c := colourOf (s.reg xa).toNat
  let v := (s.reg xb).toNat
  let i := imm.toNat
  let item := i % 16
  let w := s.me.world
  let ck := s.actor.ck
  let port := bits i 21 16
  let mine : Bool := match Map.get? s.myCluster.ports port with
    | some p => s.worldOfCtx ck p.ctx = some w
    | none => false
  .next (
    if (s.reg xa).toNat ≥ 512 || !colqImmOk i then s.report 0x01 0
    else if (s.colour c).state != .live || (s.colour c).world != w || (item = 5 && !mine) then s.report 0x02 0
    else if !colqOk item v || (item = 2 && v = 1 && (s.colour c).spillBase.isNone) then s.report 0x01 0
    else if item = 0 && s.otherFloors w c + v > 192 then s.report 0x0C 0
    else if item = 5 then
      (s.modCluster ck fun k =>
        let p := Map.get k.ports port ⟨0, 0, [], []⟩
        { k with ports := Map.put k.ports port { p with quota := Map.put p.quota c.toNat v } }).report 0 0
    else (s.modColour c fun e => e.limit item v).report 0 0)
/-- Why a world may not retire a colour (R299, R113): COLOUR, OWNER or SHARED, or 0. -/
def State.retireStatus (s : State) (w : World) (c : Colour) : Nat :=
  if (s.colour c).state != .live then 0x0A
  else if !s.mayInvalidate w c then 0x02
  else if s.colours.any fun e => e.1 != c.toNat && e.2.state = .live && e.2.kshare = c then 0x0D
  else 0
/-- Retirement begins (R113). -/
def State.retire (s : State) (c : Colour) : State := s.setColour c fun e => { e with state := .retiring, dropped := false }
/-- `colret` (R299). -/
def execColret (xa : Reg) (s : State) : Result' :=
  let c := colourOf (s.reg xa).toNat
  .next (
    if c = s.me.colour then s.report 0x0E 0
    else if s.retireStatus s.me.world c != 0 then s.report (s.retireStatus s.me.world c) 0
    else (s.retire c).report 0 0)
/-- Whether a stash holds stores that a colour may have made and that have not gone to their homes (R111). -/
def State.storesHeld (s : State) (c : Colour) : Bool :=
  s.tiles.any fun e => e.2.stash.any fun l => l.dirty != 0 && s.mayKey c l.key
/-- COLOUR_RETIRE_DROP (R113): the invalidation of the whole colour (R110, mode 1), whose stores in stashes go home first; it is
complete once every access of it has been performed (R111), and then lines of slices and stashes tagged with the colour are
dropped without write-back. -/
def execColourRetireDrop (colour : Nat) (s : State) : Result' :=
  let c := colourOf colour
  if (s.colour c).state = .retiring && !(s.colour c).dropped then
    if s.storesHeld c then .next (s.stashSweep (s.mayKey c))
    else if s.accessesLeft (fun key d va => d = c || va.isNone && s.mayKey c key) then .next s
    else .next (((s.sweep (fun t => t.colour = c) fun _ => false).dropLines fun _ k => k = c).modColour c
      fun e => { e with dropped := true })
  else .next s
/-- Whether a line tagged with a colour is still held, or queued to be written back. -/
def State.lineLeft (s : State) (c : Colour) : Bool :=
  s.slices.any (fun e => e.2.lines.any (fun x => x.key = c) || e.2.writeBacks.any fun x => x.key = c) ||
  s.tiles.any fun e => e.2.stash.any fun x => x.key = c
/-- KEYKILL in every key slot holder (R113). -/
def State.killKeys (s : State) (c : Colour) : State :=
  { s with keySlots := (List.range 9).foldl (fun m h => Map.del m (512 * h + c.toNat)) s.keySlots }
/-- A colour becomes FREE; the pager clears POISON (21_faults_preemption.md R375). -/
def State.freeColour (s : State) (c : Colour) : State :=
  (if (s.colour c).poisoned then s.markPoison c false else s).setColour c fun e =>
    { e with state := .free, dropped := false, poisoned := false }
/-- COLOUR_FREE (R113): KEYKILL at the eight stacks and the CXL.mem requester, and the colour is FREE. -/
def execColourFree (colour : Nat) (s : State) : Result' :=
  let c := colourOf colour
  if (s.colour c).state = .retiring && (s.colour c).dropped && !s.lineLeft c then
    .next ((s.killKeys c).freeColour c)
  else .next s

/-- Whether a world may use a ring (R300). -/
def State.ringUsable (s : State) (n : Nat) (w : World) : Bool := (s.ring n).en && (s.ring n).world = w
/-- `evarm` (R300). -/
def execEvarm (xa : Reg) (s : State) : Result' :=
  let n := (s.reg xa).toNat
  .next (
    if n ≥ 2 ^ 16 then s.report 0x01 0
    else if !s.ringUsable n s.me.world then s.report 0x02 0
    else (s.modRing n fun g => { g with notify := true }).report 0 0)
/-- What `evwait` returns (R277, R300): PROD, or −OWNER. -/
def State.evValue (s : State) (n : Nat) : Word :=
  if s.ringUsable n s.me.world then (s.ring n).prod.setWidth 64 else -2
/-- `evwait` (R300): one that has parked is issued again when the event unit has cleared NOTIFY, and then completes. -/
def execEvwait (xd xa : Reg) (s : State) : Result' :=
  let n := (s.reg xa).toNat
  .next (
    if n ≥ 2 ^ 16 then s.finish xd (-1)
    else if s.me.armed then (s.acquireMe scopePkg).finish xd (s.evValue n)
    else if !s.ringUsable n s.me.world then s.finish xd (-2)
    else if !(s.ring n).notify then (s.acquireMe scopePkg).finish xd (s.evValue n)
    else (s.modMe fun c => { c with armed := true }).parkMe (.ring n))
/-- EVENT_RECORD_WRITE (R188 to R190): the k-th record is written where no earlier one names the same ring, and its line
is not locked; its join word is decremented after it (R187). -/
def execEventRecordWrite (k : Nat) (s : State) : Result' :=
  match s.records[k]? with
  | none => .next s
  | some r =>
    if (s.records.take k).any fun q => q.ring = r.ring then .next s
    else
      match ({ s with records := s.records.eraseIdx k }).writeRecord r, r.join with
      | none, _ => .next s
      | some t, none => .next t
      | some t, some j => .next (t.joinWord j)

/-- The barrier object that a register names (R301), or a fault code. -/
def State.barrierAt (s : State) (a : Nat) : Except Nat (Nat × Nat) :=
  if a ≥ 2 ^ 24 then .error codeSpRange
  else if a % 16 != 0 then .error codeAlign
  else s.spCheck s.actor.ck s.me.colour a 16
/-- `binit` (R301). -/
def execBinit (xa xb : Reg) (s : State) : Result' :=
  let a := (s.reg xa).toNat
  .next (match s.barrierAt a with
    | .error k => s.memTrap k a
    | .ok (tk, off) =>
      let v := (s.reg xb).toNat % 2 ^ 32
      ((s.modTile tk fun t =>
        let b := t.barrier off
        (t.setBarrier off { b with expected := v, arrived := 0, err := false }).setFull [off / 16] true).feChanged tk
          [off / 16]).report 0 0)
/-- The scope of an instruction on scratchpad that names none: CLUS (R282). -/
def scopeOrClus (sc : Option Scope) : Nat := match sc with | none => 2 | some x => Sys2Proof.Decode.scopeCode x
/-- `barv` (R301): the release, then the arrival. -/
def execBarv (xa xb : Reg) (sc : Option Scope) (s : State) : Result' :=
  let a := (s.reg xa).toNat
  .next (match s.barrierAt a with
    | .error k => s.memTrap k a
    | .ok (tk, off) =>
      s.afterRelease (scopeOrClus sc) fun t => (t.arriveAt tk off ((t.reg xb).toNat % 2 ^ 32)).report 0 0)
/-- `bwait` (R301): it parks while the wait is not satisfied, and is issued again when an arrival wakes it. -/
def execBwait (xd xa xb : Reg) (sc : Option Scope) (s : State) : Result' :=
  let a := (s.reg xa).toNat
  .next (match s.barrierAt a with
    | .error k => s.memTrap k a
    | .ok (tk, off) =>
      let b := (s.tile tk).barrier off
      let p := (s.reg xb).toNat % 2 ^ 16
      if b.passed p then (s.acquireMe (scopeOrClus sc)).finish xd (BitVec.ofNat 64 b.phase)
      else (s.modTile tk fun t => t.setBarrier off { b with waiters := (b.waiters + 1) % 2 ^ 16 }).parkMe (.barrier a p))
/-- BARRIER_ARRIVAL (R174): the k-th arrival of a cluster, where no earlier one is for the same object; an object that
lies outside the tile's scratchpad gets none. -/
def execBarrierArrival (ck k : Nat) (s : State) : Result' :=
  let l := (s.cluster ck).arrivals
  match l[k]? with
  | none => .next s
  | some a =>
    if (l.take k).any fun q => q.tk = a.tk && q.off = a.off then .next s
    else
      let s := s.modCluster ck fun x => { x with arrivals := x.arrivals.eraseIdx k }
      if a.off + 16 > 4096 * (s.tile a.tk).spk.toNat then .next s else .next (s.arriveAt a.tk a.off a.bytes)

end Sys2Proof.Machine
end

