-- ==== Sys2Proof/Machine/HostLink.lean ====
section
/-!
DEFINITION. What the host's functions do over the host link: world-page commands (24_trust.md R395, R396, R406), MSI-X
(R397), the colour window and the register window (26_host_and_package.md R415, R417, R418), Ethernet frames (R419).
-/
namespace Sys2Proof.Machine

/-- An answer of the host link. -/
def State.reply (s : State) (r : HostReply) : State := { s with replies := s.replies ++ [r] }
/-- Whether a world has a function that answers (24_trust.md R392, R398, R399). -/
def State.hostReach (s : State) (w : Nat) : Bool :=
  w = 1 || (2 ≤ w && s.vfEnable && w - 1 ≤ s.numVfs && !s.removals.contains w)
/-- A request to the function of a world: until the host link is enabled it is to be tried again (26_host_and_package.md
R422), and one to a function that is absent or removed is an Unsupported Request (R399). -/
def State.hostDo (s : State) (w : Nat) (g : State → State) : State :=
  if s.bootStage.toNat < 7 then s.reply (.retry (w - 1))
  else if !s.hostReach w then s.reply (.unsupported (w - 1))
  else g s

/-- How firmware serves a command: STATUS, and RESULT where the command defines one; nothing where it has to wait. -/
structure Served where
  s : State
  answer : Option (Nat × Option Nat)
/-- A command was refused: nothing has changed (R396). -/
def refuseCmd (s : State) (status : Nat) : Served := ⟨s, some (status, none)⟩
/-- A world-page command (R395, R396): the arguments and CMD are written and BUSY is set; while another command is served
the write is ignored. -/
def State.worldCmd (s : State) (w cmd : Nat) (args : WorldPage → WorldPage) (serve : State → Served) : State :=
  s.hostDo w fun s =>
    let p := s.worldPage w
    let q := args p
    let q := { q with busy := true, cmd := BitVec.ofNat 8 cmd }
    if p.busy && p != q then s
    else
      let r := serve (s.modWorldPage w fun _ => q)
      match r.answer with
      | none => r.s
      | some (status, result) => r.s.modWorldPage w fun p =>
          { p with
            busy := false
            status := BitVec.ofNat 8 status
            result := (match result with | some v => BitVec.ofNat 32 v | none => p.result) }

/-- Installs a fresh key in a colour's slot of all nine holders (R394, 05_main_memory.md R113). -/
def State.freshKey (s : State) (c : Colour) : State :=
  { s with
    keySlots := (List.range 9).foldl (fun m h => Map.put m (512 * h + c.toNat) s.keyFresh) s.keySlots
    keyFresh := s.keyFresh + 1 }
/-- Whether a colour is LIVE and a world's. -/
def State.liveIn (s : State) (c : Colour) (w : World) : Bool := (s.colour c).state = .live && (s.colour c).world = w
/-- Allocates a colour (R396; 05_main_memory.md R103, R113). -/
def State.colourAlloc (s : State) (w : World) (a0 a1 : Word) : Served :=
  let root := a0.extractLsb' 14 38
  let ksv := a1.getLsbD 9
  let ks : Colour := a1.extractLsb' 0 9
  match (List.range 512).find? fun c => (s.colour (colourOf c)).state = .free with
  | none => refuseCmd s 0x1A
  | some n =>
    if !s.inExtent w (root.toNat * 2 ^ 14) || (ksv && !s.liveIn ks w) then refuseCmd s 0x02
    else
      let c := colourOf n
      let e : ColourEntry := { ColourEntry.reset with
        state := .live, world := w, root := root, kshare := if ksv then ks else c }
      ⟨(s.freshKey c).setColour c fun _ => e, some (0, some n)⟩
/-- COLOUR_ALLOC. -/
def execColourAlloc (w : Nat) (arg0 arg1 : BitVec 64) (s : State) : Result' :=
  .next (s.worldCmd w 0x01 (fun p => { p with arg0 := arg0, arg1 := arg1 })
    fun s => s.colourAlloc (BitVec.ofNat 6 w) arg0 arg1)
/-- Retires a colour at a world's request (R396). -/
def State.colourRetireCmd (s : State) (w : World) (a0 : Word) : Served :=
  let c : Colour := a0.extractLsb' 0 9
  let st := s.retireStatus w c
  if st = 0 then ⟨s.retire c, some (0, none)⟩ else refuseCmd s st
/-- COLOUR_RETIRE (R396). -/
def execColourRetire (w : Nat) (arg0 : BitVec 64) (s : State) : Result' :=
  .next (s.worldCmd w 0x02 (fun p => { p with arg0 := arg0 }) fun s => s.colourRetireCmd (BitVec.ofNat 6 w) arg0)
/-- The lowest disabled ring from n on. -/
def State.disabledRing (s : State) : Nat → Nat → Option Nat
  | 0, _ => none
  | k + 1, n => if (s.ring n).en then s.disabledRing k (n + 1) else some n
/-- The rings whose descriptors are not all zero where the package holds them: every other ring is disabled (09_block_transfer.md
R188). -/
def State.ringsHeld (s : State) : List Nat :=
  let at' := fun (a : Nat) => if s.ringBase ≤ a ∧ a < s.ringBase + 2 ^ 21 then some ((a - s.ringBase) / 32) else none
  let lines := s.slices.flatMap fun e => e.2.lines.map (·.pa) ++ e.2.writeBacks.map (·.pa)
  (s.dram.filterMap (fun x => at' x.1) ++ lines.flatMap fun pa => (List.range 8).filterMap fun i => at' (pa + 32 * i)).foldl
    NatSet.insert []
/-- Creates a ring (R396, 09_block_transfer.md R188). -/
def State.ringCreate (s : State) (w : World) (a0 a1 a2 : Word) : Served :=
  let c : Colour := a2.extractLsb' 0 9
  let log2n := 4 + bits a2.toNat 12 9
  match s.disabledRing (2 ^ 16 - 64) 64 with
  | none => refuseCmd s 0x1B
  | some n =>
    if !s.liveIn c w then refuseCmd s 0x02
    else if log2n > 16 || bits a2.toNat 63 19 != 0 || a0.toNat % (32 * 2 ^ log2n) != 0 || a1.toNat % 4 != 0 then
      refuseCmd s 0x01
    else
      let g : Ring := { Ring.reset with
        consa := a1, base := a0, colour := c, world := w, log2n := BitVec.ofNat 5 log2n, en := true
        vec := a2.extractLsb' 13 6 }
      ⟨s.modRing n fun _ => g, some (0, some n)⟩
/-- RING_CREATE. -/
def execRingCreate (w : Nat) (arg0 arg1 arg2 : BitVec 64) (s : State) : Result' :=
  .next (s.worldCmd w 0x03 (fun p => { p with arg0 := arg0, arg1 := arg1, arg2 := arg2 })
    fun s => s.ringCreate (BitVec.ofNat 6 w) arg0 arg1 arg2)
/-- Disables a ring; the contexts in `evwait` on it go on (R396, R300). -/
def State.disableRing (s : State) (n : Nat) : State :=
  (s.modRing n fun g => { g with en := false, notify := false }).wakeRing n
/-- Destroys a ring at a world's request (R396): it waits for the records in progress on the ring. -/
def State.ringDestroyCmd (s : State) (w : World) (a0 : Word) : Served :=
  let n := bits a0.toNat 15 0
  if n < 64 || !s.ringUsable n w then refuseCmd s 0x02
  else if s.records.any fun r => r.ring = n then ⟨s, none⟩
  else ⟨s.disableRing n, some (0, none)⟩
/-- RING_DESTROY (R396). -/
def execRingDestroy (w : Nat) (arg0 : BitVec 64) (s : State) : Result' :=
  .next (s.worldCmd w 0x04 (fun p => { p with arg0 := arg0 }) fun s => s.ringDestroyCmd (BitVec.ofNat 6 w) arg0)

/-- The cluster whose TLB, event unit and place on the rings serve firmware and the host link (log 52). -/
def hostUnit : Nat := 0
/-- A secure association's record of 64 bytes, where its fields are within their limits (R406). -/
def saOf (b : List Byte) : Option MacsecSa :=
  let at' := fun (i : Nat) => (b.getD i 0).toNat
  let num := fun (off n : Nat) => bytesNat ((b.drop off).take n)
  if at' 52 > 7 || at' 53 > 3 || at' 54 > 3 || at' 55 != 0 || num 60 4 != 0 then none
  else some
    { port := at' 52, an := at' 53, transmit := at' 54 % 2 = 1, xpn := at' 54 / 2 = 1
      sak := BitVec.ofNat 256 (num 0 32), salt := BitVec.ofNat 96 (num 32 12), sci := BitVec.ofNat 64 (num 44 8)
      ssci := BitVec.ofNat 32 (num 56 4) }
/-- Whether an installed association gives way to a new one: the transmit one of the same port and number, or the receive
one that also has the same SCI. -/
def MacsecSa.replacedBy (x y : MacsecSa) : Bool :=
  x.port = y.port && x.an = y.an && x.transmit = y.transmit && (y.transmit || x.sci = y.sci)
/-- Installs an association (R406); nothing where the port already holds four receive ones of the number. A transmit one
brings the port up (26_host_and_package.md R419). -/
def State.installSa (s : State) (x : MacsecSa) : Option State :=
  let kept := s.macsec.filter fun y => !y.replacedBy x
  let same := kept.filter fun y => y.port = x.port && y.an = x.an && !y.transmit
  if !x.transmit && 4 ≤ same.length then none
  else some { s with
    macsec := kept ++ [x]
    ethUp := if x.transmit then s.ethUp ||| BitVec.ofNat 8 (2 ^ x.port) else s.ethUp }
/-- Installs a secure association at world 1's request (R396, R406). -/
def State.macsecCmd (s : State) (w : Nat) (a0 a1 : Word) : Served :=
  let c : Colour := a1.extractLsb' 0 9
  if w != 1 || !s.liveIn c 1 then refuseCmd s 0x02
  else
    match s.engineRead hostUnit c a0.toNat 64 2 with
    | .busy => ⟨s, none⟩
    | .page t va => ⟨t.raisePage (dieOf hostUnit) c va, none⟩
    | .fault t k va => refuseCmd (t.poisonDue (dieOf hostUnit) c k va) 0x01
    | .done t (b, p) =>
      match (if p then none else saOf b).bind t.installSa with
      | none => refuseCmd t 0x01
      | some u => ⟨u, some (0, none)⟩
/-- MACSEC_SA (R396, R406). -/
def execMacsecSa (w : Nat) (arg0 arg1 : BitVec 64) (s : State) : Result' :=
  .next (s.worldCmd w 0x05 (fun p => { p with arg0 := arg0, arg1 := arg1 }) fun s => s.macsecCmd w arg0 arg1)
/-- Arms a ring for a world; ignored where the ring is not the world's (R395). -/
def State.worldArm (s : State) (w : World) (v : Word) : State :=
  let n := bits v.toNat 15 0
  if s.ringUsable n w then s.modRing n fun g => { g with notify := true } else s
/-- WEVARM_WRITE (R395): NOTIFY is set, as `evarm` does. -/
def execWevarmWrite (w : Nat) (value : BitVec 64) (s : State) : Result' :=
  .next (s.hostDo w fun s => s.worldArm (BitVec.ofNat 6 w) value)
/-- Masks or unmasks a vector (R397): a message held pending is sent. -/
def State.maskVector (s : State) (fn vec : Nat) (masked : Bool) : State :=
  let f := s.function fn
  if masked then s.modFunction fn fun f => { f with masked := NatSet.insert f.masked vec }
  else
    let s := s.modFunction fn fun f => { f with masked := NatSet.erase f.masked vec, pending := NatSet.erase f.pending vec }
    if f.pending.contains vec then s.reply (.message fn vec) else s
/-- MSI_X_TABLE_WRITE (R397). -/
def execMsiXTableWrite (fn vec : Nat) (masked : Bool) (s : State) : Result' :=
  .next (s.hostDo (fn + 1) fun s => s.maskVector fn vec masked)

/-- Whether a request reaches a function on a stream that it accepts: a TDI in RUN state takes only its bound selective
stream (R405). -/
def State.streamOk (s : State) (w stream : Nat) : Bool :=
  (s.function (w - 1)).tdisp != .run || (stream != 0 && (s.function (w - 1)).stream = some stream)

/-- Reads n bytes of register space as a world: each register that they touch is read once (log 27). -/
def State.windowRead (s : State) (w pa n : Nat) : State × List Byte :=
  let first := pa / 8
  let r := (List.range ((pa + n - 1) / 8 - first + 1)).foldl (fun (acc : State × List Byte) i =>
    let (s, bs) := acc.1.regReadBytes w (8 * (first + i)) 8
    (s, acc.2 ++ bs)) (s, [])
  (r.1, (r.2.drop (pa % 8)).take n)
/-- Writes bytes of register space as a world: each register that they touch is written once (log 27). -/
def State.windowWrite (s : State) (w pa : Nat) (bs : List Byte) : State :=
  let ps := pairsAt (pa % 256) bs
  let line := pa / 256 * 256
  let hi := (ps.filter fun p => 256 ≤ p.1).map fun (p : Nat × Byte) => (p.1 - 256, p.2)
  (s.regWritePairs w line (ps.filter fun p => p.1 < 256)).regWritePairs w (line + 256) hi
/-- The part of a colour-window access that lies in one line (R418): data and poison for a read. The external requester reaches
slices from the hub die (07_network.md R148, R151), and registers where the page lies in device register space
(05_main_memory.md R106). -/
def State.hostLine (s : State) (c : Colour) (va n : Nat) (write : Option (List Byte)) : Mem (List Byte × Bool) :=
  let w := (s.colour c).world
  match s.xlate [] c va write.isNone write.isSome with
  | (s, _, .error k) => .fault s k va
  | (s, _, .ok x) =>
    if x.device then
      match write with
      | none =>
        let (s, bs) := s.windowRead w.toNat x.pa n
        .done s (bs, false)
      | some bs => .done (s.windowWrite w.toNat x.pa bs) ([], false)
    else
      match write with
      | none => s.readAt .hubDie c va n x
      | some bs =>
        if (s.slice x.sk).waits x.pa || s.cutFrom .hubDie x.sk then .busy
        else
          let (s, _) := s.lineWrite x.sk x.pa x.key w (pairsAt (x.pa % 256) bs) false 0
          .done (s.countFrom .hubDie x.sk (unitSpan (x.pa % 256) n) 0 c w) ([], false)
/-- A whole access of at most 64 bytes: its second line, if any, is tried first with no effect, so that a write which
faults is dropped whole. -/
def State.hostWindow (s : State) (c : Colour) (va n : Nat) (write : Option (List Byte)) : Mem (List Byte × Bool) :=
  let m := min n (256 - va % 256)
  if m = n then s.hostLine c va n write
  else
    match s.hostLine c (va + m) (n - m) (write.map (·.drop m)) with
    | .done _ (hi, p') =>
      (match s.hostLine c va m (write.map (·.take m)) with
      | .done t (lo, p) =>
        (match write with
        | none => .done t (lo ++ hi, p || p')
        | some bs =>
          (match t.hostLine c (va + m) (n - m) (some (bs.drop m)) with
          | .done u _ => .done u ([], false)
          | r => r))
      | r => r)
    | r => r
/-- The end of an access that faults: a write is dropped, a read completes poisoned, and a FAULT record goes to the
world's own ring. -/
def State.hostFault (s : State) (w : Nat) (c : Colour) (code va : Nat) (write : Bool) : State :=
  let s := (s.poisonDue 0 c code va).record hostUnit w (BitVec.ofNat 6 w) 0x04 (faultStatus 0x11 va) code c (faultBytes va) 0
  s.reply (if write then .completed (w - 1) else .poisoned (w - 1))
/-- BAR2_ACCESS (R418): an access of the external requester through the colour window of a world. -/
def execBar2Access (w : Nat) (acc : HostAccess) (s : State) : Result' :=
  let fn := w - 1
  .next (s.hostDo w fun s =>
    let h := (Map.get s.hwcol w 0).toNat
    let c := colourOf (bits h 55 47)
    let wd : World := BitVec.ofNat 6 w
    if !s.streamOk w acc.stream || bits h 63 63 = 0 || !s.liveIn c wd || acc.offset + acc.size > 2 ^ 36 then
      s.reply (.unsupported fn)
    else
      match s.hostWindow c (bits h 46 36 * 2 ^ 36 + acc.offset) acc.size acc.write with
      | .busy => s
      | .done t (bs, p) =>
        t.reply (if acc.write.isSome then .completed fn else if p then .poisoned fn else .bytes fn bs)
      | .fault t k va => t.hostFault w c k va acc.write.isSome
      | .page t va => t.hostFault w c codeNotMapped va acc.write.isSome)

/-- The bytes of a world page (R395): a reserved place reads zero. -/
def WorldPage.bytes (p : WorldPage) : List Byte :=
  let cmd := flagAt p.busy 63 + fieldAt p.status.toNat 48 + fieldAt p.result.toNat 16 + p.cmd.toNat
  natBytes 8 p.arg0.toNat ++ natBytes 8 p.arg1.toNat ++ natBytes 8 p.arg2.toNat ++ natBytes 8 cmd ++ List.replicate 32 0
/-- A vector's place in a set of vectors as a bit. -/
def vectorBits (l : List Nat) : Nat := (l.map fun v => 2 ^ v).sum
/-- The byte at an offset of BAR0 below the register window (R417): the world page, the MSI-X table as far as the device
keeps it (the mask bit of each vector), the pending bits. -/
def State.bar0Byte (s : State) (w o : Nat) : Byte :=
  let f := s.function (w - 1)
  if o < 0x40 then (s.worldPage w).bytes.getD o 0
  else if 0x1000 ≤ o ∧ o < 0x1400 then
    (if o % 16 = 12 && f.masked.contains ((o - 0x1000) / 16) then 1 else 0)
  else if 0x2000 ≤ o ∧ o < 0x2008 then BitVec.ofNat 8 (vectorBits f.pending / 2 ^ (8 * (o - 0x2000)))
  else 0
/-- How firmware serves the command of a number, with the arguments that the world page holds (R396); a number of no row is
refused with FORMAT: DESIGN CHOICE, log 128. -/
def State.serveCmd (s : State) (w cmd : Nat) : Served :=
  let p := s.worldPage w
  let wd : World := BitVec.ofNat 6 w
  if cmd = 1 then s.colourAlloc wd p.arg0 p.arg1
  else if cmd = 2 then s.colourRetireCmd wd p.arg0
  else if cmd = 3 then s.ringCreate wd p.arg0 p.arg1 p.arg2
  else if cmd = 4 then s.ringDestroyCmd wd p.arg0
  else if cmd = 5 then s.macsecCmd w p.arg0 p.arg1
  else refuseCmd s 0x01
/-- A write of the i-th register of a world page (R395): the arguments, WMCMD, which is ignored while BUSY is 1, or WEVARM. -/
def State.pageStore (s : State) (w i v : Nat) : State :=
  if i = 0 then s.modWorldPage w fun p => { p with arg0 := BitVec.ofNat 64 v }
  else if i = 1 then s.modWorldPage w fun p => { p with arg1 := BitVec.ofNat 64 v }
  else if i = 2 then s.modWorldPage w fun p => { p with arg2 := BitVec.ofNat 64 v }
  else if i = 3 then
    if (s.worldPage w).busy then s
    else if bits v 63 63 = 1 then s.worldCmd w (bits v 7 0) (fun p => p) fun s => s.serveCmd w (bits v 7 0)
    else s.modWorldPage w fun p => { p with cmd := BitVec.ofNat 8 (bits v 7 0) }
  else s.worldArm (BitVec.ofNat 6 w) (BitVec.ofNat 64 v)
/-- A write below the register window (R395, R397, R417): each register of the world page that it touches is written once, its other
bytes as they read (log 27), and of the MSI-X table the mask bits. -/
def State.bar0Write (s : State) (w o : Nat) (bs : List Byte) : State :=
  let at' := fun (a : Nat) => if o ≤ a then bs[a - o]? else none
  let s := (List.range 5).foldl (fun (s : State) i =>
    let mine := (List.range 8).map fun j => 8 * i + j
    if mine.any fun a => (at' a).isSome then s.pageStore w i (bytesNat (mine.map fun a => (at' a).getD (s.bar0Byte w a))) else s) s
  (List.range 64).foldl (fun s v =>
    match at' (0x1000 + 16 * v + 12) with
    | some b => s.maskVector (w - 1) v (b.getLsbD 0)
    | none => s) s
/-- REGISTER_WINDOW_ACCESS (R415, R417): in the PF's register window a register's own rules for world 1 decide; below it the
function's own pages are read and written. Virtual functions have no register window. -/
def execRegisterWindowAccess (w : Nat) (acc : HostAccess) (s : State) : Result' :=
  let fn := w - 1
  .next (s.hostDo w fun s =>
    let size := if w = 1 then 0x8000000 else 0x4000
    if !s.streamOk w acc.stream || acc.offset + acc.size > size then s.reply (.unsupported fn)
    else if acc.offset < 0x4000000 then
      match acc.write with
      | some bs => (s.bar0Write w acc.offset bs).reply (.completed fn)
      | none => s.reply (.bytes fn ((List.range acc.size).map fun i => s.bar0Byte w (acc.offset + i)))
    else
      let pa := deviceBase + (acc.offset - 0x4000000)
      match acc.write with
      | none =>
        let (s, bs) := s.windowRead 1 pa acc.size
        s.reply (.bytes fn bs)
      | some bs => (s.windowWrite 1 pa bs).reply (.completed fn))
/-- ETHERNET_FRAME_RX (26_host_and_package.md R419): a frame of the Sirzu transport that came under MACsec is accepted at a
port that is up; every other frame is dropped. Whether the port must also hold the receive association of the frame, which R6 and
R406 leave to the MACsec engine, the model does not ask: DESIGN CHOICE, log 124. -/
def execEthernetFrameRx (port etherType : Nat) (secured : Bool) (s : State) : Result' :=
  .next (
    if etherType = 0x88B5 && secured && s.ethUp.getLsbD port then
      { s with frames := Map.put s.frames port (Map.get s.frames port 0 + 1) }
    else s)

end Sys2Proof.Machine
end

