-- ==== Sys2Proof/Machine/Removal.lean ====
section
/-!
DEFINITION. Virtual functions and the removal of a world (24_trust.md R398 to R400).
-/
namespace Sys2Proof.Machine

/-- Whether a colour is in use by a world. -/
def State.colourIn (s : State) (w : World) (c : Colour) : Bool := (s.colour c).state != .free && (s.colour c).world = w
/-- The tokens of a world: of its launches or of its colours. -/
def State.goneWorld (s : State) (w : World) : Gone := fun ck c ctx => s.ctxIn ck w ctx || s.colourIn w c
/-- The records of a world end and its queued records leave (R399; log 33). -/
def State.endRecords (s : State) (w : World) : State :=
  let cks := s.clusters.map (·.1)
  let ended := fun (r : Release) => match r.src with
    | .context ck x => (s.context ck x).running && (s.context ck x).world = w
    | _ => false
  let s := { s with releases := s.releases.filter fun r => !ended r }
  let s := { s with clusters := s.clusters.map fun (e : Nat × Cluster) =>
    (e.1, { e.2 with ctxs := e.2.ctxs.map fun c =>
      if c.running && c.world = w then
        { c with running := false, tm := false, park := .none, released := false, armed := false, leases := [] }
      else c }) }
  cks.foldl (fun (s : State) ck => (List.range 16).foldl (fun (s : State) q =>
    let n := (s.queue ck q).records.length
    ((List.range n).reverse).foldl (fun (s : State) i =>
      match (s.queue ck q).records[i]? with
      | some r => if r.record.world = w then s.leaveQueue ck q i else s
      | none => s) s) s) s
/-- Whether what a mesh flit carries belongs to a world, beside what its tag tells: a credit return, a marker, a SPLICE token, a
fault token. -/
def Cargo.ofWorld (ofWorld : Colour → Bool) (ctxIn : Nat → Bool) : Cargo → Bool
  | .credit _ c => ofWorld c
  | .marker m => ctxIn m.ctx
  | .splice x _ => ctxIn x.ctx
  | .fault t => (match t.ask with | .queue _ _ => false | _ => ofWorld t.colour)
  | _ => false
/-- What a cluster gives up of a world at once: cards, bindings' prefetches, group requests on their way, what its mesh carries. -/
def Cluster.dropWorld (k : Cluster) (w : World) (ofWorld : Colour → Bool) (ctxIn : Nat → Bool) : Cluster :=
  { k with
    cards := k.cards.filter fun c => c.world != w
    pendingKeys := k.pendingKeys.filter fun a => !ofWorld a.colour
    markers := k.markers.filter fun m => !ctxIn m.ctx
    snapshots := k.snapshots.filter fun n => !ctxIn n.ctx
    splices := k.splices.filter fun x => !ctxIn x.ctx
    credits := k.credits.filter fun c => !ofWorld c.2
    returned := k.returned.filter fun c => !ofWorld c.2
    flits := k.flits.filter fun f => !f.cargo.ofWorld ofWorld ctxIn }
/-- What a slice gives up of a world at once: group requests, and writes to CXL.mem that have not been sent. -/
def Slice.dropWorld (l : Slice) (ofWorld : Colour → Bool) : Slice :=
  { l with
    holds := l.holds.filter fun h => !ofWorld h.ask.colour
    groupQueue := l.groupQueue.filter fun a => !ofWorld a.colour
    asks := l.asks.filter fun a => !ofWorld a.colour
    writeBacks := l.writeBacks.filter fun x => !(2 ^ 39 ≤ x.pa && ofWorld x.key) }
/-- A die without the pager entries and CFGREQs of a world. -/
def Die.dropWorld (d : Die) (ofWorld : Colour → Bool) : Die :=
  { d with
    pager := d.pager.filter fun p => (match p.ask with | .queue _ _ => true | _ => !ofWorld p.colour)
    cfgreqs := d.cfgreqs.filter fun r => !ofWorld r.tag.colour }
/-- REMOVAL OF A WORLD BEGINS (R399 steps 1 and 2): its function answers no more; its messages, records, joins, tokens,
cards and pending work are freed; it is frozen, and what an earlier freeze had saved is dropped. -/
def State.removeWorld (s : State) (w : Nat) : State :=
  if s.removals.contains w then s
  else
    let wd : World := BitVec.ofNat 6 w
    let ofWorld := s.colourIn wd
    let gone := s.goneWorld wd
    let cks := s.clustersOf wd
    let old := match Map.get? s.frozen w with | some x => x.clusters | none => []
    let all := (cks ++ old).foldl NatSet.insert []
    let ctxOf := s.ctxIn
    let s := { s with
      removals := NatSet.insert s.removals w
      records := s.records.filter fun r => r.producer != wd
      joins := s.joins.filter fun j => !ofWorld j.colour
      faultTokens := s.faultTokens.filter fun t => (match t.ask with | .queue _ _ => true | _ => !ofWorld t.colour)
      prefetches := s.prefetches.filter fun p => !ofWorld p.2
      functions := Map.put s.functions (w - 1) { s.function (w - 1) with pending := [] } }
    let s := (s.endRecords wd).dropTokens gone
    let s := (s.clusters.map (·.1)).foldl (fun (s : State) ck => s.unbind ck fun b => ctxOf ck wd b.ctx) s
    let s := { s with
      clusters := s.clusters.map fun (e : Nat × Cluster) => (e.1, e.2.dropWorld wd ofWorld (ctxOf e.1 wd))
      slices := s.slices.map fun (e : Nat × Slice) => (e.1, e.2.dropWorld ofWorld)
      dies := s.dies.map fun (e : Nat × Die) => (e.1, e.2.dropWorld ofWorld)
      net := s.net.filter fun f => (match f.cargo with | .ask _ a => !ofWorld a.colour | _ => true)
      frozen := Map.put s.frozen w ⟨s.cycles, all, all, false, [], [], [], [], []⟩ }
    s.recount

/-- Scrubs a tile of a removed world (R399 step 3, 08_tile_memory.md R159): stash lines of its colours are dropped, other
worlds' lines are written back first; nothing where one of those has to wait. A tile whose scratchpad belongs to another
world keeps it (log 34). -/
def State.scrubFor (s : State) (w : World) (ofWorld : Colour → Bool) (tk : Nat) : Option State :=
  let s := s.modTile tk fun t =>
    { t with stash := t.stash.filter fun l => !ofWorld l.key, saved := Map.del t.saved w.toNat }
  if (s.tile tk).tsWorld != w then some s
  else (s.stashShrink tk 0).map fun s => s.modTile tk fun t =>
    { t with tsWorld := 0, scratch := [], full := [], poison := [] }
/-- Frees every launch context of a world, with its words (R399 step 3). -/
def State.freeLaunches (s : State) (w : World) : State :=
  s.clusters.foldl (fun (s : State) (e : Nat × Cluster) =>
    let mine := e.2.launches.filter fun l => l.2.world = w
    let s := mine.foldl (fun s l => (s.freeInstances e.1 l.1).freeCtx e.1 l.1) s
    if e.2.lcBusy then s.abortFinish e.1 else s) s
/-- The colours of a world become FREE (R399 step 4, 05_main_memory.md R113). -/
def State.freeColours (s : State) (ofWorld : Colour → Bool) : State :=
  let mine := ((List.range 512).map colourOf).filter ofWorld
  let s := (s.sweep (fun t => ofWorld t.colour) fun _ => false).dropLines fun _ k => ofWorld k
  let s := { s with slices := s.slices.map fun (e : Nat × Slice) =>
    (e.1, { e.2 with writeBacks := e.2.writeBacks.filter fun x => !ofWorld x.key }) }
  mine.foldl (fun s c => (s.killKeys c).freeColour c) s
/-- The objects of a world are destroyed, with their pins, and its heaps are disabled (R399 step 4, 19_objects.md R354). -/
def State.freeObjects (s : State) (w : World) : State :=
  s.dies.foldl (fun (s : State) (e : Nat × Die) =>
    let mine := e.2.objects.filter fun o => o.2.world = w && (o.2.state = .live || o.2.state = .dying)
    let s := mine.foldl (fun s o => (s.setObject e.1 o.1 { s.object e.1 o.1 with pin := 0 }).destroyObject e.1 o.1) s
    s.modDie e.1 fun d =>
      match Map.get? d.ohbase w.toNat with
      | none => d
      | some v => { d with ohbase := Map.put d.ohbase w.toNat (v &&& ~~~1) }) s
/-- The rings of a world are disabled (R399 step 4). -/
def State.freeRings (s : State) (w : World) : State :=
  s.ringsHeld.foldl (fun (s : State) n => if s.ringUsable n w then s.disableRing n else s) s
/-- The function of a removed world starts afresh; a TDI in ERROR stays so until it is unlocked (R400). -/
def State.freshFunction (s : State) (w : Nat) : State :=
  let t : Tdisp := if (s.function (w - 1)).tdisp = .error then .error else .configUnlocked
  { s with
    functions := Map.put s.functions (w - 1) { Function.reset with tdisp := t }
    worldPages := Map.del s.worldPages w }
/-- Sets NumVFs and VF Enable (R398). -/
def State.enableVfs (s : State) (n : Nat) : State := { s with numVfs := n, vfEnable := true, vfHeld := none }
/-- Whether nothing of a removed world is under way any more: its scan has finished and its accesses are performed. -/
def State.removalReady (s : State) (w : Nat) : Bool :=
  s.removals.contains w &&
    (match Map.get? s.frozen w with | some x => x.scanning = [] | none => true) &&
    !s.accessesLeft (fun k d _ => s.colourIn (BitVec.ofNat 6 w) k || s.colourIn (BitVec.ofNat 6 w) d)
/-- The last parts of a removal (R399 steps 3 to 5); nothing where a stash line of another world has to wait. -/
def State.removed (s : State) (w : Nat) : Option State :=
  let wd : World := BitVec.ofNat 6 w
  let ofWorld := s.colourIn wd
  let thawing := s.thawing.filter fun x => s.planeWorld x.tk x.plane != some wd
  ((s.tiles.map (·.1)).foldl (fun acc tk => acc.bind fun s => s.scrubFor wd ofWorld tk) (some s)).map fun s =>
    let s := ((((s.freeLaunches wd).freeColours ofWorld).freeRings wd).freeObjects wd).freshFunction w
    let s := { s with
      thawing := thawing
      measures := Map.del s.measures w
      snaps := s.snaps.filter fun x => x.launch.world != wd
      debugStops := NatSet.erase s.debugStops w
      frozen := Map.del s.frozen w
      removals := NatSet.erase s.removals w }
    match s.vfHeld with
    | some n => if s.removals = [] then s.enableVfs n else s
    | none => s
/-- REMOVAL_COMPLETE (R399). -/
def execRemovalComplete (world : Nat) (s : State) : Result' :=
  .next (if s.removalReady world then (s.removed world).getD s else s)

/-- VF_ENABLE_CLEAR (R399): every VF world is removed; a held write that sets VF Enable is overtaken. -/
def execVfEnableClear (s : State) : Result' :=
  .next (s.hostDo 1 fun s =>
    if !s.vfEnable then { s with vfHeld := none }
    else
      ((List.range s.numVfs).map (· + 2)).foldl State.removeWorld { s with vfEnable := false, vfHeld := none })
/-- VF_ENABLE_SET (R398, R399): held while a removal is under way; NumVFs does not change while VF Enable is 1. -/
def execVfEnableSet (n : Nat) (s : State) : Result' :=
  .next (s.hostDo 1 fun s =>
    if s.vfEnable then s
    else if s.removals != [] then { s with vfHeld := some n }
    else s.enableVfs n)
/-- FUNCTION_LEVEL_RESET (R399): the world of one VF is removed. -/
def execFunctionLevelReset (n : Nat) (s : State) : Result' :=
  .next (s.hostDo (n + 1) fun s => s.removeWorld (n + 1))

/-- Whether a function may send what travels only inside an SPDM secure session (R401): its own, or the PF's. -/
def State.secureFor (s : State) (fn : Nat) : Bool := (s.function fn).finished || (s.function 0).finished
/-- Sets the TDISP state of a function. -/
def State.setTdisp (s : State) (n : Nat) (st : Tdisp) : State := s.modFunction n fun f => { f with tdisp := st }
/-- TDISP_STATE_CHANGE (R400): locking needs an unlocked interface, running a locked one; an interface returns to
CONFIG_UNLOCKED once its world has been removed; ERROR removes the world. The messages travel inside a secure session. -/
def execTdispStateChange (n : Nat) (st : Tdisp) (s : State) : Result' :=
  let now := (s.function n).tdisp
  .next (s.hostDo (n + 1) fun s =>
    match st with
    | .error => (s.setTdisp n .error).removeWorld (n + 1)
    | .configLocked => if s.secureFor n && now = .configUnlocked then s.setTdisp n .configLocked else s
    | .run => if s.secureFor n && now = .configLocked then s.setTdisp n .run else s
    | .configUnlocked =>
      if !s.secureFor n || now = .configUnlocked then s
      else if now = .error then s.setTdisp n .configUnlocked
      else s.removeWorld (n + 1))

end Sys2Proof.Machine
end

