-- ==== Sys2Proof/Machine/Trust.lean ====
section
/-!
DEFINITION. Attestation and link protection: the SPDM requests of a function's mailbox (24_trust.md R401), measurements
(R402, R403), IDE keys (R405), the training of die-to-die links (R404). The bytes that the manual does not give are free
(log 14); response codes are those of SPDM 1.2 (PRESUMED, log 14).
-/
namespace Sys2Proof.Machine

/-- An SPDM response: what the manual gives of it, then free bytes. -/
def State.spdmReply (s : State) (fn code : Nat) (known : List Byte) : State :=
  let (s, n) := s.newFree
  s.reply (.spdm fn code (known ++ Config.protocolBytes n))
/-- The ERROR response. -/
def State.spdmError (s : State) (fn : Nat) : State := s.spdmReply fn 0x7F []
/-- An SPDM request that needs the algorithms to have been negotiated, and a certificate slot: only slot 0 exists. -/
def State.spdmSlot (s : State) (fn slot code : Nat) : State :=
  if (s.function fn).negotiated && slot = 0 then s.spdmReply fn code [] else s.spdmError fn
/-- GET_VERSION (R401): the exchange starts afresh. -/
def execGetVersion (fn : Nat) (s : State) : Result' :=
  .next (s.hostDo (fn + 1) fun s =>
    (s.modFunction fn fun f => { f with negotiated := false, session := false, finished := false }).spdmReply fn 0x04 [])
/-- GET_CAPABILITIES. -/
def execGetCapabilities (fn : Nat) (s : State) : Result' := .next (s.hostDo (fn + 1) fun s => s.spdmReply fn 0x61 [])
/-- NEGOTIATE_ALGORITHMS: only ECDSA on P-256 (bit 4 of its mask) and SHA-256 (bit 0) are offered. -/
def execNegotiateAlgorithms (fn asym hash : Nat) (s : State) : Result' :=
  .next (s.hostDo (fn + 1) fun s =>
    if bits asym 4 4 = 1 && bits hash 0 0 = 1 then
      (s.modFunction fn fun f => { f with negotiated := true }).spdmReply fn 0x63 []
    else s.spdmError fn)
/-- GET_DIGESTS, for slot 0. -/
def execGetDigests (fn : Nat) (s : State) : Result' := .next (s.hostDo (fn + 1) fun s => s.spdmSlot fn 0 0x01)
/-- GET_CERTIFICATE, for slot 0 only. -/
def execGetCertificate (fn slot : Nat) (s : State) : Result' :=
  .next (s.hostDo (fn + 1) fun s => s.spdmSlot fn slot 0x02)
/-- CHALLENGE: the answer is signed by the device identity key; the nonce enters only the signature. -/
def execChallenge (fn slot _nonce : Nat) (s : State) : Result' :=
  .next (s.hostDo (fn + 1) fun s => s.spdmSlot fn slot 0x03)

/-- STATE of a world's measurement block (R403): a removal in progress shows EMPTY; a world whose graphs stand on no active
plane has no code of its own, so its byte is free (log 35). -/
def State.worldState (s : State) (w : World) (n : Nat) : Byte :=
  let holds := s.clusters.any fun e => e.2.launches.any fun l => l.2.world = w
  let active := s.clusters.any fun e => s.activeTiles e.1 w != []
  if s.removals.contains w.toNat then 3
  else if s.isFrozen w then 1
  else if !holds then 3
  else if active then 0
  else Config.freeByte n
/-- The measurement block of a world (R402): D, STATE, three zeros, N. A removal in progress shows the zero block. -/
def State.worldBlock (s : State) (w : World) (n : Nat) : List Byte :=
  let m := if s.removals.contains w.toNat then Measurement.reset else s.measure w.toNat
  Sha.digestBytes m.digest ++ [s.worldState w n, 0, 0, 0] ++ natBytes 4 m.count.toNat
/-- The measurement of an index, where the function may have it (R402); that of the device configuration is free. -/
def State.measured (s : State) (fn index n : Nat) : Option (List Byte) :=
  if index = 1 ∨ index = 2 then some (Sha.digestBytes (s.measure (0x100 + index)).digest)
  else if index = 3 then some []
  else if index = 4 then some (s.worldBlock (BitVec.ofNat 6 (fn + 1)) n)
  else if fn = 0 ∧ 0x12 ≤ index ∧ index ≤ 0x4F then some (s.worldBlock (BitVec.ofNat 6 (index - 0x10)) n)
  else none
/-- GET_MEASUREMENTS (R402, R403): answered at once from what is retained; the nonce enters only the signature. -/
def execGetMeasurements (fn index _nonce : Nat) (s : State) : Result' :=
  .next (s.hostDo (fn + 1) fun s =>
    let (t, n) := s.newFree
    if !(s.function fn).negotiated then s.spdmError fn
    else
      match s.measured fn index n with
      | some b => t.spdmReply fn 0x60 b
      | none => s.spdmError fn)
/-- KEY_EXCHANGE: a session is opened; the host's share enters only values that the security processor makes. -/
def execKeyExchange (fn _share : Nat) (s : State) : Result' :=
  .next (s.hostDo (fn + 1) fun s =>
    if (s.function fn).negotiated then
      (s.modFunction fn fun f => { f with session := true, finished := false }).spdmReply fn 0x64 []
    else s.spdmError fn)
/-- FINISH: the session is secure once the verify data checks. -/
def execFinish (fn verify : Nat) (s : State) : Result' :=
  .next (s.hostDo (fn + 1) fun s =>
    if (s.function fn).session && !(s.function fn).finished && Config.finishChecks verify then
      (s.modFunction fn fun f => { f with finished := true }).spdmReply fn 0x65 []
    else s.spdmError fn)
/-- END_SESSION. -/
def execEndSession (fn : Nat) (s : State) : Result' :=
  .next (s.hostDo (fn + 1) fun s =>
    if (s.function fn).session then
      (s.modFunction fn fun f => { f with session := false, finished := false }).spdmReply fn 0x6C []
    else s.spdmError fn)
/-- IDE_KM (R405): only inside a secure session; stream 0 is the link stream, 1 to 8 are the selective ones, and a function
is bound to the selective stream whose key its mailbox programs (DEDUCED, log 36). -/
def execIdeKm (fn stream key : Nat) (s : State) : Result' :=
  .next (s.hostDo (fn + 1) fun s =>
    if (s.function fn).finished && stream ≤ 8 then
      (({ s with ideKeys := Map.put s.ideKeys stream key }).modFunction fn fun f =>
        { f with stream := if stream = 0 then f.stream else some stream }).spdmReply fn 0x7E []
    else s.spdmError fn)

/-- HMAC over SHA-256 with a key of at most 64 bytes (FIPS 198-1; PRESUMED, log 13). -/
def Sha.hmac (key msg : List Byte) : BitVec 256 :=
  let k := key ++ List.replicate (64 - key.length) 0
  Sha.hash (k.map (· ^^^ 0x5C) ++ Sha.digestBytes (Sha.hash (k.map (· ^^^ 0x36) ++ msg)))
/-- The answer that proves an end of a link (R404): bits [127:0], the first 16 bytes of the HMAC as bytes stand in a number
(01_notation.md R21), over the nonces and the ports' identifiers. -/
def linkProof (secret : BitVec 256) (a b : BitVec 128) (link : Nat) : BitVec 128 :=
  let m := natBytes 16 a.toNat ++ natBytes 16 b.toNat ++ Config.portBytes link
  BitVec.ofNat 128 (bytesNat ((Sha.digestBytes (Sha.hmac (natBytes 32 secret.toNat) m)).take 16))
/-- A wrong answer (R404; 26_host_and_package.md R422): the link is down; before stage 7 the boot stops with ERR 0x03, after
it an ERROR record goes to ring 0. -/
def State.linkFails (s : State) (link : Nat) : State :=
  let s := { s with linksDown := NatSet.insert s.linksDown link }
  if s.bootStage.toNat < 7 then { s with bootErr := 0x03 }
  else s.errorRecord hostUnit 0x06 6 0 (BitVec.ofNat 64 link) 0
/-- D2D_LINK_TRAINING (R404): the ends exchange fresh nonces, and the answer given is checked; a link that is down is not
trained again until the next boot. -/
def execD2dLinkTraining (link : Nat) (answer : BitVec 128) (s : State) : Result' :=
  if s.linksDown.contains link then .next s
  else
    let (s, a) := s.newFree
    let (s, b) := s.newFree
    let good := linkProof s.linkSecret ((Config.drawn a).setWidth 128) ((Config.drawn b).setWidth 128) link
    .next (if answer = good then s else s.linkFails link)

end Sys2Proof.Machine
end

