-- ==== Sys2Proof/Machine/Boot.lean ====
section
/-!
DEFINITION. Bring-up (26_host_and_package.md R420 to R422), throttling and the thermal trip (R424).
-/
namespace Sys2Proof.Machine

/-- A copy of the boot image that checks (R420, R421): its body. The version may not be below the fuse count (DEDUCED,
log 37). -/
def bootBody (copy : List Byte) : Option (List Byte) :=
  let num := fun (off n : Nat) => bytesNat ((copy.drop off).take n)
  let len := num 8 4
  let body := (copy.drop 256).take len
  let key := (copy.drop 128).take 64
  if num 0 4 = 0x58464F4C && len ≤ 2 ^ 25 - 256 && body.length = len && Config.rollbackCount ≤ num 4 4 &&
      Sha.digestBytes (Sha.hash key) = Config.fusedKeyHash &&
      Config.signatureChecks (Sha.digestBytes (Sha.hash (copy.take 64 ++ body))) ((copy.drop 64).take 64) key then
    some body
  else none
/-- A stage of the boot ends (R422). -/
def State.staged (s : State) (n : Nat) : State := { s with bootStage := BitVec.ofNat 4 n }
/-- The boot stops (R422). -/
def State.bootStops (s : State) (err : Nat) : State := { s with bootErr := BitVec.ofNat 8 err }
/-- Measures code that the boot loads, beside what is fixed in the part (24_trust.md R402). -/
def State.measureCode (s : State) (index : Nat) (code : List Byte) : State :=
  { s with measures := Map.put s.measures (0x100 + index) ⟨Sha.hash (Config.firmwareImage index ++ code), 1⟩ }
/-- Whether a link's ends proved themselves. -/
def linkProved (secret : BitVec 256) (answers : List LinkAnswer) (link : Nat) : Bool :=
  match answers.find? fun a => a.link = link with
  | some a => a.answer = linkProof secret a.nonceA a.nonceB link
  | none => false
/-- PERST_N: the device is reset. What DRAM holds stays, as ciphertext that no key opens (24_trust.md R394; log 37); the
model's own agenda and counters go on. -/
def State.perst (s : State) : State :=
  { State.reset with
    agenda := s.agenda, free := s.free, keyFresh := s.keyFresh, dram := s.dram, dramKey := s.dramKey
    dramPoison := s.dramPoison, replies := s.replies, thermtrip := s.thermtrip }
/-- One stage of the boot, where it is the next one. -/
def State.bootStep (s : State) (n : Nat) (g : State → State) : State :=
  if s.bootErr = 0 && s.bootStage.toNat + 1 = n then g s else s
/-- Clears bytes of memory before anything uses them (R422): they read zero in DRAM, and no slice holds them. -/
def State.clearBytes (s : State) (base n : Nat) : State :=
  let out := fun (a : Nat) => decide (a < base ∨ base + n ≤ a)
  { s with
    dram := s.dram.filter fun x => out x.1
    slices := s.slices.map fun (e : Nat × Slice) => (e.1, { e.2 with
      lines := e.2.lines.filter fun x => out x.pa, writeBacks := e.2.writeBacks.filter fun x => out x.pa }) }
/-- The colour table and the ring table are cleared (R422; 05_main_memory.md R103, 09_block_transfer.md R188). -/
def State.clearTables (s : State) : State :=
  { (s.clearBytes s.colourBase (2 ^ 14)).clearBytes s.ringBase (2 ^ 21) with colours := [], rings := [] }
/-- BOOT (R422). -/
def State.boot (s : State) : BootInput → State
  | .perst => s.perst
  | .image a b => s.bootStep 1 fun s =>
    (match bootBody a with
    | some body => (s.measureCode 1 body).staged 1
    | none =>
      match bootBody b with
      | some body => (s.measureCode 1 body).staged 1
      | none => s.bootStops 0x01)
  | .pll locked => s.bootStep 2 fun s => if locked then s.staged 2 else s.bootStops 0x02
  | .links secret answers => s.bootStep 3 fun s =>
    let s := { s with linkSecret := secret }
    let bad := (List.range 6).filter fun l => !linkProved secret answers l
    if bad = [] then s.staged 3 else ({ s with linksDown := bad }).bootStops 0x03
  | .stacks failed => s.bootStep 4 fun s => ({ s with stkfail := failed }).staged 4
  | .firmware code => s.bootStep 5 fun s =>
    (match code with
    | some code => (s.measureCode 2 code).staged 5
    | none => s.bootStops 0x05)
  | .tables ok => s.bootStep 6 fun s => if ok then s.clearTables.staged 6 else s.bootStops 0x06
  | .hostLink => s.bootStep 7 fun s => s.staged 7
/-- BOOT. -/
def execBoot (inp : BootInput) (s : State) : Result' := .next (s.boot inp)
/-- THROTTLE (R424): while it lasts no tile fires. -/
def execThrottle (on : Bool) (s : State) : Result' := .next { s with throttled := on }
/-- THERMTRIP (R424). -/
def execThermtrip (s : State) : Result' := .next { s with thermtrip := true }

end Sys2Proof.Machine
end

