-- ==== Sys2Proof/Machine/Cards.lean ====
section
/-!
DEFINITION. Job cards: `jsub` (14_control_core.md R296), the job scheduler's checks, edges and window (03_formats.md R72
to R74; 09_block_transfer.md R176 to R179), the operations of the block-transfer engine (R180 to R186) and completion
(R187).
-/
namespace Sys2Proof.Machine

/-- `jsub` (R296): the card is read in one access, and the context waits for the scheduler to accept it. -/
def execJsub (xa : Reg) (s : State) : Result' :=
  .next ((s.coreRead (s.reg xa).toNat 64).finish s fun s bs => s.parkMe (.window (BitVec.ofNat 512 (bytesNat bs))))

/-- The card that a context submits. -/
def Card.submitted (id : Nat) (bits : BitVec 512) (ctx : Nat) (c : Context) : Card :=
  ⟨id, bits, ctx, c.world, c.colour, [], .waiting, 0, 0, 0, false, [], 0, [], [], []⟩
/-- Whether R73 marks a field as used: RD0, RD1, WR, MASKP, ARG. -/
def cardUses (op : Nat) : Bool × Bool × Bool × Bool × Bool :=
  match op with
  | 0x01 => (true, false, true, false, false)
  | 0x02 => (true, false, true, true, true)
  | 0x03 => (true, true, true, false, true)
  | 0x04 => (true, true, true, false, true)
  | 0x05 => (false, false, true, false, true)
  | 0x06 => (true, true, true, true, true)
  | _ => (false, false, false, false, false)
/-- The checks of R74: the fault code of BADOP, or 0. -/
def Card.badOp (c : Card) : Nat :=
  let (a, b, w, m, g) := cardUses c.op
  if c.op = 0 || c.op > 7 then 0x01
  else if c.field 15 11 != 0 || c.field 127 96 != 0 || (!a && c.field 191 128 != 0) || (!b && c.field 255 192 != 0) ||
      (!w && c.field 319 256 != 0) || (!m && c.maskp != 0) || (!g && c.arg != 0) || (c.op = 7 && c.count != 0) then 0x02
  else if c.mv != m then 0x03 else 0
/-- Whether the ARG of an operation keeps its table (R181, R182, R185). -/
def cardArgOk (op a : Nat) : Bool :=
  if op = 2 then bits a 63 17 = 0 && bits a 15 0 % 16 = 0 && (bits a 16 16 = 1 || bits a 15 0 = 0)
  else if op = 3 ∨ op = 4 then
    bits a 59 59 = 0 && bits a 55 33 = 0 && bits a 31 12 = 0 && 1 ≤ bits a 11 0 && bits a 11 0 ≤ 64 &&
      (bits a 63 63 = 1 || (bits a 62 60 = 0 && bits a 58 56 = 0)) && (op = 3 || bits a 63 63 = 0)
  else if op = 6 then bits a 63 2 = 0
  else true
/-- Whether the regions and COUNT of a card keep R178's REGION conditions. -/
def Card.regionOk (c : Card) : Bool :=
  let n := c.count
  let fits := fun (r : Span) => n ≤ r.len
  let rows := c.rowb != 0 && n != 0 && n % c.rowb = 0
  cardArgOk c.op c.arg && (!c.wr.window || c.op = 7 || (c.wr.base % 16 = 0 && n % 16 = 0)) &&
  (match c.op with
    | 0x01 => n != 0 && fits c.rd0 && fits c.wr && !(c.rd0.overlaps c.wr && c.rd0.window = c.wr.window)
    | 0x02 => c.wr.window && c.wr.base / 65536 % 256 = 0 && fits c.wr
    | 0x03 => rows && c.rows * c.indexBytes ≤ c.rd1.len
    | 0x04 => rows && c.rows * c.indexBytes ≤ c.rd1.len
    | 0x05 => n != 0 && fits c.wr
    | _ => true)
/-- Status and fault code with which the scheduler refuses a card, or nothing (R74, R178). -/
def State.cardRefusal (s : State) (c : Card) : Option (Nat × Nat) :=
  if c.badOp != 0 then some (0x01, c.badOp)
  else if c.op = 6 && c.world != 0 then some (0x02, 0)
  else if c.rv && !((s.ring c.ring).en && (s.ring c.ring).world = c.world) then some (0x03, 0)
  else if !c.regionOk then some (0x08, 0)
  else none
/-- The write regions of a card: an `mcast` covers its offsets in all 192 tiles (R179). -/
def Card.writes (c : Card) : List Span :=
  if c.op = 2 then (List.range 192).map fun t => ⟨c.wr.base / 2 ^ 24 * 2 ^ 24 + 65536 * t + c.wr.base % 65536, c.wr.len⟩
  else [c.wr]
/-- Whether two regions of cards share a byte (R179). -/
def spansMeet (a : Card) (x : Span) (b : Card) (y : Span) : Bool :=
  x.overlaps y && x.window = y.window && (x.window || a.colour = b.colour)
/-- Whether a card takes an edge from an earlier one (R179). -/
def Card.after (b a : Card) : Bool :=
  let meet := fun (xs ys : List Span) => xs.any fun x => ys.any fun y => spansMeet a x b y
  meet a.writes [b.rd0, b.rd1] || meet [a.rd0, a.rd1] b.writes || meet a.writes b.writes || (b.op = 7 && a.ctx = b.ctx)
/-- A card that was refused enters no edge (R74). -/
def Card.refused (c : Card) : Bool := c.state = .done && (c.status = 1 || c.status = 2 || c.status = 3 || c.status = 8)
/-- CARD_ACCEPT (R178): the window of 32 has a free entry, so the card of a waiting context is checked and accepted. -/
def execCardAccept (ck ctx : Nat) (s : State) : Result' :=
  let t := s.act ck ctx
  match t.me.park with
  | .window b =>
    let k := s.cluster ck
    if k.cards.length ≥ 32 then .next s
    else
      let (t, id) := t.newId
      let c := Card.submitted id b ctx t.me
      let c := match t.cardRefusal c with
        | some (st, f) => c.ends st f
        | none => { c with edges := (k.cards.filter fun a => !a.refused && c.after a).map (·.id) }
      .next (t.modCluster ck fun k => { k with cards := k.cards ++ [c] }).advance
  | _ => .next s

/-- A card's region or pattern byte at an address (R184); zeros elsewhere. -/
def Card.plain (c : Card) (a : Nat) : Byte :=
  if c.op = 5 then BitVec.ofNat 8 (Sys2Proof.Machine.bits c.arg (8 * (a % 8) + 7) (8 * (a % 8))) else 0
/-- Joins a stretch of bytes to a list of stretches that are apart and rise. -/
def addStretch (x : Nat × Nat) : List (Nat × Nat) → List (Nat × Nat)
  | [] => [x]
  | y :: r =>
    if x.1 + x.2 < y.1 then x :: y :: r
    else if y.1 + y.2 < x.1 then y :: addStretch x r
    else addStretch (min x.1 y.1, max (x.1 + x.2) (y.1 + y.2) - min x.1 y.1) r
/-- Whether stretches cover n bytes from an offset. -/
def coversBytes (xs : List (Nat × Nat)) (off n : Nat) : Bool := xs.any fun x => x.1 ≤ off && decide (off + n ≤ x.1 + x.2)
/-- BYTES of a card (R187): the longest prefix of its write region that has been written; for `mcast` the bytes read, for `csrwalk`
the entries moved. -/
def Card.progress (c : Card) : Nat :=
  if c.op = 6 then
    let v := 2 ^ Sys2Proof.Machine.bits c.arg 1 0
    ((List.range (c.count / 4)).filter fun i => coversBytes c.written (4 * i) 4 && coversBytes c.written (c.bytes + v * i) v).length
  else match c.written with
    | (0, n) :: _ => n
    | _ => 0
/-- A card's end: `st` is a status beside its own. -/
def Card.over (c : Card) (st fault : Nat) : Card :=
  { c with state := .done, status := worse c.status st, fault := fault, bytes := c.progress, work := [] }
/-- Ends a card. -/
def State.cardEnd (s : State) (ck : Nat) (c : Card) (st fault : Nat) : State :=
  s.modCard ck c.id fun x => x.over st fault
/-- A card stopped by a fault (R177). -/
def State.cardFault (s : State) (ck : Nat) (c : Card) (code va : Nat) : State :=
  (s.poisonDue (dieOf ck) c.colour code va).cardEnd ck c 0x04 code
/-- The pages that parts of a card's work wait for. -/
def Card.pages (c : Card) : List (Nat × Nat) := match c.state with | .page ps => ps | _ => []
/-- A card that waits for a page beside others. -/
def Card.awaits (c : Card) (va : Nat) : Card := { c with state := .page (c.pages ++ [(c.colour.toNat, va / 2 ^ 14)]) }
/-- Part of a card's work waits for a page (R177). -/
def State.cardPage (s : State) (ck : Nat) (c : Card) (va : Nat) : State :=
  (s.raisePage (dieOf ck) c.colour va).modCard ck c.id fun x => x.awaits va
/-- Goes on with what a read for a card gave; a poisoned line is noted (25_reliability.md R410). -/
def State.cardThen (s : State) (ck : Nat) (c : Card) (m : Mem (List Byte × Bool)) (k : State → Nat → State) : State :=
  match m with
  | .busy => s
  | .page t va => t.cardPage ck c va
  | .fault t code va => t.cardFault ck c code va
  | .done t v => k (if v.2 then t.modCard ck c.id fun x => { x with status := worse x.status 0x06 } else t) (bytesNat v.1)
/-- A card's work begins: its parts are known. -/
def Card.starts (c : Card) (work : List CardWork) : Card := { c with begun := true, work := work }

/-- `mcast` begins (R181): its mask is read; an empty one reads no byte. -/
def State.beginMcast (s : State) (ck : Nat) (c : Card) : State :=
  s.cardThen ck c (s.cardRead ck c.colour false c.maskp 24 3) fun t mask =>
    let dests := (List.range 192).filter fun i => bits mask i i = 1
    t.modCard ck c.id fun x => { x.starts (if dests = [] then [] else [.chunk 0 c.count]) with dests := dests }
/-- `csrwalk` begins (R185): refused with REGION where the destinations do not fit. The offset of its values is kept in BYTES until the
card ends. -/
def State.beginCsr (s : State) (ck : Nat) (c : Card) : State :=
  s.cardThen ck c (s.cardRead ck c.colour false c.maskp 64 3) fun t d =>
    let voff := bits d 191 128
    let rowptr := bits d 63 0
    let v := 2 ^ bits c.arg 1 0
    let room := c.count / 4
    if bits d 511 192 != 0 || voff % 64 != 0 || 4 * room > voff || voff + v * room > c.wr.len then t.cardEnd ck c 0x08 0
    else if rowptr % 8 != 0 then t.cardFault ck c codeAlign rowptr
    else
      t.cardThen ck c (t.cardRead ck c.colour false (rowptr + 8 * bits d 95 64) 8 3) fun t b =>
        t.cardThen ck c (t.cardRead ck c.colour false (rowptr + 8 * bits d 127 96) 8 3) fun t e =>
          if e < b || (e > b && (4 * e > c.rd0.len || v * e > c.rd1.len)) then t.cardEnd ck c 0x05 0
          else
            t.modCard ck c.id fun x =>
              { x.starts [.entries (c.rd0.base + 4 * b) (c.rd1.base + v * b) c.wr.base (c.wr.base + voff) (min (e - b) room)] with
                bytes := voff, status := worse x.status (if room < e - b then 0x07 else 0) }
/-- A card's work begins (R180 to R186). -/
def State.beginCard (s : State) (ck : Nat) (c : Card) : State :=
  match c.op with
  | 0x01 => s.modCard ck c.id fun x => x.starts [.move (some (c.rd0.base, c.rd0.window)) [] c.wr.base c.count]
  | 0x02 => s.beginMcast ck c
  | 0x03 => s.modCard ck c.id fun x => x.starts [.rows 0 c.rows]
  | 0x04 => s.modCard ck c.id fun x => x.starts [.rows 0 c.rows]
  | 0x05 => s.modCard ck c.id fun x => x.starts [.move none [] c.wr.base c.count]
  | 0x06 => s.beginCsr ck c
  | _ => s.modCard ck c.id fun x => x.starts []

/-- What a part of a card's work came to: parts are left in its place, after a stretch was written (R187); parts wait for a page,
before others that go on; a fault; a line that is not free. -/
inductive CardStep where
  | went (s : State) (stretch : Nat × Nat) (poison : Bool) (left : List CardWork)
  | waits (s : State) (va : Nat) (parts : List CardWork)
  | stop (s : State) (code va : Nat)
  | busy
/-- The parts of a move from `a` on that cannot go on for want of the page of `va`, and of what lies before and behind it; a granule of a
scratchpad is not cut. -/
def Card.cutAt (c : Card) (src : Option (Nat × Bool)) (given : List (Byte × Bool)) (dst n a va : Nat) : List CardWork :=
  let part := fun (k m : Nat) =>
    if m = 0 then [] else [CardWork.move (src.map fun x => (x.1 + k, x.2)) ((given.drop k).take m) (dst + k) m]
  let lo := if c.wr.window then (va - a) / 16 * 16 else va - a
  let fin := (va / 2 ^ 14 + 1) * 2 ^ 14 - a
  let hi := min n (if c.wr.window then (fin + 15) / 16 * 16 else fin)
  part 0 lo ++ part lo (hi - lo) ++ part hi (n - hi)
/-- Bytes for a scratchpad with one poison for each granule (25_reliability.md R410). -/
def byGranule (ps : List (Byte × Bool)) : List (Byte × Bool) :=
  (List.range ps.length).map fun i =>
    ((ps.getD i (0, false)).1, ((ps.drop (i / 16 * 16)).take 16).any (·.2))
/-- Writes bytes of a card up to the end of a line, and up to where their poison changes (R410); what is left has to be written
still. -/
def State.cardPut (s : State) (ck : Nat) (c : Card) (ps : List (Byte × Bool)) (dst : Nat) (rest : List CardWork) : CardStep :=
  let ps := if c.wr.window then byGranule ps else ps
  let bad := (ps.headD (0, false)).2
  let now := (ps.take (256 - dst % 256)).takeWhile fun p => p.2 = bad
  let left := ps.drop now.length
  match s.cardWrite ck c.colour c.wr.window dst (now.map (·.1)) bad with
  | .busy => .busy
  | .page s va => .waits s va (c.cutAt none ps dst ps.length dst va ++ rest)
  | .fault s k va => .stop s k va
  | .done s _ =>
    .went s (dst - c.wr.base, now.length) bad ((if left = [] then [] else [.move none left (dst + now.length) left.length]) ++ rest)
/-- Bytes of a card's source that lie in at most two lines, each of which is read once. -/
def State.cardReadTwo (s : State) (ck : Nat) (c : Card) (win : Bool) (a n : Nat) : Mem (List (Byte × Bool)) :=
  let m := min n (256 - a % 256)
  (s.cardReadLine ck c.colour win a m).bind fun s ps =>
    if n = m then .done s ps
    else (s.cardReadLine ck c.colour win (a + m) (n - m)).map fun qs => ps ++ qs
/-- A part of a move (R180): a chunk up to the end of the line that is written, by one read of each line it touches; or bytes given, zero
or of the pattern of `fill` (R184). -/
def State.cardMove (s : State) (ck : Nat) (c : Card) (src : Option (Nat × Bool)) (given : List (Byte × Bool)) (dst n : Nat) :
    CardStep :=
  let m := min n (256 - dst % 256)
  match src with
  | none =>
    if given != [] then s.cardPut ck c given dst []
    else
      s.cardPut ck c ((List.range m).map fun i => (c.plain (dst + i), false)) dst
        (if n = m then [] else [.move none [] (dst + m) (n - m)])
  | some (a, win) =>
    match s.cardReadTwo ck c win a m with
    | .busy => .busy
    | .page s va => .waits s va (c.cutAt src [] dst n a va)
    | .fault s k va => .stop s k va
    | .done s ps => s.cardPut ck c ps dst (if n = m then [] else [.move (some (a + m, win)) [] (dst + m) (n - m)])
/-- Rows j to j + n - 1 of a `gather` or `scatter` (R182): the index of the first is read, once the rows below it are written. -/
def State.cardRows (s : State) (ck : Nat) (c : Card) (j n : Nat) : CardStep :=
  let a := c.rd1.base + c.indexBytes * j
  match s.cardRead ck c.colour c.rd1.window a c.indexBytes 3 with
  | .busy => .busy
  | .page s va =>
    let m := min n ((2 ^ 14 - a % 2 ^ 14 + c.indexBytes - 1) / c.indexBytes)
    .waits s va (.rows j m :: (if n = m then [] else [.rows (j + m) (n - m)]))
  | .fault s k va => .stop s k va
  | .done s (bs, bad) =>
    let k := bytesNat bs
    let rest : List CardWork := if n = 1 then [] else [.rows (j + 1) (n - 1)]
    let out := decide ((k + 1) * c.rowb > (if c.op = 3 then c.rd0.len else c.wr.len))
    let s := s.modCard ck c.id fun x =>
      { x with status := worse x.status (worse (if out then 0x05 else 0) (if bad then 0x06 else 0)) }
    .went s (0, 0) false (if c.op = 3 then
        (if out then [.move none [] (c.wr.base + j * c.rowb) c.rowb]
        else [.move (some (c.rd0.base + k * c.rowb, c.rd0.window)) [] (c.wr.base + j * c.rowb) c.rowb]) ++ rest
      else
        (if out then [] else [.move (some (c.rd0.base + j * c.rowb, c.rd0.window)) [] (c.wr.base + k * c.rowb) c.rowb]) ++ rest)
/-- One chunk of an `mcast` written to a receiver (R181), whose barrier object gets the arrival where the card names one; a write that
runs out of the receiver's scratchpad, or a barrier object that lies there, gives SP_RANGE. -/
def State.mcastTo (s : State) (ck : Nat) (c : Card) (off : Nat) (ps : List (Byte × Bool)) (ti : Nat) : State :=
  let o := c.wr.base % 65536 + off
  let boff := bits c.arg 15 0
  let bv := bits c.arg 16 16 = 1
  let fails := fun (s : State) (k : Nat) => s.modCard ck c.id fun x =>
    { x with dests := x.dests.filter (· != ti), failed := x.failed ++ [(ti, k)] }
  if o + ps.length > 65536 then fails s codeSpRange
  else
    match s.spCheck ck c.colour (65536 * ti + o) ps.length with
    | .error k => fails s k
    | .ok (tk, o) =>
      let s := (List.range ((ps.length + 15) / 16)).foldl (fun s g =>
        let qs := (ps.drop (16 * g)).take 16
        s.spFill tk (o + 16 * g) (qs.map (·.1)) (qs.any (·.2))) s
      if !bv then s
      else match s.spCheck ck c.colour (65536 * ti + boff) 16 with
        | .error k => fails s k
        | .ok _ => s.modCluster ck fun k => { k with arrivals := k.arrivals ++ [⟨tk, boff, ps.length⟩] }
/-- A chunk of 256 bytes of an `mcast` (R181): it is read once and written to every receiver that has not failed. -/
def State.cardChunk (s : State) (ck : Nat) (c : Card) (off n : Nat) : CardStep :=
  let m := min n 256
  let rest : List CardWork := if n = m then [] else [.chunk (off + m) (n - m)]
  match s.cardReadTwo ck c c.rd0.window (c.rd0.base + off) m with
  | .busy => .busy
  | .page s va => .waits s va (.chunk off m :: rest)
  | .fault s k va => .stop s k va
  | .done s ps => .went (c.dests.foldl (fun s ti => s.mcastTo ck c off ps ti) s) (off, m) (ps.any (·.2)) rest
/-- The entries of a `csrwalk` as moves, one after another (R185). -/
def CardWork.opened (c : Card) : CardWork → List CardWork
  | .entries col val dcol dval n =>
    let v := 2 ^ Sys2Proof.Machine.bits c.arg 1 0
    if n = 0 then []
    else [.move (some (col, c.rd0.window)) [] dcol 4, .move (some (val, c.rd1.window)) [] dval v,
      .entries (col + 4) (val + v) (dcol + 4) (dval + v) (n - 1)]
  | w => [w]
/-- A part of a card's work is done (R180 to R185). -/
def State.cardWorks (s : State) (ck : Nat) (c : Card) : CardWork → CardStep
  | .move src given dst n => s.cardMove ck c src given dst n
  | .rows j n => s.cardRows ck c j n
  | .chunk off n => s.cardChunk ck c off n
  | w => .went s (0, 0) false (w.opened c)

/-- Whether a part's next access lies in one of the pages that the card waits for. -/
def CardWork.waitsFor (c : Card) (w : CardWork) : Bool :=
  let away := fun (win : Bool) (a : Nat) => !win && c.pages.contains (c.colour.toNat, a / 2 ^ 14)
  match w with
  | .move src _ dst n =>
    (src.any fun a => away a.2 a.1 || away a.2 (a.1 + min n (256 - dst % 256) - 1)) || away c.wr.window dst
  | .rows j _ =>
    let a := c.rd1.base + c.indexBytes * j
    away c.rd1.window a || away c.rd1.window (a + c.indexBytes - 1)
  | .chunk off n => away c.rd0.window (c.rd0.base + off) || away c.rd0.window (c.rd0.base + off + min n 256 - 1)
  | .entries _ _ _ _ _ => false
/-- Whether a part must wait for an earlier one: the chunks of an `mcast` and, in a `scatter`, rows whose place is not known yet keep
their order, and a part that reads or writes bytes which an earlier one has still to write waits (R181, R182). -/
def CardWork.behind (c : Card) (x w : CardWork) : Bool :=
  let meets := fun (d n a m : Nat) => d < a + m && decide (a < d + n)
  match w, x with
  | .chunk _ _, _ => true
  | .rows _ _, _ => c.op = 4
  | .move _ _ d n, .move src _ e m => meets d n e m || src.any fun a => meets d n a.1 m
  | .move _ _ d n, .rows j m => meets d n (c.rd1.base + c.indexBytes * j) (c.indexBytes * m)
  | _, _ => false
/-- The place of the part of a card's work that can go on now: the first that waits for no page and for no earlier part. -/
def Card.nextWork (c : Card) : List CardWork → Nat → List CardWork → Option (Nat × CardWork)
  | _, _, [] => none
  | held, i, w :: rest =>
    if w.waitsFor c || held.any fun h => CardWork.behind c w h then c.nextWork (held ++ [w]) (i + 1) rest else some (i, w)
/-- A card whose part i is replaced by others. -/
def Card.leaves (c : Card) (i : Nat) (ws : List CardWork) : Card := { c with work := c.work.take i ++ ws ++ c.work.drop (i + 1) }
/-- A card's channel does one part of its work. -/
def State.cardGoes (s : State) (ck : Nat) (c : Card) (i : Nat) (w : CardWork) : State :=
  match s.cardWorks ck c w with
  | .busy => s
  | .stop s k va => s.cardFault ck c k va
  | .waits s va ws => (s.modCard ck c.id fun x => x.leaves i ws).cardPage ck c va
  | .went s st bad ws => s.modCard ck c.id fun x =>
    { x.leaves i ws with
      written := if st.2 = 0 then x.written else addStretch st x.written
      status := worse x.status (if bad then 0x06 else 0) }
/-- The code of the receiver of an `mcast` that failed, the first in ascending order (R181). -/
def Card.firstFailed (c : Card) : Option Nat :=
  (c.failed.foldl (fun (b : Option (Nat × Nat)) f =>
    match b with | none => some f | some g => if f.1 < g.1 then some f else b) none).map (·.2)
/-- A card whose work is done ends (R187). -/
def State.cardFinishes (s : State) (ck id : Nat) : State :=
  match (s.cluster ck).cards.find? fun c => c.id = id with
  | some c => if c.begun && c.state = .running && c.work = [] then s.cardEnd ck c (if c.failed = [] then 0 else 0x04) (c.firstFailed.getD 0) else s
  | none => s
/-- `gather` through fabric tiles (R183): both ports must be bound, in a graph of the card's world, for its colour; the
bindings then carry the card's indices and rows. -/
def State.cardFabric (s : State) (ck : Nat) (c : Card) : State :=
  let k := s.cluster ck
  let bound := fun (port : Nat) (exit : Bool) => k.bindings.find? fun b =>
    b.phys = 32 + port && b.isExit = exit && b.colour = c.colour && s.worldOfCtx ck b.ctx = some c.world
  match bound c.cport false, bound c.rport true with
  | some a, some b =>
    let again := fun (x : Binding) => if x.id = a.id || x.id = b.id then { x with finished := false } else x
    (s.modCluster ck fun k => { k with bindings := k.bindings.map again }).modCard ck c.id fun x =>
      { x with state := .fabric 0 0 false }
  | _, _ => s.cardEnd ck c 0x09 0

/-- Whether a card occupies one of the four channels (R179). -/
def Card.onChannel (c : Card) : Bool :=
  match c.state with | .running => true | .fabric _ _ _ => true | .page _ => true | _ => false
/-- Whether a card's channel has work to do that waits for no page. -/
def Card.moves (c : Card) : Bool :=
  match c.state with
  | .running => true
  | .page _ => c.begun && (c.nextWork [] 0 c.work).isSome
  | _ => false
/-- The card that issues or goes on next (R179): the oldest that has not done so in this cycle, of those that run and those whose edges
have completed, while a channel is free. -/
def Cluster.nextCard (k : Cluster) (now : Nat) : Option Card :=
  let free := (k.cards.filter Card.onChannel).length < 4
  k.cards.find? fun c =>
    c.movedAt != now + 1 &&
      (c.moves || (c.state = .waiting && free && !k.cards.any fun a => c.edges.contains a.id))
/-- A card takes its channel, and what it does in a cycle. -/
def State.cardTurn (s : State) (ck : Nat) (c : Card) : State :=
  s.modCard ck c.id fun x => { x with movedAt := s.cycles + 1, state := match x.state with | .waiting => .running | y => y }
/-- What a card on a channel does (R180 to R186). -/
def State.cardRuns (s : State) (ck : Nat) (c : Card) : State :=
  if c.fab then s.cardFabric ck c
  else if !c.begun then s.beginCard ck c
  else match c.nextWork [] 0 c.work with
    | some (i, w) => s.cardGoes ck c i w
    | none => s
/-- CARD_ISSUE (R179): the oldest ready card issues to a free channel, or a channel does the next part of its card's work (R180 to
R186): at most 256 bytes in an FCLK cycle. -/
def execCardIssue (ck : Nat) (s : State) : Result' :=
  match (s.cluster ck).nextCard s.cycles with
  | none => .next s
  | some c => .next (((s.cardTurn ck c).cardRuns ck c).cardFinishes ck c.id)
/-- The ring of a card's record (R178): the own ring of its world where its RING was refused. -/
def Card.recordRing (c : Card) : Nat := if c.status = 0x03 then c.world.toNat else c.ring
/-- CARD_COMPLETE (R187): the k-th card of a window has ended; its record is sent, its JOIN word is decremented after it,
and it leaves the window. A gather through the fabric ends with EOS (R183). -/
def execCardComplete (ck k : Nat) (s : State) : Result' :=
  match (s.cluster ck).cards[k]? with
  | none => .next s
  | some c =>
    let c : Card := match c.state with
      | .fabric _ got true =>
        { c with state := .done, status := worse c.status (if got = c.count then 0 else 0x09), bytes := min got c.count }
      | _ => c
    if c.state != .done then .next s
    else
      let s := s.modCluster ck fun x => { x with cards := x.cards.eraseIdx k }
      let j : Option Join := if c.jv then some ⟨ck, c.colour, c.join⟩ else none
      if c.rv then
        .next (s.recordJoin (s.mkRecord ck c.recordRing c.world 0x01 c.status c.fault c.colour c.bytes (BitVec.ofNat 64 c.tag)) j)
      else match j with | none => .next s | some j => .next (s.joinWord j)

end Sys2Proof.Machine
end

