-- ==== Sys2Proof/Machine/Graphs.lean ====
section
/-!
DEFINITION. Launches: `gload`, `gsplice` and `gfree` (14_control_core.md R293 to R295), splicing (16_scheduling.md R320 to
R323), the end of a launch (R318, R319), and the fabric manager's library (R324 to R326).
-/
namespace Sys2Proof.Machine

/-- A launch descriptor (R293): HOLD, RING, JOIN, IMAGE. -/
structure LaunchDesc where
  hold : Bool
  ring : Nat
  join : Word
  image : Nat
  deriving DecidableEq, Repr
/-- Reads a launch descriptor; nothing where a reserved bit is set or an address is misaligned. -/
def LaunchDesc.of (d : Nat) : Option LaunchDesc :=
  if bits d 255 145 != 0 || bits d 127 64 % 4 != 0 || bits d 63 0 % 16 != 0 then none
  else some ⟨bits d 144 144 = 1, bits d 143 128, BitVec.ofNat 64 (bits d 127 64), bits d 63 0⟩
/-- The fuel of object creation: every object once, and every entry that reclamation may destroy. -/
def State.creationFuel (s : State) (n : Nat) : Nat := n + 1 + (s.dies.map fun e => e.2.objects.length).sum

/-- Code NOREGION (R277). -/
def stNoRegion : Nat := 0x10
/-- Ends `gload` with a status: xd := -STATUS (R293). -/
def State.gloadFail (s : State) (xd : Reg) (st : Nat) : State := s.finish xd (BitVec.ofInt 64 (-(st : Int)))
/-- Whether the fabric has room for a placed image, or the status that says what is lacking (R293 steps 3 to 5). -/
def State.placeCheck (s : State) (ck : Nat) (g : Image) (p : Placed) (plane : Nat) (ports : List GraphPort)
    (but : Option Nat) : Except Nat Nat :=
  let w : World := BitVec.ofNat 6 g.world
  let k := s.cluster ck
  if s.planeTaken ck plane w || !s.slotsFree ck plane p but then .error stNoRegion
  else
    match Map.lowestFree k.launches 2048 0 with
    | none => .error 0x12
    | some ctx =>
      if k.freePorts.length < (ports.filter fun q => !q.isExit).length then .error 0x12
      else if g.tiles.any fun t => s.spOwned (192 * ck + p.tileOf t) t.need w then .error 0x11
      else .ok ctx
/-- Creates the objects of an image and writes their handles (R366); `k` gets the state and what comes of it. A fault at
a handle write destroys the objects and traps; NOSPACE destroys them too. -/
def State.withObjects (s : State) (ck : Nat) (w : World) (c : Colour) (os : List ImageObject)
    (fail : State → State) (k : State → State) : State :=
  match s.createAll ck w [] [] (s.creationFuel os.length) os with
  | .noSpace s => fail s
  | .wait gone => gone.foldl (fun s v => s.destroyObject v.1 v.2) s
  | .made t hs =>
    match t.writeHandles c (os.zip hs) with
    | .done t _ => k t
    | .busy => s
    | .page _ va => s.parkPage c va
    | .fault t code va => (hs.foldl (fun s h => s.destroyObject h.die h.index) t).memTrap code va
/-- Loads a graph whose image has been read and placed (R293 steps 2 to 5). -/
def State.loadGraph (s : State) (xd : Reg) (d : LaunchDesc) (g : Image) (p : Placed) (ports : List GraphPort) : State :=
  let ck := s.actor.ck
  let w := s.me.world
  let c := s.me.colour
  let fs := p.failures g.warn
  let noted := fun (s : State) => s.cfgErrors ck d.ring w ck g.plane p fs
  if refused fs then (noted s).gloadFail xd 0x0F
  else
    match s.placeCheck ck g p g.plane ports none with
    | .error st => (noted s).gloadFail xd st
    | .ok ctx =>
      s.withObjects ck w c g.objects (fun s => (noted s).gloadFail xd stNoSpace) fun t =>
        match t.setBounds ck p w g.tiles with
        | none => s
        | some t =>
          let st : LaunchState := if d.hold then .held else .running
          let t := (noted t).extendMeasure w.toNat g.bytes
          let t := t.allocate ck ctx g (g.launch p ports g.plane d.ring d.join c st)
          let t := t.installImage ck ctx g.plane g p
          let t := if g.snapshot then
              match t.snaps[g.saved]? with
              | some x => t.restore ck ctx x.ctx x
              | none => t
            else t
          t.finish xd (BitVec.ofNat 64 ctx)
/-- `gload` (R293). -/
def execGload (xd xa : Reg) (imm : BitVec 32) (s : State) : Result' :=
  .next ((s.coreRead (s.reg xa).toNat 32).finish s fun s bs =>
    if imm.toNat ≥ 256 then s.gloadFail xd 0x01
    else
      match LaunchDesc.of (bytesNat bs) with
      | none => s.gloadFail xd 0x01
      | some d =>
        (s.readImage s.actor.ck s.me.colour d.image).finish s fun s r =>
          match r with
          | none => s.gloadFail xd 0x01
          | some g =>
            if g.snapshot && (s.snaps[g.saved]?).isNone then s.gloadFail xd 0x01
            else if g.world != s.me.world.toNat then s.gloadFail xd 0x02
            else
              match g.placeAt (g.x + imm.toNat % 16) (g.y + imm.toNat / 16) with
              | none => s.gloadFail xd 0x0B
              | some (p, ports) => s.loadGraph xd d g p ports)

/-- The SPLICE tokens of a splice (R320): one for every slot of the plane that either image uses within the region. -/
def State.spliceTokens (s : State) (ck pred ctx : Nat) (l : Launch) (words : List PlacedWord) : List SpliceToken :=
  let used := ((List.range 192).filter l.covers).flatMap fun ti =>
    (List.range 64).filterMap fun k =>
      let new := words.find? fun w => w.ti = ti && w.slot = k
      let old := ((s.tile (192 * ck + ti)).slot (64 * l.plane + k)).ctx = some pred
      match new with
      | some w => some (ti, k, w.word)
      | none => if old then some (ti, k, 0) else none
  used.map fun u => ⟨u.1, l.plane, u.2.1, u.2.2, ctx⟩
/-- Sends a SPLICE token to its tile, in VC3 of the narrow plane: 128 bits of word after a beat of header (07_network.md R142). -/
def State.sendSplice (s : State) (ck : Nat) (x : SpliceToken) : State :=
  (List.range 5).foldl (fun s b => s.inject ck (.port unitPort) (x.ti, 4) true 3 (.splice x (b = 4))) s
/-- The SPLICE tokens on their way in a cluster. -/
def Cluster.splicesOut (k : Cluster) : List SpliceToken :=
  k.splices ++ k.flits.filterMap fun f => match f.cargo with | .splice x true => some x | _ => none
/-- Installs a successor behind a predecessor (R294, R320), with everything that `gload` checks. -/
def State.splice (s : State) (d : LaunchDesc) (pred : Nat) (l : Launch) (g : Image) (p : Placed) (ports : List GraphPort) :
    State :=
  let ck := s.actor.ck
  let w := s.me.world
  let c := s.me.colour
  let fs := p.failures g.warn
  let noted := fun (s : State) => s.cfgErrors ck d.ring w ck l.plane p fs
  let outside := p.words.any fun x => !l.covers x.ti
  if refused fs then (noted s).report 0x0F 0
  else if outside || l.state = .splicing || l.successor.isSome then (noted s).report stNoRegion 0
  else
    match s.placeCheck ck g p l.plane ports (some pred) with
    | .error st => (noted s).report st 0
    | .ok ctx =>
      s.withObjects ck w c g.objects (fun s => (noted s).report stNoSpace 0) fun t =>
        let t := (noted t).extendMeasure w.toNat g.bytes
        if l.state = .ended then
          match t.setBounds ck p w g.tiles with
          | none => s
          | some t =>
            let t := t.allocate ck ctx g (g.launch p ports l.plane d.ring d.join c .running)
            (t.installImage ck ctx l.plane g p).report 0 ctx
        else
          let regs := (g.tiles.filter fun x => x.regs.isSome || x.scratch != [] || x.need != 0).map fun x =>
            (⟨p.tileOf x, x.need, x.regs, x.scratch⟩ : SpliceRegs)
          let new := { g.launch p ports l.plane d.ring d.join c .splicing with predecessor := some pred, spliceRegs := regs }
          let t := (t.allocate ck ctx g new).modLaunch ck pred fun l => { l with successor := some ctx }
          let ts := t.spliceTokens ck pred ctx l (g.placedWords p)
          (ts.foldl (fun s x => s.sendSplice ck x) t).parkMe (.splice ctx)
/-- `gsplice` (R294). -/
def execGsplice (xa xb : Reg) (s : State) : Result' :=
  let pred := (s.reg xb).toNat
  .next ((s.coreRead (s.reg xa).toNat 32).finish s fun s bs =>
    match LaunchDesc.of (bytesNat bs) with
    | none => s.report 0x01 0
    | some d =>
      if pred ≥ 2048 || d.hold then s.report 0x01 0
      else
        match s.launch? s.actor.ck pred with
        | none => s.report 0x02 0
        | some l =>
          if l.world != s.me.world then s.report 0x02 0
          else
            (s.readImage s.actor.ck s.me.colour d.image).finish s fun s r =>
              match r with
              | none => s.report 0x01 0
              | some g =>
                if g.snapshot then s.report 0x01 0
                else if g.world != s.me.world.toNat then s.report 0x02 0
                else
                  match g.placeAt l.x l.y with
                  | none => s.report stNoRegion 0
                  | some (p, ports) => s.splice d pred l g p ports)
/-- `gfree` (R295). -/
def execGfree (xa : Reg) (s : State) : Result' :=
  let ck := s.actor.ck
  let ctx := (s.reg xa).toNat
  if ctx ≥ 2048 then .next (s.report 0x01 0)
  else
    match s.launch? ck ctx with
    | none => .next (s.report 0x02 0)
    | some l =>
      if l.world != s.me.world then .next (s.report 0x02 0)
      else
        match l.state with
        | .ended => .next ((s.freeCtx ck ctx).report 0 0)
        | .held => .next (((s.cancelLaunch ck ctx).freeCtx ck ctx).report 0 0)
        | _ => .next (s.report 0x07 0)

/-- SPLICE_TOKEN (R320): the k-th SPLICE token of a cluster reaches its tile; `gsplice` completes with the last. -/
def execSpliceToken (ck k : Nat) (s : State) : Result' :=
  match (s.cluster ck).splices[k]? with
  | none => .next s
  | some t =>
    let s := s.modTile (192 * ck + t.ti) fun x =>
      x.modSlot (64 * t.plane + t.slot) fun y => { y with pending := some (t.word, t.ctx) }
    let s := s.modCluster ck fun c => { c with splices := c.splices.eraseIdx k }
    if (s.cluster ck).splicesOut.any fun u => u.ctx = t.ctx then .next s
    else
      .next ((List.range 8).foldl (fun s x =>
        if (s.context ck x).park = .splice t.ctx then
          let back := s.actor
          { (s.act ck x).report 0 t.ctx with actor := back }
        else s) s)
/-- Whether a slot that holds a word of a context is closed (R321). -/
def State.slotClosed (s : State) (tk key ctx : Nat) : Bool :=
  let t := s.tile tk
  let x := t.slot key
  let slot := key % 64
  let plane := key / 64
  let mine := fun (g : Tag) => g.ctx.toNat = ctx && g.slot.toNat = slot
  let ports := match s.slotOp tk plane slot with | none => [] | some (_, f) => dataPorts f
  let colours := match s.launch? (ckOf tk) ctx with | some l => l.colours | none => []
  colours.all (fun c => ports.all fun p => x.closed.contains (4 * c + (portCode p).toNat)) &&
    !t.store.any (fun e => mine e.2.token.tag) && !t.restored.any (fun e => mine e.2.token.tag) &&
    !t.reserved.any (fun r => r.ctx.toNat = ctx && r.slot = slot && r.plane = plane) &&
    !t.spills.any (fun e => mine e.token.tag) && !t.parked.any (fun w => mine w.tag) &&
    !t.accesses.any fun a => a.plane = plane && a.slot = slot && a.tag.ctx.toNat = ctx
/-- A SPLICING launch becomes RUNNING once every slot of its image holds its word (R323). -/
def State.spliceDone (s : State) (ck ctx : Nat) : State :=
  s.modLaunch ck ctx fun l =>
    if l.state = .splicing && l.words.all fun w =>
        ((s.tile (192 * ck + w.ti)).slot (64 * l.plane + w.slot)).ctx = some ctx then { l with state := .running }
    else l
/-- SPLICE_INSTALL (R321, R323): slot k (64 * plane + slot) of a tile installs its pending word once it is closed; its
stall counters are cleared. -/
def execSpliceInstall (tk k : Nat) (s : State) : Result' :=
  let x := (s.tile tk).slot k
  match x.pending with
  | none => .next s
  | some (w, ctx) =>
    let open' := match x.ctx with | some c => !s.slotClosed tk k c | none => false
    if open' || (s.cluster (ckOf tk)).splicesOut.any (fun t => t.ctx = ctx && t.ti = tiOf tk && t.slot = k % 64) then .next s
    else
      let new := { Slot.reset with word := w, ctx := if w = 0 then none else some ctx }
      .next ((s.modTile tk fun t => t.modSlot k fun _ => new).spliceDone (ckOf tk) ctx)
/-- SPLICE_REGISTER_WRITE (R322): once every slot of a tile that held a word of the predecessor is closed, the successor's
registers and scratch image are written. -/
def execSpliceRegisterWrite (tk : Nat) (s : State) : Result' :=
  let ck := ckOf tk
  match (s.cluster ck).launches.findSome? fun e => (e.2.spliceRegs.find? fun r => r.ti = tiOf tk).map fun r => (e.1, e.2, r) with
  | none => .next s
  | some (ctx, l, r) =>
    let waits := match l.predecessor with
      | none => false
      | some p => (List.range 64).any fun k =>
          ((s.tile tk).slot (64 * l.plane + k)).ctx = some p && !s.slotClosed tk (64 * l.plane + k) p
    if waits then .next s
    else
      match s.setBound tk r.need l.world with
      | none => .next s
      | some s =>
        let s := match r.regs with | none => s | some x => s.modTile tk fun t => t.loadRegs l.plane l.world x
        .next ((s.imageScratch tk r.scratch).modLaunch ck ctx fun l => { l with spliceRegs := l.spliceRegs.erase r })

/-- Whether the EOS at level 0 of a colour is held for an exit port in a commit buffer of the cluster (21_faults_preemption.md
R382; log 28). -/
def State.heldEos (s : State) (ck ctx phys c : Nat) : Bool :=
  s.tiles.any fun e => ckOf e.1 = ck && e.2.commits.any fun h =>
    h.ctx = ctx && h.colour.toNat = c && (match h.effect with
      | .exit x _ => x.phys = phys && x.token.payload = .eos 0
      | _ => false)
/-- Conditions 1 to 3 of R318, where an EOS held in a commit buffer counts as passed; a poisoned colour no longer counts (21_faults_preemption.md R375). -/
def State.launchQuiet (s : State) (ck ctx : Nat) (l : Launch) : Bool :=
  let cs := l.colours.filter fun c => !(s.colour (colourOf c)).poisoned
  let sinks := l.words.filter fun w => bits w.word.toNat 127 119 = 0x01C
  let exits := (List.range l.ports.length).filter fun i => ((l.ports[i]?).map (·.isExit)).getD false
  ((s.cluster ck).bindings.all fun b => b.ctx != ctx || b.isExit || s.bindingDone ck b.id) &&
    cs.all (fun c =>
      sinks.all (fun w => l.sinkEos.contains (w.ti, 64 * l.plane + w.slot, c)) && exits.all fun i =>
        l.exitEos.contains (i, c) || s.heldEos ck ctx (((l.ports[i]?).map (·.phys)).getD 64) c) &&
    !s.anyToken ck (goneCtx ck ctx)
/-- What happens once conditions 1 to 3 hold (R318, R167; 21_faults_preemption.md R382): dirty granules of the launch's
colours are written back in every tile of the cluster, and held effects are released. -/
def State.launchSettle (s : State) (ck ctx : Nat) (l : Launch) : State :=
  let s := ((List.range 192).filter l.covers).foldl (fun s ti => s.releaseHeld (192 * ck + ti) fun c => c.ctx = ctx) s
  (s.stashEnd ck ctx l.colours).modLaunch ck ctx fun l => { l with writtenBack := true }
/-- LAUNCH_END (R319): the conditions of R318 hold, so the launch ends. It is also the end of an abort whose last store
acknowledgement has come (21_faults_preemption.md R376). -/
def execLaunchEnd (ck ctx : Nat) (s : State) : Result' :=
  match s.launch? ck ctx with
  | none => .next s
  | some l =>
    let k := s.cluster ck
    if k.lcBusy && k.lcCtx.toNat = ctx then .next (s.abortFinish ck)
    else if l.state != .running || !l.bound || !s.launchQuiet ck ctx l then .next s
    else
      let s := if l.writtenBack then s else s.launchSettle ck ctx l
      let left := match s.launch? ck ctx with | some l => l.outstanding | none => 0
      if left = 0 && !s.anyToken ck (goneCtx ck ctx) then .next (s.endLaunch ck ctx 0 0) else .next s

/-- The held operand of a CFGREQ (10_ops_routing.md R204). -/
def State.cfgOperand (s : State) (r : CfgRequest) : Option (Nat × Entry) :=
  (s.tile r.tk).store.find? fun e =>
    e.2.state = .cfgreq && e.2.token.tag.slot.toNat = r.slot && e.2.token.tag.same r.tag
/-- Ends a CFGREQ by a fault under R248 (R326): its operand is consumed, its credit returned. -/
def State.cfgFault (s : State) (die k : Nat) (r : CfgRequest) (code va : Nat) : State :=
  let s := s.modDie die fun d => { d with cfgreqs := d.cfgreqs.eraseIdx k }
  match s.cfgOperand r with
  | none => s
  | some (i, e) =>
    ((s.modTile r.tk fun t => { t with store := Map.del t.store i }).returnCredit r.tk e.token.credit r.tag.colour).faultRecord
      r.ck r.tag.colour 0x10 code va { r.tag with slot := BitVec.ofNat 6 r.slot, port := 0 }.toWord
/-- Delivers a CFGREQ's operand to the entry of its instance, with its credit and without `Admit` (R325 step 5); it waits
for a reservation there. -/
def State.cfgDeliver (s : State) (die k : Nat) (r : CfgRequest) (x : LibInstance) : State :=
  match s.cfgOperand r, s.launch? x.ck x.ctx with
  | some (i, e), some l =>
    match l.ports.find? fun g => !g.isExit with
    | none => s
    | some g =>
      let dst := 192 * x.ck + g.ti
      if !s.grants dst r.tag.colour x.ctx then s
      else
        let tag : Tag := { r.tag with ctx := BitVec.ofNat 11 x.ctx, slot := BitVec.ofNat 6 g.slot, port := portCode g.port }
        let narrow := (l.entryPlane g).getD (match e.token.payload with | .narrow _ _ _ => true | _ => false)
        let t : Token := { e.token with tag := tag, epoch := (s.tile dst).epochs.getLsbD l.plane }
        let s := (s.modTile r.tk fun y => { y with store := Map.del y.store i }).enterPort x.ck l.plane g narrow t
        s.modDie die fun d =>
          { d with
            cfgreqs := d.cfgreqs.eraseIdx k
            libs := d.libs.map fun (y : LibInstance) =>
              if y.ck = x.ck && y.ctx = x.ctx then { y with returns := y.returns ++ [⟨r.tag, r.tk, r.plane, r.slot, r.word⟩] } else y }
  | _, _ => s.modDie die fun d => { d with cfgreqs := d.cfgreqs.eraseIdx k }
/-- The places that a library image may take, in order (R325 step 2): the requester's cluster first, then the others of the
die; origins by y and then x; the requester's plane where it is free or the world's, else the lowest such plane. -/
def State.cfgPlaces (s : State) (r : CfgRequest) (w : World) : List (Nat × Nat × Nat × Nat) :=
  let die := dieOf r.ck
  let cks := r.ck :: ((List.range 16).map (16 * die + ·)).filter (· != r.ck)
  cks.flatMap fun ck =>
    match (r.plane :: List.range 4).find? fun p => !s.planeTaken ck p w with
    | none => []
    | some p => (List.range 12).flatMap fun y => (List.range 16).map fun x => (ck, p, x, y)
/-- Places a library instance at a candidate, where it fits (R325); its plane and placement are answered too. -/
def State.cfgPlace (s : State) (r : CfgRequest) (g : Image) (at' : Nat × Nat × Nat × Nat) :
    Option (State × LibInstance × Nat × Placed) :=
  let (ck, plane, x, y) := at'
  match g.placeAt x y with
  | none => none
  | some (p, ports) =>
    if refused (p.failures g.warn) then none
    else
      match s.placeCheck ck g p plane ports none with
      | .error _ => none
      | .ok ctx =>
        (s.setBounds ck p (BitVec.ofNat 6 g.world) g.tiles).map fun s =>
          let l := { g.launch p ports plane 0 0 r.tag.colour .running with requester := some r.index }
          let x : LibInstance := ⟨r.ck, r.tag.ctx.toNat, r.index, ck, ctx, []⟩
          let s := ((s.extendMeasure g.world g.bytes).allocate ck ctx g l).installImage ck ctx plane g p
          (s.modDie (dieOf r.ck) fun d => { d with libs := d.libs ++ [x] }, x, plane, p)
/-- The first placement of a library image (R325, R326). The records of R67 name the place where the image is installed; those of a
refused image the origin and plane of `.region` in the requester's cluster (log 121). -/
def State.cfgFirst (s : State) (die k : Nat) (r : CfgRequest) (w : World) (g : Image) : State :=
  let wrong := g.world != w.toNat || (g.ports.filter fun p => !p.isExit).length != 1 ||
    !(1 ≤ (g.ports.filter (·.isExit)).length && (g.ports.filter (·.isExit)).length ≤ 3)
  if g.snapshot then s.cfgFault die k r 0x26 0
  else if wrong then s.cfgFault die k r 0x25 0
  else
    match g.placeAt g.x g.y with
    | none => s.cfgFault die k r 0x26 0
    | some (p, _) =>
      let noted := fun (s : State) (ck plane : Nat) (p : Placed) =>
        s.cfgErrors r.ck (s.ringOfColour r.tag.colour) w ck plane p (p.failures g.warn)
      if refused (p.failures g.warn) then (noted s r.ck g.plane p).cfgFault die k r 0x26 0
      else
        match (s.cfgPlaces r w).findSome? fun c => s.cfgPlace r g c with
        | some (s, x, plane, q) => (noted s x.ck plane q).cfgDeliver die k r x
        | none =>
          if r.held then s
          else
            (s.faultRecord r.ck r.tag.colour 0x10 0x27 0 { r.tag with slot := BitVec.ofNat 6 r.slot, port := 0 }.toWord).modDie die
              fun d => { d with cfgreqs := d.cfgreqs.set k { r with held := true } }
/-- Serves the k-th CFGREQ of a die: by the instance that its cluster, context and index already have, or by the world's
library (R324 to R326). An entry whose IMAGE is misaligned or whose reserved bits are set faults CFG_INDEX (log 122). -/
def State.cfgServe (s : State) (die k : Nat) (r : CfgRequest) : State :=
  match (s.die die).libs.find? fun x => x.reqCk = r.ck && x.reqCtx = r.tag.ctx.toNat && x.index = r.index with
  | some x => s.cfgDeliver die k r x
  | none =>
    match s.worldOfCtx r.ck r.tag.ctx.toNat with
    | none => s.cfgFault die k r 0x25 0
    | some w =>
      let reg := (Map.get (s.die die).fmlib w.toNat 0).toNat
      let c := colourOf (bits reg 63 55)
      let wait := fun (s : State) (va : Nat) => s.raisePage die c va
      if reg % 2 = 0 || r.index ≥ 2 ^ bits reg 51 47 then s.cfgFault die k r 0x25 0
      else
        match s.engineRead (16 * die) c (bits reg 46 4 * 16 + 16 * r.index) 16 2 with
        | .busy => s
        | .page s va => wait s va
        | .fault s code va => (s.poisonDue die c code va).cfgFault die k r code va
        | .done s (bs, bad) =>
          let e := bytesNat bs
          if bad then s.cfgFault die k r codePoison (bits reg 46 4 * 16 + 16 * r.index)
          else if bits e 64 64 = 0 || bits e 127 65 != 0 || bits e 63 0 % 16 != 0 then s.cfgFault die k r 0x25 0
          else
            match s.readImage (16 * die) c (bits e 63 0) with
            | .busy => s
            | .page s va => wait s va
            | .fault s code va => (s.poisonDue die c code va).cfgFault die k r code va
            | .done s none => s.cfgFault die k r 0x26 0
            | .done s (some g) => s.cfgFirst die k r w g
/-- CFGREQ_SERVE (R325): the fabric manager serves the k-th CFGREQ of its die. -/
def execCfgreqServe (die k : Nat) (s : State) : Result' :=
  match (s.die die).cfgreqs[k]? with
  | none => .next s
  | some r => if r.held then .next s else .next (s.cfgServe die k r)
/-- CFG_WAIT_RETRY (R326): a request held for want of a region is tried again. -/
def execCfgWaitRetry (die k : Nat) (s : State) : Result' :=
  match (s.die die).cfgreqs[k]? with
  | none => .next s
  | some r => if r.held then .next (s.cfgServe die k r) else .next s

end Sys2Proof.Machine
end

