-- ==== Sys2Proof/Machine/NarrowOps.lean ====
section
/-!
DEFINITION. The arithmetic and the comparisons of the narrow plane (10_ops_routing.md R207 to R209), and the beats of
the narrow unit (R210, R33).
-/
namespace Sys2Proof.Machine

/-- A firing whose result is a narrow value of `digits` digits, in the canonical string (R209). -/
def State.fireNarrow (s : State) (opc : Nat) (f : OpFields) (digits : Nat) (g : Match → Int) : State :=
  s.fireResult opc f fun m => .narrow digits (g m) .canonical
/-- A firing whose result is a narrow value in some string of its digits (R25, R207; log 5). -/
def State.fireString (s : State) (opc : Nat) (f : OpFields) (digits : Nat) (g : Match → Int) : State :=
  s.fire opc f fun s q m =>
    if m.eos then s.forwardEos q m
    else s.withTag q m m.tag fun s t =>
      ({ s with free := s.free + 1 } : State).output q m (q.toAll (.narrow digits (g m) (.chosen s.free)) t) (m.at? .l)
/-- An arithmetic operator: the exact result, wrapped to the type's width (R207). -/
def State.fireWrap (s : State) (opc : Nat) (f : OpFields) (g : Int → Int → Int) : State :=
  s.fireString opc f f.etype.digits fun m => Num.wrap (g (m.value .l) (m.value .r)) f.etype.width
/-- `nadd` (R207). -/
def execNadd (f : OpFields) (s : State) : Result' := .next (s.fireWrap 0x040 f fun a b => a + b)
/-- `nsub` (R207). -/
def execNsub (f : OpFields) (s : State) : Result' := .next (s.fireWrap 0x041 f fun a b => a - b)
/-- `nneg` (R207). -/
def execNneg (f : OpFields) (s : State) : Result' := .next (s.fireWrap 0x042 f fun a _ => -a)
/-- `nabs` (R207). -/
def execNabs (f : OpFields) (s : State) : Result' := .next (s.fireWrap 0x043 f fun a _ => a.natAbs)
/-- `nshl` (R207). -/
def execNshl (f : OpFields) (s : State) : Result' :=
  .next (s.fireWrap 0x046 f fun a _ => a * (4 ^ f.sub.toNat : Nat))
/-- `nmulk` (R207). -/
def execNmulk (f : OpFields) (s : State) : Result' := .next (s.fireWrap 0x047 f fun a _ => a * f.imm.toInt)
/-- `nmin` (R207). -/
def execNmin (f : OpFields) (s : State) : Result' :=
  .next (s.fireResult 0x044 f fun m => (m.payload? (if m.value .r < m.value .l then .r else .l)).getD .order)
/-- `nmax` (R207). -/
def execNmax (f : OpFields) (s : State) : Result' :=
  .next (s.fireResult 0x045 f fun m => (m.payload? (if m.value .l < m.value .r then .r else .l)).getD .order)

/-- A comparison of exact values (R208): a GUARD to a G port, a NARROW n8 of value 1 or 0 elsewhere. -/
def State.fireCompare (s : State) (opc : Nat) (f : OpFields) (g : Int → Int → Bool) : State :=
  s.fire opc f fun s q m =>
    if m.eos then s.forwardEos q m
    else
      let b := g (m.value .l) (m.value .r)
      s.withTag q m m.tag fun s t =>
        let rs := (q.toAll (.narrow 4 (if b then 1 else 0) .canonical) t).map fun (r : Result) =>
          if r.dest.port = .g && !f.flags.order then { r with payload := .guard b } else r
        s.output q m rs (m.at? .l)
/-- `nceq` (R208). -/
def execNceq (f : OpFields) (s : State) : Result' := .next (s.fireCompare 0x048 f fun a b => a = b)
/-- `ncne` (R208). -/
def execNcne (f : OpFields) (s : State) : Result' := .next (s.fireCompare 0x049 f fun a b => a != b)
/-- `nclt` (R208). -/
def execNclt (f : OpFields) (s : State) : Result' := .next (s.fireCompare 0x04A f fun a b => a < b)
/-- `ncle` (R208). -/
def execNcle (f : OpFields) (s : State) : Result' := .next (s.fireCompare 0x04B f fun a b => a ≤ b)

/-- `ntob.w` (R209). -/
def execNtobW (f : OpFields) (s : State) : Result' :=
  .next (s.fireNarrow 0x050 f f.etype.digits fun m => Num.wrap (m.value .l) f.etype.width)
/-- `ntob.s` (R209). -/
def execNtobS (f : OpFields) (s : State) : Result' :=
  .next (s.fireNarrow 0x051 f f.etype.digits fun m => Num.satBits (m.value .l) f.etype.width)
/-- The value that `bton` reads (R209); inactive lanes read zero. -/
def btonValue (sub : Nat) (v : WideVal) : Int :=
  let lane := fun i => if Lanes.on v.mask i then (Lanes.lane v.data i).toNat else 0
  if sub = 11 then (BitVec.ofNat 8 (lane 0)).toInt
  else if sub = 12 then (BitVec.ofNat 16 (lane 0)).toInt
  else if sub = 13 then (BitVec.ofNat 32 (lane 0)).toInt
  else (BitVec.ofNat 64 (lane 1 * 2 ^ 32 + lane 0)).toInt
/-- Digits of the type that SUB of `bton` names. -/
def btonDigits (sub : Nat) : Nat := ((EType.ofCode sub).getD .n64).digits
/-- `bton` (R209). -/
def execBton (f : OpFields) (s : State) : Result' :=
  .next (s.fireNarrow 0x052 f (btonDigits f.sub.toNat) fun m => btonValue f.sub.toNat (m.wide .l))

/-- Whether beat i of an operand, or its last where it has fewer, was held before a cycle. -/
def BeatSource.heldBy (b : BeatSource) (i now : Nat) : Bool :=
  match b.held[min i (b.total - 1)]? with | some c => c < now | none => false
/-- Whether a firing in progress has its next beat ready (R210, R194): a beat of an online operator follows the next beat of every
operand, a forwarded one its own beat, the others wait for the firing alone. -/
def NarrowFiring.ready (n : NarrowFiring) (now : Nat) : Bool :=
  n.fired < now &&
    match n.mode with
    | .online => n.sources.all fun b => b.heldBy (n.sent + 1) now
    | .forward => n.sources.all fun b => b.heldBy n.sent now
    | .whole => true
/-- Sends beat j of a token of a narrow firing; an exit delivery under COMMIT is held whole with its last beat (21_faults_preemption.md
R382). -/
def State.emitBeat (s : State) (tk plane id j : Nat) (e : Emission) : State :=
  if e.commit && (s.exitAt (ckOf tk) e.token.tag.ctx.toNat (tiOf tk) e.dest).isSome then
    if j + 1 = e.token.payload.beats then s.deliver tk plane 0 e else s
  else s.sendBeat tk plane 0 e id j
/-- The next beat of a firing in progress goes out, to each of its destinations. -/
def State.emitNarrow (s : State) (tk : Nat) (n : NarrowFiring) : State :=
  (List.range n.out.length).foldl (fun s k =>
    match n.out[k]? with
    | none => s
    | some x =>
      let b := startBeat n.out k
      if b ≤ n.sent ∧ n.sent < b + x.2.token.payload.beats then s.emitBeat tk n.plane x.1 (n.sent - b) x.2 else s) s
/-- NARROW_BEAT_EMIT (R210): one beat of the cycle leaves, from the oldest firing in progress that has one ready. -/
def execNarrowBeatEmit (tk : Nat) (s : State) : Result' :=
  let t := s.tile tk
  if t.lastFired.getD 5 0 = s.cycles + 1 then .next s
  else
    match t.narrow.findIdx? fun n => n.ready s.cycles with
    | none => .next s
    | some i =>
      match t.narrow[i]? with
      | none => .next s
      | some n =>
        .next ((s.modTile tk fun t =>
          { t with
            lastFired := t.lastFired.setIfInBounds 5 (s.cycles + 1)
            narrow := if n.sent + 1 < n.beats then t.narrow.set i { n with sent := n.sent + 1 } else t.narrow.eraseIdx i }).emitNarrow tk n)

end Sys2Proof.Machine
end

