-- ==== Sys2Proof/Machine/Paging.lean ====
section
/-!
DEFINITION. The pager (21_faults_preemption.md R371 to R375; 16_scheduling.md R309): fault tokens, the service of pending
entries, escalation, fault time, and the poisoning of a colour.
-/
namespace Sys2Proof.Machine

/-- Code FAULT_TIME (R369). -/
def codeFaultTime : Nat := 0x29
/-- Sends a PAGER record (R370), by the event unit of the first cluster of the pager's die (log 52). -/
def State.pagerRecord (s : State) (die ring : Nat) (c : Colour) (status fault va : Nat) : State :=
  s.record (16 * die) ring (s.colour c).world 0x07 status fault c 0 (BitVec.ofNat 64 (va % 2 ^ 47))

/-- The ports of a cluster hold nothing in flight of a colour (R375). -/
def Cluster.zeroFlight (k : Cluster) (c : Colour) : Cluster :=
  { k with
    ports := k.ports.map fun p => (p.1, { p.2 with inFlight := Map.del p.2.inFlight c.toNat })
    credits := k.credits.filter fun x => x.2 != c
    returned := k.returned.filter fun x => x.2 != c
    flits := k.flits.filter fun f => match f.cargo with | .credit _ d => d != c | .fault x => x.colour != c | _ => true
    launches := k.launches.map fun l => (l.1, { l.2 with colours := l.2.colours.filter (· != c.toNat) }) }
/-- A context of a colour that waited for a page issues again. -/
def Context.unpage (c : Context) (which : Nat → Nat → Bool) : Context :=
  match c.park with
  | .page col page => if which col page then { c with park := .none } else c
  | _ => c
/-- A card of which parts waited for a page goes on with them. -/
def Card.unpage (c : Card) (which : Nat → Nat → Bool) : Card :=
  match c.state with
  | .page ps =>
    let left := ps.filter fun p => !which p.1 p.2
    { c with state := if left = [] then .running else .page left }
  | _ => c
/-- A cluster whose waiters for some pages go on (R371 step 6): contexts, cards, group keys, streams. -/
def Cluster.unpage (k : Cluster) (which : Nat → Nat → Bool) : Cluster :=
  { k with
    ctxs := k.ctxs.map fun c => c.unpage which
    cards := k.cards.map fun c => c.unpage which
    asks := k.asks.map fun (a : GroupAsk) => match a.waitPage with
      | some p => if which p.1 p.2 then { a with waitPage := none } else a
      | none => a
    bindings := k.bindings.map fun (b : Binding) => match b.waitPage with
      | some p => if which b.colour.toNat p then { b with waitPage := none } else b
      | none => b }
/-- A matching-store entry that waited for a page returns to WAIT state. -/
def Entry.unpage (e : Entry) (which : Nat → Nat → Bool) : Entry :=
  match e.state with
  | .page col page => if which col page then { e with state := .wait, age := 0 } else e
  | _ => e
/-- An access that waited for a page is made again. -/
def Access.unpage (a : Access) (which : Nat → Nat → Bool) : Access :=
  match a.phase with
  | .page col page => if which col page then { a with phase := .reissue } else a
  | _ => a
/-- A tile whose waiters for some pages go on. -/
def Tile.unpage (t : Tile) (which : Nat → Nat → Bool) : Tile :=
  { t with
    store := t.store.map fun e => (e.1, e.2.unpage which)
    accesses := t.accesses.map fun a => a.unpage which }
/-- The generators of a die translate again the extents that were absent for some pages (05_main_memory.md R112). -/
def State.repatchAbsent (s : State) (die : Nat) (which : Nat → Nat → Bool) : State :=
  s.clusters.foldl (fun s e =>
    if dieOf e.1 != die then s
    else e.2.bindings.foldl (fun s b => s.repatch e.1 (fun x => x.leaf.isNone && which b.colour.toNat x.page) b) s) s
/-- Releases the waiters of a die for some pages, and tries again the join words that wait (R187). -/
def State.unpage (s : State) (die : Nat) (which : Nat → Nat → Bool) : State :=
  let s := { s with
    clusters := s.clusters.map fun (e : Nat × Cluster) => if dieOf e.1 = die then (e.1, e.2.unpage which) else e
    tiles := s.tiles.map fun (e : Nat × Tile) => if dieOf (ckOf e.1) = die then (e.1, e.2.unpage which) else e }
  s.joins.foldl State.joinWord { s.repatchAbsent die which with joins := [] }

/-- POISONS A COLOUR (R375), for a fault code at an address, by the pager of a die. -/
def State.poisonColour (s : State) (die : Nat) (c : Colour) (code va : Nat) : State :=
  if (s.colour c).poisoned || (s.colour c).state = .free then s
  else
    let s := (s.markPoison c true).modColour c fun e => { e with poisoned := true }
    let s := (List.range 64).foldl (fun s ck => if (Map.get? s.clusters ck).isSome then s.unbind ck (·.colour = c) else s) s
    let s := (s.dropTokens (goneColour c)).recount
    let s := { s with
      clusters := s.clusters.map fun (e : Nat × Cluster) => (e.1, e.2.zeroFlight c)
      dies := s.dies.map fun (e : Nat × Die) => (e.1, { e.2 with pager := e.2.pager.filter fun p => p.colour != c })
      faultTokens := s.faultTokens.filter fun t => t.colour != c }
    let s := (List.range 4).foldl (fun s d => s.unpage d fun col _ => col = c.toNat) s
    let w := (s.colour c).world.toNat
    (s.pagerRecord die w c 0x02 code va).pagerRecord die (s.ringOfColour c) c 0x02 code va

/-- A pending entry for what a token asks: a later fault joins it. -/
def State.pend (s : State) (t : FaultToken) : State :=
  s.modDie t.die fun d =>
    if d.pager.any fun p => p.colour = t.colour && p.ask = t.ask then d
    else { d with pager := d.pager ++ [⟨t.colour, t.ask, s.cycles, false⟩] }
/-- PAGER_FAULT_TOKEN (R371, R374): the k-th token reaches its pager. -/
def execPagerFaultToken (k : Nat) (s : State) : Result' :=
  match s.faultTokens[k]? with
  | none => .next s
  | some t =>
    let s := { s with faultTokens := s.faultTokens.eraseIdx k }
    match t.ask with
    | .poison code va => .next (s.poisonColour t.die t.colour code va)
    | _ => .next (s.pend t)

/-- Zeroes a page as the pager writes it (R371), encrypted under the key of a colour, colour 0 for a table (05_main_memory.md R114). -/
def State.zeroPage (s : State) (pa : Nat) (c : Colour) : State :=
  let out := fun (a : Nat) => decide (a < pa) || decide (pa + pageSize ≤ a)
  { s with
    slices := s.slices.map fun (e : Nat × Slice) =>
      let l := e.2.discard fun a _ => !out a
      (e.1, { l with writeBacks := l.writeBacks.filter fun w => out w.pa })
    dram := s.dram.filter fun c => out c.1
    dramPoison := s.dramPoison.filter fun u => out (64 * u)
    dramKey := (List.range 256).foldl (fun m i => Map.put m (pa / 64 + i) (s.keyIn (holderOf pa) c)) s.dramKey }
/-- A leaf as the pager writes it, from the pool entry (R371 step 4; 05_main_memory.md R105). -/
def poolLeaf (entry pa : Nat) : Nat :=
  bits entry 127 124 * 2 ^ 60 + bits entry 123 120 * 2 ^ 56 + bits entry 113 113 * 2 ^ 55 + pa +
    bits entry 119 114 * 2 ^ 8 + bits entry 112 112 * 8 + bits entry 111 111 * 4 + 3
/-- How the building of a path ends: the leaf is there, or no page was free. -/
structure Built where
  s : State
  ok : Bool
/-- Steps 1 to 4 of R371 from a table at a level, with `fuel` levels left. An entry that is malformed is left to the
waiter's own walk. -/
def State.buildPath (s : State) (die : Nat) (c : Colour) (va : Nat) : Nat → Nat → Nat → Built
  | 0, _, _ => ⟨s, true⟩
  | fuel + 1, level, table =>
    let a := table + 8 * levelIndex level va
    let e := s.peekNat a 8
    if bits e 0 0 = 1 then
      if bits e 1 1 = 1 || !pteOk level e then ⟨s, true⟩ else s.buildPath die c va fuel (level + 1) (bits e 51 14 * pageSize)
    else if !s.poolHas die c then ⟨s, false⟩
    else
      let (s, pa) := s.takePage die c
      if level = 3 then
        let entry := s.poolEntry die c
        let key := if bits entry 113 113 = 1 then (s.colour c).kshare else c
        let s := if bits entry 110 110 = 1 then s.zeroPage pa key else s
        ⟨s.poke a (natBytes 8 (poolLeaf entry pa)), true⟩
      else
        ((s.zeroPage pa 0).poke a (natBytes 8 (pa + 1))).buildPath die c va fuel (level + 1) pa
/-- A pending entry finds no page (R373): one EMPTY record, and every pending entry of the colour is held. -/
def State.escalate (s : State) (die : Nat) (c : Colour) (ring va : Nat) : State :=
  let s := if (s.die die).emptied.contains c.toNat then s else s.pagerRecord die ring c 0x01 0 va
  s.modDie die fun d =>
    { d with
      emptied := NatSet.insert d.emptied c.toNat
      pager := d.pager.map fun p => if p.colour = c then { p with held := true } else p }
/-- A page for a continuation queue (16_scheduling.md R309): its contexts append again. -/
def State.serveQueue (s : State) (die ck q : Nat) (e : PagerEntry) : State :=
  if !s.poolHas die e.colour then s.escalate die e.colour 0 0
  else
    let (s, pa) := s.takePage die e.colour
    let s := s.modDie die fun d => { d with pager := d.pager.erase e }
    (s.modQueue ck q fun x => { x with pages := x.pages ++ [(pa, 0)], filled := 0 }).modCluster ck fun k =>
      { k with ctxs := k.ctxs.map fun c => if c.park = .append then { c with park := .none } else c }
/-- PAGER_SERVICE (R371): the k-th pending entry of a die is served, where no earlier one waits unheld. -/
def execPagerService (die k : Nat) (s : State) : Result' :=
  let d := s.die die
  match d.pager[k]? with
  | none => .next s
  | some e =>
    if e.held || (d.pager.take k).any fun p => !p.held then .next s
    else
      match e.ask with
      | .queue ck q => .next (s.serveQueue die ck q e)
      | .poison _ _ => .next (s.modDie die fun d => { d with pager := d.pager.erase e })
      | .page n =>
        let va := n * pageSize
        let b := s.buildPath die e.colour va 3 1 ((s.colour e.colour).root.toNat * pageSize)
        if !b.ok then .next (b.s.escalate die e.colour (s.colour e.colour).world.toNat va)
        else
          let t := b.s.modDie die fun d => { d with pager := d.pager.erase e }
          let t := t.pagerRecord die (t.ringOfColour e.colour) e.colour 0x00 0 va
          .next (t.unpage die fun col page => col = e.colour.toNat && page = n)
/-- FAULT_TIME_EXPIRY (R374): the k-th pending entry of a die has waited longer than its colour's FTIME. -/
def execFaultTimeExpiry (die k : Nat) (s : State) : Result' :=
  match (s.die die).pager[k]? with
  | none => .next s
  | some e =>
    match e.ask with
    | .page n =>
      let limit := 1024 * bits (s.poolEntry die e.colour) 159 128
      if !(s.die die).pgEn || limit = 0 || s.cycles - e.raised < limit then .next s
      else .next (s.poisonColour die e.colour codeFaultTime (n * pageSize))
    | _ => .next s

end Sys2Proof.Machine
end

