-- ==== Sys2Proof/Machine/RegSteps.lean ====
section
/-!
DEFINITION. Writes of device registers as steps of their own (26_host_and_package.md R414, R415): each is one
write by a world at the register's address, under the register's rights.
-/
namespace Sys2Proof.Machine

/-- The address of a die register (R414). -/
def dieAddr (d o : Nat) : Nat := deviceBase + 0x100000 + 0x10000 * d + o
/-- The address of a cluster register. -/
def clusterAddr (ck o : Nat) : Nat := deviceBase + 0x1000000 + 0x10000 * ck + o
/-- The address of a slice register. -/
def sliceAddr (sk o : Nat) : Nat := deviceBase + 0x2000000 + 0x1000 * sk + o
/-- The address of a station register. -/
def stationAddr (st o : Nat) : Nat := deviceBase + 0x3000000 + 0x4000 * st + o

/-- REGISTER_WRITE: any register (R415). -/
def execRegisterWrite (world pa : Nat) (value : BitVec 64) (s : State) : Result' :=
  .next (s.regStore world pa value.toNat)
/-- SLWAY_WRITE (06_slices.md R127, R128). -/
def execSlwayWrite (world sk w : Nat) (value : BitVec 64) (s : State) : Result' :=
  .next (s.regStore world (sliceAddr sk (0x100 + 8 * w)) value.toNat)
/-- SLWAYC_WRITE (R127). -/
def execSlwaycWrite (world sk : Nat) (value : BitVec 64) (s : State) : Result' :=
  .next (s.regStore world (sliceAddr sk 0) value.toNat)
/-- MSHCTL_WRITE (07_network.md R147). -/
def execMshctlWrite (world ck : Nat) (value : BitVec 64) (s : State) : Result' :=
  .next (s.regStore world (clusterAddr ck 0x200) value.toNat)
/-- STCSEL_WRITE (R156). -/
def execStcselWrite (world st k : Nat) (value : BitVec 64) (s : State) : Result' :=
  .next (s.regStore world (stationAddr st (0x800 + 8 * k)) value.toNat)
/-- PGRETRY_WRITE (21_faults_preemption.md R373). -/
def execPgretryWrite (world die : Nat) (value : BitVec 64) (s : State) : Result' :=
  .next (s.regStore world (dieAddr die 0x2108) value.toNat)
/-- LCABORT_WRITE (R376). -/
def execLcabortWrite (world ck : Nat) (value : BitVec 64) (s : State) : Result' :=
  .next (s.regStore world (clusterAddr ck 0x500) value.toNat)
/-- CCEN_WRITE (14_control_core.md R303). -/
def execCcenWrite (world ck : Nat) (value : BitVec 64) (s : State) : Result' :=
  .next (s.regStore world (clusterAddr ck 0x300) value.toNat)
/-- TBPF_WRITE (R383). -/
def execTbpfWrite (world tk k : Nat) (value : BitVec 64) (s : State) : Result' :=
  .next (s.regStore world (clusterAddr (ckOf tk) (0x6000 + 8 * (4 * tiOf tk + k))) value.toNat)
/-- RLCFG_WRITE (25_reliability.md R411). -/
def execRlcfgWrite (world die : Nat) (value : BitVec 64) (s : State) : Result' :=
  .next (s.regStore world (dieAddr die 0x2C00) value.toNat)

end Sys2Proof.Machine
end

