-- ==== Sys2Proof/Machine/Reliability.lean ====
section
/-!
DEFINITION. Checks and their fates (25_reliability.md R407, R409, R410), corrected errors and retirement (R411, R412). Of
`ErrorPlace`, `code` is the structure code and `unit` the tile, cluster (code 3), slice, stop (1024 per die), port (8 per
die) or stack (2 per die); `item` is a granule of the tile's SRAM, a matching-store entry, a flit of the cluster, a unit of
the bank, a flit of the ring network, or a 64-byte unit of the stack (a 16 KiB page for a corrected error of code 7).
-/
namespace Sys2Proof.Machine

/-- The die of a place. -/
def placeDie (e : ErrorPlace) : Nat :=
  match e.code with
  | 1 | 2 => dieOf (ckOf e.unit)
  | 3 => dieOf e.unit
  | 4 => e.unit / 64
  | 5 => e.unit / 1024
  | 6 => e.unit / 8
  | _ => if e.unit < 8 then e.unit / 2 else 0
/-- TAG of an ERROR record (R409): for a tile as under R67, for slices and stacks the die, the number and the bank; for a stop
or a port its number. -/
def State.errorTag (s : State) (e : ErrorPlace) : Word :=
  match e.code with
  | 1 => placeTag (ckOf e.unit) (tiOf e.unit) 0 0
  | 2 => placeTag (ckOf e.unit) (tiOf e.unit) (s.tile e.unit).plane.toNat 0
  | 3 => placeTag e.unit 0 0 0
  | 4 => sliceTag e.unit e.bank
  | 7 => BitVec.ofNat 64 (fieldAt (e.unit / 2) 24 + fieldAt e.unit 16 + fieldAt e.bank 8)
  | _ => BitVec.ofNat 64 e.unit
/-- The cluster whose event unit writes a place's records (log 52): the tile's or cluster's own, the first of a slice's quadrant, the
first of a die otherwise. -/
def placeUnit (e : ErrorPlace) : Nat :=
  match e.code with
  | 1 | 2 => ckOf e.unit
  | 3 => e.unit
  | 4 => sliceUnit e.unit
  | _ => 16 * placeDie e
/-- The record of an uncorrected error (R409): FAULT is POISON where data was poisoned. -/
def State.uncorrected (s : State) (e : ErrorPlace) (poisoned : Bool) (tag : Word) (c : Colour) : State :=
  s.errorRecord (placeUnit e) 0x02 e.code (if poisoned then codePoison else 0) tag c
/-- Poisons a granule of a tile's SRAM: of the scratchpad, or of the unit of a stash line above it. -/
def Tile.poisonGranule (t : Tile) (g : Nat) : Tile × Colour :=
  if g < 256 * t.spk.toNat then ({ t with poison := NatSet.insert t.poison g }, 0)
  else
    let i := (g - 256 * t.spk.toNat) / 16
    let u := (g - 256 * t.spk.toNat) % 16 / 4
    match t.stash[i]? with
    | none => (t, 0)
    | some l => ({ t with stash := t.stash.set i { l with poison := l.poison ||| BitVec.ofNat 4 (2 ^ u) } }, l.key)
/-- A request whose units are poisoned. -/
def Request.poisoned (r : Request) : Request :=
  match r.kind with
  | .read => r
  | .write bs _ => { r with kind := .write bs true }
  | .atomic o x c _ => { r with kind := .atomic o x c true }
/-- The answer of an access whose units are poisoned. -/
def AnswerData.poisoned : AnswerData → AnswerData
  | .line d _ a b => .line d 0xF a b
  | .old v _ => .old v true
  | .ack => .ack
/-- Poisons every unit that a ring flit carries (R407): of a line on its way to or from a stack port, what its slice holds of it. -/
def State.poisonFlit (s : State) (f : RingFlit) (k : Nat) : State :=
  let put := fun (x : NetCargo) => ({ s with net := s.net.set k { f with cargo := x } } : State)
  match f.cargo with
  | .request r => put (.request r.poisoned)
  | .answer a => put (.answer { a with data := a.data.poisoned })
  | .fill ck g => put (.fill ck { g with poison := 0xF })
  | .lineData sk pa => s.modSlice sk fun l => { l with misses := l.misses.map fun m =>
      if m.request.pa / 256 = pa / 256 then { m with data := m.data.map fun d => (d.1, 0xF) } else m }
  | .lineWrite sk pa => s.modSlice sk fun l => { l with writeBacks := l.writeBacks.map fun w =>
      if w.pa = pa / 256 * 256 && w.sent && !w.asked then { w with poison := w.units } else w }
  | .lineRead _ _ => s
  | .ask _ _ => s
/-- The payload of a mesh flit, poisoned (R407): it stays so at its delivery. -/
def Cargo.poisoned : Cargo → Cargo
  | .token e p i b t => .token e p i b { t with poison := true }
  | .exit x l => .exit { x with token := { x.token with poison := true } } l
  | .request r => .request r.poisoned
  | .answer a => .answer { a with data := a.data.poisoned }
  | x => x
/-- The slot and the colour of what a mesh flit carries, where it has a tag. -/
def Cargo.place (x : Cargo) : Nat × Colour :=
  match x.tag? with
  | some t => (t.slot.toNat, t.colour)
  | none => match x.request? with | some r => (0, r.colour) | none => (0, 0)
/-- The plane that a token goes to. -/
def Cargo.plane : Cargo → Nat | .token _ p _ _ _ => p | .splice x _ => x.plane | _ => 0
/-- What an uncorrected error does (R407), with its record (R409). Of code 7, unit n below 8 is a stack and unit 8 the CXL.mem
requester, whose poison indication is an uncorrectable error on the line (05_main_memory.md R101). -/
def State.uncorrectedAt (s : State) (e : ErrorPlace) : State :=
  let tag := s.errorTag e
  match e.code with
  | 1 =>
    let (t, c) := (s.tile e.unit).poisonGranule e.item
    (s.modTile e.unit fun _ => t).uncorrected e true tag c
  | 2 =>
    (match (s.tile e.unit).store[e.item]? with
    | none => s
    | some (i, x) => (s.purgeEntry e.unit i x 0x40).uncorrected e false
        (tag + BitVec.ofNat 64 x.token.tag.slot.toNat) x.token.tag.colour)
  | 3 =>
    (match (s.cluster e.unit).flits[e.item]? with
    | none => s
    | some f =>
      let (slot, c) := f.cargo.place
      let tag := placeTag e.unit f.dst f.cargo.plane slot
      if e.header then
        (s.modCluster e.unit fun k => { k with flits := k.flits.eraseIdx e.item }).uncorrected e false tag c
      else
        (s.modCluster e.unit fun k => { k with flits := k.flits.set e.item { f with cargo := f.cargo.poisoned } }).uncorrected e true tag c)
  | 4 =>
    (match ((s.slice e.unit).lines.filter fun x => bankOf x.pa = e.bank)[e.item / 4]? with
    | none => s
    | some x =>
      let y := { x with poison := x.poison ||| BitVec.ofNat 4 (2 ^ (e.item % 4)) }
      (s.modSlice e.unit fun l => l.setLine y).uncorrected e true tag x.key)
  | 5 =>
    (match s.net[e.item]? with
    | none => s
    | some f => (s.poisonFlit f e.item).uncorrected e true tag f.colour)
  | 6 => s.uncorrected e false tag 0
  | _ =>
    let u := if e.unit < 8 then 2 ^ 30 * e.unit + e.item % 2 ^ 30 else 2 ^ 42 + e.item
    ({ s with dramPoison := NatSet.insert s.dramPoison u }).uncorrected e true tag 0
/-- UNCORRECTED_ERROR (R407). -/
def execUncorrectedError (e : ErrorPlace) (s : State) : Result' := .next (s.uncorrectedAt e)

/-- The key of an instance's count (R411). -/
def errorKey (e : ErrorPlace) : Nat := e.code * 2 ^ 40 + e.unit * 2 ^ 16 + e.bank
/-- The number of corrected errors that an instance has had in this window. -/
def State.ceCount (s : State) (e : ErrorPlace) : Nat :=
  if e.code = 1 then (s.tile e.unit).cecnt else Map.get s.ceCounts (errorKey e) 0
/-- Counts one more. -/
def State.ceMore (s : State) (e : ErrorPlace) : State :=
  let n := s.ceCount e + 1
  let s := if e.code = 1 then s.modTile e.unit fun t => { t with cecnt := n }
    else { s with ceCounts := Map.put s.ceCounts (errorKey e) n }
  if e.code = 7 && !s.cePages.contains ((errorKey e), e.item) then { s with cePages := s.cePages ++ [((errorKey e), e.item)] } else s
/-- Disables a bank of a slice: its dirty lines are written back first (R412, 06_slices.md R122). -/
def Slice.retireBank (l : Slice) (bank : Nat) : Slice :=
  let l := (l.lines.filter fun x => bankOf x.pa = bank).foldl (fun (l : Slice) x => (l.evict x).queueBack x) l
  { l with bankOff := l.bankOff ||| BitVec.ofNat 4 (2 ^ bank) }
/-- RETIRES an instance (R412). A spare tile takes the tile's place with its whole state, in no time of the model; without a
spare the tile stays in service and its count goes on. -/
def State.retireAt (s : State) (e : ErrorPlace) : State :=
  let tag := s.errorTag e
  let report := fun (s : State) => s.errorRecord (placeUnit e) 0x03 e.code 0 tag 0
  match e.code with
  | 1 =>
    let ck := ckOf e.unit
    if (s.cluster ck).spares = 0 then s.errorRecord (placeUnit e) 0x04 e.code 0 tag 0
    else
      report ((s.modCluster ck fun k => { k with spares := k.spares - 1 }).modTile e.unit fun t =>
        { t with spare := true, cecnt := 0 })
  | 4 => report (s.modSlice e.unit fun l => l.retireBank e.bank)
  | 7 =>
    (s.cePages.filter fun p => p.1 = (errorKey e)).foldl (fun (s : State) p =>
      s.errorRecord (placeUnit e) 0x03 7 0 (BitVec.ofNat 64 (2 ^ 36 * e.unit + 2 ^ 14 * p.2)) 0) s
  | _ => report s
/-- Counts a corrected error, and retires its instance at the N-th of a window (R411). Structures 2 and 3 correct nothing. -/
def State.correctedAt (s : State) (e : ErrorPlace) : State :=
  if e.code = 2 ∨ e.code = 3 then s
  else
    let s := s.ceMore e
    if s.ceCount e = (s.die (placeDie e)).rlN.toNat then s.retireAt e else s
/-- CORRECTED_ERROR (R411): it writes no record of its own (R409). -/
def execCorrectedError (e : ErrorPlace) (s : State) : Result' := .next (s.correctedAt e)
/-- RING_CRC_RETRY (R407): a flit that failed its CRC at stop k is sent again from the previous stop, and counted; a release
probe, like every other flit, keeps its place. -/
def execRingCrcRetry (k : Nat) (s : State) : Result' :=
  .next (s.correctedAt { code := 5, unit := k, bank := 0, item := 0, header := false })
/-- Whether TIMEBASE stands at a window boundary of a die (R411). -/
def State.windowEdge (s : State) (die : Nat) : Bool := s.timebase.toNat % 2 ^ (s.die die).rlWexp.toNat = 0
/-- The die of a count's key. -/
def keyDie (key : Nat) : Nat := placeDie ⟨key / 2 ^ 40, key / 2 ^ 16 % 2 ^ 24, 0, 0, false⟩
/-- ERROR_WINDOW_BOUNDARY (R411): every count of the dies whose window begins now is zero. -/
def execErrorWindowBoundary (s : State) : Result' :=
  let edge := s.windowEdge
  .next { s with
    tiles := s.tiles.map fun (e : Nat × Tile) =>
      if edge (dieOf (ckOf e.1)) then (e.1, { e.2 with cecnt := 0 }) else e
    ceCounts := s.ceCounts.filter fun e => !edge (keyDie e.1)
    cePages := s.cePages.filter fun e => !edge (keyDie e.1) }

end Sys2Proof.Machine
end

