-- ==== Sys2Proof/Machine/Routing.lean ====
section
/-!
DEFINITION. The operators that route tokens, change their tags and end their streams (10_ops_routing.md R191 to
R206), and the support of gathers.
-/
namespace Sys2Proof.Machine

/-- Forwards an operand to chosen destinations under a tag, to which TAGOP is still applied; the first token carries
its credit (R192). -/
def State.forward (s : State) (q : Site) (m : Match) (is : List Nat) (o : Operand) (t : Tag) : State :=
  s.withTag q m t fun s t => s.output q m (q.toSome is o.entry.token.payload t) (some o)
/-- Forwards the operand of a port, where it stands, to every destination. -/
def State.forwardPort (s : State) (q : Site) (m : Match) (p : Port) (t : Tag) : State :=
  match m.at? p with
  | some o => s.forward q m [0, 1, 2] o t
  | none => s.returnCredits q.tk m.operands
/-- A firing whose EOS takes the default of R34 and whose data `act` handles. -/
def State.fireData (s : State) (opc : Nat) (f : OpFields) (act : State → Site → Match → State) : State :=
  s.fire opc f fun s q m => if m.eos then s.forwardEos q m else act s q m
/-- The truth of a predicate input (R193). -/
def Match.pred (m : Match) (p : Port) : Bool := ((m.payload? p).getD .order).truth

/-- `const` (R195). -/
def execConst (f : OpFields) (s : State) : Result' :=
  .next (s.fireResult 0x001 f fun m =>
    if f.etype.isWide then
      let mask := (m.wide .l).mask
      .wide (Lanes.masked mask fun _ => BitVec.ofNat 32 f.imm.toNat)
    else .narrow f.etype.digits (Num.wrap f.imm.toInt f.etype.width) .canonical)
/-- `pass` (R195). -/
def execPass (f : OpFields) (s : State) : Result' :=
  .next (s.fireData 0x002 f fun s q m => s.forwardPort q m .l m.tag)
/-- The lane that `repl` writes (R195). -/
def replLane (e : EType) (v : Int) : Lane :=
  if e = .f32 then BitVec.ofNat 32 (Fp.rne Fp.f32 (Fp.ofInt v)) else BitVec.ofInt 32 v
/-- `repl` (R195). -/
def execRepl (f : OpFields) (s : State) : Result' :=
  .next (s.fireResult 0x003 f fun m =>
    .wide ⟨Lanes.ofLanes fun _ => replLane f.etype (m.value .l), Lanes.full⟩)
/-- `steer` (R196). -/
def execSteer (f : OpFields) (s : State) : Result' :=
  .next (s.fireData 0x004 f fun s q m =>
    match m.at? .l with
    | some o => s.forward q m [if m.pred .r then 0 else 1, 2] o m.tag
    | none => s)
/-- `merge` (R197): the predicate's port was waited for. -/
def execMerge (f : OpFields) (s : State) : Result' :=
  .next (s.fireData 0x005 f fun s q m => s.forwardPort q m (if m.pred .c then .l else .r) m.tag)
/-- `amerge` (R197). -/
def execAmerge (f : OpFields) (s : State) : Result' :=
  .next (s.fireData 0x006 f fun s q m =>
    s.forwardPort q m (if (m.at? .l).isSome then .l else .r) m.tag)
/-- `select` (R195). -/
def execSelect (f : OpFields) (s : State) : Result' :=
  .next (s.fireData 0x008 f fun s q m => s.forwardPort q m (if m.pred .c then .l else .r) m.tag)

/-- Sets ACTIVE of an `lcarry` slot for a colour and context (R198). -/
def State.setActive (s : State) (q : Site) (t : Tag) (n : BitVec 16) : State :=
  s.modTile q.tk fun x => x.modSlot q.key fun y =>
    { y with active := Map.put y.active (colourCtx t.colour t.ctx.toNat) n }
/-- `lcarry` (R198): the entry of an initial value, the back edge with its predicate, the EOS that is let go at L once
no loop is active, and the EOS that ends at R or C. Where TAGOP faults, ACTIVE stays. -/
def State.fireLcarry (s : State) (f : OpFields) : State :=
  s.fire 0x007 f fun s q m =>
    match m.at? .l, m.eos with
    | some o, true => s.output q m ((q.eosAll m.tag.level m.tag).filter fun r => r.index = 2) (some o)
    | none, true => s.returnCredits q.tk m.operands
    | l, false =>
      match s.carryStep q m, l <|> m.at? .r with
      | some x, some o => s.withTag q m x.2.1 fun s t =>
          (s.setActive q m.tag x.2.2).output q m (q.toSome x.1 o.entry.token.payload t) (some o)
      | _, _ => s.faultFiring q m codeTagRange 0
/-- `lcarry` as the step of an entry (R198); the three steps share their word, and each takes whatever that word fires. -/
def execLcarryEntry (f : OpFields) (s : State) : Result' := .next (s.fireLcarry f)
/-- `lcarry` as the step of a back edge (R198). -/
def execLcarryBackEdge (f : OpFields) (s : State) : Result' := .next (s.fireLcarry f)
/-- `lcarry` as the step that releases a held EOS (R198). -/
def execLcarryEosRelease (f : OpFields) (s : State) : Result' := .next (s.fireLcarry f)

/-- A tag operator (R199): its own change of the tag, or TAG_RANGE; the payload is that of `p`. -/
def State.carryTag (s : State) (q : Site) (m : Match) (p : Port) : State :=
  match q.retag (s.levelsOf q.ck m.tag.ctx.toNat) m with
  | none => s.faultFiring q m codeTagRange 0
  | some t => s.forwardPort q m p t
/-- `tagset` (R199). -/
def execTagset (f : OpFields) (s : State) : Result' := .next (s.fireData 0x010 f fun s q m => s.carryTag q m .l)
/-- `taginc` (R199). -/
def execTaginc (f : OpFields) (s : State) : Result' := .next (s.fireData 0x011 f fun s q m => s.carryTag q m .l)
/-- `tagcopy` (R199). -/
def execTagcopy (f : OpFields) (s : State) : Result' :=
  .next (s.fireData 0x012 f fun s q m => s.carryTag q m (if f.arityN = 2 then .r else .l))
/-- `lvpush` (R199). -/
def execLvpush (f : OpFields) (s : State) : Result' := .next (s.fireData 0x013 f fun s q m => s.carryTag q m .l)
/-- `lvpop` (R199): the EOS of level PL ends here. -/
def execLvpop (f : OpFields) (s : State) : Result' :=
  .next (s.fire 0x014 f fun s q m =>
    let pl := OpTable.immField f 3 0
    if m.eos then
      if pl != 0 && m.tag.level.toNat = pl then s.returnCredits q.tk m.operands else s.forwardEos q m
    else s.carryTag q m .l)

/-- `eosgen` (R200): the data token, and behind the last one the EOS that closes its level. -/
def execEosgen (f : OpFields) (s : State) : Result' :=
  .next (s.fireData 0x018 f fun s q m =>
    let k := m.tag.level.toNat
    let fin := if s.closes q m.tag then
        q.eosAll (BitVec.ofNat 4 k) (m.tag.closing (s.levelsOf q.ck m.tag.ctx.toNat) k) else []
    s.withTag q m m.tag fun s t =>
      s.output q m (q.toAll ((m.payload? .l).getD .order) t ++ fin) (m.at? .l))
/-- `eoswait` (R201). -/
def execEoswait (f : OpFields) (s : State) : Result' :=
  .next (s.fireData 0x019 f fun s q m => s.forwardPort q m .l m.tag)
/-- `sink` (R202): EOS at level 0 on all inputs is reported to the launch-end detector (16_scheduling.md R318). -/
def execSink (f : OpFields) (s : State) : Result' :=
  .next (s.fire 0x01C f fun s q m =>
    let s := s.returnCredits q.tk m.operands
    if m.eos && m.tag.level = 0 then
      let mark : Nat × Nat × Nat := (tiOf q.tk, q.key, m.tag.colour.toNat)
      s.modLaunch q.ck m.tag.ctx.toNat fun l =>
        { l with sinkEos := if l.sinkEos.contains mark then l.sinkEos else l.sinkEos ++ [mark] }
    else s)
/-- `drop` (R202). -/
def execDrop (f : OpFields) (s : State) : Result' :=
  .next (s.fireData 0x01D f fun s q m => s.returnCredits q.tk m.operands)
/-- `gate` (R203). -/
def execGate (f : OpFields) (s : State) : Result' :=
  .next (s.fireData 0x01E f fun s q m =>
    if ((m.payload? .g).getD .order).guardTrue then s.forwardPort q m .l m.tag else s.returnCredits q.tk m.operands)
/-- `ojoin` (R203). -/
def execOjoin (f : OpFields) (s : State) : Result' :=
  .next (s.fireResult 0x01F f fun m =>
    if m.ops.all fun x => x.2.entry.token.payload = .order then .order
    else .guard (m.ops.all fun x => x.2.entry.token.payload.guardTrue))

/-- `cfgreq` (R204): with a true guard or none, the request goes by VC3 towards the die's fabric manager (log 107), with the word whose
destinations the results go to, and L stays in its entry, in FAULT state. -/
def execCfgreq (f : OpFields) (s : State) : Result' :=
  .next (s.fireData 0x020 f fun s q m =>
    match m.at? .l with
    | none => s
    | some o =>
      let others := m.operands.filter fun x => x.idx != o.idx
      if ((m.payload? .g).getD .order).guardTrue then
        let held : Entry := { o.entry with state := .cfgreq, age := 0 }
        let s := (s.returnCredits q.tk others).modTile q.tk fun t => { t with store := Map.put t.store o.idx held }
        let w := ((s.tile q.tk).slot q.key).word
        s.inject q.ck (.tile (tiOf q.tk)) (portPlace unitPort) true 3
          (.config ⟨q.ck, q.tk, q.slot, q.plane, m.tag, w, OpTable.immField f 15 0, false⟩)
      else s.returnCredits q.tk m.operands)

/-- `gcoal` (R205): the index becomes ROWL chunks, each with its sequence number; rows outside the table are zero. -/
def execGcoal (f : OpFields) (s : State) : Result' :=
  .next (s.fireData 0x021 f fun s q m =>
    let rowl := OpTable.immField f 10 4
    let row := ((s.tile q.tk).gatherRow f (m.value .l)).2
    let (s, v) := s.lValue m
    let tags := (List.range rowl).map fun c =>
      let no : BitVec 32 := BitVec.ofNat 32 (m.tag.iter.toNat * rowl + c)
      (c, no, s.tagOp q.ck f.tagop { m.tag with iter := no } v)
    if tags.any fun x => x.2.2 = none then s.faultFiring q m codeTagRange 0
    else
      tags.foldl (fun s x =>
        let (s, i) := s.newId
        let a : Access :=
          { id := i, slot := q.slot, plane := q.plane, opc := 0x021, fields := f, tag := m.tag
            out := x.2.2.getD m.tag, r := none, c := some (.narrow 32 x.2.1.toNat .canonical)
            credit := if x.1 = 0 then (m.at? .l).bind (·.entry.token.credit) else none
            poison := m.poison, epoch := (s.tile q.tk).epochs.getLsbD q.plane
            addr := match row with | some a => a + 64 * x.1 | none => 0
            object := row.map rowBank, pinned := false
            phase := if row.isSome then .reissue else .answered
            data := ⟨0, Lanes.full⟩, memPoison := false, value := 0, ok := true, since := s.cycles + 1 }
        s.modTile q.tk fun t => { t with accesses := t.accesses ++ [a] }) s)

/-- Sets NEXT of a `greord` slot (R206). -/
def State.setNext (s : State) (q : Site) (t : Tag) (n : BitVec 32) : State :=
  s.modTile q.tk fun x => x.modSlot q.key fun y =>
    { y with next := Map.put y.next (colourCtx t.colour t.ctx.toNat) n }
/-- `greord` (R206). -/
def execGreord (f : OpFields) (s : State) : Result' :=
  .next (s.fire 0x022 f fun s q m =>
    if m.eos then (if m.tag.level = 0 then s.setNext q m.tag 0 else s).forwardEos q m
    else (s.setNext q m.tag (s.nextOf q m.tag + 1)).forwardPort q m .l m.tag)

end Sys2Proof.Machine
end

