-- ==== Sys2Proof/Machine/Snapshots.lean ====
section
/-!
DEFINITION. Marker snapshots (21_faults_preemption.md R379 to R381; 14_control_core.md R304; 23_prog_preemption.md R388 to
R390): injection, markers, the save of a tile, completion; breakpoints and debug stops (R383, R384).
-/
namespace Sys2Proof.Machine

/-- The number of a context's tokens admitted on an entry edge: those received, and those on their way (R380). -/
def State.admittedOn (s : State) (ck ctx ti : Nat) (e : Edge) : Nat :=
  (edgeCount (s.tile (192 * ck + ti)).received ctx e).getD 0 +
    ((s.cluster ck).flits.filter fun f => match f.cargo with
      | .token x _ _ b t => x = e && b = 0 && t.tag.ctx.toNat = ctx
      | _ => false).length
/-- Sends a marker from a port or a tile, on VC3 (R380; 07_network.md R142). -/
def State.sendMarker (s : State) (ck : Nat) (src : MeshSource) (m : Marker) : State :=
  s.inject ck src (m.dst, 4) true 3 (.marker m)
/-- Injects the markers of one launch (R380 step 1). -/
def State.injectMarkers (s : State) (ck number : Nat) (stop : Bool) (ctx : Nat) (l : Launch) : State :=
  let mine := fun (b : Binding) => b.ctx = ctx && !b.isExit
  let entries := l.ports.filter fun g => !g.isExit
  let send := fun (s : State) (g : GraphPort) =>
    let e : Edge := { src := 192 + g.phys, slot := 0, dest := 0 }
    s.sendMarker ck (.port g.phys)
      { ctx := ctx, number := number, edge := e, dst := g.ti, count := s.admittedOn ck ctx g.ti e, back := false }
  let sn : Snapshot :=
    { ctx := ctx, number := number, stop := stop
      ports := ((s.cluster ck).bindings.filter mine).map fun b => (b.gport, b.colour.toNat, b.nextAdmit)
      tiles := [], caught := [], closed := [] }
  (entries.foldl send s).modCluster ck fun k =>
    { k with
      snapshots := k.snapshots ++ [sn]
      bindings := k.bindings.map fun (b : Binding) =>
        if mine b then { b with epoch := !b.epoch, halted := b.halted || stop } else b }
/-- `snap` (R304, R379). -/
def execSnap (imm : BitVec 16) (s : State) : Result' :=
  let ck := s.actor.ck
  let w := s.me.world
  let k := s.cluster ck
  let number := imm.toNat % 2 ^ 15
  .next (
    if k.snapshots.any fun n => s.worldOfCtx ck n.ctx = some w then s.report 0x07 0
    else if (Map.get (s.die (dieOf ck)).snap w.toNat 0).toNat % 2 = 0 then s.report 0x01 0
    else
      ((k.launches.filter fun l => l.2.world = w && l.2.state = .running).foldl (fun s l =>
        s.injectMarkers ck number (imm.getLsbD 15) l.1 l.2) s).report 0 0)

/-- MARKER_ARRIVAL (R380): the k-th marker of a cluster arrives: on a forward edge the tile keeps it, on a back edge the
snapshot learns the count at which the edge closes. -/
def execMarkerArrival (ck k : Nat) (s : State) : Result' :=
  match (s.cluster ck).markers[k]? with
  | none => .next s
  | some m =>
    if s.scanning ck then .next s
    else
      let s := s.modCluster ck fun x => { x with markers := x.markers.eraseIdx k }
      if m.back then
        .next (s.modCluster ck fun x => { x with snapshots := x.snapshots.map fun (n : Snapshot) =>
          if n.ctx = m.ctx then { n with closed := n.closed ++ [(m.edge, m.count)] } else n })
      else .next (s.modTile (192 * ck + m.dst) fun t => { t with markers := t.markers ++ [(m.ctx, m.edge, m.count)] })

/-- Whether a token carries another EPOCH than its tile (R380). -/
def State.otherEpoch (s : State) (tk plane : Nat) (u : Token) : Bool := u.epoch != (s.tile tk).epochs.getLsbD plane
/-- What a tile saves of a context (R380 step 3, R389). -/
def State.savedTile (s : State) (tk ctx : Nat) (l : Launch) : SavedTile :=
  let t := s.tile tk
  let old := fun (u : Token) => decide (u.tag.ctx.toNat = ctx) && !s.otherEpoch tk l.plane u
  let mine := t.slots.filter fun e => e.2.ctx = some ctx
  { ti := tiOf tk
    words := mine.map fun (e : Nat × Slot) => (e.1, e.2.word)
    regs := if t.plane.toNat = l.plane then t.regs else Map.get t.saved l.world.toNat FabRegs.reset
    scratch := t.scratch, full := t.full, poison := t.poison
    entries := (t.store.filter fun e => old e.2.token).map (·.2) ++ (t.restored.filter fun e => old e.2.token).map (·.2)
    spills := t.spills.filter fun e => old e.token
    commits := t.commits.filter fun c => c.ctx = ctx
    counts := (t.received.filter fun e => e.1 = ctx).map fun e => (e.2.1, e.2.2)
    slots := mine
    latch := (match t.latch with | some d => if d.tag.ctx.toNat = ctx then some d else none | none => none) }
/-- The markers that a tile sends after its save, one on each destination edge of the context that leaves for another
tile (R380 step 4, R388). -/
def State.markersFrom (s : State) (tk ctx number : Nat) (l : Launch) : List Marker :=
  let ck := ckOf tk
  let ti := tiOf tk
  (l.words.filter fun w => w.ti = ti).flatMap fun (w : PlacedWord) =>
    match decodeFabric w.word.toNat with
    | .error _ => []
    | .ok i =>
      match fabricOf i with
      | none => []
      | some (_, f) => (OpTable.dests f).filterMap fun d =>
        match s.exitAt ck ctx ti d.2, destTile ti d.2 with
        | none, some dst =>
          let e : Edge := { src := ti, slot := w.slot, dest := d.1 }
          if dst = ti then none
          else some { ctx := ctx, number := number, edge := e, dst := dst,
                      count := (edgeCount (s.tile tk).sent ctx e).getD 0, back := w.back.getLsbD d.1 }
        | _, _ => none
/-- Whether the firings of a plane have left the tile's units and its accesses have completed (R380 step 3). -/
def Tile.quietPlane (t : Tile) (p : Nat) : Bool :=
  t.vector.all (fun v => v.plane != p) && t.trail.all (fun v => v.plane != p) && t.narrow.all (fun n => n.plane != p) && t.array.all (fun a => a.plane != p) &&
    t.accesses.all fun a => a.plane != p
/-- A tile saves for one context and sends its markers. -/
def State.saveFor (s : State) (tk ctx : Nat) (l : Launch) : State :=
  let x := s.savedTile tk ctx l
  let number := match s.snapshotOf (ckOf tk) ctx with | some n => n.number | none => 0
  let ms := s.markersFrom tk ctx number l
  ((ms.foldl (fun s m => s.sendMarker (ckOf tk) (.tile (tiOf tk)) m) s).modCluster (ckOf tk) fun k =>
    { k with
      snapshots := k.snapshots.map fun (n : Snapshot) => if n.ctx = ctx then { n with tiles := n.tiles ++ [x] } else n }).modTile
    tk fun t =>
      { t with
        savedFor := NatSet.insert t.savedFor ctx
        commits := t.commits.map fun c => if c.ctx = ctx then { c with saved := true } else c }
/-- Flips EPOCH of a plane of a tile. -/
def Tile.flip (t : Tile) (plane : Nat) : Tile := { t with epochs := t.epochs ^^^ ((1 : BitVec 4) <<< plane) }
/-- SNAPSHOT_TILE_SAVE (R380 steps 3 and 4, R390): the save condition holds, the tile's units and accesses of the plane
are quiet and none of its tokens is on its way to the tile itself, so it saves once for every context of the plane under snapshot, and flips EPOCH. -/
def execSnapshotTileSave (tk ctx : Nat) (s : State) : Result' :=
  match s.launch? (ckOf tk) ctx with
  | none => .next s
  | some l =>
    let own := (s.cluster (ckOf tk)).flits.any fun f => match f.cargo with
      | .token e p _ _ _ => e.src = tiOf tk && f.dst = tiOf tk && p = l.plane
      | _ => false
    if !s.saveDue tk ctx || !(s.tile tk).quietPlane l.plane || own || s.isFrozen l.world then .next s
    else .next (((s.savedTogether tk ctx).foldl (fun s e => s.saveFor tk e.1 e.2) s).modTile tk fun t => t.flip l.plane)

/-- The bytes of a section, filled up to a multiple of 16. -/
def fill16 (bs : List Byte) : List Byte := bs ++ List.replicate (round16 bs.length - bs.length) 0
/-- The tile record of a saved tile (R427): its need, s0 to s15 and v0 to v7, and no scratch image. -/
def SavedTile.bytes (t : SavedTile) (l : Launch) (spk : Nat) : List Byte :=
  natBytes 1 (t.ti % 16 - l.x) ++ natBytes 1 (t.ti / 16 - l.y) ++ natBytes 1 spk ++ natBytes 1 1 ++ List.replicate 12 0 ++
    t.regs.s.toList.flatMap (fun x => natBytes 8 x.toNat) ++ t.regs.v.toList.flatMap fun x => natBytes 64 x.toNat
/-- The entry of a port in the port table of an image; `off` is where its quotas stand. -/
def GraphPort.bytes (g : GraphPort) (l : Launch) (nq off : Nat) : List Byte :=
  let node := if g.isExit then 0xFFFF else (l.words.findIdx? fun w => w.ti = g.ti && w.slot = g.slot).getD 0
  natBytes 1 ((if g.phys < 32 then g.phys else 64 + (g.phys - 32)) + if g.isExit then 128 else 0) ++
    natBytes 1 (portCode g.port).toNat ++ natBytes 2 node ++ natBytes 4 nq ++ natBytes 4 off ++ natBytes 4 0
/-- The bytes of a snapshot image (R427, KIND 1): header and sections with the placement and registers of the saved
context, and then the number of the saved state that the device keeps (log 16). -/
def State.imageBytes (s : State) (ck : Nat) (l : Launch) (ts : List SavedTile) (index : Nat) : List Byte :=
  let nw := l.words.length
  let words := l.words.flatMap fun w => natBytes 16 w.word.toNat
  let place := fill16 (l.words.flatMap fun w =>
    natBytes 4 (w.ti % 16 - l.x + 16 * (w.ti / 16 - l.y) + 256 * w.slot + 2 ^ 14 * w.back.toNat))
  let quotas := l.ports.map fun g =>
    match g.table.bind fun n => Map.get? (s.cluster ck).ports n with
    | some e => e.quota.flatMap fun q => natBytes 4 (q.1 + 2 ^ 16 * q.2)
    | none => []
  let ptOff := 64 + 16 * nw + place.length
  let qOff := ptOff + 16 * l.ports.length
  let offs := (List.range l.ports.length).map fun i => qOff + ((quotas.take i).map (·.length)).sum
  let table := (List.range l.ports.length).flatMap fun i =>
    match l.ports[i]? with
    | some g => g.bytes l ((quotas.getD i []).length / 4) (offs.getD i 0)
    | none => []
  let qs := fill16 quotas.flatten
  let trOff := qOff + qs.length
  let tiles := ts.flatMap fun t =>
    let tile := s.tile (192 * ck + t.ti)
    t.bytes l (if tile.tsWorld = l.world then tile.spk.toNat else 0)
  let obOff := trOff + tiles.length
  let head := natBytes 4 0x464F4C44 ++ natBytes 1 1 ++ natBytes 1 1 ++ natBytes 1 l.world.toNat ++ natBytes 1 (if l.race then 1 else 0) ++
    natBytes 1 l.x ++ natBytes 1 l.y ++ natBytes 1 l.w ++ natBytes 1 l.h ++ natBytes 1 l.plane ++
    natBytes 1 l.levels.length ++ natBytes 2 0 ++ l.levels.map (BitVec.ofNat 8) ++
    List.replicate (16 - l.levels.length) 0 ++ natBytes 4 nw ++ natBytes 4 l.ports.length ++ natBytes 4 ts.length ++
    natBytes 4 0 ++ natBytes 4 (64 + 16 * nw) ++ natBytes 4 ptOff ++ natBytes 4 trOff ++ natBytes 4 obOff
  head ++ words ++ place ++ table ++ qs ++ tiles ++ natBytes 16 index

/-- Ends the snapshot state of a context in its tiles: its markers go and its counts are joined. `again` says whether
the tiles that have saved fire the context again. -/
def Tile.endSnapshot (t : Tile) (ctx : Nat) (again : Bool) : Tile :=
  { t with
    markers := t.markers.filter fun e => e.1 != ctx
    savedFor := if again then NatSet.erase t.savedFor ctx else t.savedFor
    received := (t.receivedNew.filter fun e => e.1 = ctx).foldl (fun (r : List (Nat × Edge × Nat)) e =>
      (r.filter fun x => !(x.1 = ctx && x.2.1 = e.2.1)) ++ [(ctx, e.2.1, (edgeCount t.received ctx e.2.1).getD 0 + e.2.2)])
      t.received
    receivedNew := t.receivedNew.filter fun e => e.1 != ctx }
/-- A snapshot is over. -/
def State.endSnapshot (s : State) (ck ctx : Nat) (again : Bool) : State :=
  let done := fun (e : Nat × Tile) => if ckOf e.1 = ck then (e.1, e.2.endSnapshot ctx again) else e
  let s := { s with tiles := s.tiles.map done }
  s.modCluster ck fun k =>
    { k with
      snapshots := k.snapshots.filter fun n => n.ctx != ctx
      markers := k.markers.filter fun m => m.ctx != ctx
      flits := k.flits.filter fun f => match f.cargo with | .marker m => m.ctx != ctx | _ => true }
/-- A snapshot is abandoned (R379): a FAULT record; tiles that have not saved flip EPOCH; held effects wait for the next
snapshot. -/
def State.abandon (s : State) (ck : Nat) (n : Snapshot) (l : Launch) (c : Colour) (code va : Nat) : State :=
  let s := (s.poisonDue (dieOf ck) c code va).faultRecord ck c 0x10 code va 0
  let tiles := ((List.range 192).filter l.covers).map (192 * ck + ·)
  let s := tiles.foldl (fun s tk =>
    let single := (s.savedTogether tk n.ctx).all fun e => e.1 = n.ctx
    s.modTile tk fun t =>
      let t := if t.savedFor.contains n.ctx || !single then t else t.flip l.plane
      { t with commits := t.commits.map fun x => if x.ctx = n.ctx then { x with saved := false } else x }) s
  s.endSnapshot ck n.ctx (!n.stop)
/-- The exit tokens of a cluster on their way: in the mesh, and at their ports. -/
def State.exitsOut (s : State) (ck : Nat) : List ExitToken :=
  (s.cluster ck).exits ++ (s.cluster ck).flits.filterMap fun f => match f.cargo with | .exit x _ => some x | _ => none
/-- Whether every tile of the region has saved and every back edge has closed (R380 step 6), and no token of before the
save is on its way to an exit. -/
def State.snapshotReady (s : State) (ck : Nat) (n : Snapshot) (l : Launch) : Bool :=
  ((List.range 192).filter l.covers).all fun ti =>
    let t := s.tile (192 * ck + ti)
    t.savedFor.contains n.ctx &&
      ((s.inputEdges ck n.ctx ti l).filter fun x => x.2).all (fun x =>
        match n.closed.find? fun e => e.1 = x.1 with
        | none => false
        | some e => e.2 ≤ (edgeCount t.received n.ctx x.1).getD 0) &&
      (s.exitsOut ck).all fun e =>
        e.token.tag.ctx.toNat != n.ctx || e.edge.src != ti || e.token.epoch = t.epochs.getLsbD l.plane
/-- What a completed snapshot keeps (R381): sinks count as closed where their saved slots do. -/
def State.snapImage (s : State) (ck : Nat) (n : Snapshot) (l : Launch) : SnapImage :=
  let old := fun (t : Token) =>
    match (s.cluster ck).launches.find? fun e => e.1 = n.ctx with
    | some e => t.epoch != (s.tile (192 * ck + 16 * e.2.y + e.2.x)).epochs.getLsbD e.2.plane
    | none => false
  let closed := fun (x : Nat × Nat × Nat) => n.tiles.any fun t => t.ti = x.1 && t.slots.any fun e =>
    e.1 = x.2.1 && e.2.closed.any fun y => y / 4 = x.2.2
  { ctx := n.ctx, launch := { l with sinkEos := l.sinkEos.filter closed }, tiles := n.tiles, caught := n.caught
    ports := n.ports
    reorders := ((s.cluster ck).reorders.filter fun r => r.ctx = n.ctx).map fun (r : Reorder) =>
      { r with held := r.held.filter fun h => old h.1 } }
/-- The effects held before the saves are released, tile by tile in firing order (R382). -/
def State.releaseSaved (s : State) (ck : Nat) (n : Snapshot) : State :=
  n.tiles.foldl (fun s t => s.releaseHeld (192 * ck + t.ti) fun c => c.ctx = n.ctx && c.saved) s
/-- A snapshot completes (R380 step 6): its LAUNCH_END record; with STOP the context becomes ENDED, and the dirty granules of its
colours are written back (08_tile_memory.md R167), which that end does not wait for (log 123). -/
def State.snapshotDone (s : State) (ck : Nat) (n : Snapshot) (l : Launch) : State :=
  let s := { s with snaps := s.snaps ++ [s.snapImage ck n l] }
  let s := s.releaseSaved ck n
  if n.stop then
    ((((s.endSnapshot ck n.ctx false).stashEnd ck n.ctx l.colours).dropTokens (goneCtx ck n.ctx)).recount).endLaunch ck n.ctx 0x04 n.number
  else (s.endSnapshot ck n.ctx true).launchRecord ck n.ctx l 0x03 n.number false
/-- SNAPSHOT_COMPLETE (R379, R380): the image is written, a missing page being waited for; one that is too long, or a
write that faults, abandons the snapshot. -/
def execSnapshotComplete (ck ctx : Nat) (s : State) : Result' :=
  match s.snapshotOf ck ctx, s.launch? ck ctx with
  | some n, some l =>
    if !s.snapshotReady ck n l || s.isFrozen l.world then .next s
    else
      let reg := (Map.get (s.die (dieOf ck)).snap l.world.toNat 0).toNat
      let c := colourOf (bits reg 63 55)
      let size := bits reg 5 1
      let va := bits reg 46 14 * 2 ^ 14 + (2048 * (ck % 16) + ctx) * 2 ^ size
      let bs := s.imageBytes ck l n.tiles s.snaps.length
      if bs.length > 2 ^ size then .next (s.abandon ck n l c codeSpRange va)
      else
        match s.engineWrite ck c va bs false (bs.length / 256 + 2) with
        | .busy => .next s
        | .page _ a => .next (s.raisePage (dieOf ck) c a)
        | .fault t k a => .next (t.abandon ck n l c k a)
        | .done t _ => .next (t.snapshotDone ck n l)
  | _, _ => .next s

/-- The ready match of a site that a breakpoint stops, where the site has one (R383): it could fire but for it. -/
def State.breakMatch (s : State) (q : Site) : Option Match :=
  let t := s.tile q.tk
  if t.latch.isSome || s.scanning q.ck then none
  else
    let free := fun (m : Match) => match s.worldOfCtx q.ck m.tag.ctx.toNat with
      | none => false
      | some w => !s.halted w && !s.resuming q.tk m.tag
    ((s.matches' q).filter fun m => s.roomFor q m && s.limitOk q m && free m && s.breaks q m.tag).foldl
      (fun b m => match b with | none => some m | some x => if m.before x then some m else b) none
/-- The rank of a unit in R384. -/
def unitRank : FUnit → Nat
  | .vector => 0 | .narrow => 1 | .memory => 2 | .cells => 3
/-- BREAKPOINT_MATCH (R384): a slot's ready tag matches, and no tag of an earlier unit of the tile does; it is latched and
its world enters a debug stop. -/
def execBreakpointMatch (tk slot : Nat) (s : State) : Result' :=
  let p := (s.tile tk).plane.toNat
  let at' := fun (k : Nat) => match s.slotOp tk p k with
    | none => none
    | some (opc, f) =>
      let q : Site := ⟨tk, p, k, opc, f⟩
      (s.breakMatch q).map fun m => (q, m)
  match at' slot with
  | none => .next s
  | some (q, m) =>
    let first := (List.range 64).all fun k => match at' k with
      | none => true
      | some (r, x) => k = slot || decide (unitRank q.unit < unitRank r.unit) || (q.unit = r.unit && m.before x)
    match first, s.worldOfCtx q.ck m.tag.ctx.toNat with
    | true, some w =>
      .next ({ (s.modTile tk fun t => { t with latch := some ⟨m.tag, slot, q.unit⟩, resume := false }) with
        debugStops := NatSet.insert s.debugStops w.toNat })
    | _, _ => .next s
/-- DEBUG_RESUME (R384): the world goes on; latched tags fire first. -/
def execDebugResume (world : Nat) (s : State) : Result' :=
  if !s.debugStops.contains world then .next s
  else
    let mine : Nat → Tile → Bool := fun tk t => match t.latch with
      | none => false
      | some l => decide ((s.worldOfCtx (ckOf tk) l.tag.ctx.toNat).map (·.toNat) = some world)
    .next { s with
      debugStops := NatSet.erase s.debugStops world
      tiles := s.tiles.map fun (e : Nat × Tile) => if mine e.1 e.2 then (e.1, { e.2 with resume := true }) else e }

end Sys2Proof.Machine
end

