-- ==== Sys2Proof/Machine/VectorOps.lean ====
section
/-!
DEFINITION. The vector operators (11_ops_vector.md R212 to R229): one result for every destination, computed lane by
lane (R213), and the vector unit's results on their way out (R214).
-/
namespace Sys2Proof.Machine

/-- A lane function of one FP32 operand. -/
def vecF1 (g : Nat → Nat) : WideVal → WideVal := Lanes.map1 (Lanes.fp1 g)
/-- A lane function of two FP32 operands. -/
def vecF2 (g : Nat → Nat → Nat) : WideVal → WideVal → WideVal := Lanes.map2 (Lanes.fp2 g)
/-- One of the five functions of R220, on a pattern. -/
def vecFun (g : Fp.Fmt → Fp.Val → Nat) (b : Nat) : Nat := g Fp.f32 (Fp.decode Fp.f32 b)
/-- A shift operator (R217). -/
def State.fireShift (s : State) (opc : Nat) (f : OpFields) (g : Lane → Nat → Lane) : State :=
  s.fireResult opc f fun m => .wide (Lanes.shift g f.sub.toNat (m.wide .l) (m.wide? .r))
/-- A conversion of the pair shape (R223). -/
def State.firePair (s : State) (opc : Nat) (f : OpFields) (conv : Nat → Nat) : State :=
  s.fireResult opc f fun m => .wide (Lanes.pair (fun _ => conv) (m.wide .l) (m.wide? .r))

/-- A reduction of FP32 lanes (R226), whose root is a result of R76: a NaN that stands alone becomes the canonical one. -/
def vecReduce (g : Nat → Nat → Nat) (empty : Nat) (a : WideVal) : WideVal :=
  vecF1 (Lanes.cvt Fp.f32 Fp.f32) (Lanes.reduce g empty a)

/-- `vadd.i32` (R215). -/
def execVaddI32 (f : OpFields) (s : State) : Result' := .next (s.fireWide2 0x080 f (Lanes.map2 fun a b => a + b))
/-- `vaddsat.i32` (R215). -/
def execVaddsatI32 (f : OpFields) (s : State) : Result' := .next (s.fireWide2 0x081 f (Lanes.map2 Lanes.addSat))
/-- `vsub.i32` (R215). -/
def execVsubI32 (f : OpFields) (s : State) : Result' := .next (s.fireWide2 0x082 f (Lanes.map2 fun a b => a - b))
/-- `vsubsat.i32` (R215). -/
def execVsubsatI32 (f : OpFields) (s : State) : Result' := .next (s.fireWide2 0x083 f (Lanes.map2 Lanes.subSat))
/-- `vmul.i32` (R215). -/
def execVmulI32 (f : OpFields) (s : State) : Result' := .next (s.fireWide2 0x084 f (Lanes.map2 fun a b => a * b))
/-- `vmulh.i32` (R215). -/
def execVmulhI32 (f : OpFields) (s : State) : Result' := .next (s.fireWide2 0x085 f (Lanes.map2 Lanes.mulH))
/-- `vmulhu.i32` (R215). -/
def execVmulhuI32 (f : OpFields) (s : State) : Result' := .next (s.fireWide2 0x086 f (Lanes.map2 Lanes.mulHU))
/-- `vmin.i32` (R216). -/
def execVminI32 (f : OpFields) (s : State) : Result' := .next (s.fireWide2 0x088 f (Lanes.map2 Lanes.minS))
/-- `vmax.i32` (R216). -/
def execVmaxI32 (f : OpFields) (s : State) : Result' := .next (s.fireWide2 0x089 f (Lanes.map2 Lanes.maxS))
/-- `vminu.i32` (R216). -/
def execVminuI32 (f : OpFields) (s : State) : Result' := .next (s.fireWide2 0x08A f (Lanes.map2 Lanes.minU))
/-- `vmaxu.i32` (R216). -/
def execVmaxuI32 (f : OpFields) (s : State) : Result' := .next (s.fireWide2 0x08B f (Lanes.map2 Lanes.maxU))
/-- `vand` (R216). -/
def execVand (f : OpFields) (s : State) : Result' := .next (s.fireWide2 0x090 f (Lanes.map2 fun a b => a &&& b))
/-- `vor` (R216). -/
def execVor (f : OpFields) (s : State) : Result' := .next (s.fireWide2 0x091 f (Lanes.map2 fun a b => a ||| b))
/-- `vxor` (R216). -/
def execVxor (f : OpFields) (s : State) : Result' := .next (s.fireWide2 0x092 f (Lanes.map2 fun a b => a ^^^ b))
/-- `vnot` (R216). -/
def execVnot (f : OpFields) (s : State) : Result' := .next (s.fireWide1 0x093 f (Lanes.map1 fun a => ~~~a))
/-- `vshl` (R217). -/
def execVshl (f : OpFields) (s : State) : Result' := .next (s.fireShift 0x094 f fun a k => a <<< k)
/-- `vshr` (R217). -/
def execVshr (f : OpFields) (s : State) : Result' := .next (s.fireShift 0x095 f fun a k => a >>> k)
/-- `vsra` (R217). -/
def execVsra (f : OpFields) (s : State) : Result' := .next (s.fireShift 0x096 f fun a k => a.sshiftRight k)
/-- `vceq.i32` (R218). -/
def execVceqI32 (f : OpFields) (s : State) : Result' := .next (s.fireWide2 0x098 f (Lanes.map2 fun a b => Lanes.bool (a = b)))
/-- `vcne.i32` (R218). -/
def execVcneI32 (f : OpFields) (s : State) : Result' := .next (s.fireWide2 0x099 f (Lanes.map2 fun a b => Lanes.bool (a != b)))
/-- `vclt.i32` (R218). -/
def execVcltI32 (f : OpFields) (s : State) : Result' := .next (s.fireWide2 0x09A f (Lanes.map2 fun a b => Lanes.bool (a.slt b)))
/-- `vcle.i32` (R218). -/
def execVcleI32 (f : OpFields) (s : State) : Result' := .next (s.fireWide2 0x09B f (Lanes.map2 fun a b => Lanes.bool (a.sle b)))
/-- `vcltu.i32` (R218). -/
def execVcltuI32 (f : OpFields) (s : State) : Result' := .next (s.fireWide2 0x09C f (Lanes.map2 fun a b => Lanes.bool (a.ult b)))
/-- `vcleu.i32` (R218). -/
def execVcleuI32 (f : OpFields) (s : State) : Result' := .next (s.fireWide2 0x09D f (Lanes.map2 fun a b => Lanes.bool (a.ule b)))
/-- `vfadd.f32` (R219). -/
def execVfaddF32 (f : OpFields) (s : State) : Result' := .next (s.fireWide2 0x0C0 f (vecF2 Fp.add32))
/-- `vfsub.f32` (R219). -/
def execVfsubF32 (f : OpFields) (s : State) : Result' := .next (s.fireWide2 0x0C1 f (vecF2 Fp.sub32))
/-- `vfmul.f32` (R219). -/
def execVfmulF32 (f : OpFields) (s : State) : Result' := .next (s.fireWide2 0x0C2 f (vecF2 Fp.mul32))
/-- `vfdiv.f32` (R219). -/
def execVfdivF32 (f : OpFields) (s : State) : Result' := .next (s.fireWide2 0x0C4 f (vecF2 Fp.div32))
/-- `vfma.f32` (R219). -/
def execVfmaF32 (f : OpFields) (s : State) : Result' := .next (s.fireWide3 0x0C3 f (Lanes.map3 (Lanes.fp3 Fp.fma32)))
/-- `vfrcp.f32` (R220). -/
def execVfrcpF32 (f : OpFields) (s : State) : Result' := .next (s.fireWide1 0x0C8 f (vecF1 (vecFun Fp.rcp)))
/-- `vfrsq.f32` (R220). -/
def execVfrsqF32 (f : OpFields) (s : State) : Result' := .next (s.fireWide1 0x0C9 f (vecF1 (vecFun Fp.rsq)))
/-- `vfsqrt.f32` (R220). -/
def execVfsqrtF32 (f : OpFields) (s : State) : Result' := .next (s.fireWide1 0x0CA f (vecF1 (vecFun Fp.sqrt)))
/-- `vfexp2.f32` (R220). -/
def execVfexp2F32 (f : OpFields) (s : State) : Result' := .next (s.fireWide1 0x0CB f (vecF1 (vecFun Fp.exp2)))
/-- `vflog2.f32` (R220). -/
def execVflog2F32 (f : OpFields) (s : State) : Result' := .next (s.fireWide1 0x0CC f (vecF1 (vecFun Fp.log2)))
/-- `vfmin.f32` (R221). -/
def execVfminF32 (f : OpFields) (s : State) : Result' := .next (s.fireWide2 0x0CD f (vecF2 (Fp.minMax false)))
/-- `vfmax.f32` (R221). -/
def execVfmaxF32 (f : OpFields) (s : State) : Result' := .next (s.fireWide2 0x0CE f (vecF2 (Fp.minMax true)))
/-- `vfceq.f32` (R222). -/
def execVfceqF32 (f : OpFields) (s : State) : Result' := .next (s.fireWide2 0x0D0 f (Lanes.map2 Lanes.feq))
/-- `vfclt.f32` (R222). -/
def execVfcltF32 (f : OpFields) (s : State) : Result' := .next (s.fireWide2 0x0D1 f (Lanes.map2 Lanes.flt))
/-- `vfcle.f32` (R222). -/
def execVfcleF32 (f : OpFields) (s : State) : Result' := .next (s.fireWide2 0x0D2 f (Lanes.map2 Lanes.fle))
/-- `vfcun.f32` (R222). -/
def execVfcunF32 (f : OpFields) (s : State) : Result' := .next (s.fireWide2 0x0D3 f (Lanes.map2 Lanes.fun32))
/-- `vcvt.f32.bf16` (R223). -/
def execVcvtF32Bf16 (f : OpFields) (s : State) : Result' := .next (s.fireWide1 0x100 f (Lanes.widen16 (Lanes.cvt Fp.bf16 Fp.f32) f.sub.toNat))
/-- `vcvt.f32.f16` (R223). -/
def execVcvtF32F16 (f : OpFields) (s : State) : Result' := .next (s.fireWide1 0x103 f (Lanes.widen16 (Lanes.cvt Fp.f16 Fp.f32) f.sub.toNat))
/-- `vcvt.f32.e4m3` (R223). -/
def execVcvtF32E4m3 (f : OpFields) (s : State) : Result' := .next (s.fireWide1 0x105 f (Lanes.widen8 (Lanes.cvt Fp.e4m3 Fp.f32) f.sub.toNat))
/-- `vcvt.e4m3.f32` (R223). -/
def execVcvtE4m3F32 (f : OpFields) (s : State) : Result' := .next (s.fireWide1 0x106 f (Lanes.part8 (Lanes.cvt Fp.f32 Fp.e4m3) f.sub.toNat))
/-- `vcvt.f32.e5m2` (R223). -/
def execVcvtF32E5m2 (f : OpFields) (s : State) : Result' := .next (s.fireWide1 0x107 f (Lanes.widen8 (Lanes.cvt Fp.e5m2 Fp.f32) f.sub.toNat))
/-- `vcvt.e5m2.f32` (R223). -/
def execVcvtE5m2F32 (f : OpFields) (s : State) : Result' := .next (s.fireWide1 0x108 f (Lanes.part8 (Lanes.cvt Fp.f32 Fp.e5m2) f.sub.toNat))
/-- `vcvt.i32.f32` (R223). -/
def execVcvtI32F32 (f : OpFields) (s : State) : Result' := .next (s.fireWide1 0x109 f (Lanes.convLane (Lanes.cvtI32 Fp.truncInt)))
/-- `vcvtn.i32.f32` (R223). -/
def execVcvtnI32F32 (f : OpFields) (s : State) : Result' := .next (s.fireWide1 0x10A f (Lanes.convLane (Lanes.cvtI32 Fp.roundInt)))
/-- `vcvt.f32.i32` (R223). -/
def execVcvtF32I32 (f : OpFields) (s : State) : Result' := .next (s.fireWide1 0x10B f (Lanes.convLane Lanes.cvtF32))
/-- `vcvt.i8.i32` (R223). -/
def execVcvtI8I32 (f : OpFields) (s : State) : Result' := .next (s.fireWide1 0x10C f (Lanes.part8 Lanes.cvtI8 f.sub.toNat))
/-- `vcvt.bf16.f32` (R223). -/
def execVcvtBf16F32 (f : OpFields) (s : State) : Result' := .next (s.firePair 0x101 f (Lanes.cvt Fp.f32 Fp.bf16))
/-- `vcvt.f16.f32` (R223). -/
def execVcvtF16F32 (f : OpFields) (s : State) : Result' := .next (s.firePair 0x104 f (Lanes.cvt Fp.f32 Fp.f16))
/-- `vcvtsr.bf16.f32` (R224): seed, ITER of the common tag before TAGOP, lane index. -/
def execVcvtsrBf16F32 (f : OpFields) (s : State) : Result' := .next (s.fireResult 0x102 f fun m =>
    .wide (Lanes.pair (fun e b => Fp.srBf16 f.imm.toNat m.tag.iter.toNat e b) (m.wide .l) (m.wide? .r)))
/-- `vqdec` (R225). -/
def execVqdec (f : OpFields) (s : State) : Result' := .next (s.fireWide1 0x110 f (Lanes.qdec f.sub.toNat))
/-- `vqenc` (R225). -/
def execVqenc (f : OpFields) (s : State) : Result' := .next (s.fireWide1 0x111 f (Lanes.qenc f.sub.toNat))
/-- `vrsum.f32` (R226). -/
def execVrsumF32 (f : OpFields) (s : State) : Result' := .next (s.fireWide1 0x118 f (vecReduce Fp.add32 0))
/-- `vrmax.f32` (R226). -/
def execVrmaxF32 (f : OpFields) (s : State) : Result' := .next (s.fireWide1 0x119 f (vecReduce (Fp.minMax true) Fp.f32.nanBits))
/-- `vrmin.f32` (R226). -/
def execVrminF32 (f : OpFields) (s : State) : Result' := .next (s.fireWide1 0x11A f (vecReduce (Fp.minMax false) Fp.f32.nanBits))
/-- `vrsum.i32` (R226). -/
def execVrsumI32 (f : OpFields) (s : State) : Result' := .next (s.fireWide1 0x11B f (Lanes.reduce Lanes.addI 0))
/-- `vperm` (R227). -/
def execVperm (f : OpFields) (s : State) : Result' := .next (s.fireWide2 0x120 f (Lanes.perm f.sub.toNat))
/-- `vrot` (R228). -/
def execVrot (f : OpFields) (s : State) : Result' := .next (s.fireWide1 0x121 f (Lanes.rot f.sub.toNat))
/-- `vcx` (R229): with a companion, DEST1 receives it, exchanged as the keys are. -/
def execVcx (f : OpFields) (s : State) : Result' :=
  .next (s.fire 0x122 f fun s q m =>
    if m.eos then s.forwardEos q m
    else
      let src := Lanes.cxFrom f.etype f.sub.toNat (m.wide .l)
      let keys : Payload := .wide (Lanes.move src (m.wide .l))
      let comp := (m.wide? .r).map fun r => Payload.wide (Lanes.move src r)
      s.withTag q m m.tag fun s t =>
        s.output q m ((q.toAll keys t).map fun r =>
          if r.index = 1 then { r with payload := comp.getD keys } else r) (m.at? .l))

/-- VECTOR_RESULT_EMIT (R214): a result that is due leaves the unit: the earliest due, and of one cycle the firing
that started first. -/
def execVectorResultEmit (tk : Nat) (s : State) : Result' :=
  let vs := (s.tile tk).vector
  let first := vs.foldl (fun (b : Option VectorResult) v => match b with
    | none => some v
    | some x => if v.due < x.due then some v else b) none
  match first with
  | none => .next s
  | some v =>
    if s.cycles < v.due then .next s
    else
      .next ((s.modTile tk fun t => { t with vector := t.vector.erase v }).deliverAll tk v.plane 0 v.out)

end Sys2Proof.Machine
end

