-- ==== Sys2Proof/Machine/Dispatch.lean ====
section
/-!
DEFINITION. One arm per constructor of `Instr`: each calls the meaning of that instruction.
-/
namespace Sys2Proof.Machine

/-- What an instruction does in a state. -/
def exec (i : Instr) (s : State) : Host.Outcome State Fault Refusal :=
  match i with
  | .add xd xa xb => Sys2Proof.Machine.execAdd xd xa xb s
  | .sub xd xa xb => Sys2Proof.Machine.execSub xd xa xb s
  | .mul xd xa xb => Sys2Proof.Machine.execMul xd xa xb s
  | .mulh xd xa xb => Sys2Proof.Machine.execMulh xd xa xb s
  | .mulhu xd xa xb => Sys2Proof.Machine.execMulhu xd xa xb s
  | .div xd xa xb => Sys2Proof.Machine.execDiv xd xa xb s
  | .divu xd xa xb => Sys2Proof.Machine.execDivu xd xa xb s
  | .rem xd xa xb => Sys2Proof.Machine.execRem xd xa xb s
  | .remu xd xa xb => Sys2Proof.Machine.execRemu xd xa xb s
  | .and xd xa xb => Sys2Proof.Machine.execAnd xd xa xb s
  | .or xd xa xb => Sys2Proof.Machine.execOr xd xa xb s
  | .xor xd xa xb => Sys2Proof.Machine.execXor xd xa xb s
  | .sll xd xa xb => Sys2Proof.Machine.execSll xd xa xb s
  | .srl xd xa xb => Sys2Proof.Machine.execSrl xd xa xb s
  | .sra xd xa xb => Sys2Proof.Machine.execSra xd xa xb s
  | .slt xd xa xb => Sys2Proof.Machine.execSlt xd xa xb s
  | .sltu xd xa xb => Sys2Proof.Machine.execSltu xd xa xb s
  | .addi xd xa imm => Sys2Proof.Machine.execAddi xd xa imm s
  | .andi xd xa imm => Sys2Proof.Machine.execAndi xd xa imm s
  | .ori xd xa imm => Sys2Proof.Machine.execOri xd xa imm s
  | .xori xd xa imm => Sys2Proof.Machine.execXori xd xa imm s
  | .slli xd xa imm => Sys2Proof.Machine.execSlli xd xa imm s
  | .srli xd xa imm => Sys2Proof.Machine.execSrli xd xa imm s
  | .srai xd xa imm => Sys2Proof.Machine.execSrai xd xa imm s
  | .slti xd xa imm => Sys2Proof.Machine.execSlti xd xa imm s
  | .li xd imm => Sys2Proof.Machine.execLi xd imm s
  | .lih xd imm => Sys2Proof.Machine.execLih xd imm s
  | .beq xa xb off => Sys2Proof.Machine.execBeq xa xb off s
  | .bne xa xb off => Sys2Proof.Machine.execBne xa xb off s
  | .blt xa xb off => Sys2Proof.Machine.execBlt xa xb off s
  | .bge xa xb off => Sys2Proof.Machine.execBge xa xb off s
  | .bltu xa xb off => Sys2Proof.Machine.execBltu xa xb off s
  | .bgeu xa xb off => Sys2Proof.Machine.execBgeu xa xb off s
  | .jal xd off => Sys2Proof.Machine.execJal xd off s
  | .jalr xd xa imm => Sys2Proof.Machine.execJalr xd xa imm s
  | .ldxB xd xa imm sc => Sys2Proof.Machine.execLdxB xd xa imm sc s
  | .ldxBu xd xa imm sc => Sys2Proof.Machine.execLdxBu xd xa imm sc s
  | .ldxH xd xa imm sc => Sys2Proof.Machine.execLdxH xd xa imm sc s
  | .ldxHu xd xa imm sc => Sys2Proof.Machine.execLdxHu xd xa imm sc s
  | .ldxW xd xa imm sc => Sys2Proof.Machine.execLdxW xd xa imm sc s
  | .ldxWu xd xa imm sc => Sys2Proof.Machine.execLdxWu xd xa imm sc s
  | .ldxD xd xa imm sc => Sys2Proof.Machine.execLdxD xd xa imm sc s
  | .stxB xb xa imm sc => Sys2Proof.Machine.execStxB xb xa imm sc s
  | .stxH xb xa imm sc => Sys2Proof.Machine.execStxH xb xa imm sc s
  | .stxW xb xa imm sc => Sys2Proof.Machine.execStxW xb xa imm sc s
  | .stxD xb xa imm sc => Sys2Proof.Machine.execStxD xb xa imm sc s
  | .amoAdd xd xb xa sc => Sys2Proof.Machine.execAmoAdd xd xb xa sc s
  | .amoSwap xd xb xa sc => Sys2Proof.Machine.execAmoSwap xd xb xa sc s
  | .amoCas xd xb xa sc => Sys2Proof.Machine.execAmoCas xd xb xa sc s
  | .fence sc => Sys2Proof.Machine.execFence sc s
  | .rel sc => Sys2Proof.Machine.execRel sc s
  | .acq sc => Sys2Proof.Machine.execAcq sc s
  | .cspawn xa imm => Sys2Proof.Machine.execCspawn xa imm s
  | .cjoin xa => Sys2Proof.Machine.execCjoin xa s
  | .cend => Sys2Proof.Machine.execCend s
  | .cyield => Sys2Proof.Machine.execCyield s
  | .sspec xa imm => Sys2Proof.Machine.execSspec xa imm s
  | .sbar imm => Sys2Proof.Machine.execSbar imm s
  | .scond xa imm sc => Sys2Proof.Machine.execScond xa imm sc s
  | .gload xd xa imm => Sys2Proof.Machine.execGload xd xa imm s
  | .gsplice xa xb => Sys2Proof.Machine.execGsplice xa xb s
  | .gfree xa => Sys2Proof.Machine.execGfree xa s
  | .jsub xa => Sys2Proof.Machine.execJsub xa s
  | .gjoin xa imm => Sys2Proof.Machine.execGjoin xa imm s
  | .gleave xa imm => Sys2Proof.Machine.execGleave xa imm s
  | .colq xa xb imm => Sys2Proof.Machine.execColq xa xb imm s
  | .colret xa => Sys2Proof.Machine.execColret xa s
  | .evwait xd xa => Sys2Proof.Machine.execEvwait xd xa s
  | .evarm xa => Sys2Proof.Machine.execEvarm xa s
  | .binit xa xb => Sys2Proof.Machine.execBinit xa xb s
  | .barv xa xb sc => Sys2Proof.Machine.execBarv xa xb sc s
  | .bwait xd xa xb sc => Sys2Proof.Machine.execBwait xd xa xb sc s
  | .onew xd xa imm => Sys2Proof.Machine.execOnew xd xa imm s
  | .oname xa xb => Sys2Proof.Machine.execOname xa xb s
  | .ofind xd xa => Sys2Proof.Machine.execOfind xd xa s
  | .oup xd xa => Sys2Proof.Machine.execOup xd xa s
  | .orel xa => Sys2Proof.Machine.execOrel xa s
  | .oweak xd xa => Sys2Proof.Machine.execOweak xd xa s
  | .oprio xa imm => Sys2Proof.Machine.execOprio xa imm s
  | .odisc xa => Sys2Proof.Machine.execOdisc xa s
  | .trap imm => Sys2Proof.Machine.execTrap imm s
  | .eret => Sys2Proof.Machine.execEret s
  | .csrrd xd csr => Sys2Proof.Machine.execCsrrd xd csr s
  | .csrwr csr xa => Sys2Proof.Machine.execCsrwr csr xa s
  | .wfe => Sys2Proof.Machine.execWfe s
  | .halt => Sys2Proof.Machine.execHalt s
  | .snap imm => Sys2Proof.Machine.execSnap imm s
  | .freeze xa => Sys2Proof.Machine.execFreeze xa s
  | .thaw xa => Sys2Proof.Machine.execThaw xa s
  | .const f => Sys2Proof.Machine.execConst f s
  | .pass f => Sys2Proof.Machine.execPass f s
  | .repl f => Sys2Proof.Machine.execRepl f s
  | .steer f => Sys2Proof.Machine.execSteer f s
  | .merge f => Sys2Proof.Machine.execMerge f s
  | .amerge f => Sys2Proof.Machine.execAmerge f s
  | .lcarryEntry f => Sys2Proof.Machine.execLcarryEntry f s
  | .lcarryBackEdge f => Sys2Proof.Machine.execLcarryBackEdge f s
  | .lcarryEosRelease f => Sys2Proof.Machine.execLcarryEosRelease f s
  | .select f => Sys2Proof.Machine.execSelect f s
  | .tagset f => Sys2Proof.Machine.execTagset f s
  | .taginc f => Sys2Proof.Machine.execTaginc f s
  | .tagcopy f => Sys2Proof.Machine.execTagcopy f s
  | .lvpush f => Sys2Proof.Machine.execLvpush f s
  | .lvpop f => Sys2Proof.Machine.execLvpop f s
  | .eosgen f => Sys2Proof.Machine.execEosgen f s
  | .eoswait f => Sys2Proof.Machine.execEoswait f s
  | .sink f => Sys2Proof.Machine.execSink f s
  | .drop f => Sys2Proof.Machine.execDrop f s
  | .gate f => Sys2Proof.Machine.execGate f s
  | .ojoin f => Sys2Proof.Machine.execOjoin f s
  | .cfgreq f => Sys2Proof.Machine.execCfgreq f s
  | .gcoal f => Sys2Proof.Machine.execGcoal f s
  | .greord f => Sys2Proof.Machine.execGreord f s
  | .nadd f => Sys2Proof.Machine.execNadd f s
  | .nsub f => Sys2Proof.Machine.execNsub f s
  | .nneg f => Sys2Proof.Machine.execNneg f s
  | .nabs f => Sys2Proof.Machine.execNabs f s
  | .nmin f => Sys2Proof.Machine.execNmin f s
  | .nmax f => Sys2Proof.Machine.execNmax f s
  | .nshl f => Sys2Proof.Machine.execNshl f s
  | .nmulk f => Sys2Proof.Machine.execNmulk f s
  | .nceq f => Sys2Proof.Machine.execNceq f s
  | .ncne f => Sys2Proof.Machine.execNcne f s
  | .nclt f => Sys2Proof.Machine.execNclt f s
  | .ncle f => Sys2Proof.Machine.execNcle f s
  | .ntobW f => Sys2Proof.Machine.execNtobW f s
  | .ntobS f => Sys2Proof.Machine.execNtobS f s
  | .bton f => Sys2Proof.Machine.execBton f s
  | .vaddI32 f => Sys2Proof.Machine.execVaddI32 f s
  | .vaddsatI32 f => Sys2Proof.Machine.execVaddsatI32 f s
  | .vsubI32 f => Sys2Proof.Machine.execVsubI32 f s
  | .vsubsatI32 f => Sys2Proof.Machine.execVsubsatI32 f s
  | .vmulI32 f => Sys2Proof.Machine.execVmulI32 f s
  | .vmulhI32 f => Sys2Proof.Machine.execVmulhI32 f s
  | .vmulhuI32 f => Sys2Proof.Machine.execVmulhuI32 f s
  | .vminI32 f => Sys2Proof.Machine.execVminI32 f s
  | .vmaxI32 f => Sys2Proof.Machine.execVmaxI32 f s
  | .vminuI32 f => Sys2Proof.Machine.execVminuI32 f s
  | .vmaxuI32 f => Sys2Proof.Machine.execVmaxuI32 f s
  | .vand f => Sys2Proof.Machine.execVand f s
  | .vor f => Sys2Proof.Machine.execVor f s
  | .vxor f => Sys2Proof.Machine.execVxor f s
  | .vnot f => Sys2Proof.Machine.execVnot f s
  | .vshl f => Sys2Proof.Machine.execVshl f s
  | .vshr f => Sys2Proof.Machine.execVshr f s
  | .vsra f => Sys2Proof.Machine.execVsra f s
  | .vceqI32 f => Sys2Proof.Machine.execVceqI32 f s
  | .vcneI32 f => Sys2Proof.Machine.execVcneI32 f s
  | .vcltI32 f => Sys2Proof.Machine.execVcltI32 f s
  | .vcleI32 f => Sys2Proof.Machine.execVcleI32 f s
  | .vcltuI32 f => Sys2Proof.Machine.execVcltuI32 f s
  | .vcleuI32 f => Sys2Proof.Machine.execVcleuI32 f s
  | .vfaddF32 f => Sys2Proof.Machine.execVfaddF32 f s
  | .vfsubF32 f => Sys2Proof.Machine.execVfsubF32 f s
  | .vfmulF32 f => Sys2Proof.Machine.execVfmulF32 f s
  | .vfmaF32 f => Sys2Proof.Machine.execVfmaF32 f s
  | .vfdivF32 f => Sys2Proof.Machine.execVfdivF32 f s
  | .vfrcpF32 f => Sys2Proof.Machine.execVfrcpF32 f s
  | .vfrsqF32 f => Sys2Proof.Machine.execVfrsqF32 f s
  | .vfsqrtF32 f => Sys2Proof.Machine.execVfsqrtF32 f s
  | .vfexp2F32 f => Sys2Proof.Machine.execVfexp2F32 f s
  | .vflog2F32 f => Sys2Proof.Machine.execVflog2F32 f s
  | .vfminF32 f => Sys2Proof.Machine.execVfminF32 f s
  | .vfmaxF32 f => Sys2Proof.Machine.execVfmaxF32 f s
  | .vfceqF32 f => Sys2Proof.Machine.execVfceqF32 f s
  | .vfcltF32 f => Sys2Proof.Machine.execVfcltF32 f s
  | .vfcleF32 f => Sys2Proof.Machine.execVfcleF32 f s
  | .vfcunF32 f => Sys2Proof.Machine.execVfcunF32 f s
  | .vcvtF32Bf16 f => Sys2Proof.Machine.execVcvtF32Bf16 f s
  | .vcvtBf16F32 f => Sys2Proof.Machine.execVcvtBf16F32 f s
  | .vcvtsrBf16F32 f => Sys2Proof.Machine.execVcvtsrBf16F32 f s
  | .vcvtF32F16 f => Sys2Proof.Machine.execVcvtF32F16 f s
  | .vcvtF16F32 f => Sys2Proof.Machine.execVcvtF16F32 f s
  | .vcvtF32E4m3 f => Sys2Proof.Machine.execVcvtF32E4m3 f s
  | .vcvtE4m3F32 f => Sys2Proof.Machine.execVcvtE4m3F32 f s
  | .vcvtF32E5m2 f => Sys2Proof.Machine.execVcvtF32E5m2 f s
  | .vcvtE5m2F32 f => Sys2Proof.Machine.execVcvtE5m2F32 f s
  | .vcvtI32F32 f => Sys2Proof.Machine.execVcvtI32F32 f s
  | .vcvtnI32F32 f => Sys2Proof.Machine.execVcvtnI32F32 f s
  | .vcvtF32I32 f => Sys2Proof.Machine.execVcvtF32I32 f s
  | .vcvtI8I32 f => Sys2Proof.Machine.execVcvtI8I32 f s
  | .vqdec f => Sys2Proof.Machine.execVqdec f s
  | .vqenc f => Sys2Proof.Machine.execVqenc f s
  | .vrsumF32 f => Sys2Proof.Machine.execVrsumF32 f s
  | .vrmaxF32 f => Sys2Proof.Machine.execVrmaxF32 f s
  | .vrminF32 f => Sys2Proof.Machine.execVrminF32 f s
  | .vrsumI32 f => Sys2Proof.Machine.execVrsumI32 f s
  | .vperm f => Sys2Proof.Machine.execVperm f s
  | .vrot f => Sys2Proof.Machine.execVrot f s
  | .vcx f => Sys2Proof.Machine.execVcx f s
  | .ldv f => Sys2Proof.Machine.execLdv f s
  | .stv f => Sys2Proof.Machine.execStv f s
  | .ld8 f => Sys2Proof.Machine.execLd8 f s
  | .ld16 f => Sys2Proof.Machine.execLd16 f s
  | .ld32 f => Sys2Proof.Machine.execLd32 f s
  | .ld64 f => Sys2Proof.Machine.execLd64 f s
  | .st8 f => Sys2Proof.Machine.execSt8 f s
  | .st16 f => Sys2Proof.Machine.execSt16 f s
  | .st32 f => Sys2Proof.Machine.execSt32 f s
  | .st64 f => Sys2Proof.Machine.execSt64 f s
  | .ldfeC f => Sys2Proof.Machine.execLdfeC f s
  | .ldfeK f => Sys2Proof.Machine.execLdfeK f s
  | .stf f => Sys2Proof.Machine.execStf f s
  | .ldg f => Sys2Proof.Machine.execLdg f s
  | .ldhV f => Sys2Proof.Machine.execLdhV f s
  | .sthV f => Sys2Proof.Machine.execSthV f s
  | .ldwV f => Sys2Proof.Machine.execLdwV f s
  | .aaddI32 f => Sys2Proof.Machine.execAaddI32 f s
  | .aaddF32 f => Sys2Proof.Machine.execAaddF32 f s
  | .aminI32 f => Sys2Proof.Machine.execAminI32 f s
  | .amaxI32 f => Sys2Proof.Machine.execAmaxI32 f s
  | .aand f => Sys2Proof.Machine.execAand f s
  | .aor f => Sys2Proof.Machine.execAor f s
  | .axchg f => Sys2Proof.Machine.execAxchg f s
  | .acas f => Sys2Proof.Machine.execAcas f s
  | .hup f => Sys2Proof.Machine.execHup f s
  | .hrel f => Sys2Proof.Machine.execHrel f s
  | .fenceS f => Sys2Proof.Machine.execFenceS f s
  | .mmaE4m3 f => Sys2Proof.Machine.execMmaE4m3 f s
  | .mmaE5m2 f => Sys2Proof.Machine.execMmaE5m2 f s
  | .mmaE4e5 f => Sys2Proof.Machine.execMmaE4e5 f s
  | .mmaBf16 f => Sys2Proof.Machine.execMmaBf16 f s
  | .mmaI8 f => Sys2Proof.Machine.execMmaI8 f s
  | .mmaQ16n f => Sys2Proof.Machine.execMmaQ16n f s
  | .scalc f => Sys2Proof.Machine.execScalc f s
  | .accz f => Sys2Proof.Machine.execAccz f s
  | .accrd f => Sys2Proof.Machine.execAccrd f s
  | .accwr f => Sys2Proof.Machine.execAccwr f s
  | .xsort f => Sys2Proof.Machine.execXsort f s
  | .ascan f => Sys2Proof.Machine.execAscan f s
  | .ared f => Sys2Proof.Machine.execAred f s
  | .anorm f => Sys2Proof.Machine.execAnorm f s
  | .kvapp f => Sys2Proof.Machine.execKvapp f s
  | .kvseqRead f => Sys2Proof.Machine.execKvseqRead f s
  | .kvseqOpen f => Sys2Proof.Machine.execKvseqOpen f s
  | .kvseqAdvance f => Sys2Proof.Machine.execKvseqAdvance f s
  | .kvseqDraft f => Sys2Proof.Machine.execKvseqDraft f s
  | .kvtrim f => Sys2Proof.Machine.execKvtrim f s
  | .sbarRetire ck ctx => Sys2Proof.Machine.execSbarRetire ck ctx s
  | .scondRetire ck ctx => Sys2Proof.Machine.execScondRetire ck ctx s
  | .cardAccept ck ctx => Sys2Proof.Machine.execCardAccept ck ctx s
  | .narrowBeatEmit tk => Sys2Proof.Machine.execNarrowBeatEmit tk s
  | .vectorResultEmit tk => Sys2Proof.Machine.execVectorResultEmit tk s
  | .memoryResultArrival tk k => Sys2Proof.Machine.execMemoryResultArrival tk k s
  | .walkComplete tk k => Sys2Proof.Machine.execWalkComplete tk k s
  | .feTimeout tk k => Sys2Proof.Machine.execFeTimeout tk k s
  | .feResend tk k => Sys2Proof.Machine.execFeResend tk k s
  | .arrayFiringEnd tk => Sys2Proof.Machine.execArrayFiringEnd tk s
  | .admitToken ck k => Sys2Proof.Machine.execAdmitToken ck k s
  | .creditReturn ck k => Sys2Proof.Machine.execCreditReturn ck k s
  | .tokenArrival ck k => Sys2Proof.Machine.execTokenArrival ck k s
  | .exitDelivery ck k => Sys2Proof.Machine.execExitDelivery ck k s
  | .exitReorderAgeRelease ck k => Sys2Proof.Machine.execExitReorderAgeRelease ck k s
  | .stallAgeExpiry tk => Sys2Proof.Machine.execStallAgeExpiry tk s
  | .spillAck tk k => Sys2Proof.Machine.execSpillAck tk k s
  | .spillReadback tk k => Sys2Proof.Machine.execSpillReadback tk k s
  | .bindingActivate ck k => Sys2Proof.Machine.execBindingActivate ck k s
  | .streamElementRead ck k => Sys2Proof.Machine.execStreamElementRead ck k s
  | .pushLineRead sk k => Sys2Proof.Machine.execPushLineRead sk k s
  | .pushElementDeliver sk k => Sys2Proof.Machine.execPushElementDeliver sk k s
  | .sliceRead k => Sys2Proof.Machine.execSliceRead k s
  | .sliceWrite k => Sys2Proof.Machine.execSliceWrite k s
  | .conflictQueueLock sk k => Sys2Proof.Machine.execConflictQueueLock sk k s
  | .ptsAdvance holder => Sys2Proof.Machine.execPtsAdvance holder s
  | .rdline sk k => Sys2Proof.Machine.execRdline sk k s
  | .wrline sk k => Sys2Proof.Machine.execWrline sk k s
  | .wrmask sk k => Sys2Proof.Machine.execWrmask sk k s
  | .keyset holder colour => Sys2Proof.Machine.execKeyset holder colour s
  | .keykill holder colour => Sys2Proof.Machine.execKeykill holder colour s
  | .lineFill sk k => Sys2Proof.Machine.execLineFill sk k s
  | .sliceEpochEnd sk => Sys2Proof.Machine.execSliceEpochEnd sk s
  | .slwayWrite world sk w value => Sys2Proof.Machine.execSlwayWrite world sk w value s
  | .slwaycWrite world sk value => Sys2Proof.Machine.execSlwaycWrite world sk value s
  | .groupRequest ck k => Sys2Proof.Machine.execGroupRequest ck k s
  | .groupAsk sk k => Sys2Proof.Machine.execGroupAsk sk k s
  | .groupQueueAdmit sk => Sys2Proof.Machine.execGroupQueueAdmit sk s
  | .groupTimerExpiry sk k => Sys2Proof.Machine.execGroupTimerExpiry sk k s
  | .groupFill ck k => Sys2Proof.Machine.execGroupFill ck k s
  | .releaseProbe k sk => Sys2Proof.Machine.execReleaseProbe k sk s
  | .hubProbeForward k die => Sys2Proof.Machine.execHubProbeForward k die s
  | .releaseComplete k => Sys2Proof.Machine.execReleaseComplete k s
  | .flitPromotion ck k => Sys2Proof.Machine.execFlitPromotion ck k s
  | .mshctlWrite world ck value => Sys2Proof.Machine.execMshctlWrite world ck value s
  | .stcselWrite world st k value => Sys2Proof.Machine.execStcselWrite world st k value s
  | .barrierArrival ck k => Sys2Proof.Machine.execBarrierArrival ck k s
  | .cardIssue ck => Sys2Proof.Machine.execCardIssue ck s
  | .cardComplete ck k => Sys2Proof.Machine.execCardComplete ck k s
  | .eventRecordWrite k => Sys2Proof.Machine.execEventRecordWrite k s
  | .recordPop ck => Sys2Proof.Machine.execRecordPop ck s
  | .joinReread ck k => Sys2Proof.Machine.execJoinReread ck k s
  | .launchEnd ck ctx => Sys2Proof.Machine.execLaunchEnd ck ctx s
  | .spliceToken ck k => Sys2Proof.Machine.execSpliceToken ck k s
  | .spliceInstall tk k => Sys2Proof.Machine.execSpliceInstall tk k s
  | .spliceRegisterWrite tk => Sys2Proof.Machine.execSpliceRegisterWrite tk s
  | .cfgreqServe die k => Sys2Proof.Machine.execCfgreqServe die k s
  | .cfgWaitRetry die k => Sys2Proof.Machine.execCfgWaitRetry die k s
  | .planeSwap tk => Sys2Proof.Machine.execPlaneSwap tk s
  | .swapDrainExpiry tk => Sys2Proof.Machine.execSwapDrainExpiry tk s
  | .mminvRange ck ctx => Sys2Proof.Machine.execMminvRange ck ctx s
  | .mminvColour ck ctx => Sys2Proof.Machine.execMminvColour ck ctx s
  | .mminvWorld ck ctx => Sys2Proof.Machine.execMminvWorld ck ctx s
  | .mminvDiscard ck ctx => Sys2Proof.Machine.execMminvDiscard ck ctx s
  | .invalidationComplete ck ctx => Sys2Proof.Machine.execInvalidationComplete ck ctx s
  | .colourRetireDrop colour => Sys2Proof.Machine.execColourRetireDrop colour s
  | .colourFree colour => Sys2Proof.Machine.execColourFree colour s
  | .pagerFaultToken k => Sys2Proof.Machine.execPagerFaultToken k s
  | .pagerService die k => Sys2Proof.Machine.execPagerService die k s
  | .pgretryWrite world die value => Sys2Proof.Machine.execPgretryWrite world die value s
  | .faultTimeExpiry die k => Sys2Proof.Machine.execFaultTimeExpiry die k s
  | .lcabortWrite world ck value => Sys2Proof.Machine.execLcabortWrite world ck value s
  | .ccenWrite world ck value => Sys2Proof.Machine.execCcenWrite world ck value s
  | .markerArrival ck k => Sys2Proof.Machine.execMarkerArrival ck k s
  | .snapshotTileSave tk ctx => Sys2Proof.Machine.execSnapshotTileSave tk ctx s
  | .snapshotComplete ck ctx => Sys2Proof.Machine.execSnapshotComplete ck ctx s
  | .breakpointMatch tk slot => Sys2Proof.Machine.execBreakpointMatch tk slot s
  | .debugResume world => Sys2Proof.Machine.execDebugResume world s
  | .tbpfWrite world tk k value => Sys2Proof.Machine.execTbpfWrite world tk k value s
  | .objectReclaim die w => Sys2Proof.Machine.execObjectReclaim die w s
  | .prefetchNotice k => Sys2Proof.Machine.execPrefetchNotice k s
  | .colourAlloc w arg0 arg1 => Sys2Proof.Machine.execColourAlloc w arg0 arg1 s
  | .colourRetire w arg0 => Sys2Proof.Machine.execColourRetire w arg0 s
  | .ringCreate w arg0 arg1 arg2 => Sys2Proof.Machine.execRingCreate w arg0 arg1 arg2 s
  | .ringDestroy w arg0 => Sys2Proof.Machine.execRingDestroy w arg0 s
  | .macsecSa w arg0 arg1 => Sys2Proof.Machine.execMacsecSa w arg0 arg1 s
  | .wevarmWrite w value => Sys2Proof.Machine.execWevarmWrite w value s
  | .vfEnableClear => Sys2Proof.Machine.execVfEnableClear s
  | .vfEnableSet n => Sys2Proof.Machine.execVfEnableSet n s
  | .functionLevelReset n => Sys2Proof.Machine.execFunctionLevelReset n s
  | .tdispStateChange n st => Sys2Proof.Machine.execTdispStateChange n st s
  | .getVersion fn => Sys2Proof.Machine.execGetVersion fn s
  | .getCapabilities fn => Sys2Proof.Machine.execGetCapabilities fn s
  | .negotiateAlgorithms fn asym hash => Sys2Proof.Machine.execNegotiateAlgorithms fn asym hash s
  | .getDigests fn => Sys2Proof.Machine.execGetDigests fn s
  | .getCertificate fn slot => Sys2Proof.Machine.execGetCertificate fn slot s
  | .challenge fn slot nonce => Sys2Proof.Machine.execChallenge fn slot nonce s
  | .getMeasurements fn index nonce => Sys2Proof.Machine.execGetMeasurements fn index nonce s
  | .keyExchange fn share => Sys2Proof.Machine.execKeyExchange fn share s
  | .finish fn verify => Sys2Proof.Machine.execFinish fn verify s
  | .endSession fn => Sys2Proof.Machine.execEndSession fn s
  | .ideKm fn stream key => Sys2Proof.Machine.execIdeKm fn stream key s
  | .d2dLinkTraining link answer => Sys2Proof.Machine.execD2dLinkTraining link answer s
  | .bar2Access w acc => Sys2Proof.Machine.execBar2Access w acc s
  | .registerWindowAccess w acc => Sys2Proof.Machine.execRegisterWindowAccess w acc s
  | .ethernetFrameRx port etherType secured => Sys2Proof.Machine.execEthernetFrameRx port etherType secured s
  | .boot inp => Sys2Proof.Machine.execBoot inp s
  | .throttle on => Sys2Proof.Machine.execThrottle on s
  | .thermtrip => Sys2Proof.Machine.execThermtrip s
  | .correctedError e => Sys2Proof.Machine.execCorrectedError e s
  | .uncorrectedError e => Sys2Proof.Machine.execUncorrectedError e s
  | .ringCrcRetry k => Sys2Proof.Machine.execRingCrcRetry k s
  | .errorWindowBoundary => Sys2Proof.Machine.execErrorWindowBoundary s
  | .rlcfgWrite world die value => Sys2Proof.Machine.execRlcfgWrite world die value s
  | .registerWrite world pa value => Sys2Proof.Machine.execRegisterWrite world pa value s
  | .stallCount tk slot => Sys2Proof.Machine.execStallCount tk slot s
  | .wfeTimeout ck ctx => Sys2Proof.Machine.execWfeTimeout ck ctx s
  | .freezeScanComplete world => Sys2Proof.Machine.execFreezeScanComplete world s
  | .removalComplete world => Sys2Proof.Machine.execRemovalComplete world s
  | .msiXTableWrite fn vec masked => Sys2Proof.Machine.execMsiXTableWrite fn vec masked s

end Sys2Proof.Machine
end

