-- ==== Sys2Proof/Machine/Clock.lean ====
section
/-!
DEFINITION. The FCLK cycle. Whatever the manual lets an agent do at a time of its own is a move of the agenda (log 3); what a rule ties
to a cycle happens here, each by its own step of the table, so that no rule's latency, bound or timeout passes unkept
(00_scope.md R426, log 17): at the end of cycle n the firings, results, counts, ages and expiries of the cycle, then the clocks, then,
at the start of cycle n + 1, the ends of array firings, splices and bindings whose conditions hold, what the routers of the meshes
grant and what moves on the rings.
-/
namespace Sys2Proof.Machine

/-- Runs what a fetch gave. -/
def Fetched.go : Fetched → Result'
  | .run s i => exec i s
  | .none s => .next s
/-- The next state of a step that has one. -/
def nextOr (s : State) : Result' → State
  | .next t => t
  | _ => s
/-- The state after a step of the table, given by its meaning. -/
def State.perform (s : State) (g : State → Result') : State := nextOr s (g s)
/-- The state after a step for each of some places. -/
def State.performEach (s : State) (ks : List Nat) (g : Nat → State → Result') : State := ks.foldl (fun s k => s.perform (g k)) s
/-- The places 0 to n - 1, the last first: a step that takes its place away moves none that is still to come. -/
def places (n : Nat) : List Nat := (List.range n).reverse
/-- The keys of a table. -/
def tableKeys {α : Type} (m : Map α) : List Nat := m.map (·.1)

/-- Sets or clears BRK of an installed word, as `cermos` does (03_formats.md R60). -/
def State.setBreak (s : State) (tk plane slot : Nat) (on : Bool) : State :=
  let x := (s.tile tk).slot (64 * plane + slot)
  if x.word = 0 then s
  else s.modTile tk fun t => t.modSlot (64 * plane + slot) fun y =>
    { y with word := if on then y.word ||| 0x80 else y.word &&& ~~~0x80 }

/-- The slots of a tile's active plane. -/
def Tile.activeSlots (t : Tile) : List Nat := (t.slots.filter fun e => e.1 / 64 = t.plane.toNat).map fun e => e.1 % 64
/-- A slot of the active plane fires, where its turn has come (02_tokens.md R43, R44). -/
def State.fireSlot (s : State) (tk slot : Nat) : State :=
  let t := nextOr s ((s.actTile tk slot).fetchSlot.go)
  { t with actor := s.actor }
/-- Each unit of a tile starts the firing whose turn it is (R44), in ascending slot order (R42). -/
def State.fireTile (s : State) (tk : Nat) : State := (s.tile tk).activeSlots.foldl (fun s k => s.fireSlot tk k) s
/-- Whether a slot of the active plane has a match that a breakpoint stops (21_faults_preemption.md R383). -/
def State.slotBreaks (s : State) (tk slot : Nat) : Bool :=
  let p := (s.tile tk).plane.toNat
  match s.slotOp tk p slot with
  | none => false
  | some (opc, f) => f.flags.brk && (s.breakMatch ⟨tk, p, slot, opc, f⟩).isSome
/-- The match that a tile takes in a cycle (R384). -/
def State.breakTile (s : State) (tk : Nat) : State :=
  s.performEach ((s.tile tk).activeSlots.filter (s.slotBreaks tk)) fun k => execBreakpointMatch tk k
/-- What leaves a tile's units in a cycle (11_ops_vector.md R214, 10_ops_routing.md R210): the vector results that are due, and a
narrow beat. -/
def State.emitUnits (s : State) (tk : Nat) : State :=
  (s.performEach (places (s.tile tk).vector.length) fun _ => execVectorResultEmit tk).perform (execNarrowBeatEmit tk)
/-- Whether an access goes on by itself in a cycle: its answer has come, it is ended by its fault, or it starts again
(12_ops_memory.md R237, R243, R248). -/
def AccessPhase.goesOn : AccessPhase → Bool
  | .answered => true
  | .faulted _ => true
  | .reissue => true
  | _ => false
/-- The accesses of a tile that go on, oldest first. -/
def State.emitAccesses (s : State) (tk : Nat) : State :=
  ((s.tile tk).accesses.filter fun a => a.phase.goesOn).foldl (fun s a =>
    match (s.tile tk).accesses.findIdx? fun b => b.id = a.id with
    | some k => s.perform (execMemoryResultArrival tk k)
    | none => s) s
/-- A tile's refused accesses that are due are sent again (08_tile_memory.md R170). -/
def State.resend (s : State) (tk : Nat) : State :=
  s.performEach (places (s.tile tk).refused.length) fun k => execFeResend tk k
/-- A tile in a cycle: what leaves its units, then a breakpoint's match, then its firings. -/
def State.tileWork (s : State) (tk : Nat) : State := ((((s.emitUnits tk).emitAccesses tk).resend tk).breakTile tk).fireTile tk
/-- The stall counters of every slot that has not fired (02_tokens.md R45). -/
def State.countStalls (s : State) (tk : Nat) : State := s.performEach (tableKeys (s.tile tk).slots) fun k => execStallCount tk k

/-- The tokens that wait at a cluster's exits, from the k-th on, oldest first: one that passes makes place for the next
(12_ops_memory.md R249). -/
def State.passExits (s : State) (ck : Nat) : Nat → Nat → State
  | 0, _ => s
  | fuel + 1, k =>
    let t := s.perform (execExitDelivery ck k)
    t.passExits ck fuel (if (t.cluster ck).exits.length < (s.cluster ck).exits.length then k else k + 1)
/-- The records whose join word the scheduler reads in this cycle (16_scheduling.md R310): those just appended, and every 1,024 cycles
all of them. -/
def State.joinsDue (s : State) (ck : Nat) : List Nat :=
  let k := s.cluster ck
  let ws := k.waitingRecords
  (places ws.length).filter fun i => s.cycles % 1024 = 1023 ||
    match ws[i]?.bind fun (w : Nat × Nat) => ((k.queues.getD w.1 Queue.reset).records)[w.2]? with
    | some r => r.state = .appended
    | none => false
/-- A launch whose conditions hold (R318, R319): its write-backs are sent once the first three hold, and it ends at most 64 cycles
after the last of them held. -/
def State.launchDue (s : State) (ck ctx : Nat) : State :=
  match s.launch? ck ctx with
  | none => s
  | some l =>
    if l.state != .running || !l.bound || !s.launchQuiet ck ctx l then s
    else if !l.writtenBack then s.launchSettle ck ctx l
    else if l.outstanding != 0 then s
    else
      match l.quiet with
      | none => s.modLaunch ck ctx fun l => { l with quiet := some s.cycles }
      | some c => if s.cycles - c < 64 then s else s.perform (execLaunchEnd ck ctx)
/-- A cluster in a cycle. -/
def State.clusterWork (s : State) (ck : Nat) : State :=
  let k := s.cluster ck
  let s := s.passExits ck (k.exits.length + k.reorders.length) 0
  let s := s.performEach (s.joinsDue ck) fun i => execJoinReread ck i
  let s := s.performEach (List.range 8) fun x => execWfeTimeout ck x
  (tableKeys (s.cluster ck).launches).foldl (fun s c => s.launchDue ck c) s

/-- Whether stall ages and fault times of a colour advance (21_faults_preemption.md R374, R377, R384). -/
def State.ages (s : State) (c : Colour) : Bool := !s.halted (s.colour c).world
/-- NCLK cycles in the FCLK cycle with number n: 2.5 on average (00_scope.md R2; log 17). -/
def nclkIn (n : Nat) : Nat := if n % 2 = 0 then 2 else 3
/-- An entry at the end of a cycle: a WAIT entry that could fire, or that lacks a partner, grows older; one in
FAULT state, or one that a splice or a snapshot holds, keeps age zero (R50, R51; 16_scheduling.md R322; R380). What the 21-bit counter
of R38 does at its end the manual does not say: it stays there (DESIGN CHOICE, log 125). -/
def State.ageEntry (s : State) (tk plane : Nat) (e : Entry) : Entry :=
  if e.state != .wait || !s.eligible tk plane e.token.tag.slot.toNat e then { e with age := 0 }
  else if s.ages e.token.tag.colour then { e with age := min (e.age + 1) (2 ^ 21 - 1) }
  else e
/-- A tile at the end of a cycle. -/
def State.ageTile (s : State) (tk : Nat) (t : Tile) : Tile :=
  { t with
    store := t.store.map fun e => (e.1, s.ageEntry tk t.plane.toNat e.2)
    parked := t.parked.map fun p => if s.ages p.tag.colour then { p with age := p.age + 1 } else p }
/-- A cluster at the end of a cycle (07_network.md R146; 12_ops_memory.md R250); the credits that came in it take effect (R48). -/
def State.ageCluster (s : State) (k : Cluster) : Cluster :=
  { k.creditsTaken with
    flits := (List.range k.flits.length).filterMap fun i => (k.flits[i]?).map (k.ageFlit s.cycles i)
    reorders := k.reorders.map fun r =>
      if s.ages r.colour then { r with held := r.held.map fun h => (h.1, h.2 + 1) } else r }
/-- A slice at the end of a cycle: the timers of its hold entries count down (06_slices.md R136). -/
def ageSlice (n : Nat) (l : Slice) : Slice :=
  { l with holds := l.holds.map fun h => { h with timer := h.timer - nclkIn n } }
/-- A die at the end of a cycle: fault time does not run while the colour's world stands still (R374). -/
def State.ageDie (s : State) (d : Die) : Die :=
  { d with pager := d.pager.map fun p => if s.ages p.colour then p else { p with raised := p.raised + 1 } }
/-- Everything that a cycle makes older. -/
def State.age (s : State) : State :=
  { s with
    tiles := s.tiles.map fun e => (e.1, s.ageTile e.1 e.2)
    clusters := s.clusters.map fun e => (e.1, s.ageCluster e.2)
    slices := s.slices.map fun e => (e.1, ageSlice s.cycles e.2)
    dies := s.dies.map fun e => (e.1, s.ageDie e.2) }

/-- What of a tile has come to its limit at the end of a cycle: an entry's stall age (R50), a parked access (08_tile_memory.md R170), the
drain and the exchange of a swap (16_scheduling.md R329). -/
def State.tileExpiries (s : State) (tk : Nat) : State :=
  let s := s.perform (execStallAgeExpiry tk)
  let s := s.performEach (places (s.tile tk).parked.length) fun k => execFeTimeout tk k
  match (s.tile tk).swap with
  | none => s
  | some w =>
    let s := s.perform (execSwapDrainExpiry tk)
    if w.exchange.all fun c => decide (64 ≤ s.cycles - c) then s.perform (execPlaneSwap tk) else s
/-- What of a cluster has come to its limit: held exit tokens (12_ops_memory.md R250), flits that are promoted (07_network.md R146). -/
def State.clusterExpiries (s : State) (ck : Nat) : State :=
  let s := s.performEach (List.range (s.cluster ck).reorders.length) fun k => execExitReorderAgeRelease ck k
  s.performEach (List.range (s.cluster ck).flits.length) fun k => execFlitPromotion ck k
/-- What of a slice has come to its limit: group timers, and fills that found their line locked (06_slices.md R136); the epochs that
are over (R129). -/
def State.sliceExpiries (s : State) (sk : Nat) : State :=
  let s := s.performEach (places (s.slice sk).holds.length) fun k => execGroupTimerExpiry sk k
  s.performEach (List.range (s.sclk / 2 ^ 20 - (s.slice sk).epochs)) fun _ => execSliceEpochEnd sk
/-- What of a die has come to its limit: fault times (21_faults_preemption.md R374). -/
def State.dieExpiries (s : State) (d : Nat) : State := s.performEach (places (s.die d).pager.length) fun k => execFaultTimeExpiry d k
/-- The scans that are over (R377), and the removals that have come to their millisecond, 800,000 FCLK cycles (24_trust.md R399). -/
def State.worldExpiries (s : State) (w : Nat) : State :=
  let s := s.perform (execFreezeScanComplete w)
  match Map.get? s.frozen w with
  | some x => if s.removals.contains w && decide (799999 ≤ s.cycles - x.since) then s.perform (execRemovalComplete w) else s
  | none => s
/-- The clocks of lease holders advance every 16 FCLK cycles (06_slices.md R123), so that no lease outlives its 4,096 (R126). -/
def State.advanceClocks (s : State) : State :=
  if (s.cycles + 1) % 16 != 0 then s
  else
    let s := s.performEach (tableKeys s.tiles) fun tk => execPtsAdvance (.tile tk)
    (tableKeys s.clusters).foldl (fun s ck => s.performEach (List.range 8) fun x => execPtsAdvance (.context ck x)) s
/-- The window boundary of the corrected-error counts (25_reliability.md R411), at the first cycle of a window. -/
def State.windowsTurn (s : State) : State := if (List.range 4).any s.windowEdge then s.perform execErrorWindowBoundary else s
/-- THE END OF AN FCLK CYCLE: what is due in it. -/
def State.endCycle (s : State) : State :=
  let s := (tableKeys s.tiles).foldl State.tileWork s
  let s := (tableKeys s.clusters).foldl State.clusterWork s
  let s := (tableKeys s.tiles).foldl State.countStalls s
  let s := s.age
  let s := (tableKeys s.tiles).foldl State.tileExpiries s
  let s := (tableKeys s.clusters).foldl State.clusterExpiries s
  let s := (tableKeys s.slices).foldl State.sliceExpiries s
  let s := (tableKeys s.dies).foldl State.dieExpiries s
  (tableKeys s.frozen).foldl State.worldExpiries s.advanceClocks

/-- The edge port at a boundary tile's side (07_network.md R144). -/
def portAt (ti out : Nat) : Nat := if out = 0 then ti else if out = 2 then 16 + ti % 16 else 32 + ti / 16 - 2
/-- What a mesh flit brings to the tile or the edge port where it leaves the mesh (R142 to R144): a token by TOKEN_ARRIVAL alone. -/
def State.handOver (s : State) (ck : Nat) (f : Flit) : State :=
  match f.cargo with
  | .token _ _ _ _ _ => s
  | .exit x last => if last then s.modCluster ck fun k => { k with exits := k.exits ++ [x] } else s
  | .request r => s.sendRequest (portStop ck (portAt f.dst f.out)) r
  | .answer a => s.takeAnswer a
  | .remote tk id => s.modTile tk fun t =>
      { t with accesses := t.accesses.map fun a => if a.id = id then { a with phase := .bank } else a }
  | .reply tk id => s.takeReply tk id
  | .credit c colour => s.modCluster c.ck fun k => { k with credits := k.credits ++ [(c.port, colour)] }
  | .marker m =>
    let n := (s.cluster ck).markers.length
    (s.modCluster ck fun k => { k with markers := k.markers ++ [m] }).perform (execMarkerArrival ck n)
  | .splice x last =>
    let n := (s.cluster ck).splices.length
    if last then (s.modCluster ck fun k => { k with splices := k.splices ++ [x] }).perform (execSpliceToken ck n) else s
  | .ask a => s.modCluster ck fun k => { k with asks := k.asks ++ [a] }
  | .fault t => s.askPager t
  | .config r => s.modDie (dieOf ck) fun d => { d with cfgreqs := d.cfgreqs ++ [r] }
/-- The outputs of a cluster's routers at which flits stand, by router, output and plane. -/
def Cluster.outputs (k : Cluster) : List (Nat × Nat × Bool) :=
  k.flits.foldl (fun l f => if l.contains (f.router, f.output, f.narrow) then l else l ++ [(f.router, f.output, f.narrow)]) []
/-- A tile takes the flit that its router's local output grants on a plane (R145). -/
def State.meshLocal (ck : Nat) (s : State) (o : Nat × Nat × Bool) : State :=
  match s.meshGrant ck o.1 o.2.1 o.2.2 with
  | none => s
  | some (k, f) =>
    match f.cargo with
    | .token _ _ _ _ _ => s.perform (execTokenArrival ck k)
    | _ => (s.meshTake ck k f).handOver ck f
/-- What another output grants in a cycle: one flit, or two on different channels at an edge link (R144, R145). -/
def State.meshMoves (s : State) (ck : Nat) (o : Nat × Nat × Bool) : List Flit :=
  match s.meshGrant ck o.1 o.2.1 o.2.2 with
  | none => []
  | some (k, f) =>
    if edgeOut o.1 o.2.1 then
      match (s.meshTake ck k f).meshGrant ck o.1 o.2.1 o.2.2 with
      | some (_, g) => [f, g]
      | none => [f]
    else [f]
/-- A granted flit goes on to the next router, or leaves the mesh by an edge port. -/
def State.meshGo (ck : Nat) (s : State) (f : Flit) : State :=
  match (s.cluster ck).flits.findIdx? (· = f) with
  | none => s
  | some i => if f.atGoal then (s.meshTake ck i f).handOver ck f else s.meshHop ck i f
/-- The mesh of a cluster in a cycle: every output grants what it may by the buffers as they stand (R145), tiles first. -/
def State.meshStep (s : State) (ck : Nat) : State :=
  let outs := (s.cluster ck).outputs
  let moves := (outs.filter fun o => o.2.1 != 4).flatMap (s.meshMoves ck)
  moves.foldl (State.meshGo ck) ((outs.filter fun o => o.2.1 = 4).foldl (State.meshLocal ck) s)

/-- The places of the ring network at which flits stand. -/
def State.netPlaces (s : State) : List NetPlace :=
  s.net.foldl (fun l f => if l.contains f.place then l else l ++ [f.place]) []
/-- One flit of a place moves on, or leaves the rings. -/
def State.netAdvance (now : Nat) (s : State) (p : NetPlace) : State :=
  match s.netMove now p with
  | (s, some f) => s.netArrive f
  | (s, none) => s
/-- The ring network in an NCLK cycle (07_network.md R148 to R152): the slices send their write-backs, and every place forwards one
flit. -/
def State.netStep (s : State) (now : Nat) : State :=
  let s := (tableKeys s.slices).foldl State.sendBacks s
  s.netPlaces.foldl (State.netAdvance now) s

/-- A tile's slots that are closed install their pending words in the first cycle after, and the successor's registers are written
(16_scheduling.md R321, R322). -/
def State.spliceWork (s : State) (tk : Nat) : State :=
  let ks := ((s.tile tk).slots.filter fun e => e.2.pending.isSome).map (·.1)
  (s.performEach ks fun k => execSpliceInstall tk k).perform (execSpliceRegisterWrite tk)
/-- The bindings whose port has fallen free become active, those of earlier `sspec` first (R315). -/
def State.activations (s : State) (ck : Nat) : State :=
  s.performEach (List.range (s.cluster ck).bindings.length) fun k => execBindingActivate ck k
/-- THE START OF AN FCLK CYCLE: the array firings whose last busy cycle is over end (13_ops_matrix.md R253), the scratchpads' state is
that of R257, splices install, bindings become active, and the meshes and rings move. -/
def State.startCycle (s : State) : State :=
  let s := ((tableKeys s.tiles).filter fun tk => (s.tile tk).array.isSome || (s.tile tk).trail != []).foldl
    (fun s tk => s.perform (execArrayFiringEnd tk)) s
  let s := { s with tiles := s.tiles.map fun e => (e.1, { e.2 with started := e.2.scratch }) }
  let s := (tableKeys s.tiles).foldl State.spliceWork s
  let s := (tableKeys s.clusters).foldl State.activations s
  let s := (tableKeys s.clusters).foldl State.meshStep s
  let s := (List.range (nclkIn s.cycles)).foldl (fun s i => s.netStep (s.nclk + i)) s
  s.windowsTurn
/-- AN FCLK CYCLE ENDS and the next begins. -/
def State.cycle (s : State) : State :=
  let s := s.endCycle
  ({ s with timebase := s.timebase + 1, cycles := s.cycles + 1 } : State).startCycle

end Sys2Proof.Machine
end

