-- ==== Sys2Proof/Machine/Step.lean ====
section
/-!
DEFINITION. One step of the device (log 3): the first move of the agenda, or the end of an FCLK cycle where
the agenda is empty.
-/
namespace Sys2Proof.Machine

/-- One move. -/
def State.move (s : State) : Move → Host.Outcome State Fault Refusal
  | .cycle => .next s.cycle
  | .issue ck ctx => (s.act ck ctx).fetchCore.go
  | .fire tk slot => (s.actTile tk slot).fetchSlot.go
  | .event i => if isStep i then exec i s else .next s
  | .setBreak tk plane slot on => .next (s.setBreak tk plane slot on)
/-- One step of the device. -/
def step (s : State) : Host.Outcome State Fault Refusal :=
  match s.agenda with
  | [] => .next s.cycle
  | m :: rest => { s with agenda := rest }.move m
/-- The state with an instruction stored where the next step fetches it (log 15). -/
def State.withFetchWord (s : State) (nbits w : Nat) : State := s.place nbits w

end Sys2Proof.Machine
end

