-- ==== Sys2Proof/Safety.lean ====
section
/-!
DEFINITION. What counts as a safe run, and the terms that the claims use: a step that changes the acting context alone,
a step that writes one of its registers, a firing that may start, and what a firing leaves alone.
-/
namespace Sys2Proof

/-- `k` steps from a state reach a state: no step ends in a fault or a refusal. -/
def runsSafely (k : Nat) (s : Machine.State) : Prop := ∃ t, core.run k s = .next t

namespace Machine

/-- Nothing but the acting context differs: every other field of the state, every other part of its cluster, every other
context, and every byte of memory are as before. -/
structure OnlyMe (s t : State) : Prop where
  rest : t = { s with clusters := t.clusters }
  others : ∀ ck x, ck ≠ s.actor.ck ∨ x ≠ s.actor.ctx → t.context ck x = s.context ck x
  clusters : ∀ ck, t.cluster ck = { s.cluster ck with ctxs := (t.cluster ck).ctxs }
  memory : ∀ a, t.peek a = s.peek a

/-- The step of an instruction that writes `v` to register `xd` and goes on at `pc`: x0 keeps reading zero, every other
register keeps its value, the context's other fields stay, and nothing else changes. -/
structure WritesReg (s t : State) (xd : Reg) (v pc : Word) : Prop where
  regs : ∀ r, t.reg r = if r = 0 then 0 else if r = xd then v else s.reg r
  me : t.me = { s.me with regs := t.me.regs, pc := pc, released := false, armed := false, park := .none }
  only : OnlyMe s t

/-- The step of an instruction that goes on at `pc` and writes no register. -/
structure GoesTo (s t : State) (pc : Word) : Prop where
  me : t.me = { s.me with pc := pc, released := false, armed := false, park := .none }
  only : OnlyMe s t

end Machine
end Sys2Proof
end

