-- ==== Sys2Proof/Certificates/Slice0/Obligations.lean ====
section
/-!
DEFINITION. The statements for the provers, one `def Obligations.<Name> : Prop` each, with the tables of instructions that
several of them quantify over.
-/
open Sys2Proof Sys2Proof.Machine
/-! The control core: integer instructions, branches and jumps (14_control_core.md R272, R280, R281) -/

/-- The integer instructions of two registers, with what R280 says each computes: `s(x)` is `x.toInt`, `u(x)` is `x.toNat`,
and a shift count is taken modulo 64. -/
def Sys2Proof.Claims.integerOps : List ((Reg → Reg → Reg → Instr) × (Word → Word → Word)) :=
  [(.add, fun a b => BitVec.ofInt 64 (a.toInt + b.toInt)), (.sub, fun a b => BitVec.ofInt 64 (a.toInt - b.toInt)),
   (.mul, fun a b => BitVec.ofInt 64 (a.toInt * b.toInt)),
   (.mulh, fun a b => BitVec.ofInt 64 (Int.fdiv (a.toInt * b.toInt) (2 ^ 64))),
   (.mulhu, fun a b => BitVec.ofNat 64 (a.toNat * b.toNat / 2 ^ 64)),
   (.div, fun a b => if b.toInt = 0 then 0 else BitVec.ofInt 64 (Int.tdiv a.toInt b.toInt)),
   (.divu, fun a b => if b.toNat = 0 then 0 else BitVec.ofNat 64 (a.toNat / b.toNat)),
   (.rem, fun a b => if b.toInt = 0 then a else BitVec.ofInt 64 (Int.tmod a.toInt b.toInt)),
   (.remu, fun a b => if b.toNat = 0 then a else BitVec.ofNat 64 (a.toNat % b.toNat)),
   (.and, fun a b => a &&& b), (.or, fun a b => a ||| b), (.xor, fun a b => a ^^^ b),
   (.sll, fun a b => BitVec.ofNat 64 (a.toNat * 2 ^ (b.toNat % 64))),
   (.srl, fun a b => BitVec.ofNat 64 (a.toNat / 2 ^ (b.toNat % 64))),
   (.sra, fun a b => BitVec.ofInt 64 (Int.fdiv a.toInt (2 ^ (b.toNat % 64)))),
   (.slt, fun a b => if a.toInt < b.toInt then 1 else 0), (.sltu, fun a b => if a.toNat < b.toNat then 1 else 0)]

/-- The integer instructions of a register and an immediate, which is sign-extended (R280). -/
def Sys2Proof.Claims.immediateOps : List ((Reg → Reg → BitVec 32 → Instr) × (Word → Int → Word)) :=
  [(.addi, fun a i => BitVec.ofInt 64 (a.toInt + i)), (.andi, fun a i => a &&& BitVec.ofInt 64 i),
   (.ori, fun a i => a ||| BitVec.ofInt 64 i), (.xori, fun a i => a ^^^ BitVec.ofInt 64 i),
   (.slli, fun a i => BitVec.ofNat 64 (a.toNat * 2 ^ (i % 64).toNat)),
   (.srli, fun a i => BitVec.ofNat 64 (a.toNat / 2 ^ (i % 64).toNat)),
   (.srai, fun a i => BitVec.ofInt 64 (Int.fdiv a.toInt (2 ^ (i % 64).toNat))),
   (.slti, fun a i => if a.toInt < i then 1 else 0)]

/-- R280, R272 and R79, register forms: each completes, writes what R280 says into xd (nothing into x0), goes on 8 bytes
further, and changes nothing else. -/
def Sys2Proof.Claims.IntegerRegisterResults : Prop :=
  ∀ e ∈ Claims.integerOps, ∀ (s : State) (xd xa xb : Reg), s.actor.ctx < 8 →
    ∃ t, exec (e.1 xd xa xb) s = .next t ∧ WritesReg s t xd (e.2 (s.reg xa) (s.reg xb)) (s.me.pc + 8)

/-- R280, immediate forms, `li` and `lih`. -/
def Sys2Proof.Claims.IntegerImmediateResults : Prop :=
  ∀ (s : State) (xd xa : Reg) (imm : BitVec 32), s.actor.ctx < 8 →
    (∀ e ∈ Claims.immediateOps,
      ∃ t, exec (e.1 xd xa imm) s = .next t ∧ WritesReg s t xd (e.2 (s.reg xa) imm.toInt) (s.me.pc + 8)) ∧
    (∃ t, exec (.li xd imm) s = .next t ∧ WritesReg s t xd (BitVec.ofInt 64 imm.toInt) (s.me.pc + 8)) ∧
    (∃ t, exec (.lih xd imm) s = .next t ∧
      WritesReg s t xd (BitVec.ofNat 64 (imm.toNat * 2 ^ 32 + (s.reg xd).toNat % 2 ^ 32)) (s.me.pc + 8))

/-- `Claims.IntegerRegisterResults` and `Claims.IntegerImmediateResults` together. -/
def Obligations.IntegerInstructionsCompute : Prop :=
  Claims.IntegerRegisterResults ∧ Claims.IntegerImmediateResults

/-- The conditional branches with the condition that each tests (R281). -/
def Sys2Proof.Claims.branches : List ((Reg → Reg → BitVec 32 → Instr) × (Word → Word → Prop)) :=
  [(.beq, fun a b => a = b), (.bne, fun a b => a ≠ b), (.blt, fun a b => a.toInt < b.toInt),
   (.bge, fun a b => b.toInt ≤ a.toInt), (.bltu, fun a b => a.toNat < b.toNat), (.bgeu, fun a b => b.toNat ≤ a.toNat)]

/-- R281, the conditional branches: taken, the context goes on at PC + 8 * IMM32; not taken, at PC + 8; nothing else
changes. -/
def Sys2Proof.Claims.ConditionalBranches : Prop :=
  ∀ e ∈ Claims.branches, ∀ (s : State) (xa xb : Reg) (imm : BitVec 32), s.actor.ctx < 8 →
    ∃ t, exec (e.1 xa xb imm) s = .next t ∧
      (e.2 (s.reg xa) (s.reg xb) → GoesTo s t (BitVec.ofInt 64 (s.me.pc.toNat + 8 * imm.toInt))) ∧
      (¬ e.2 (s.reg xa) (s.reg xb) → GoesTo s t (s.me.pc + 8))

/-- R281, `jal` and `jalr`: the link register gets PC + 8 and the context goes on at the target; `jalr` reads its base
before it writes xd, and a target that is no multiple of 8 raises MISALIGNED_TARGET with xd unchanged. -/
def Sys2Proof.Claims.JumpsLink : Prop :=
  ∀ (s : State) (xd xa : Reg) (imm : BitVec 32), s.actor.ctx < 8 →
    (∃ t, exec (.jal xd imm) s = .next t ∧
      WritesReg s t xd (s.me.pc + 8) (BitVec.ofInt 64 (s.me.pc.toNat + 8 * imm.toInt))) ∧
    (∀ target : Word, target = BitVec.ofInt 64 ((s.reg xa).toNat + imm.toInt) →
      (target.toNat % 8 = 0 → ∃ t, exec (.jalr xd xa imm) s = .next t ∧ WritesReg s t xd (s.me.pc + 8) target) ∧
      (target.toNat % 8 ≠ 0 → exec (.jalr xd xa imm) s = .next (s.takeTrap 0x02 0 0 0)))

/-- R281, a target outside colour-virtual space: the fetch of an aligned PC at or above 2^47 traps MEMORY with code VA_RANGE (R278), for a colour that is not poisoned (R375). -/
def Sys2Proof.Claims.FarTargetsFault : Prop :=
  ∀ s : State, s.canIssue = true → s.me.pc.toNat % 8 = 0 → 2 ^ 47 ≤ s.me.pc.toNat → (s.colour s.me.colour).poisoned = false →
    ∃ t : State, t = { s with clusters := t.clusters } ∧ t.me = s.me ∧ s.fetchCore = .none (t.memTrap 0x14 s.me.pc.toNat)
/-! The control core: loads, stores, atomics and fences (14_control_core.md R282 to R285) -/

/-- `Claims.ConditionalBranches` and `Claims.JumpsLink` and `Claims.FarTargetsFault` together. -/
def Obligations.ControlTransfers : Prop :=
  Claims.ConditionalBranches ∧ Claims.JumpsLink ∧ Claims.FarTargetsFault

/-- The loads: bytes read, and how the value is extended to 64 bits (R283). -/
def Sys2Proof.Claims.loads :
    List ((Reg → Reg → BitVec 32 → Option Scope → Instr) × Nat × (Nat → Word)) :=
  [(.ldxB, 1, fun v => BitVec.ofInt 64 (if v < 2 ^ 7 then v else (v : Int) - 2 ^ 8)), (.ldxBu, 1, fun v => BitVec.ofNat 64 v),
   (.ldxH, 2, fun v => BitVec.ofInt 64 (if v < 2 ^ 15 then v else (v : Int) - 2 ^ 16)), (.ldxHu, 2, fun v => BitVec.ofNat 64 v),
   (.ldxW, 4, fun v => BitVec.ofInt 64 (if v < 2 ^ 31 then v else (v : Int) - 2 ^ 32)), (.ldxWu, 4, fun v => BitVec.ofNat 64 v),
   (.ldxD, 8, fun v => BitVec.ofNat 64 v)]
/-- The stores: bytes written (R283). -/
def Sys2Proof.Claims.stores : List ((Reg → Reg → BitVec 32 → Option Scope → Instr) × Nat) :=
  [(.stxB, 1), (.stxH, 2), (.stxW, 4), (.stxD, 8)]
/-- The atomics, with the new value from the old value, the value of xb, and the value of xd (R284). -/
def Sys2Proof.Claims.atomics : List ((Reg → Reg → Reg → Option Scope → Instr) × (Word → Word → Word → Word)) :=
  [(.amoAdd, fun old b _ => BitVec.ofInt 64 (old.toInt + b.toInt)), (.amoSwap, fun _ b _ => b),
   (.amoCas, fun old b d => if old = d then b else old)]
/-- The address of a load or store: Wrap(s(xa) + imm, 64) (R282). -/
def Sys2Proof.Claims.dataAddress (s : State) (xa : Reg) (imm : BitVec 32) : Nat :=
  (BitVec.ofInt 64 ((s.reg xa).toInt + imm.toInt)).toNat
/-- The number that n bytes of a memory hold, the first the lowest (01_notation.md R21). -/
def Sys2Proof.Claims.littleEndian (m : Memory) (a : Nat) : Nat → Nat
  | 0 => 0
  | n + 1 => (Memory.read m a).toNat + 256 * Claims.littleEndian m (a + 1) n
/-- An address in the cluster's scratchpad window that the acting context may access: tile and offset (R282;
08_tile_memory.md R160). -/
def Sys2Proof.Claims.InScratchpad (s : State) (a n tk off : Nat) : Prop :=
  a < 2 ^ 47 ∧ a % n = 0 ∧ a / 2 ^ 24 = 0x7FFFFF ∧ s.spCheck s.actor.ck s.me.colour (a % 2 ^ 24) n = .ok (tk, off)
/-- A colour-virtual address that the acting context may access: the state once it is translated, and the translation. -/
def Sys2Proof.Claims.InMemory (s : State) (a n : Nat) (rd wr : Bool) (s1 : State) (x : Xlat) : Prop :=
  a < 2 ^ 47 ∧ a % n = 0 ∧ a / 2 ^ 24 ≠ 0x7FFFFF ∧
    s.xlateCore s.actor.ck s.me.colour a rd wr = (s1, .ok x) ∧ x.device = false
/-- No earlier request of the acting context to the line's home is under way, and the line is free (R121). -/
def Sys2Proof.Claims.HomeFree (s : State) (x : Xlat) : Prop :=
  s.ownEarlier (.context s.actor.ck s.actor.ctx) x.sk = false ∧ s.lineBusy s.actor.ck x.sk x.pa = false

/-- Loads from scratchpad (R282, R283): xd gets the extended bytes, and nothing else changes. -/
def Sys2Proof.Claims.LoadsFromScratchpad : Prop :=
  ∀ e ∈ Claims.loads, ∀ (s : State) (xd xa : Reg) (imm : BitVec 32) (sc : Option Scope) (tk off : Nat),
    s.actor.ctx < 8 → Claims.InScratchpad s (Claims.dataAddress s xa imm) e.2.1 tk off →
    (∀ g ∈ granulesOf off e.2.1, g ∉ (s.tile tk).poison) →
    ∃ t, exec (e.1 xd xa imm sc) s = .next t ∧
      WritesReg s t xd (e.2.2 (Claims.littleEndian (s.tile tk).scratch off e.2.1)) (s.me.pc + 8)

/-- Loads from memory (R283, 06_slices.md R124): a load reads the valid leased copy of the line, else the line at its home,
whose lease it keeps. It writes xd alone among the registers and stores nothing: no request is sent, and no scratchpad, tile or
special register of the context changes. -/
def Sys2Proof.Claims.LoadsFromMemory : Prop :=
  ∀ e ∈ Claims.loads, ∀ (s s1 : State) (xd xa : Reg) (imm : BitVec 32) (sc : Option Scope) (x : Xlat),
    s.actor.ctx < 8 → Claims.InMemory s (Claims.dataAddress s xa imm) e.2.1 true false s1 x →
    (∀ l, s.me.leased x.pa x.key = some l → l.poison = 0 →
      ∃ t, exec (e.1 xd xa imm sc) s = .next t ∧
        t.me = { s.me.setReg xd (e.2.2 (bytesNat (lineBytes l.data (x.pa % 256) e.2.1))) with
                 pc := s.me.pc + 8, released := false, armed := false, park := .none } ∧
        t.tiles = s.tiles ∧ t.requests = s.requests ∧ t.slices = s1.slices) ∧
    (s.me.leased x.pa x.key = none → Claims.HomeFree s1 x → ∀ r, r = s1.leaseRead x.sk x.pa x.key s.me.world s.me.pts →
      r.2.2.1 = 0 →
      ∃ t, exec (e.1 xd xa imm sc) s = .next t ∧
        t.me = { s.me.setReg xd (e.2.2 (bytesNat (lineBytes r.2.1 (x.pa % 256) e.2.1))) with
                 pc := s.me.pc + 8, released := false, armed := false, park := .none, pts := r.2.2.2.2.2
                 leases := (⟨x.pa / 256 * 256, x.sk, x.key, r.2.2.2.2.1, r.2.2.1, r.2.1⟩ ::
                   s.me.leases.filter fun l => l.pa != x.pa / 256 * 256).take 32 } ∧
        t.tiles = s.tiles ∧ t.requests = s.requests ∧ t.slices = r.1.slices ∧ t.dram = r.1.dram)

/-- `Claims.LoadsFromScratchpad` and `Claims.LoadsFromMemory` together. -/
def Obligations.LoadsAnswerWithTheBytes : Prop :=
  Claims.LoadsFromScratchpad ∧ Claims.LoadsFromMemory

/-- Stores to scratchpad (R282, R283): the bytes of xb stand at the tile's bank, the lowest first; every other byte of that
scratchpad, every other tile and every register is as before. The address is the one the meaning computes. -/
def Sys2Proof.Claims.StoresToScratchpad : Prop :=
  ∀ e ∈ Claims.stores, ∀ (s : State) (xb xa : Reg) (imm : BitVec 32) (sc : Option Scope) (tk off : Nat),
    s.actor.ctx < 8 → Claims.InScratchpad s (Claims.dataAddress s xa imm) e.2 tk off → (s.tile tk).scratch.wf = true →
    ∃ t, exec (e.1 xb xa imm sc) s = .next t ∧
      t.me = { s.me with pc := s.me.pc + 8, released := false, armed := false, park := .none } ∧
      (∀ i, i < e.2 → Memory.read (t.tile tk).scratch (off + i) = BitVec.ofNat 8 ((s.reg xb).toNat / 256 ^ i)) ∧
      (∀ a, a < off ∨ off + e.2 ≤ a → Memory.read (t.tile tk).scratch a = Memory.read (s.tile tk).scratch a) ∧
      (∀ k, k ≠ tk → t.tile k = s.tile k) ∧ (t.tile tk).regs = (s.tile tk).regs ∧ (t.tile tk).full = (s.tile tk).full ∧
      t = { s with clusters := t.clusters, tiles := t.tiles } ∧ ∀ a, t.peek a = s.peek a

/-- Stores to memory (R283, R125; 07_network.md R154; 01_notation.md R16): the store is sent to the home slice as one request, in
the network's request class, under the scope that it names or else its page's, and the context goes on; the touched-slice mask has
the slice; the context's own copy of the line takes the bytes; no byte of memory changes until the request is performed there
(`Obligations.SlicesServe`). -/
def Sys2Proof.Claims.StoresToMemory : Prop :=
  ∀ e ∈ Claims.stores, ∀ (s s1 : State) (xb xa : Reg) (imm : BitVec 32) (sc : Option Scope) (x : Xlat),
    s.actor.ctx < 8 → Claims.InMemory s (Claims.dataAddress s xa imm) e.2 false true s1 x →
    ∃ t r f, exec (e.1 xb xa imm sc) s = .next t ∧ t.net = s.net ++ [f] ∧ f.cargo = .request r ∧ f.cls = 0 ∧
      f.goal = sliceStop x.sk ∧ t.requests = s.requests ∧
      r.src = .context s.actor.ck s.actor.ctx ∧ r.sk = x.sk ∧ r.pa = x.pa ∧ r.key = x.key ∧ r.colour = s.me.colour ∧
      r.scope = (match sc with | some c => Sys2Proof.Decode.scopeCode c | none => x.scope) ∧
      r.kind = .write (pairsAt (x.pa % 256) (natBytes e.2 (s.reg xb).toNat)) false ∧
      t.me.touched = touch s.me.touched (dieOf s.actor.ck) x.sk ∧ t.me.pc = s.me.pc + 8 ∧ t.me.regs = s.me.regs ∧
      (∀ l ∈ t.me.leases, l.pa = x.pa / 256 * 256 → l.key = x.key → ∃ l0 ∈ s.me.leases,
        l.data = lineSet l0.data (pairsAt (x.pa % 256) (natBytes e.2 (s.reg xb).toNat))) ∧
      t.tiles = s.tiles ∧ t.slices = s1.slices ∧ t.dram = s1.dram

/-- `Claims.StoresToScratchpad` and `Claims.StoresToMemory` together. -/
def Obligations.StoresWriteOnlyTheirBytes : Prop :=
  Claims.StoresToScratchpad ∧ Claims.StoresToMemory

/-- The atomics on a scratchpad word (R284): xd gets the old value and the word the new one; every other byte and register is as
before. -/
def Sys2Proof.Claims.AtomicsOnScratchpad : Prop :=
  ∀ e ∈ Claims.atomics, ∀ (s : State) (xd xb xa : Reg) (sc : Option Scope) (tk off : Nat) (old : Word),
    s.actor.ctx < 8 → Claims.InScratchpad s (s.reg xa).toNat 8 tk off → (s.tile tk).scratch.wf = true →
    (∀ g ∈ granulesOf off 8, g ∉ (s.tile tk).poison) →
    old = BitVec.ofNat 64 (Claims.littleEndian (s.tile tk).scratch off 8) →
    ∃ t, exec (e.1 xd xb xa sc) s = .next t ∧
      t.me = { s.me.setReg xd old with pc := s.me.pc + 8, released := false, armed := false, park := .none } ∧
      (∀ i, i < 8 → Memory.read (t.tile tk).scratch (off + i) =
        BitVec.ofNat 8 ((e.2 old (s.reg xb) (s.reg xd)).toNat / 256 ^ i)) ∧
      (∀ a, a < off ∨ off + 8 ≤ a → Memory.read (t.tile tk).scratch a = Memory.read (s.tile tk).scratch a) ∧
      (∀ k, k ≠ tk → t.tile k = s.tile k) ∧ t = { s with clusters := t.clusters, tiles := t.tiles }

/-- The atomics on a word of memory (R284, R125): one access at the line's ordering point. xd gets the old value, the line at its
home takes the bytes of the new one with the times of one write, and the context drops its copy. -/
def Sys2Proof.Claims.AtomicsOnMemory : Prop :=
  ∀ e ∈ Claims.atomics, ∀ (s s1 : State) (xd xb xa : Reg) (sc : Option Scope) (x : Xlat),
    s.actor.ctx < 8 → Claims.InMemory s (s.reg xa).toNat 8 true true s1 x → Claims.HomeFree s1 x →
    ∀ s2 d old w, s2 = s1.modMe (fun k => { k.dropLease x.pa with touched := touch k.touched (dieOf s.actor.ck) x.sk }) →
      d = (s2.plainRead x.sk x.pa x.key s.me.world).2 → d.2 = 0 →
      old = BitVec.ofNat 64 (bytesNat (lineBytes d.1 (x.pa % 256) 8)) →
      w = s2.lineWrite x.sk x.pa x.key s.me.world
        (pairsAt (x.pa % 256) (natBytes 8 (e.2 old (s.reg xb) (s.reg xd)).toNat)) false s.me.pts →
      ∃ t, exec (e.1 xd xb xa sc) s = .next t ∧
        t.me = { s.me.setReg xd old with
                 pc := s.me.pc + 8, released := false, armed := false, park := .none, pts := w.2
                 leases := s.me.leases.filter fun l => l.pa != x.pa / 256 * 256
                 touched := touch s.me.touched (dieOf s.actor.ck) x.sk } ∧
        t.slices = w.1.slices ∧ t.dram = w.1.dram ∧ t.tiles = s.tiles ∧ t.requests = s.requests

/-- `Claims.AtomicsOnScratchpad` and `Claims.AtomicsOnMemory` together. -/
def Obligations.AtomicsReadThenWrite : Prop :=
  Claims.AtomicsOnScratchpad ∧ Claims.AtomicsOnMemory

/-- Where a data access faults (R282, R278): an address at or above 2^47 traps MEMORY with code VA_RANGE, and one that is not
aligned to its size traps MEMORY with code ALIGN; the state is that of the trap. -/
def Obligations.DataAddressFaults : Prop :=
  ∀ (s : State) (xd xa : Reg) (imm : BitVec 32) (sc : Option Scope) (a : Nat), a = Claims.dataAddress s xa imm →
    (a ≥ 2 ^ 47 →
      (∀ e ∈ Claims.loads, exec (e.1 xd xa imm sc) s = .next (s.memTrap 0x14 a)) ∧
      (∀ e ∈ Claims.stores, exec (e.1 xd xa imm sc) s = .next (s.memTrap 0x14 a))) ∧
    (a < 2 ^ 47 →
      (∀ e ∈ Claims.loads, a % e.2.1 ≠ 0 → exec (e.1 xd xa imm sc) s = .next (s.memTrap 0x1B a)) ∧
      (∀ e ∈ Claims.stores, a % e.2 ≠ 0 → exec (e.1 xd xa imm sc) s = .next (s.memTrap 0x1B a)))

/-- `fence`, `rel` and `acq` (R285; 07_network.md R155; 06_slices.md R124). At SELF and TILE each completes at once; at a
wider scope `acq` drops the leased copies, and `rel` and `fence` complete once nothing that they released is outstanding,
`fence` with the acquire after it. Where the mask names slices, it is captured and cleared, a release is sent, and the context
waits for it. -/
def Sys2Proof.Claims.FencesComplete : Prop :=
  ∀ (s : State) (sc : Scope), s.actor.ctx < 8 →
    ((sc = .self ∨ sc = .tile) → ∀ i ∈ [Instr.fence sc, Instr.rel sc, Instr.acq sc],
      ∃ t, exec i s = .next t ∧ GoesTo s t (s.me.pc + 8)) ∧
    (sc ≠ .self → sc ≠ .tile →
      (∃ t, exec (.acq sc) s = .next t ∧ OnlyMe s t ∧
        t.me = { s.me with leases := [], pc := s.me.pc + 8, released := false, armed := false, park := .none }) ∧
      (s.me.released = true ∨ s.me.touched = 0 →
        (∃ t, exec (.rel sc) s = .next t ∧ GoesTo s t (s.me.pc + 8)) ∧
        (∃ t, exec (.fence sc) s = .next t ∧ OnlyMe s t ∧
          t.me = { s.me with leases := [], pc := s.me.pc + 8, released := false, armed := false, park := .none })) ∧
      (s.me.released = false → s.me.touched ≠ 0 → ∀ i ∈ [Instr.fence sc, Instr.rel sc],
        ∃ t, exec i s = .next t ∧ t.me = { s.me with touched := 0, park := .release } ∧
          t.releases = s.releases ++ [⟨s.nextId, s.nextId, .context s.actor.ck s.actor.ctx, none,
            probesOf (dieOf s.actor.ck) s.me.touched⟩]))
/-! The control core: traps, system registers, waiting (14_control_core.md R276, R278, R279, R302, R303) -/

/-- What taking a trap leaves (R279): CCTRAP, CCTVAL and CCEPC are written; with a handler installed and none running TM
becomes 1 and PC becomes CCTVEC, and nothing else changes; otherwise one FAULT record, with the cause as STATUS and the fields of R370, goes to the ring of the record's
colour and the context is idle. -/
def Sys2Proof.Claims.Traps (s t : State) (cause fcode code : Nat) (tval : Word) : Prop :=
  t.me.trapCause = BitVec.ofNat 8 cause ∧ t.me.trapFcode = BitVec.ofNat 8 fcode ∧ t.me.trapCode = BitVec.ofNat 16 code ∧
  t.me.tval = tval ∧ t.me.epc = s.me.pc ∧ t.me.regs = s.me.regs ∧ t.me.tvec = s.me.tvec ∧
  (s.me.tm = false ∧ s.me.tvec ≠ 0 → OnlyMe s t ∧ t.me.tm = true ∧ t.me.pc = s.me.tvec ∧ t.me.running = s.me.running) ∧
  (s.me.tm = true ∨ s.me.tvec = 0 → t.me.running = false ∧ t.me.tm = false ∧
    ∃ r : EventRecord, t.records = s.records ++ [r] ∧ r.kind = 0x04 ∧ r.status = BitVec.ofNat 8 (cause + 128 * (tval.toNat / 2 ^ 46 % 2)) ∧
      r.bytes = (if cause = 0x04 then BitVec.ofNat 32 (tval.toNat / 2 ^ 14 % 2 ^ 32) else 0) ∧ r.fault = BitVec.ofNat 8 fcode ∧ r.tag = s.me.pc ∧
      r.colour = s.me.colour ∧ r.ring = s.ringOfColour s.me.colour ∧
      t = { s with clusters := t.clusters, records := t.records })

/-- The shared operation of R279, for every cause; it clears CODE, FCODE and CCTVAL where the cause has none. -/
def Sys2Proof.Claims.TrapEntry : Prop :=
  ∀ (s : State) (cause fcode code : Nat) (tval : Word), s.actor.ctx < 8 →
    Claims.Traps s (s.takeTrap cause fcode code tval) cause fcode code tval

/-- `trap` takes a trap with cause TRAP and its IMM16 as CODE (R302, R278); `eret` in a handler returns to CCEPC with TM
cleared, raises MISALIGNED_TARGET with TM still 1 where CCEPC is misaligned, and raises ILLEGAL outside a handler (R279). -/
def Sys2Proof.Claims.TrapAndReturn : Prop :=
  ∀ (s : State) (imm : BitVec 16), s.actor.ctx < 8 →
    (∃ t, exec (.trap imm) s = .next t ∧ Claims.Traps s t 0x05 0 imm.toNat 0) ∧
    (s.me.tm = true → s.me.epc.toNat % 8 = 0 → ∃ t, exec .eret s = .next t ∧ OnlyMe s t ∧
      t.me = { s.me with pc := s.me.epc, tm := false, released := false, armed := false, park := .none }) ∧
    (s.me.tm = true → s.me.epc.toNat % 8 ≠ 0 → ∃ t, exec .eret s = .next t ∧ Claims.Traps s t 0x02 0 0 0) ∧
    (s.me.tm = false → ∃ t, exec .eret s = .next t ∧ Claims.Traps s t 0x01 0 0 0)

/-- `Claims.TrapEntry` and `Claims.TrapAndReturn` together. -/
def Obligations.TrapsAndReturns : Prop :=
  Claims.TrapEntry ∧ Claims.TrapAndReturn

/-- The readable system registers of a context with what each reads (R276; MMINVA and MMINVC by 05_main_memory.md R110). -/
def Sys2Proof.Claims.csrs (s : State) : List (Nat × Nat) :=
  let c := s.me
  [(0x0000, (if c.tm then 2 ^ 32 else 0) + c.queue.toNat * 2 ^ 28 + c.colour.toNat * 2 ^ 16 + c.world.toNat * 2 ^ 8 + s.actor.ctx),
   (0x0001, c.trapCode.toNat * 2 ^ 16 + c.trapFcode.toNat * 2 ^ 8 + c.trapCause.toNat), (0x0002, c.epc.toNat),
   (0x0003, c.tval.toNat), (0x0004, c.tvec.toNat), (0x0005, c.scratch.toNat),
   (0x0006, c.stsValue.toNat * 2 ^ 16 + c.stsStatus.toNat), (0x0010, s.timebase.toNat), (0x0410, c.mminva.toNat * 2 ^ 14),
   (0x0411, (if c.mmBusy then 2 ^ 63 else 0) + c.mmMode.toNat * 2 ^ 61 + c.mmStatus.toNat * 2 ^ 58 + c.mmPages.toNat * 2 ^ 24 +
     c.mmColour.toNat)]

/-- `csrrd` (R302): each register of R276 is read into xd; any other number raises ILLEGAL. -/
def Sys2Proof.Claims.SystemRegisterReads : Prop :=
  ∀ (s : State) (xd : Reg) (csr : BitVec 16), s.actor.ctx < 8 →
    (∀ e ∈ Claims.csrs s, csr = BitVec.ofNat 16 e.1 →
      ∃ t, exec (.csrrd xd csr) s = .next t ∧ WritesReg s t xd (BitVec.ofNat 64 e.2) (s.me.pc + 8)) ∧
    ((∀ e ∈ Claims.csrs s, csr ≠ BitVec.ofNat 16 e.1) →
      ∃ t, exec (.csrrd xd csr) s = .next t ∧ Claims.Traps s t 0x01 0 0 0)

/-- `csrwr` (R302, R276; 05_main_memory.md R110): CCEPC while TM = 1, CCTVEC without its low three bits, CCSCRATCH and MMINVA take
the value of xa (of MMINVA the model keeps whether a reserved bit was set, for the start to refuse); MMINVC with BUSY = 0 in it takes
MODE, N and COLOUR and starts nothing; while BUSY = 1 writes of MMINVA and MMINVC are ignored; every register that R276 gives no write
raises ILLEGAL, CCEPC with TM = 0 among them. Nothing else changes. -/
def Sys2Proof.Claims.SystemRegisterWrites : Prop :=
  ∀ (s : State) (xa : Reg) (csr : BitVec 16) (v : Word), s.actor.ctx < 8 → v = s.reg xa →
    ∀ next : Context, next = { s.me with pc := s.me.pc + 8, released := false, armed := false, park := .none } →
    (csr = 0x0002 → s.me.tm = true → ∃ t, exec (.csrwr csr xa) s = .next t ∧ OnlyMe s t ∧ t.me = { next with epc := v }) ∧
    (csr = 0x0004 → ∃ t, exec (.csrwr csr xa) s = .next t ∧ OnlyMe s t ∧
      t.me = { next with tvec := BitVec.ofNat 64 (v.toNat / 8 * 8) }) ∧
    (csr = 0x0005 → ∃ t, exec (.csrwr csr xa) s = .next t ∧ OnlyMe s t ∧ t.me = { next with scratch := v }) ∧
    (csr = 0x0410 → s.me.mmBusy = false → ∃ t, exec (.csrwr csr xa) s = .next t ∧ OnlyMe s t ∧
      t.me = { next with mminva := BitVec.ofNat 33 (v.toNat / 2 ^ 14)
                         mmBad := decide (v.toNat / 2 ^ 47 ≠ 0 ∨ v.toNat % 2 ^ 14 ≠ 0) }) ∧
    (csr = 0x0411 → s.me.mmBusy = false → v.toNat < 2 ^ 63 → ∃ t, exec (.csrwr csr xa) s = .next t ∧ OnlyMe s t ∧
      t.me = { next with mmMode := BitVec.ofNat 2 (v.toNat / 2 ^ 61), mmPages := BitVec.ofNat 24 (v.toNat / 2 ^ 24)
                         mmColour := BitVec.ofNat 9 v.toNat }) ∧
    (csr = 0x0410 ∨ csr = 0x0411 → s.me.mmBusy = true → ∃ t, exec (.csrwr csr xa) s = .next t ∧ GoesTo s t (s.me.pc + 8)) ∧
    (csr ∉ [(0x0002 : BitVec 16), 0x0004, 0x0005, 0x0410, 0x0411] ∨ (csr = 0x0002 ∧ s.me.tm = false) →
      ∃ t, exec (.csrwr csr xa) s = .next t ∧ Claims.Traps s t 0x01 0 0 0)

/-- `Claims.SystemRegisterReads` and `Claims.SystemRegisterWrites` together. -/
def Obligations.SystemRegistersReadAndWrite : Prop :=
  Claims.SystemRegisterReads ∧ Claims.SystemRegisterWrites

/-- A write of MMINVC with BUSY = 1 (05_main_memory.md R110): it reports OWNER where the world may not name the colour, FORMAT
where a range mode names no page, or reaches past 2^33 pages, or a reserved bit of MMINVC or MMINVA is set, and otherwise starts the
operation. That OWNER goes before FORMAT is the model's choice (log 110). -/
def Sys2Proof.Claims.InvalidationStarts : Prop :=
  ∀ (s : State) (xa : Reg) (v mode n : Nat) (bad : Prop), s.actor.ctx < 8 → v = (s.reg xa).toNat → v ≥ 2 ^ 63 → s.me.mmBusy = false →
    mode = v / 2 ^ 61 % 4 → n = v / 2 ^ 24 % 2 ^ 24 →
    bad = (((mode = 0 ∨ mode = 3) ∧ (n = 0 ∨ s.me.mminva.toNat + n > 2 ^ 33)) ∨ v / 2 ^ 48 % 2 ^ 10 ≠ 0 ∨
      v / 2 ^ 9 % 2 ^ 15 ≠ 0 ∨ s.me.mmBad = true) →
    ∃ t, exec (.csrwr 0x0411 xa) s = .next t ∧ OnlyMe s t ∧ t.me.pc = s.me.pc + 8 ∧ t.me.regs = s.me.regs ∧
      t.me.mmMode.toNat = mode ∧ t.me.mmPages.toNat = n ∧ t.me.mmColour = BitVec.ofNat 9 v ∧
      (s.mayInvalidate s.me.world (BitVec.ofNat 9 v) = false → t.me.mmBusy = false ∧ t.me.mmStatus = 1) ∧
      (s.mayInvalidate s.me.world (BitVec.ofNat 9 v) = true → bad → t.me.mmBusy = false ∧ t.me.mmStatus = 2) ∧
      (s.mayInvalidate s.me.world (BitVec.ofNat 9 v) = true → ¬ bad → t.me.mmBusy = true ∧ t.me.mmStatus = 0)

/-- `wfe` and `halt` (R302, R303): `wfe` waits from the present cycle, and WFE_TIMEOUT moves the context past it once 1,024 cycles
have passed; `halt` ends the record, and in world 0 it also clears the context's bit of CCEN. -/
def Sys2Proof.Claims.WaitAndHalt : Prop :=
  ∀ (s : State), s.actor.ctx < 8 →
    (∃ t, exec .wfe s = .next t ∧ OnlyMe s t ∧ t.me = { s.me with park := .timer s.cycles }) ∧
    (∀ since, s.me.park = .timer since → s.cycles ≥ since + 1024 →
      ∃ t, exec (.wfeTimeout s.actor.ck s.actor.ctx) s = .next t ∧ GoesTo s t (s.me.pc + 8)) ∧
    (∃ t, exec .halt s = .next t ∧ t.me.running = false ∧ t.me.tm = false ∧ t.me.regs = s.me.regs ∧
      t = { s with clusters := t.clusters } ∧
      (s.me.world ≠ 0 → OnlyMe s t) ∧
      (s.me.world = 0 → ∀ k, k < 8 →
        (t.cluster s.actor.ck).ccen.getLsbD k = ((s.cluster s.actor.ck).ccen.getLsbD k && k != s.actor.ctx)))
/-! Continuations (14_control_core.md R273, R274, R286, R287; 16_scheduling.md R309 to R311) -/

/-- `Claims.FencesComplete` and `Claims.WaitAndHalt` together. -/
def Obligations.FencesWaitAndHalt : Prop :=
  Claims.FencesComplete ∧ Claims.WaitAndHalt

/-- The end of a record (R287): the context is idle with TM = 0; its registers stay; nothing else changes from `u`. -/
def Sys2Proof.Claims.Ends (u t : State) : Prop :=
  OnlyMe u t ∧ t.me = { u.me with running := false, tm := false, park := .none, released := false, armed := false }
/-- The report of an instruction in CCSTS (R277) from state `u`: STATUS and VALUE, and the context goes on. -/
def Sys2Proof.Claims.Reports (u t : State) (status value : Nat) : Prop :=
  OnlyMe u t ∧ t.me = { u.me with stsStatus := BitVec.ofNat 8 status, stsValue := BitVec.ofNat 11 value, pc := u.me.pc + 8
                                  released := false, armed := false, park := .none }
/-- Nothing that the acting context has still to release at PKG (07_network.md R155). -/
def Sys2Proof.Claims.Released (s : State) : Prop := s.me.released = true ∨ s.me.touched = 0
/-- Room in the last page of a queue (R309). -/
def Sys2Proof.Claims.QueueRoom (s : State) (ck q : Nat) : Prop := (s.queue ck q).pages ≠ [] ∧ (s.queue ck q).filled < 512

/-- `cspawn` (R286). With the record read from xa, the statuses in their order: FORMAT for a reserved bit or a misaligned join word;
OWNER for a record of another world or a colour that the world does not own; once released, FORMAT for an initial count without a join
word; else, with room in its queue, the initial count is written to the join word where there is one, the record is appended, and
STATUS is 0. -/
def Sys2Proof.Claims.SpawnAppends : Prop :=
  ∀ (s u : State) (xa : Reg) (imm : BitVec 32) (bs : List Byte) (r : Record) (ok : Bool), u.actor.ctx < 8 →
    s.coreRead (s.reg xa).toNat 32 = .done u bs → recordOf (bytesNat bs) = (r, ok) →
    (ok = false ∨ r.joina.toNat % 4 ≠ 0 → ∃ t, exec (.cspawn xa imm) s = .next t ∧ Claims.Reports u t 0x01 0) ∧
    (ok = true → r.joina.toNat % 4 = 0 →
      (r.world ≠ u.me.world ∨ (u.colour r.colour).state ≠ .live ∨ (u.colour r.colour).world ≠ u.me.world →
        ∃ t, exec (.cspawn xa imm) s = .next t ∧ Claims.Reports u t 0x02 0) ∧
      (r.world = u.me.world → (u.colour r.colour).state = .live → (u.colour r.colour).world = u.me.world → Claims.Released u →
        imm ≠ 0 → r.joina = 0 → ∃ t, exec (.cspawn xa imm) s = .next t ∧ Claims.Reports u t 0x01 0) ∧
      (r.world = u.me.world → (u.colour r.colour).state = .live → (u.colour r.colour).world = u.me.world → Claims.Released u →
        (imm = 0 ∨ r.joina ≠ 0) → Claims.QueueRoom u u.actor.ck r.queue.toNat →
        (imm = 0 → ∃ v t, u.append u.actor.ck r = some v ∧ exec (.cspawn xa imm) s = .next t ∧ Claims.Reports v t 0 0) ∧
        (imm ≠ 0 → ∀ p v, u.coreWriteNow r.colour r.joina.toNat (natBytes 4 imm.toNat) = .done p () →
          p.append p.actor.ck r = some v → v.actor.ctx < 8 →
          ∃ t, exec (.cspawn xa imm) s = .next t ∧ Claims.Reports v t 0 0)))

/-- An append (R309, R310): the record stands at the end of its queue, in the last page, and one without a join word is runnable
from this cycle on, unless it stalls behind a record that has found the join table full. -/
def Sys2Proof.Claims.AppendQueuesTheRecord : Prop :=
  ∀ (s : State) (ck : Nat) (r : Record), Claims.QueueRoom s ck r.queue.toNat →
    ∃ t, s.append ck r = some t ∧
      (r.joina = 0 → s.stalledBehind ck r.queue.toNat (s.queue ck r.queue.toNat).records.length = false →
        ∃ p, (s.queue ck r.queue.toNat).pages.getLast? = some p ∧
          t.queue ck r.queue.toNat =
            { s.queue ck r.queue.toNat with
              records := (s.queue ck r.queue.toNat).records ++ [⟨r, .runnable s.cycles, p.1⟩]
              filled := (s.queue ck r.queue.toNat).filled + 1 } ∧
          t = { s with clusters := t.clusters })

/-- `Claims.SpawnAppends` and `Claims.AppendQueuesTheRecord` together. -/
def Obligations.ContinuationsAreQueued : Prop :=
  Claims.SpawnAppends ∧ Claims.AppendQueuesTheRecord

/-- `cjoin`, `cend` and `cyield` (R287; 16_scheduling.md R310): `cjoin` releases and subtracts 1 from the word as an atomic, and the
scheduler reads it again for the records that wait for it; `cend` ends the record; `cyield` appends a record that goes on at PC + 8 with FRAME = x2 and no join word, in the running record's queue, colour and world,
and ends. -/
def Sys2Proof.Claims.JoinEndYield : Prop :=
  ∀ (s : State), s.actor.ctx < 8 →
    (∀ xa u old, Claims.Released s →
      s.coreAtomic (s.reg xa).toNat 4 (fun o => (o + 2 ^ 32 - 1) % 2 ^ 32) = .done u old → u.actor.ctx < 8 →
      ∀ v : State, v = u.rereadWord u.actor.ck (u.reg xa).toNat →
        v.me = u.me ∧ ∃ t, exec (.cjoin xa) s = .next t ∧ GoesTo v t (s.me.pc + 8)) ∧
    (∃ t, exec .cend s = .next t ∧ Claims.Ends s t) ∧
    (Claims.QueueRoom s s.actor.ck s.me.queue.toNat →
      ∃ u t, s.append s.actor.ck ⟨s.me.world, s.me.colour, s.me.queue, 0, s.reg 2, s.me.pc + 8⟩ = some u ∧
        exec .cyield s = .next t ∧ Claims.Ends u t)

/-- RECORD_POP and JOIN_REREAD (R274, R310, R311). A popped record leaves its queue, and the idle context of the lowest number in
service starts it, once in an FCLK cycle: x2 holds FRAME, every other register zero, PC is CODE, no handler, TM = 0, it may issue from
the next cycle on, and the queue is its level's last winner. A join word that reads zero makes its record runnable. -/
def Sys2Proof.Claims.PopAndReread : Prop :=
  ∀ (s : State) (ck : Nat),
    (∀ x q e i r, (s.cluster ck).poppedAt ≠ s.cycles + 1 → (s.cluster ck).idle = some x → (s.cluster ck).winner = some q → (s.queue ck q).first = some (e, i) →
      (s.queue ck q).records[i]? = some r → r.record.code.toNat % 8 = 0 →
      ∃ t, exec (.recordPop ck) s = .next t ∧ t.actor.ck = ck ∧ t.actor.ctx = x ∧
        t.me.pc = r.record.code ∧ t.me.running = true ∧ t.me.tm = false ∧ t.me.tvec = 0 ∧ t.me.world = r.record.world ∧
        t.me.colour = r.record.colour ∧ t.me.queue = r.record.queue ∧ t.me.since = s.cycles + 1 ∧
        (t.cluster ck).lastWin = (s.cluster ck).lastWin.setIfInBounds (q / 4) (BitVec.ofNat 2 (q % 4)) ∧
        (∀ n, t.reg n = if n = 2 then r.record.frame else 0) ∧
        (t.queue ck q).records = (s.queue ck q).records.eraseIdx i) ∧
    (∀ k q i r u bs, (s.cluster ck).waitingRecords[k]? = some (q, i) → s.stalledBehind ck q i = false →
      (s.queue ck q).records[i]? = some r → r.record.joina ≠ 0 → r.record.joina.toNat / 2 ^ 24 ≠ 0x7FFFFF → (∀ n, r.state ≠ .runnable n) →
      s.engineRead ck r.record.colour r.record.joina.toNat 4 2 = .done u (bs, false) → bytesNat bs = 0 →
      ∃ t, exec (.joinReread ck k) s = .next t ∧
        t = u.modQueue ck q fun x => { x with records := x.records.modify i fun y => { y with state := .runnable u.cycles } })
/-! Streams (14_control_core.md R288 to R292; 16_scheduling.md R315, R317) -/

/-- `Claims.JoinEndYield` and `Claims.PopAndReread` together. -/
def Obligations.RecordsEndAndStart : Prop :=
  Claims.JoinEndYield ∧ Claims.PopAndReread

/-- A binding that `sspec` has made (R288, R289): the last of its cluster, in the acting context's cluster, of the kind given, with
the pattern of its descriptor, at a port of the context. A generator holds at most 32 extents of it (05_main_memory.md R108), and where
no other stream of its port holds any, an unmapped first page is recorded as absent (R112). Binding changes no tile, no binding made
before it, sends no record and leaves memory alone but for the A bits of the leaves that its translations walk. -/
def Sys2Proof.Claims.Bound (u t : State) (ctx : Nat) (kind : BindingKind) (p : StreamSpec) (g : GraphPort) : Prop :=
  ∃ b, (t.cluster u.actor.ck).bindings = (u.cluster u.actor.ck).bindings ++ [b] ∧ b.kind = kind ∧ b.ctx = ctx ∧
    b.colour = p.colour ∧ b.gport = p.gport ∧ b.phys = g.phys ∧ b.isExit = g.isExit ∧ b.ordered = p.ordered ∧ b.elem = p.elem ∧
    b.base = p.base ∧ b.stride1 = p.stride1 ∧ b.stride2 = p.stride2 ∧ b.count0 = p.count0 ∧ b.count1 = p.count1 ∧
    b.count2 = p.count2 ∧ b.active = g.isExit ∧ b.ready = [] ∧ b.extents.length ≤ 32 ∧
    ((∃ c i, kind = .link c i) → b.extents = [] ∧ t.dram = u.dram ∧ ∀ a, t.peek a = u.peek a) ∧
    ((∀ c i, kind ≠ .link c i) → 1 ≤ p.count0 → 1 ≤ p.count1 → 1 ≤ p.count2 → p.base < 2 ^ 47 → p.base / 2 ^ 24 ≠ 0x7FFFFF →
      (∀ x ∈ (u.cluster u.actor.ck).bindings, x.phys ≠ g.phys) → tlbFind (u.cluster u.actor.ck).l2tlb p.colour p.base = none →
      u.walkFrom p.base 3 1 ((u.colour p.colour).root.toNat * 2 ^ 14) = .error 0x10 →
      ∃ x ∈ b.extents, x.page = p.base / 2 ^ 14 ∧ x.leaf = none) ∧
    t.me.stsStatus = 0 ∧ t.me.stsValue = 0 ∧ t.me.pc = u.me.pc + 8 ∧ t.me.regs = u.me.regs ∧ t.tiles = u.tiles ∧
    t.records = u.records ∧ t.requests = u.requests ∧ t.net = u.net

/-- `sspec` (R288, R289; 06_slices.md R130). Reserved bits or KIND 3 give FORMAT, a context of another world OWNER; else the
descriptor at xa is read, and a memory stream, a pushed stream or a link that keeps its table is bound at a port that is not yet bound for its
colour: a pushed stream also takes a generator of its slice. (Bindings are numbered by the model as they are made.) -/
def Sys2Proof.Claims.StreamsAreBound : Prop :=
  ∀ (s u : State) (xa : Reg) (imm : BitVec 32) (bs : List Byte) (ctx kind d : Nat) (l : Launch) (p : StreamSpec) (g : GraphPort),
    s.actor.ctx < 8 → u.actor.ctx < 8 → ctx = imm.toNat % 2 ^ 11 → kind = imm.toNat / 2 ^ 11 % 4 → d = bytesNat bs →
    (imm.toNat ≥ 2 ^ 13 ∨ kind = 3 → ∃ t, exec (.sspec xa imm) s = .next t ∧ Claims.Reports s t 0x01 0) ∧
    (imm.toNat < 2 ^ 13 → kind ≠ 3 →
      (s.worldOfCtx s.actor.ck ctx ≠ some s.me.world → ∃ t, exec (.sspec xa imm) s = .next t ∧ Claims.Reports s t 0x02 0) ∧
      (s.worldOfCtx s.actor.ck ctx = some s.me.world → s.coreRead (s.reg xa).toNat 64 = .done u bs →
        (∀ x ∈ (u.cluster u.actor.ck).bindings, x.id < u.nextId) →
        u.launch? u.actor.ck ctx = some l → u.ownsColour p.colour = true → u.boundAt u.actor.ck ctx p.gport p.colour = false →
        l.ports[p.gport]? = some g → l.elemFits g p.elem = true →
        (kind = 0 → p = StreamSpec.of d → streamSpecOk d = true → (p.ordered = true → g.isExit = true) →
          ∃ t, exec (.sspec xa imm) s = .next t ∧ Claims.Bound u t ctx .memory p g) ∧
        (kind = 1 → pushSpecOk d = true → (u.slice (pushSlice u.actor.ck d)).pushes.length < 8 →
          l.ports.findIdx? (fun g => !g.isExit && g.phys = bits d 205 201) = some p.gport →
          p = { StreamSpec.of d with gport := p.gport, elem := 0, ordered := false } →
          ∃ t, exec (.sspec xa imm) s = .next t ∧
            Claims.Bound u t ctx (.push (pushSlice u.actor.ck d) (bits d 211 208)) p g ∧
            (t.slice (pushSlice u.actor.ck d)).pushes =
              (u.slice (pushSlice u.actor.ck d)).pushes ++ [⟨u.actor.ck, u.nextId⟩]) ∧
        (∀ m h, kind = 2 → p = StreamSpec.of d → linkSpecOk d = true → g.isExit = false →
          u.launch? u.actor.ck (bits d 10 0) = some m → m.world = l.world → m.ports[bits d 16 11]? = some h → h.isExit = true →
          u.boundAt u.actor.ck (bits d 10 0) (bits d 16 11) p.colour = false →
          ∃ t, exec (.sspec xa imm) s = .next t ∧ Claims.Bound u t ctx (.link (bits d 10 0) (bits d 16 11)) p g)))

/-- `sbar` and SBAR_RETIRE (R291, R317): the context waits for the bindings of the launch that have not finished; once all of them
have, it acquires at PKG and reports OK. -/
def Sys2Proof.Claims.StreamBarrier : Prop :=
  ∀ (s : State) (imm : BitVec 32), s.actor.ctx < 8 →
    (imm.toNat ≥ 2048 → ∃ t, exec (.sbar imm) s = .next t ∧ Claims.Reports s t 0x01 0) ∧
    (imm.toNat < 2048 → s.worldOfCtx s.actor.ck imm.toNat ≠ some s.me.world →
      ∃ t, exec (.sbar imm) s = .next t ∧ Claims.Reports s t 0x02 0) ∧
    (imm.toNat < 2048 → s.worldOfCtx s.actor.ck imm.toNat = some s.me.world →
      ∃ t ids, exec (.sbar imm) s = .next t ∧ OnlyMe s t ∧ t.me = { s.me with park := .streams ids } ∧
        ∀ i, i ∈ ids ↔ (∃ b ∈ (s.cluster s.actor.ck).bindings, b.id = i ∧ b.ctx = imm.toNat) ∧ s.bindingDone s.actor.ck i = false) ∧
    (∀ ids, s.me.park = .streams ids → (∀ i ∈ ids, s.bindingDone s.actor.ck i = true) →
      ∃ t, exec (.sbarRetire s.actor.ck s.actor.ctx) s = .next t ∧ OnlyMe s t ∧
        t.me = { s.me with leases := [], stsStatus := 0, stsValue := 0, pc := s.me.pc + 8, released := false, armed := false
                           park := .none })

/-- `Claims.StreamsAreBound` and `Claims.StreamBarrier` together. -/
def Obligations.StreamsAreBoundAndAwaited : Prop :=
  Claims.StreamsAreBound ∧ Claims.StreamBarrier

/-- `scond` and SCOND_RETIRE (R292, R317): the context waits for the streams of WCTX; then it acquires, and one read of the word at
xa decides: a nonzero word starts the held launch LCTX and VALUE is 1, a zero word cancels it and VALUE is 0. A launch that is not HELD
gives STATE. -/
def Sys2Proof.Claims.ConditionalLaunch : Prop :=
  ∀ (s : State) (xa : Reg) (imm : BitVec 32) (sc : Option Scope) (w l : Nat), s.actor.ctx < 8 → w = imm.toNat % 2 ^ 11 →
    l = imm.toNat / 2 ^ 11 % 2 ^ 11 →
    (imm.toNat < 2 ^ 22 → w ≠ l → s.worldOfCtx s.actor.ck w = some s.me.world → s.worldOfCtx s.actor.ck l = some s.me.world →
      (∀ x, s.launch? s.actor.ck l = some x → x.state = .held →
        ∃ t, exec (.scond xa imm sc) s = .next t ∧ OnlyMe s t ∧
          t.me = { s.me with park := .cond l (s.reg xa) (s.unfinished s.actor.ck w) }) ∧
      (∀ x, s.launch? s.actor.ck l = some x → x.state ≠ .held →
        ∃ t, exec (.scond xa imm sc) s = .next t ∧ Claims.Reports s t 0x13 0)) ∧
    (∀ a ids x u bs, s.me.park = .cond l a ids → (∀ i ∈ ids, s.bindingDone s.actor.ck i = true) →
      s.launch? s.actor.ck l = some x → x.state = .held → x.world = s.me.world →
      (s.acquireMe scopePkg).coreRead a.toNat 8 = .done u bs → u.actor = s.actor → u.launch? s.actor.ck l = some x →
      (bytesNat bs ≠ 0 → ∃ t, exec (.scondRetire s.actor.ck s.actor.ctx) s = .next t ∧
        t.launch? s.actor.ck l = some { x with state := .running } ∧ t.me.stsStatus = 0 ∧ t.me.stsValue = 1 ∧
        t.me.pc = u.me.pc + 8) ∧
      (bytesNat bs = 0 →
        exec (.scondRetire s.actor.ck s.actor.ctx) s = .next ((u.cancelLaunch s.actor.ck l).report 0 0)))

/-! Launches (14_control_core.md R293 to R295; 16_scheduling.md R318 to R326) -/

/-- `gload` (R293). With the descriptor read, the image read, of the acting world, placed inside the cluster with no refused
failure, room found, its objects made with their handles written, and its scratchpads bound: the launch context `ctx` exists, HELD where the descriptor says HOLD
and RUNNING else, with the image's words, ports, levels and region; words, registers and scratch images are installed; xd
holds the context's number and the instruction ends. A snapshot image is restored beside. -/
def Sys2Proof.Claims.GraphLoads : Prop :=
  ∀ (s u v o q b : State) (xd xa : Reg) (imm : BitVec 32) (bs : List Byte) (d : LaunchDesc) (g : Image) (p : Placed)
    (ports : List GraphPort) (ctx : Nat) (hs : List Handle),
    s.coreRead (s.reg xa).toNat 32 = .done u bs → imm.toNat < 256 → LaunchDesc.of (bytesNat bs) = some d →
    u.readImage u.actor.ck u.me.colour d.image = .done v (some g) → g.world = v.me.world.toNat → g.world < 64 →
    g.placeAt (g.x + imm.toNat % 16) (g.y + imm.toNat / 16) = some (p, ports) → refused (p.failures g.warn) = false →
    v.placeCheck v.actor.ck g p g.plane ports none = .ok ctx →
    v.createAll v.actor.ck v.me.world [] [] (v.creationFuel g.objects.length) g.objects = .made o hs →
    o.writeHandles v.me.colour (g.objects.zip hs) = .done q () →
    q.setBounds v.actor.ck p v.me.world g.tiles = some b →
    ∃ (w : State) (l : Launch), w.launch? v.actor.ck ctx = some l ∧ l.state = (if d.hold then .held else .running) ∧ l.world = v.me.world ∧
      l.plane = g.plane ∧ l.x = p.ox ∧ l.y = p.oy ∧ l.w = p.w ∧ l.h = p.h ∧ l.levels = g.levels ∧ l.words = g.placedWords p ∧
      l.ring = d.ring ∧ l.join = d.join ∧ l.colour = v.me.colour ∧ l.ports.length = ports.length ∧ l.bound = false ∧
      (g.snapshot = false → exec (.gload xd xa imm) s =
        .next ((w.installImage v.actor.ck ctx g.plane g p).finish xd (BitVec.ofNat 64 ctx))) ∧
      (∀ x, g.snapshot = true → v.snaps[g.saved]? = some x → exec (.gload xd xa imm) s =
        .next (((w.installImage v.actor.ck ctx g.plane g p).restore v.actor.ck ctx x.ctx x).finish xd (BitVec.ofNat 64 ctx)))

/-- What installing an image leaves (R293, 18_prog_q16n_matvec.md R349): each word of the image stands in its slot, under its
context, with fresh counters, where no two words of the image name one slot. -/
def Sys2Proof.Claims.InstalledWordsStand : Prop :=
  ∀ (s : State) (ck ctx : Nat) (g : Image) (p : Placed),
    ((g.placedWords p).map fun w => (w.ti, w.slot)).Nodup → (∀ w ∈ g.placedWords p, w.slot < 64 ∧ w.ti < 192) →
    ∀ w ∈ g.placedWords p, ∀ x, x = ((s.installImage ck ctx g.plane g p).tile (192 * ck + w.ti)).slot (64 * g.plane + w.slot) →
      x.word = w.word ∧ x.ctx = some ctx ∧ x.active = [] ∧ x.next = [] ∧ x.closed = [] ∧ x.waitOperand = 0

/-- `Claims.GraphLoads` and `Claims.InstalledWordsStand` together. -/
def Obligations.GraphsAreInstalled : Prop :=
  Claims.GraphLoads ∧ Claims.InstalledWordsStand

/-- `gsplice` (R294, R320). Behind a RUNNING or HELD predecessor of the world, without a successor, whose region holds the image: the new context
is SPLICING with its predecessor named, the predecessor names it, one SPLICE token sets out for every slot of the region that either
image uses, and the instruction waits for the last of them; SPLICE_TOKEN puts the token's word into its slot's pending register. Behind an ENDED
predecessor the image is installed at once and VALUE is the context. -/
def Sys2Proof.Claims.GraphSplices : Prop :=
  ∀ (s u v o q : State) (xa xb : Reg) (bs : List Byte) (d : LaunchDesc) (g : Image) (p : Placed) (ports : List GraphPort)
    (pred ctx : Nat) (l : Launch) (hs : List Handle),
    pred = (s.reg xb).toNat → s.coreRead (s.reg xa).toNat 32 = .done u bs → LaunchDesc.of (bytesNat bs) = some d →
    d.hold = false → pred < 2048 → u.launch? u.actor.ck pred = some l → l.world = u.me.world → l.successor = none → l.state ≠ .splicing →
    u.readImage u.actor.ck u.me.colour d.image = .done v (some g) → v.actor = u.actor → v.me = u.me → g.snapshot = false →
    g.world = v.me.world.toNat → g.placeAt l.x l.y = some (p, ports) → refused (p.failures g.warn) = false →
    (∀ x ∈ p.words, l.covers x.ti = true) → v.placeCheck u.actor.ck g p l.plane ports (some pred) = .ok ctx →
    v.createAll u.actor.ck v.me.world [] [] (v.creationFuel g.objects.length) g.objects = .made o hs →
    o.writeHandles v.me.colour (g.objects.zip hs) = .done q () → q.launch? u.actor.ck pred = some l → ctx ≠ pred →
    (l.state ≠ .ended → q.actor = u.actor → u.actor.ctx < 8 → ∃ (t : State) (n : Launch), exec (.gsplice xa xb) s = .next t ∧ t.me.park = .splice ctx ∧
      t.launch? u.actor.ck ctx = some n ∧ n.state = .splicing ∧ n.predecessor = some pred ∧ n.words = g.placedWords p ∧
      t.launch? u.actor.ck pred = some { l with successor := some ctx } ∧
      ∃ ts, (t.cluster u.actor.ck).splicesOut = (q.cluster u.actor.ck).splicesOut ++ ts ∧ (∀ x ∈ ts, x.ctx = ctx ∧ x.plane = l.plane) ∧
        ∀ ti k, ti < 192 → k < 64 → l.covers ti = true → ((∃ x ∈ ts, x.ti = ti ∧ x.slot = k) ↔
          (∃ w ∈ g.placedWords p, w.ti = ti ∧ w.slot = k) ∨
            ((q.tile (192 * u.actor.ck + ti)).slot (64 * l.plane + k)).ctx = some pred)) ∧
    (∀ b, l.state = .ended → ((q.cfgErrors u.actor.ck d.ring v.me.world u.actor.ck l.plane p (p.failures g.warn)).extendMeasure
        v.me.world.toNat g.bytes).setBounds u.actor.ck p v.me.world g.tiles = some b → ∃ (w : State) (n : Launch), w.launch? u.actor.ck ctx = some n ∧
      n.state = .running ∧ exec (.gsplice xa xb) s = .next ((w.installImage u.actor.ck ctx l.plane g p).report 0 ctx))

/-- SPLICE_TOKEN, SPLICE_INSTALL and SPLICE_REGISTER_WRITE (R320 to R323): a token's word becomes pending in its slot; a slot that is free,
or closed, and has no more tokens of its splice on their way takes its pending word and starts afresh; a tile's registers and scratch image are written
once no open slot of the tile holds a word of the predecessor. -/
def Sys2Proof.Claims.SpliceSteps : Prop :=
  ∀ (s : State) (ck tk k : Nat),
    (∀ x, (s.cluster ck).splices[k]? = some x → ∃ t, exec (.spliceToken ck k) s = .next t ∧
      ((t.tile (192 * ck + x.ti)).slot (64 * x.plane + x.slot)).pending = some (x.word, x.ctx) ∧
      (t.cluster ck).splices = (s.cluster ck).splices.eraseIdx k) ∧
    (∀ w c, ((s.tile tk).slot k).pending = some (w, c) →
      (((s.tile tk).slot k).ctx = none ∨ ∃ p, ((s.tile tk).slot k).ctx = some p ∧ s.slotClosed tk k p = true) →
      (∀ x ∈ (s.cluster (ckOf tk)).splicesOut, ¬ (x.ctx = c ∧ x.ti = tiOf tk ∧ x.slot = k % 64)) →
      ∃ t, exec (.spliceInstall tk k) s = .next t ∧
        (t.tile tk).slot k = { Slot.reset with word := w, ctx := if w = 0 then none else some c }) ∧
    (∀ c l r u, (s.cluster (ckOf tk)).launches.findSome?
        (fun e => (e.2.spliceRegs.find? fun r => r.ti = tiOf tk).map fun r => (e.1, e.2, r)) = some (c, l, r) →
      (∀ p, l.predecessor = some p → ∀ j, j < 64 → ((s.tile tk).slot (64 * l.plane + j)).ctx = some p →
        s.slotClosed tk (64 * l.plane + j) p = true) → s.setBound tk r.need l.world = some u →
      exec (.spliceRegisterWrite tk) s =
        .next (((match r.regs with | none => u | some x => u.modTile tk fun t => t.loadRegs l.plane l.world x).imageScratch tk
          r.scratch).modLaunch (ckOf tk) c fun l => { l with spliceRegs := l.spliceRegs.erase r }))

/-- `Claims.GraphSplices` and `Claims.SpliceSteps` together. -/
def Obligations.GraphsAreSpliced : Prop :=
  Claims.GraphSplices ∧ Claims.SpliceSteps

/-- `gfree` (R295): an ENDED context is freed, a HELD one is cancelled first, and CCSTS is OK; a RUNNING or SPLICING one gives STATE 7; a
context of another world OWNER, and a number that is none FORMAT. -/
def Sys2Proof.Claims.GraphFrees : Prop :=
  ∀ (s : State) (xa : Reg) (ctx : Nat), s.actor.ctx < 8 → ctx = (s.reg xa).toNat →
    (ctx ≥ 2048 → ∃ t, exec (.gfree xa) s = .next t ∧ Claims.Reports s t 0x01 0) ∧
    (ctx < 2048 → ∀ l, s.launch? s.actor.ck ctx = some l →
      (l.world ≠ s.me.world → ∃ t, exec (.gfree xa) s = .next t ∧ Claims.Reports s t 0x02 0) ∧
      (l.world = s.me.world → l.state = .ended → ∃ t, exec (.gfree xa) s = .next t ∧
        Claims.Reports (s.freeCtx s.actor.ck ctx) t 0 0) ∧
      (l.world = s.me.world → l.state = .held → ∃ t, exec (.gfree xa) s = .next t ∧
        Claims.Reports ((s.cancelLaunch s.actor.ck ctx).freeCtx s.actor.ck ctx) t 0 0) ∧
      (l.world = s.me.world → l.state = .running ∨ l.state = .splicing →
        ∃ t, exec (.gfree xa) s = .next t ∧ Claims.Reports s t 0x07 0))

/-- LAUNCH_END (R318, R319): a RUNNING launch that has been bound, whose streams have finished, whose sinks and exits have seen every EOS and of which no
token is left, whose stores are acknowledged, becomes ENDED. The effects held and the dirty granules are settled first. -/
def Sys2Proof.Claims.LaunchEnds : Prop :=
  ∀ (s u : State) (ck ctx : Nat) (l m : Launch), (s.cluster ck).lcBusy = false → s.launch? ck ctx = some l → l.state = .running →
    l.bound = true → s.launchQuiet ck ctx l = true → u = (if l.writtenBack then s else s.launchSettle ck ctx l) →
    u.launch? ck ctx = some m → m.outstanding = 0 → u.anyToken ck (goneCtx ck ctx) = false →
    exec (.launchEnd ck ctx) s = .next (u.endLaunch ck ctx 0 0) ∧
    ∃ r, (u.launchRecord ck ctx m 0 0 true).records = u.records ++ [r] ∧ r.kind = 0x05 ∧ r.status = 0

/-- `Claims.ConditionalLaunch` and `Claims.GraphFrees` and `Claims.LaunchEnds` together. -/
def Obligations.LaunchesStartAndEnd : Prop :=
  Claims.ConditionalLaunch ∧ Claims.GraphFrees ∧ Claims.LaunchEnds

/-- CFGREQ_SERVE and CFG_WAIT_RETRY (R325, R326): where the requester's context has an instance of the index, with a reservation granted at its entry the held operand
goes there, beat after beat, with its payload and its credit, and the request is served; so it does when a held request is tried again. -/
def Obligations.LibraryRequestsAreServed : Prop :=
  ∀ (s : State) (d k : Nat) (r : CfgRequest) (x : LibInstance) (i : Nat) (e : Entry) (l : Launch) (g : GraphPort),
    (s.die d).cfgreqs[k]? = some r →
    (s.die d).libs.find? (fun x => x.reqCk = r.ck && x.reqCtx = r.tag.ctx.toNat && x.index = r.index) = some x →
    s.cfgOperand r = some (i, e) → s.launch? x.ck x.ctx = some l → l.ports.find? (fun g => !g.isExit) = some g →
    s.grants (192 * x.ck + g.ti) r.tag.colour x.ctx = true →
    ∃ (t : State) (fs : List Flit) (id : Nat) (edge : Edge) (tok : Token),
      exec (if r.held then .cfgWaitRetry d k else .cfgreqServe d k) s = .next t ∧
      (t.cluster x.ck).flits = (s.cluster x.ck).flits ++ fs ∧ fs.length = e.token.payload.beats ∧
      (∀ (b : Nat) (f : Flit), fs[b]? = some f → f.cargo = .token edge l.plane id b tok ∧ f.dst = g.ti ∧ f.out = 4 ∧ f.vc = 1 ∧
        f.narrow = (l.entryPlane g).getD (match e.token.payload with | .narrow _ _ _ => true | _ => false)) ∧
      tok.payload = e.token.payload ∧ tok.credit = e.token.credit ∧ tok.tag.ctx = BitVec.ofNat 11 x.ctx ∧
      tok.tag.iter = r.tag.iter ∧ tok.tag.slot = BitVec.ofNat 6 g.slot ∧
      (t.die d).cfgreqs = (s.die d).cfgreqs.eraseIdx k ∧ t.dram = s.dram
/-! Colours, event rings, barrier objects and groups (14_control_core.md R297 to R301; 05_main_memory.md R113; 09_block_transfer.md R189, R190;
08_tile_memory.md R173 to R175; 06_slices.md R133 to R139) -/

/-- `colq` (R298): for a LIVE colour of the acting world each ITEM sets its limit to a value in its range, where the floors of the world's
colours stay at or below 192 and POLICY SPILL finds a spill base; nothing else of the colour changes. A colour of another world gives
OWNER, a value out of range FORMAT, a floor that breaks R41 FLOORSUM, and nothing changes. -/
def Sys2Proof.Claims.ColourLimits : Prop :=
  ∀ (s : State) (xa xb : Reg) (imm : BitVec 32) (c : Colour) (v item : Nat) (e : ColourEntry),
    s.actor.ctx < 8 → (s.reg xa).toNat = c.toNat → v = (s.reg xb).toNat → item = imm.toNat % 16 → e = s.colour c →
    (item ≤ 4 → imm.toNat < 16 →
      (e.state ≠ .live ∨ e.world ≠ s.me.world → ∃ t, exec (.colq xa xb imm) s = .next t ∧ Claims.Reports s t 0x02 0) ∧
      (e.state = .live → e.world = s.me.world →
        (∀ ok set, (ok, set) = (match item with
            | 0 => (v ≤ 32 ∧ s.otherFloors s.me.world c + v ≤ 192, { e with floor := v })
            | 1 => (v = 0 ∨ (64 ≤ v ∧ v ≤ 1048576), { e with age := v })
            | 2 => (v = 0 ∨ (v = 1 ∧ e.spillBase ≠ none), { e with spill := v = 1 })
            | 3 => (v % 2 ^ 14 = 0, { e with spillBase := some v })
            | _ => (v ≤ 65535, { e with ring := some v })) → ok →
          ∃ t, exec (.colq xa xb imm) s = .next t ∧ t.colour c = set ∧ (∀ d, d ≠ c → t.colour d = s.colour d) ∧
            t.me = { s.me with stsStatus := 0, stsValue := 0, pc := s.me.pc + 8, released := false, armed := false, park := .none } ∧
            t = { s with clusters := t.clusters, colours := t.colours }) ∧
        (colqOk item v = false → ∃ t, exec (.colq xa xb imm) s = .next t ∧ Claims.Reports s t 0x01 0) ∧
        (item = 0 → v ≤ 32 → s.otherFloors s.me.world c + v > 192 →
          ∃ t, exec (.colq xa xb imm) s = .next t ∧ Claims.Reports s t 0x0C 0))) ∧
    (∀ port p, item = 5 → imm.toNat = 5 + 2 ^ 16 * port → port < 64 → e.state = .live → e.world = s.me.world → 1 ≤ v → v ≤ 256 →
      Map.get? (s.cluster s.actor.ck).ports port = some p → s.worldOfCtx s.actor.ck p.ctx = some s.me.world →
      ∃ t, exec (.colq xa xb imm) s = .next t ∧
        Map.get? (t.cluster s.actor.ck).ports port = some { p with quota := Map.put p.quota c.toNat v } ∧
        t.me.stsStatus = 0 ∧ t.me.pc = s.me.pc + 8 ∧ t.colours = s.colours)

/-- `colret`, COLOUR_RETIRE_DROP and COLOUR_FREE (R299, R113): the statuses SELF, COLOUR, OWNER and SHARED change nothing; else the
colour is RETIRING. Stores of it that stashes hold go home first; once every access of it has been performed its translations and its
cached lines are dropped without write-back; once no line of it is left its key is killed at the nine holders and it is FREE. -/
def Sys2Proof.Claims.ColourRetirement : Prop :=
  ∀ (s : State) (xa : Reg) (c : Colour), s.actor.ctx < 8 → (s.reg xa).toNat = c.toNat →
    (c = s.me.colour → ∃ t, exec (.colret xa) s = .next t ∧ Claims.Reports s t 0x0E 0) ∧
    (c ≠ s.me.colour → (s.colour c).state ≠ .live → ∃ t, exec (.colret xa) s = .next t ∧ Claims.Reports s t 0x0A 0) ∧
    (c ≠ s.me.colour → (s.colour c).state = .live → s.mayInvalidate s.me.world c = false →
      ∃ t, exec (.colret xa) s = .next t ∧ Claims.Reports s t 0x02 0) ∧
    (c ≠ s.me.colour → (s.colour c).state = .live → s.mayInvalidate s.me.world c = true →
      ((∃ e ∈ s.colours, e.1 ≠ c.toNat ∧ e.2.state = .live ∧ e.2.kshare = c) →
        ∃ t, exec (.colret xa) s = .next t ∧ Claims.Reports s t 0x0D 0) ∧
      ((∀ e ∈ s.colours, e.1 ≠ c.toNat → e.2.state = .live → e.2.kshare ≠ c) →
        ∃ t, exec (.colret xa) s = .next t ∧ (t.colour c).state = .retiring ∧ t.me.stsStatus = 0 ∧ t.me.pc = s.me.pc + 8)) ∧
    ((s.colour c).state = .retiring → (s.colour c).dropped = false →
      (∀ e ∈ s.tiles, ∀ l ∈ e.2.stash, l.dirty ≠ 0 → s.mayKey c l.key = false) →
      s.accessesLeft (fun k d va => d = c || va.isNone && s.mayKey c k) = false →
      ∃ t, exec (.colourRetireDrop c.toNat) s = .next t ∧ (t.colour c).dropped = true ∧ (t.colour c).state = .retiring ∧
        (∀ e ∈ t.slices, ∀ l ∈ e.2.lines, l.key ≠ c) ∧ (∀ e ∈ t.tiles, ∀ l ∈ e.2.stash, l.key ≠ c) ∧
        (∀ e ∈ t.tiles, ∀ l ∈ e.2.tlb, l.colour ≠ c) ∧ (∀ e ∈ t.clusters, ∀ l ∈ e.2.tlb ++ e.2.l2tlb, l.colour ≠ c) ∧
        ((∀ e ∈ s.clusters, ∀ b ∈ e.2.bindings, b.extents = []) → t.dram = s.dram)) ∧
    ((s.colour c).state = .retiring → (s.colour c).dropped = true → s.lineLeft c = false →
      ∃ t, exec (.colourFree c.toNat) s = .next t ∧ (t.colour c).state = .free ∧ (t.colour c).poisoned = false ∧
        ((s.keySlots.map (·.1)).Nodup → ∀ h, h < 9 → Map.get? t.keySlots (512 * h + c.toNat) = none))

/-- `Claims.ColourLimits` and `Claims.ColourRetirement` together. -/
def Obligations.ColoursAreLimitedAndRetired : Prop :=
  Claims.ColourLimits ∧ Claims.ColourRetirement

/-- `evarm` and `evwait` (R300). `evarm` sets NOTIFY of an enabled ring of the world. `evwait` finds NOTIFY cleared and returns PROD after an acquire, or parks on
the ring, marked, and so completes when it is issued again; OWNER is the status of one and −2 the result of the other. The descriptor
stands in memory, whose other bytes are unchanged. -/
def Sys2Proof.Claims.EventRings : Prop :=
  ∀ (s : State) (xd xa : Reg) (n : Nat), s.actor.ctx < 8 → n = (s.reg xa).toNat → n < 2 ^ 16 →
    (s.ringUsable n s.me.world = true →
      (Memory.wf s.dram = true → ∃ t, exec (.evarm xa) s = .next t ∧ t.ring n = { s.ring n with notify := true } ∧
        (∀ k, k ≠ n → t.ring k = s.ring k) ∧ (∀ a, a < s.ringAt n ∨ s.ringAt n + 32 ≤ a → t.peek a = s.peek a) ∧
        t.me.stsStatus = 0 ∧ t.me.pc = s.me.pc + 8 ∧ t.clusters = (s.report 0 0).clusters ∧
        t = { s with clusters := t.clusters, rings := t.rings, slices := t.slices, dram := t.dram, dramKey := t.dramKey }) ∧
      ((s.ring n).notify = false ∨ s.me.armed = true → ∃ t, exec (.evwait xd xa) s = .next t ∧ OnlyMe s t ∧
        t.reg xd = (if xd = 0 then 0 else BitVec.ofNat 64 (s.ring n).prod.toNat) ∧ (∀ r, r ≠ xd → t.reg r = s.reg r) ∧
        t.me.leases = [] ∧ t.me.pc = s.me.pc + 8) ∧
      ((s.ring n).notify = true → s.me.armed = false → ∃ t, exec (.evwait xd xa) s = .next t ∧ OnlyMe s t ∧
        t.me = { s.me with armed := true, park := .ring n })) ∧
    (s.ringUsable n s.me.world = false →
      (∃ t, exec (.evarm xa) s = .next t ∧ Claims.Reports s t 0x02 0) ∧
      (s.me.armed = false → ∃ t, exec (.evwait xd xa) s = .next t ∧ WritesReg s t xd (-2) (s.me.pc + 8)))

/-- EVENT_RECORD_WRITE (R188 to R190): the first record for its ring, an enabled one of its producer's world that is not full, is written at
the place that PROD names, with PH, and PROD goes up by one; NOTIFY is cleared and the contexts parked on the ring are woken where it was set. -/
def Sys2Proof.Claims.EventRecordsAreWritten : Prop :=
  ∀ (s u : State) (k : Nat) (r : EventRecord) (g : Ring), s.records[k]? = some r → (∀ q ∈ s.records.take k, q.ring ≠ r.ring) →
    r.join = none → r.producer.toNat ∉ s.removals → g = s.ring r.ring → g.en = true → g.world = r.producer →
    (g.prod - g.cons).toNat ≠ 2 ^ g.log2n.toNat →
    State.engineWrite { s with records := s.records.eraseIdx k } r.unit g.colour
      (g.base.toNat + 32 * (g.prod.toNat % 2 ^ g.log2n.toNat))
      (natBytes 32 (recordBits r g.dropped ((g.prod.toNat / 2 ^ g.log2n.toNat + 1) % 2 = 1))) false 2 = .done u () →
    u.ring r.ring = g → Memory.wf u.dram = true →
    ∃ t, exec (.eventRecordWrite k) s = .next t ∧
      t.ring r.ring = { g with prod := g.prod + 1, dropped := false, notify := false } ∧ t.records = u.records ∧
      (g.notify = true → ∀ e ∈ t.clusters, ∀ c ∈ e.2.ctxs, c.park ≠ .ring r.ring)

/-- `Claims.EventRings` and `Claims.EventRecordsAreWritten` together. -/
def Obligations.EventsAreRecordedAndAwaited : Prop :=
  Claims.EventRings ∧ Claims.EventRecordsAreWritten

/-- The barrier instructions (R301, R173 to R175) on an object that the record's world owns. `binit` sets EXPECTED, ARRIVED 0 and ERR 0, keeps PHASE and WAITERS, and makes
the granule FULL; `barv` releases and arrives; `bwait` whose phase has passed returns PHASE after an acquire, and otherwise adds 1 to WAITERS and parks. -/
def Sys2Proof.Claims.BarrierInstructions : Prop :=
  ∀ (s : State) (xd xa xb : Reg) (sc : Option Scope) (tk off : Nat) (b : Barrier), s.actor.ctx < 8 →
    s.barrierAt (s.reg xa).toNat = .ok (tk, off) → b = (s.tile tk).barrier off →
    (exec (.binit xa xb) s = .next (((s.modTile tk fun t =>
        (t.setBarrier off { b with expected := (s.reg xb).toNat % 2 ^ 32, arrived := 0, err := false }).setFull [off / 16] true).feChanged
        tk [off / 16]).report 0 0)) ∧
    (Claims.Released s → ∃ t, exec (.barv xa xb sc) s = .next t ∧
      t = (s.arriveAt tk off ((s.reg xb).toNat % 2 ^ 32)).report 0 0) ∧
    (b.passed ((s.reg xb).toNat % 2 ^ 16) = true → sc ≠ some .self → sc ≠ some .tile →
      ∃ t, exec (.bwait xd xa xb sc) s = .next t ∧ OnlyMe s t ∧ t.me.leases = [] ∧ t.me.pc = s.me.pc + 8 ∧
        ∀ r, t.reg r = if r = 0 then 0 else if r = xd then BitVec.ofNat 64 b.phase else s.reg r) ∧
    (b.passed ((s.reg xb).toNat % 2 ^ 16) = false → ∃ t, exec (.bwait xd xa xb sc) s = .next t ∧
      t.tile tk = (s.tile tk).setBarrier off { b with waiters := (b.waiters + 1) % 2 ^ 16 } ∧
      t.me = { s.me with park := .barrier (s.reg xa).toNat ((s.reg xb).toNat % 2 ^ 16) })

/-- An arrival at a barrier object (R174; BARRIER_ARRIVAL): n bytes are added to ARRIVED, every whole EXPECTED in it counts PHASE up, modulo 2^16; an object with EXPECTED 0
gets ERR. Read back from the object's 16 bytes. -/
def Sys2Proof.Claims.BarrierArrivals : Prop :=
  (∀ (s : State) (ck k : Nat) (a : Arrival), (s.cluster ck).arrivals[k]? = some a →
    (∀ q ∈ (s.cluster ck).arrivals.take k, ¬ (q.tk = a.tk ∧ q.off = a.off)) → a.off + 16 ≤ 4096 * (s.tile a.tk).spk.toNat →
    ∃ t, exec (.barrierArrival ck k) s = .next t ∧
      t = (s.modCluster ck fun x => { x with arrivals := x.arrivals.eraseIdx k }).arriveAt a.tk a.off a.bytes) ∧
  (∀ (t : Tile) (off n : Nat) (b : Barrier), t.scratch.wf = true → b = t.barrier off → b.expected ≠ 0 →
    (t.setBarrier off (b.arrive n)).barrier off =
      { b with phase := (b.phase + (b.arrived + n) / b.expected) % 2 ^ 16, arrived := (b.arrived + n) % b.expected }) ∧
  (∀ (t : Tile) (off n : Nat) (b : Barrier), t.scratch.wf = true → b = t.barrier off → b.expected = 0 →
    (t.setBarrier off (b.arrive n)).barrier off = { b with err := true })

/-- `Claims.BarrierInstructions` and `Claims.BarrierArrivals` together. -/
def Obligations.BarriersCountArrivals : Prop :=
  Claims.BarrierInstructions ∧ Claims.BarrierArrivals

/-- `gjoin` and `gleave` (R297) on a descriptor that keeps its form: a member that is there already changes nothing and is OK; else the lowest invalid
entry is taken and ENROLLED gets its bit, VALUE is its number, and a first member sets COLOUR; a group of another colour gives COLOUR, a full one FULL.
`gleave` clears the entry and the bit, or gives NOTMEMBER. -/
def Sys2Proof.Claims.GroupMembership : Prop :=
  ∀ (s u : State) (xa : Reg) (imm : BitVec 32) (pa ti : Nat) (g : GroupDesc), s.actor.ctx < 8 → imm.toNat < 192 →
    ti = imm.toNat → s.coreGroup (s.reg xa).toNat = .done u pa → u.actor = s.actor → g = u.groupDesc pa → g.formOk = true →
    (∀ m, g.memberOf ti = some m →
      (∃ t, exec (.gjoin xa imm) s = .next t ∧ Claims.Reports u t 0 0) ∧
      exec (.gleave xa imm) s = .next ((u.setMember pa g m 0 false none).report 0 m)) ∧
    (g.memberOf ti = none →
      (∃ t, exec (.gleave xa imm) s = .next t ∧ Claims.Reports u t 0x09 0) ∧
      (g.enrolled ≠ 0 → g.colour ≠ u.me.colour → ∃ t, exec (.gjoin xa imm) s = .next t ∧ Claims.Reports u t 0x0A 0) ∧
      (g.enrolled = 0 ∨ g.colour = u.me.colour →
        ((∀ m, m < 64 → bits (g.member.getD m 0) 15 15 ≠ 0) → ∃ t, exec (.gjoin xa imm) s = .next t ∧ Claims.Reports u t 0x08 0) ∧
        (∀ m, m < 64 → bits (g.member.getD m 0) 15 15 = 0 → (∀ j, j < m → bits (g.member.getD j 0) 15 15 ≠ 0) →
          exec (.gjoin xa imm) s = .next ((u.setMember pa g m (2 ^ 15 + 2 ^ 8 * (ti / 16) + ti % 16) true
            (if g.enrolled = 0 then some u.me.colour else none)).report 0 m))))

/-- The steps of a group load (R135 to R139). A request of an enrolled member whose key is nowhere yet is translated and its ask sent to the line's home; the first ask at a slice gets a
hold entry with its member marked, or joins its key's entry, or waits in the group queue of 8, whose head is admitted once an entry is free; a hold entry whose timer is zero, or which had
to fill before, fills: the line goes to the agent. A fill there puts the line into every member's scratchpad that it reaches, writes ASKED and SEQ, sends the members that asked their
completion, and leaves the agent. -/
def Sys2Proof.Claims.GroupLoadSteps : Prop :=
  ∀ (s : State) (ck sk k : Nat),
    (∀ a g m u x, (s.cluster ck).asks[k]? = some a → a.sent = none → a.waitPage = none → a.passed = none → g = s.groupDesc a.key.desc →
      g.formOk = true → (∀ i, i < 4 → s.peekPoison (a.key.desc + 64 * i) = false) → g.memberOf (tiOf a.tk) = some m →
      g.enrolled.getLsbD m = true → a.tag.colour = g.colour →
      g.offset + a.key.disp + 256 ≤ 4096 * (s.tile a.tk).spk.toNat → (∀ d ∈ (s.cluster ck).deliveries, d.key ≠ a.key) →
      (∀ b ∈ (s.cluster ck).asks, ¬ (b.key = a.key ∧ b.waitPage.isSome)) → (∀ p ∈ (s.cluster ck).pendingKeys, p.key ≠ a.key) →
      s.xlateEngine ck a.tag.colour a.key.line true false = (u, .ok x) → x.device = false →
      ∃ (t : State) (p : SliceAsk) (f : RingFlit), exec (.groupRequest ck k) s = .next t ∧ t.net = u.net ++ [f] ∧ f.cls = 0 ∧
        f.goal = sliceStop x.sk ∧ f.src = engineStop ck x.sk ∧ f.cargo = .ask x.sk p ∧ p.key = a.key ∧ p.member = m ∧
        p.pa = x.pa ∧ p.timer = g.timer ∧ (t.cluster ck).pendingKeys = (u.cluster ck).pendingKeys ++ [p] ∧
        (t.cluster ck).asks[k]? = some { a with sent := some m } ∧
        ∀ e ∈ (t.tile a.tk).store, e.2.state ≠ .group a.access) ∧
    (∀ a rest, (s.slice sk).asks = a :: rest →
      ((∀ h ∈ (s.slice sk).holds, ¬ (h.ask.key = a.key ∧ h.ask.ck = a.ck)) →
        ((s.slice sk).holds.length < 32 → (s.slice sk).groupQueue = [] → exec (.groupAsk sk 0) s =
          .next (((s.modSlice sk fun l => { l with asks := rest }).modSlice sk fun l =>
            { l with holds := l.holds ++ [⟨a, (1 : Word) <<< a.member, a.timer, none⟩] }).groupTest sk a.key.desc)) ∧
        ((s.slice sk).holds.length ≥ 32 ∨ (s.slice sk).groupQueue ≠ [] → (s.slice sk).groupQueue.length < 8 →
          ∃ t, exec (.groupAsk sk 0) s = .next t ∧
            (t.slice sk).groupQueue = (s.slice sk).groupQueue ++ [a] ∧ (t.slice sk).asks = rest)) ∧
      (∀ h, (s.slice sk).holdOf a = some h → h.cause = none → exec (.groupAsk sk 0) s =
        .next (((s.modSlice sk fun l => { l with asks := rest }).modSlice sk fun l =>
          { l with holds := l.holds.map fun x => if x = h then { h with asked := h.asked ||| ((1 : Word) <<< a.member) } else x }).groupTest
          sk a.key.desc))) ∧
    (∀ a rest, (s.slice sk).groupQueue = a :: rest → (∀ h ∈ (s.slice sk).holds, ¬ (h.ask.key = a.key ∧ h.ask.ck = a.ck)) →
      (s.slice sk).holds.length < 32 → exec (.groupQueueAdmit sk) s =
        .next (((s.modSlice sk fun l => { l with groupQueue := rest }).modSlice sk fun l =>
          { l with holds := l.holds ++ [⟨a, (1 : Word) <<< a.member, a.timer, none⟩] }).groupTest sk a.key.desc)) ∧
    (∀ h, (s.slice sk).holds[k]? = some h → h.cause.isSome = true ∨ h.timer = 0 →
      (s.colour h.ask.colour).poisoned = false → (s.colour h.ask.colour).state = .live → (s.slice sk).waits h.ask.pa = false →
      ∃ (t : State) (f : GroupFillMsg) (n : RingFlit), exec (.groupTimerExpiry sk k) s = .next t ∧ h ∉ (t.slice sk).holds ∧
        t.net = s.net ++ [n] ∧ n.cargo = .fill h.ask.ck f ∧ n.cls = 1 ∧ n.goal = engineStop h.ask.ck sk ∧ n.src = sliceStop sk ∧
        f.key = h.ask.key ∧ f.asked = h.asked ∧ f.byTimer = h.cause.getD true) ∧
    (∀ f, (s.cluster ck).fills[k]? = some f → s.lockedAnywhere f.key.desc = false → ∃ t, exec (.groupFill ck k) s = .next t ∧
      (t.cluster ck).fills = (s.cluster ck).fills.eraseIdx k ∧ (∀ p ∈ (t.cluster ck).pendingKeys, p.key ≠ f.key) ∧
      (∀ a ∈ (t.cluster ck).asks, ¬ (a.key = f.key ∧ ∃ m, a.sent = some m ∧ f.asked.getLsbD m = true)) ∧
      (∀ a ∈ (s.cluster ck).asks, ∀ m, a.key = f.key → a.sent = some m → f.asked.getLsbD m = true →
        (∀ x ∈ (t.tile a.tk).accesses, x.id = a.access → x.phase = .sent ∧ x.value = if f.byTimer then 1 else 0) ∧
        ∃ y ∈ (t.cluster (ckOf a.tk)).flits, y.cargo = .reply a.tk a.access ∧ y.dst = tiOf a.tk ∧ y.out = 4 ∧ y.vc = 2) ∧
      (∀ q ∈ f.members, ∀ o, o = (s.groupDesc f.key.desc).offset + f.key.disp →
        o + 256 ≤ 4096 * (s.tile (192 * ck + q.2)).spk.toNat →
        (s.tile (192 * ck + q.2)).tsWorld = (s.colour (s.groupDesc f.key.desc).colour).world →
        (s.tile (192 * ck + q.2)).scratch.wf = true → (s.tile (192 * ck + q.2)).parked = [] →
        ∀ i, i < 256 → Memory.read (t.tile (192 * ck + q.2)).scratch (o + i) = lineByte f.data i ∧
          (t.tile (192 * ck + q.2)).full.contains ((o + i) / 16) = true) ∧
      (Memory.wf s.dram = true → t.peekNat (f.key.desc + 16) 8 = f.asked.toNat ∧
        t.peekNat (f.key.desc + 24) 4 = ((s.groupDesc f.key.desc).seqNo + 1) % 2 ^ 32))
/-! Job cards (14_control_core.md R296; 03_formats.md R74; 09_block_transfer.md R178 to R187) -/

/-- `Claims.GroupMembership` and `Claims.GroupLoadSteps` together. -/
def Obligations.GroupLoadsServeMembers : Prop :=
  Claims.GroupMembership ∧ Claims.GroupLoadSteps

/-- `jsub` and CARD_ACCEPT (R296, R178, R74): the 64 bytes at xa are read and the context waits for the window of 32; with a free entry there the card
enters it and the context goes on. A card that a check refuses is done at once, with BADOP (fault code 1 for the opcode, 2 for a reserved or unused
field, 3 for MV), PRIV, RINGOFF or REGION as its status; another waits for the cards that it must follow. -/
def Obligations.CardsAreSubmitted : Prop :=
  ∀ (s u : State) (xa : Reg) (bs : List Byte) (b : BitVec 512),
    (s.coreRead (s.reg xa).toNat 64 = .done u bs → u.actor.ctx < 8 →
      ∃ t, exec (.jsub xa) s = .next t ∧ OnlyMe u t ∧ t.me = { u.me with park := .window (BitVec.ofNat 512 (bytesNat bs)) }) ∧
    (s.actor.ctx < 8 → s.me.park = .window b → (s.cluster s.actor.ck).cards.length < 32 →
      ∃ t c, exec (.cardAccept s.actor.ck s.actor.ctx) s = .next t ∧
        (t.cluster s.actor.ck).cards = (s.cluster s.actor.ck).cards ++ [c] ∧
        t.me = { s.me with pc := s.me.pc + 8, released := false, armed := false, park := .none } ∧
        c.bits = b ∧ c.world = s.me.world ∧ c.colour = s.me.colour ∧ c.ctx = s.actor.ctx ∧ c.id = s.nextId ∧
        (c.badOp ≠ 0 → c.state = .done ∧ c.status = 0x01 ∧ c.fault = c.badOp) ∧
        (c.badOp = 0 → c.op = 0x06 → s.me.world ≠ 0 → c.state = .done ∧ c.status = 0x02) ∧
        (c.badOp = 0 → ¬ (c.op = 0x06 ∧ s.me.world ≠ 0) → c.rv = true →
          ¬ ((s.ring c.ring).en = true ∧ (s.ring c.ring).world = s.me.world) → c.state = .done ∧ c.status = 0x03) ∧
        (c.badOp = 0 → ¬ (c.op = 0x06 ∧ s.me.world ≠ 0) →
          (c.rv = true → (s.ring c.ring).en = true ∧ (s.ring c.ring).world = s.me.world) → c.regionOk = false →
          c.state = .done ∧ c.status = 0x08) ∧
        (s.cardRefusal (Card.submitted s.nextId b s.actor.ctx s.me) = none → c.state = .waiting ∧
          ∀ i, i ∈ c.edges ↔ ∃ a ∈ (s.cluster s.actor.ck).cards, a.id = i ∧ a.refused = false ∧
            (Card.submitted s.nextId b s.actor.ctx s.me).after a = true))

/-- CARD_ISSUE (R179 to R186): the card that goes next takes its channel, and its work begins: the source and write regions of `copy`, the pattern of `fill`, the rows of `gather` and
`scatter`, the whole of `mcast` once its mask is read; `sync` is done at once. A gather through the fabric holds its two bound ports, or ends with status 0x09. -/
def Sys2Proof.Claims.CardsBegin : Prop :=
  ∀ (s u : State) (ck : Nat) (c : Card), (s.cluster ck).nextCard s.cycles = some c → (∀ d ∈ (s.cluster ck).cards, d.id = c.id → d = c) →
    u = s.cardTurn ck c →
    (c.fab = false → c.begun = false →
      (c.op = 0x01 → exec (.cardIssue ck) s = .next (u.modCard ck c.id fun x =>
        { x with begun := true, work := [.move (some (c.rd0.base, c.rd0.window)) [] c.wr.base c.count] })) ∧
      (c.op = 0x05 → exec (.cardIssue ck) s = .next (u.modCard ck c.id fun x =>
        { x with begun := true, work := [.move none [] c.wr.base c.count] })) ∧
      (c.op = 0x03 ∨ c.op = 0x04 → exec (.cardIssue ck) s = .next (u.modCard ck c.id fun x =>
        { x with begun := true, work := [.rows 0 c.rows] })) ∧
      (c.op = 0x02 → ∀ v bs, u.cardRead ck c.colour false c.maskp 24 3 = .done v (bs, false) →
        (∃ i, i < 192 ∧ bits (bytesNat bs) i i = 1) → exec (.cardIssue ck) s = .next (v.modCard ck c.id fun x =>
          { x with begun := true, work := [.chunk 0 c.count], dests := (List.range 192).filter fun i => bits (bytesNat bs) i i = 1 })) ∧
      (c.op = 0x07 → c.state = .waiting → c.failed = [] → exec (.cardIssue ck) s = .next (u.modCard ck c.id fun x =>
        { x with begun := true, work := [], state := .done, fault := 0, bytes := c.progress }))) ∧
    (c.fab = true →
      (∀ a b, (s.cluster ck).bindings.find? (fun b => b.phys = 32 + c.cport && b.isExit = false && b.colour = c.colour &&
          s.worldOfCtx ck b.ctx = some c.world) = some a →
        (s.cluster ck).bindings.find? (fun b => b.phys = 32 + c.rport && b.isExit = true && b.colour = c.colour &&
          s.worldOfCtx ck b.ctx = some c.world) = some b →
        ∃ (t : State) (d : Card), exec (.cardIssue ck) s = .next t ∧ d ∈ (t.cluster ck).cards ∧ d.id = c.id ∧ d.state = .fabric 0 0 false) ∧
      ((∀ b ∈ (s.cluster ck).bindings, ¬ (b.phys = 32 + c.cport ∧ b.isExit = false ∧ b.colour = c.colour ∧
          s.worldOfCtx ck b.ctx = some c.world)) ∨
        (∀ b ∈ (s.cluster ck).bindings, ¬ (b.phys = 32 + c.rport ∧ b.isExit = true ∧ b.colour = c.colour ∧
          s.worldOfCtx ck b.ctx = some c.world)) →
        ∃ (t : State) (d : Card), exec (.cardIssue ck) s = .next t ∧ d ∈ (t.cluster ck).cards ∧ d.id = c.id ∧ d.state = .done ∧
          d.status = worse c.status 0x09))

/-- How a card's work goes on (R180 to R187, R177), for the part that can. A chunk of at most 256 bytes is read from the source, or formed from the pattern of `fill`, and written up to the end of
the line, and the stretch counts as written; a poisoned line gives status 0x06; after the last part the card is done with status 0. A fault ends the card with status 0x04 and its
code; a page that is absent goes to the pager and the part waits. A row's index is read and gives the place of the row; a chunk of `mcast` goes to every receiver. -/
def Sys2Proof.Claims.CardsWork : Prop :=
  ∀ (s u : State) (ck i : Nat) (c : Card) (w : CardWork), (s.cluster ck).nextCard s.cycles = some c →
    (∀ d ∈ (s.cluster ck).cards, d.id = c.id → d = c) → u = s.cardTurn ck c → c.fab = false → c.begun = true →
    c.nextWork [] 0 c.work = some (i, w) →
    (∀ (src : Option (Nat × Bool)) (given : List (Byte × Bool)) (dst n : Nat) (ps : List (Byte × Bool)) (bad : Bool)
      (v v' : State), w = .move src given dst n → n ≠ 0 → c.failed = [] →
      (match src with
        | some a => u.cardReadTwo ck c a.2 a.1 (min n (256 - dst % 256)) = .done v ps
        | none => v = u ∧ given = [] ∧ ps = (List.range (min n (256 - dst % 256))).map fun j => (c.plain (dst + j), bad)) →
      (∀ p ∈ ps, p.2 = bad) → (src = none → bad = false) →
      v.cardWrite ck c.colour c.wr.window dst (ps.map (·.1)) bad = .done v' () →
      ∃ (t : State) (d : Card), exec (.cardIssue ck) s = .next t ∧ d ∈ (t.cluster ck).cards ∧ d.id = c.id ∧
        t = { v' with clusters := t.clusters } ∧
        d.written = addStretch (dst - c.wr.base, min n (256 - dst % 256)) c.written ∧
        d.status = worse c.status (if bad then 0x06 else 0) ∧
        (n = min n (256 - dst % 256) → c.work = [w] → c.state = .running →
          d.state = .done ∧ d.fault = 0 ∧ d.work = [])) ∧
    (∀ (v : State) (k va : Nat), u.cardWorks ck c w = .stop v k va → ∃ (t : State) (d : Card), exec (.cardIssue ck) s = .next t ∧
      d ∈ (t.cluster ck).cards ∧ d.id = c.id ∧ d.state = .done ∧ d.status = worse c.status 0x04 ∧ d.fault = k) ∧
    (∀ (v : State) (va : Nat) (ws : List CardWork), u.cardWorks ck c w = .waits v va ws → ∃ (t : State), exec (.cardIssue ck) s = .next t ∧
      (⟨dieOf ck, c.colour, .page (va / 2 ^ 14)⟩ : FaultToken) ∈ t.faultTokens) ∧
    (∀ (j n : Nat) (v : State) (bs : List Byte), w = .rows j n → u.cardRead ck c.colour c.rd1.window (c.rd1.base + c.indexBytes * j) c.indexBytes 3 = .done v (bs, false) →
      c.op = 0x03 → (bytesNat bs + 1) * c.rowb ≤ c.rd0.len →
      exec (.cardIssue ck) s = .next (v.modCard ck c.id fun x => x.leaves i
        (.move (some (c.rd0.base + bytesNat bs * c.rowb, c.rd0.window)) [] (c.wr.base + j * c.rowb) c.rowb ::
          if n = 1 then [] else [.rows (j + 1) (n - 1)]))) ∧
    (∀ (off n : Nat) (v : State) (ps : List (Byte × Bool)), w = .chunk off n → u.cardReadTwo ck c c.rd0.window (c.rd0.base + off) (min n 256) = .done v ps →
      ∃ (t : State), exec (.cardIssue ck) s = .next t ∧ ∀ ti ∈ c.dests, ∀ (o : Nat), o = c.wr.base % 65536 + off → o + ps.length ≤ 65536 → ti < 192 →
        v.spCheck ck c.colour (65536 * ti + o) ps.length = .ok (192 * ck + ti, o) →
        (v.tile (192 * ck + ti)).scratch.wf = true → (v.tile (192 * ck + ti)).parked = [] →
        ∀ j, j < ps.length → Memory.read (t.tile (192 * ck + ti)).scratch (o + j) = (ps.getD j (0, false)).1)

/-- How a card ends, and CARD_COMPLETE (R187, R178): the end sets the card's state, the worse of two statuses, the code, and BYTES: the longest prefix of its write region that
has been written. A card that is done leaves the window, and with RV its record goes to its ring, or to its world's own ring where that was refused, with its TAG, STATUS,
FAULT and BYTES, and names the JOIN word to be decremented after it. -/
def Sys2Proof.Claims.CardsComplete : Prop :=
  ∀ (s : State) (ck k st fault : Nat) (c : Card), (s.cluster ck).cards[k]? = some c →
    (∃ d, ((s.cardEnd ck c st fault).cluster ck).cards[k]? = some d ∧
      d = { c with state := .done, status := worse c.status st, fault := fault, bytes := c.progress, work := [] } ∧
      (c.op ≠ 0x06 → (c.written = [] → d.bytes = 0) ∧ ∀ n r, c.written = (0, n) :: r → d.bytes = n) ∧
      (s.cardEnd ck c st fault).tiles = s.tiles ∧ (s.cardEnd ck c st fault).dram = s.dram) ∧
    (c.state = .done → c.rv = true → ∃ t r, exec (.cardComplete ck k) s = .next t ∧
      (t.cluster ck).cards = (s.cluster ck).cards.eraseIdx k ∧ t.records = s.records ++ [r] ∧
      r.ring = (if c.status = 0x03 then c.world.toNat else c.ring) ∧ r.unit = ck ∧
      r.producer = c.world ∧ r.kind = 0x01 ∧ r.status = BitVec.ofNat 8 c.status ∧ r.fault = BitVec.ofNat 8 c.fault ∧
      r.colour = c.colour ∧ r.bytes = BitVec.ofNat 32 c.bytes ∧ r.tag = BitVec.ofNat 64 c.tag ∧ r.time = s.timebase ∧
      r.join = (if c.jv then some ⟨ck, c.colour, c.join⟩ else none)) ∧
    (c.state = .done → c.rv = false → c.jv = false → ∃ t, exec (.cardComplete ck k) s = .next t ∧
      t = s.modCluster ck fun x => { x with cards := x.cards.eraseIdx k }) ∧
    (c.state = .done → c.rv = false → c.jv = true → ∃ t, exec (.cardComplete ck k) s = .next t ∧
      t = (s.modCluster ck fun x => { x with cards := x.cards.eraseIdx k }).joinWord ⟨ck, c.colour, c.join⟩)

/-- `Claims.CardsBegin`, `Claims.CardsWork` and `Claims.CardsComplete` together. -/
def Obligations.CardsRunAndComplete : Prop :=
  Claims.CardsBegin ∧ Claims.CardsWork ∧ Claims.CardsComplete

/-! Objects (19_objects.md R353 to R365) -/

/-- The result of an object instruction (R356) from state `u`: CCSTS has the status, xd the result, or zero where the status is not OK. -/
def Sys2Proof.Claims.ObjectResult (u t : State) (xd : Reg) (status v : Nat) : Prop :=
  OnlyMe u t ∧ t.me.stsStatus = BitVec.ofNat 8 status ∧ t.me.stsValue = 0 ∧ t.me.pc = u.me.pc + 8 ∧
    ∀ r, t.reg r = if r = 0 then 0 else if r = xd then (if status = 0 then BitVec.ofNat 64 v else 0) else u.reg r
/-- The acting context and every table but the objects and their memory are as before. -/
def Sys2Proof.Claims.OnlyObjects (s u : State) : Prop :=
  u.me = s.me ∧ u.actor = s.actor ∧ u.tiles = s.tiles ∧ u.colours = s.colours ∧ u.rings = s.rings ∧ u.records = s.records

/-- `onew` (R357). A size of 0, or of more than 2^38 - 2^14 bytes, or a home that is none gives FORMAT; with a free entry and a lowest run of free granules the object is
LIVE there, of the acting world, with one reference of the kind asked, and xd holds its handle; a reclaim candidate is destroyed where room is lacking, and the instruction is issued again;
NOSPACE where there is none. -/
def Sys2Proof.Claims.ObjectsAreCreated : Prop :=
  ∀ (s : State) (xd xa : Reg) (imm : BitVec 32) (size d n : Nat), s.actor.ctx < 8 → size = (s.reg xa).toNat →
    d = (if imm.toNat / 32 % 8 = 0 then dieOf s.actor.ck else imm.toNat / 32 % 8 - 1) → n = (size + 2 ^ 14 - 1) / 2 ^ 14 →
    (size = 0 ∨ size > 2 ^ 38 - 2 ^ 14 ∨ imm.toNat / 32 % 8 ≥ 5 →
      ∃ t, exec (.onew xd xa imm) s = .next t ∧ Claims.ObjectResult s t xd 0x01 0) ∧
    (¬ (size = 0 ∨ size > 2 ^ 38 - 2 ^ 14 ∨ imm.toNat / 32 % 8 ≥ 5) →
      (∀ i g, s.heapOn d s.me.world.toNat = true → freeObject (s.die d).objects (2 ^ 21 - 1) 1 = some i →
        s.heapFit d s.me.world.toNat n = some g →
        ∃ u t, exec (.onew xd xa imm) s = .next t ∧ Claims.OnlyObjects s u ∧
          Claims.ObjectResult u t xd 0 (Handle.mk (!imm.getLsbD 4) d i (s.object d i).gen.toNat 0).toNat ∧
          u.object d i = { ObjectEntry.reset with
            gen := (s.object d i).gen, base := s.heapBase d s.me.world.toNat + 2 ^ 14 * g, size := n, world := s.me.world
            hdie := BitVec.ofNat 2 d, prio := BitVec.ofNat 4 (imm.toNat % 16), state := .live
            strong := if imm.getLsbD 4 then 0 else 1, weak := if imm.getLsbD 4 then 1 else 0, touch := s.touchNow } ∧
          ∀ j, j ≠ i → u.object d j = s.object d j) ∧
      (∀ i, s.heapOn d s.me.world.toNat = true →
        (freeObject (s.die d).objects (2 ^ 21 - 1) 1 = none ∨ s.heapFit d s.me.world.toNat n = none) →
        s.candidate d s.me.world.toNat = some i → exec (.onew xd xa imm) s = .next (s.destroyObject d i)) ∧
      (s.heapOn d s.me.world.toNat = false → ∃ t, exec (.onew xd xa imm) s = .next t ∧ Claims.ObjectResult s t xd 0x14 0))

/-- `oup`, `oweak`, `orel` and `oprio` (R358, R361). On a LIVE entry of the handle's generation and of the acting world: `oup` adds a strong reference to a weak handle and
returns the strong one, `oweak` adds a weak one, `orel` takes one of the handle's kind and destroys an entry that has none left, `oprio` sets priority and prefetch; each
sets TOUCH. A malformed handle gives FORMAT, a stale one STALE (`orel` of a weak handle: OK), a full or empty count COUNT. -/
def Sys2Proof.Claims.ObjectReferences : Prop :=
  ∀ (s : State) (xd xa : Reg) (imm : BitVec 32) (h : Handle), s.actor.ctx < 8 → h = Handle.ofNat (s.reg xa).toNat →
    (h.formOk = false →
      (∀ i ∈ [Instr.oup xd xa, Instr.oweak xd xa], ∃ t, exec i s = .next t ∧ Claims.ObjectResult s t xd 0x01 0) ∧
      (∀ i ∈ [Instr.orel xa, Instr.oprio xa imm], ∃ t, exec i s = .next t ∧ Claims.Reports s t 0x01 0)) ∧
    (h.formOk = true → s.liveObject s.me.world h = none →
      (∀ i ∈ [Instr.oup xd xa, Instr.oweak xd xa], ∃ t, exec i s = .next t ∧ Claims.ObjectResult s t xd 0x15 0) ∧
      (∃ t, exec (.orel xa) s = .next t ∧ Claims.Reports s t (if h.strong then 0x15 else 0) 0)) ∧
    (∀ e, h.formOk = true → s.liveObject s.me.world h = some e →
      (h.strong = true → ∃ u t, exec (.oup xd xa) s = .next t ∧ Claims.OnlyObjects s u ∧
        Claims.ObjectResult u t xd 0 h.toNat ∧ u.object h.die h.index = { e with touch := s.touchNow }) ∧
      (h.strong = false → e.strong ≠ 65535 → ∃ u t, exec (.oup xd xa) s = .next t ∧ Claims.OnlyObjects s u ∧
        Claims.ObjectResult u t xd 0 { h with strong := true }.toNat ∧
        u.object h.die h.index = { e with strong := e.strong + 1, touch := s.touchNow }) ∧
      (e.weak ≠ 65535 → ∃ u t, exec (.oweak xd xa) s = .next t ∧ Claims.OnlyObjects s u ∧
        Claims.ObjectResult u t xd 0 { h with strong := false }.toNat ∧
        u.object h.die h.index = { e with weak := e.weak + 1, touch := s.touchNow }) ∧
      (e.weak = 65535 → ∃ t, exec (.oweak xd xa) s = .next t ∧ Claims.ObjectResult s t xd 0x19 0) ∧
      ((if h.strong then e.strong else e.weak) = 0 → ∃ t, exec (.orel xa) s = .next t ∧ Claims.Reports s t 0x19 0) ∧
      ((if h.strong then e.strong else e.weak) ≠ 0 → ∃ t, exec (.orel xa) s = .next t ∧
        t = (s.setCounts h.die h.index (if h.strong then { e with touch := s.touchNow, strong := e.strong - 1 }
          else { e with touch := s.touchNow, weak := e.weak - 1 })).report 0 0) ∧
      (imm.getLsbD 4 = false → imm.toNat / 32 % 512 = 0 → ∃ u t, exec (.oprio xa imm) s = .next t ∧ Claims.OnlyObjects s u ∧
        Claims.Reports u t 0 0 ∧ u.object h.die h.index =
          { e with prio := BitVec.ofNat 4 imm.toNat, pfen := false, pfcol := 0, touch := s.touchNow }))

/-- `oname`, `ofind` and `odisc` (R360, R363). `oname` of a live unnamed object whose key has no record writes the lowest free record of the key's bucket and points the entry at it; `ofind` finds the world's record and
adds a weak reference to the live object it names; a key that is not there gives NOTFOUND, one that is there already KEYDUP, a full bucket KEYFULL. `odisc` of an object whose
pages all translate drops the cached lines of its pages without write-back. -/
def Sys2Proof.Claims.ObjectNames : Prop :=
  ∀ (s u : State) (xd xa xb : Reg) (bs : List Byte) (key d b : Nat), u.actor.ctx < 8 → key = bytesNat bs →
    (d, b) = u.keyBucket key → (u.die d).ktEn = true →
    (∀ h, h = Handle.ofNat (s.reg xa).toNat → h.formOk = true → h.strong = true → s.coreRead (s.reg xb).toNat 32 = .done u bs →
      ((u.keyMatch d b u.me.world key).isSome = true → ∃ t, exec (.oname xa xb) s = .next t ∧ Claims.Reports u t 0x17 0) ∧
      (u.keyMatch d b u.me.world key = none →
        (u.keyFree d b = none → ∃ t, exec (.oname xa xb) s = .next t ∧ Claims.Reports u t 0x18 0) ∧
        (∀ k e, u.keyFree d b = some k → u.liveObject u.me.world h = some e → e.keyp = 0 →
          ∃ v t, exec (.oname xa xb) s = .next t ∧ Claims.OnlyObjects u v ∧ Claims.Reports v t 0 0 ∧
            Map.get? (v.die d).keys k = some ⟨u.me.world, BitVec.ofNat 64 { h with strong := false }.toNat, BitVec.ofNat 256 key⟩ ∧
            v.object h.die h.index = { e with keyp := u.keyAddr d k, touch := u.touchNow }))) ∧
    (s.coreRead (s.reg xa).toNat 32 = .done u bs →
      (u.keyMatch d b u.me.world key = none → ∃ t, exec (.ofind xd xa) s = .next t ∧ Claims.ObjectResult u t xd 0x16 0) ∧
      (∀ k r e, u.keyMatch d b u.me.world key = some (k, r) →
        u.liveObject u.me.world (Handle.ofNat r.handle.toNat) = some e → e.weak ≠ 65535 →
        ∃ v t, exec (.ofind xd xa) s = .next t ∧ Claims.OnlyObjects u v ∧ Claims.ObjectResult v t xd 0 r.handle.toNat ∧
          v.object (Handle.ofNat r.handle.toNat).die (Handle.ofNat r.handle.toNat).index =
            { e with weak := e.weak + 1, touch := u.touchNow })) ∧
    (∀ h e, s.actor.ctx < 8 → h = Handle.ofNat (s.reg xa).toNat → h.formOk = true → h.strong = true →
      s.liveObject s.me.world h = some e → s.rangeFault s.me.colour e.base e.size = none →
      s.dropWaits (s.mappedIn s.me.colour (e.base / 2 ^ 14) e.size) = false →
      ∃ t, exec (.odisc xa) s = .next t ∧
        t = (s.dropLines (s.mappedIn s.me.colour (e.base / 2 ^ 14) e.size)).report 0 0 ∧ t.dram = s.dram ∧ t.dies = s.dies)

/-- `Claims.ObjectReferences` and `Claims.ObjectNames` together. -/
def Obligations.ObjectsAreReferencedAndNamed : Prop :=
  Claims.ObjectReferences ∧ Claims.ObjectNames

/-- Destruction and reclamation (R354, R364, R365; OBJECT_RECLAIM): a destroyed entry's generation goes up and its counts, key and prefetch are cleared; it is DYING while it is
pinned, RETIRED where its generation has run out, FREE otherwise. OBJECT_RECLAIM destroys the first candidate where the free granules number fewer than LOW; PREFETCH_NOTICE touches the live objects
that name its colour and leaves. -/
def Sys2Proof.Claims.ObjectDestruction : Prop :=
  ∀ (s : State) (d i w : Nat) (e : ObjectEntry), e = s.object d i →
    (∃ x, x = (s.destroyObject d i).object d i ∧ x.gen = e.gen + 1 ∧ x.strong = 0 ∧ x.weak = 0 ∧ x.keyp = 0 ∧ x.pfen = false ∧
      x.pin = e.pin ∧ x.state = (if e.pin ≠ 0 then .dying else if e.gen + 1 = 0 then .retired else .free)) ∧
    (s.heapOn d w = true → s.heapFree d w < s.heapLow d w → s.candidate d w = some i →
      exec (.objectReclaim d w) s = .next (s.destroyObject d i)) ∧
    (∀ k c, s.prefetches[k]? = some (d, c) → ∃ t, exec (.prefetchNotice k) s = .next t ∧
      t.prefetches = s.prefetches.eraseIdx k ∧ t.colours = s.colours ∧ t.rings = s.rings)
/-! Freeze, thaw, snapshots, debugging and plane swaps (14_control_core.md R304; 21_faults_preemption.md R377 to R385; 16_scheduling.md R327 to R329) -/

/-- `Claims.ObjectsAreCreated` and `Claims.ObjectDestruction` together. -/
def Obligations.ObjectsAreCreatedAndDestroyed : Prop :=
  Claims.ObjectsAreCreated ∧ Claims.ObjectDestruction

/-- `freeze` and `thaw` (R304, R377, R378; one word, whose bit xa[8] chooses). Outside world 0 the instruction raises PRIVILEGED. In world 0, with xa naming a world from 1 on:
a world that holds nothing is frozen at once, another begins a scan of its clusters and the context waits; a thaw of a world that is not frozen gives STATE, and one whose tiles
no longer hold its words NOREGION; else the scan begins, or a world that held nothing is thawed at once. FREEZE_SCAN_COMPLETE ends a scan 2,600 cycles after it began, and the instruction issued again reports the number of
clusters. -/
def Sys2Proof.Claims.FreezeAndThaw : Prop :=
  ∀ (s : State) (xa : Reg) (v : Nat) (w : World), s.actor.ctx < 8 → v = (s.reg xa).toNat → w = BitVec.ofNat 6 v →
    ∀ i ∈ [Instr.freeze xa, Instr.thaw xa],
    (s.me.world ≠ 0 → ∃ t, exec i s = .next t ∧ Claims.Traps s t 0x03 0 0 0) ∧
    (s.me.world = 0 → s.me.armed = false →
      (v ≥ 512 ∨ v / 64 % 4 ≠ 0 → ∃ t, exec i s = .next t ∧ Claims.Reports s t 0x01 0) ∧
      (v < 512 → v / 64 % 4 = 0 → w = 0 → ∃ t, exec i s = .next t ∧ Claims.Reports s t 0x02 0) ∧
      (v < 64 → w ≠ 0 → s.isFrozen w = true → ∃ t, exec i s = .next t ∧ Claims.Reports s t 0 0) ∧
      (v < 64 → w ≠ 0 → s.isFrozen w = false → ∃ t, exec i s = .next t ∧
        t.frozen = Map.put s.frozen w.toNat ⟨s.cycles, s.clustersOf w, s.clustersOf w, false, [], [], [], [], []⟩ ∧
        t = { s with clusters := t.clusters, frozen := t.frozen } ∧
        (s.clustersOf w = [] → t.me.stsStatus = 0 ∧ t.me.pc = s.me.pc + 8) ∧
        (s.clustersOf w ≠ [] → t.me = { s.me with armed := true, park := .scan })) ∧
      (256 ≤ v → v < 320 → w ≠ 0 →
        (s.isFrozen w = false → ∃ t, exec i s = .next t ∧ Claims.Reports s t 0x13 0) ∧
        (∀ x, Map.get? s.frozen w.toNat = some x → x.scanning = [] →
          (s.thawOk w x = false → ∃ t, exec i s = .next t ∧ Claims.Reports s t 0x10 0) ∧
          (s.thawOk w x = true → x.clusters ≠ [] → ∃ t, exec i s = .next t ∧
            t.frozen = Map.put s.frozen w.toNat { x with since := s.cycles, scanning := x.clusters, thawing := true } ∧
            t.me = { s.me with armed := true, park := .scan }) ∧
          (s.thawOk w x = true → x.clusters = [] → ∃ t, exec i s = .next t ∧ t.frozen = Map.del s.frozen w.toNat ∧
            t.me.stsStatus = 0 ∧ t.me.pc = s.me.pc + 8)))) ∧
    (s.me.world = 0 → s.me.armed = true → ∀ x, Map.get? s.frozen w.toNat = some x → x.scanning = [] →
      ∃ t, exec i s = .next t ∧ Claims.Reports s t 0 x.clusters.length) ∧
    (∀ x, Map.get? s.frozen w.toNat = some x → x.scanning ≠ [] → x.since + 2600 ≤ s.cycles →
      exec (.freezeScanComplete w.toNat) s =
        .next (if x.thawing then (s.thawEnd w x).wakeScan else (s.freezeEnd w x).wakeScan))

/-- What the scan of a freeze takes from a tile (R377): its matching store is empty afterwards, its latch is gone, and the freeze area holds the tile's entries, the plane's words and its
reservations; the tile has changed to another plane. -/
def Sys2Proof.Claims.FrozenTilesAreEmpty : Prop :=
  ∀ (s : State) (w : World) (tk : Nat), (s.tile tk).restored = [] →
    (∀ x ∈ s.thawing, x.tk ≠ tk) →
    ∃ t x, s.freezeTile w tk = (t, x) ∧ x.tk = tk ∧ x.plane = (s.tile tk).plane.toNat ∧ x.store = (s.tile tk).store ∧
      x.latch = (s.tile tk).latch ∧ x.words = ((s.tile tk).slots.filter fun e => e.1 / 64 = x.plane).map (fun e => (e.1, e.2.word)) ∧
      (t.tile tk).store = [] ∧ (t.tile tk).latch = none ∧ (t.tile tk).plane ≠ (s.tile tk).plane ∧
      (t.tile tk).slots = (s.tile tk).slots ∧ (t.tile tk).scratch = (s.tile tk).scratch ∧ ∀ k, k ≠ tk → t.tile k = s.tile k

/-- `Claims.FreezeAndThaw` and `Claims.FrozenTilesAreEmpty` together. -/
def Obligations.FreezesAndThaws : Prop :=
  Claims.FreezeAndThaw ∧ Claims.FrozenTilesAreEmpty

/-- `snap` (R304, R379, R380). With no snapshot of the world under way and its area enabled, every RUNNING context of the world in the cluster gets a snapshot, and a marker goes in at each of its entry ports; the
number is IMM[14:0] and STOP is IMM[15]. A snapshot under way gives STATE 7, no area FORMAT. MARKER_ARRIVAL keeps a forward marker's count at its tile, and a back edge's at the
snapshot. -/
def Sys2Proof.Claims.SnapshotsBegin : Prop :=
  ∀ (s : State) (imm : BitVec 16) (ck k : Nat), s.actor.ctx < 8 → ck = s.actor.ck →
    ((∃ n ∈ (s.cluster ck).snapshots, s.worldOfCtx ck n.ctx = some s.me.world) →
      ∃ t, exec (.snap imm) s = .next t ∧ Claims.Reports s t 0x07 0) ∧
    ((∀ n ∈ (s.cluster ck).snapshots, s.worldOfCtx ck n.ctx ≠ some s.me.world) →
      ((Map.get (s.die (dieOf ck)).snap s.me.world.toNat 0).toNat % 2 = 0 →
        ∃ t, exec (.snap imm) s = .next t ∧ Claims.Reports s t 0x01 0) ∧
      ((Map.get (s.die (dieOf ck)).snap s.me.world.toNat 0).toNat % 2 = 1 →
        ∃ t new, exec (.snap imm) s = .next t ∧ t.me.stsStatus = 0 ∧ t.me.pc = s.me.pc + 8 ∧ t.tiles = s.tiles ∧ t.dram = s.dram ∧
          (t.cluster ck).snapshots = (s.cluster ck).snapshots ++ new ∧
          (new.map fun n => n.ctx) =
            ((s.cluster ck).launches.filter fun l => l.2.world = s.me.world && l.2.state = .running).map (·.1) ∧
          (∀ n ∈ new, n.number = imm.toNat % 2 ^ 15 ∧ n.stop = imm.getLsbD 15 ∧ n.tiles = [] ∧ n.caught = []) ∧
          ∀ l ∈ (s.cluster ck).launches, l.2.world = s.me.world → l.2.state = .running → ∀ g ∈ l.2.ports, g.isExit = false →
            ∃ f ∈ (t.cluster ck).flits, ∃ m, f.cargo = .marker m ∧ f.vc = 3 ∧ f.dst = g.ti ∧ m.dst = g.ti ∧ m.ctx = l.1 ∧
              m.number = imm.toNat % 2 ^ 15 ∧ m.edge.src = 192 + g.phys ∧ m.back = false)) ∧
    (∀ m, (s.cluster ck).markers[k]? = some m → s.scanning ck = false → ∃ t, exec (.markerArrival ck k) s = .next t ∧
      (t.cluster ck).markers = (s.cluster ck).markers.eraseIdx k ∧
      (m.back = false → (t.tile (192 * ck + m.dst)).markers = (s.tile (192 * ck + m.dst)).markers ++ [(m.ctx, m.edge, m.count)]) ∧
      (m.back = true → ∀ n ∈ (t.cluster ck).snapshots, n.ctx = m.ctx → (m.edge, m.count) ∈ n.closed))

/-- SNAPSHOT_TILE_SAVE and SNAPSHOT_COMPLETE (R380, R381). Once its save condition holds and its units, accesses and own tokens are quiet, a tile whose plane has one context under snapshot adds its registers, scratchpad, entries and
counts to the snapshot and flips EPOCH of the plane. Once every tile has saved, the image is written to the world's area and the state is kept; with STOP the context ends with status 4, otherwise a record with status
3 is sent and the context goes on. -/
def Sys2Proof.Claims.SnapshotsComplete : Prop :=
  ∀ (s : State) (tk ck ctx : Nat) (l : Launch), ck = ckOf tk → s.launch? ck ctx = some l → s.isFrozen l.world = false →
    (s.saveDue tk ctx = true → (s.tile tk).quietPlane l.plane = true → s.savedTogether tk ctx = [(ctx, l)] →
      (∀ f ∈ (s.cluster ck).flits, ∀ e p id b x, f.cargo = .token e p id b x →
        ¬ (e.src = tiOf tk ∧ f.dst = tiOf tk ∧ p = l.plane)) →
      ∃ t, exec (.snapshotTileSave tk ctx) s = .next t ∧ ctx ∈ (t.tile tk).savedFor ∧
        (t.tile tk).epochs = (s.tile tk).epochs ^^^ ((1 : BitVec 4) <<< l.plane) ∧ (t.tile tk).store = (s.tile tk).store ∧
        (∀ n ∈ (t.cluster ck).snapshots, n.ctx = ctx → n.tiles.getLast? = some (s.savedTile tk ctx l)) ∧
        (s.savedTile tk ctx l).scratch = (s.tile tk).scratch ∧
        ((s.tile tk).plane.toNat = l.plane → (s.savedTile tk ctx l).regs = (s.tile tk).regs)) ∧
    (∀ n u reg va, s.snapshotOf ck ctx = some n → s.snapshotReady ck n l = true →
      reg = (Map.get (s.die (dieOf ck)).snap l.world.toNat 0).toNat →
      va = reg / 2 ^ 14 % 2 ^ 33 * 2 ^ 14 + (2048 * (ck % 16) + ctx) * 2 ^ (reg / 2 % 32) →
      (s.imageBytes ck l n.tiles s.snaps.length).length ≤ 2 ^ (reg / 2 % 32) →
      s.engineWrite ck (BitVec.ofNat 9 (reg / 2 ^ 55)) va (s.imageBytes ck l n.tiles s.snaps.length) false
        ((s.imageBytes ck l n.tiles s.snaps.length).length / 256 + 2) = .done u () →
      exec (.snapshotComplete ck ctx) s = .next (u.snapshotDone ck n l) ∧
      (u.snapshotDone ck n l).snaps = u.snaps ++ [u.snapImage ck n l] ∧
      (u.snapImage ck n l).tiles = n.tiles ∧ (u.snapImage ck n l).ports = n.ports)

/-- `Claims.SnapshotsBegin` and `Claims.SnapshotsComplete` together. -/
def Obligations.SnapshotsSaveTheirLaunch : Prop :=
  Claims.SnapshotsBegin ∧ Claims.SnapshotsComplete

/-- BREAKPOINT_MATCH and DEBUG_RESUME (R383, R384): the ready tag that a breakpoint stops, of the first unit of the tile that has one, is latched with its slot and unit, nothing fires, and its world enters a debug stop; DEBUG_RESUME takes
the world out of it, and its latched tags go first. -/
def Sys2Proof.Claims.DebugStops : Prop :=
  ∀ (s : State),
    (∀ tk slot opc f m w q, s.slotOp tk (s.tile tk).plane.toNat slot = some (opc, f) → slot < 64 →
      q = (⟨tk, (s.tile tk).plane.toNat, slot, opc, f⟩ : Site) → s.breakMatch q = some m →
      (∀ k, k < 64 → k ≠ slot → s.slotOp tk (s.tile tk).plane.toNat k = none) → s.worldOfCtx (ckOf tk) m.tag.ctx.toNat = some w →
      ∃ t, exec (.breakpointMatch tk slot) s = .next t ∧ (t.tile tk).latch = some ⟨m.tag, slot, q.unit⟩ ∧
        (t.tile tk).store = (s.tile tk).store ∧ w.toNat ∈ t.debugStops ∧ t.clusters = s.clusters ∧ t.dram = s.dram) ∧
    (∀ world, world ∈ s.debugStops → ∃ t, exec (.debugResume world) s = .next t ∧ world ∉ t.debugStops ∧
      t.clusters = s.clusters ∧ t.dram = s.dram ∧
      ∀ e ∈ s.tiles, ∀ d w, e.2.latch = some d → s.worldOfCtx (ckOf e.1) d.tag.ctx.toNat = some w → w.toNat = world →
        (e.1, { e.2 with resume := true }) ∈ t.tiles)

/-- PLANE_SWAP and SWAP_DRAIN_EXPIRY (R327 to R329): a tile without a swap begins one for the plane that its demand names, from this cycle on; a drained tile changes to its target 64 cycles after the exchange of registers began, with the registers of the incoming world and those of the outgoing one saved; entries that
still wait 4,096 cycles after the swap began are acted on with status SWAP. -/
def Sys2Proof.Claims.PlaneSwaps : Prop :=
  ∀ (s : State) (tk : Nat),
    (∀ p, (s.tile tk).swap = none → s.planeDemand tk = some p → ∃ t, exec (.planeSwap tk) s = .next t ∧
      (t.tile tk).swap = some ⟨p, s.cycles, none⟩ ∧ (t.tile tk).plane = (s.tile tk).plane) ∧
    (∀ w, (s.tile tk).swap = some w → (s.tile tk).drained = true → s.scanning (ckOf tk) = false → w.exchange = none →
      ∃ t, exec (.planeSwap tk) s = .next t ∧ (t.tile tk).swap = some { w with exchange := some s.cycles } ∧
        (t.tile tk).plane = (s.tile tk).plane) ∧
    (∀ w out into since, (s.tile tk).swap = some w → (s.tile tk).drained = true → s.scanning (ckOf tk) = false → w.target < 4 →
      w.exchange = some since → since + 64 ≤ s.cycles →
      s.planeWorld tk (s.tile tk).plane.toNat = some out → s.planeWorld tk w.target = some into → out ≠ into →
      (∀ x ∈ s.thawing, x.tk ≠ tk) → (s.tile tk).restored = [] →
      ∃ t, exec (.planeSwap tk) s = .next t ∧ (t.tile tk).plane.toNat = w.target ∧ (t.tile tk).swap = none ∧
        (t.tile tk).regs = Map.get (s.tile tk).saved into.toNat FabRegs.reset ∧
        Map.get (t.tile tk).saved out.toNat FabRegs.reset = (s.tile tk).regs ∧ (t.tile tk).scratch = (s.tile tk).scratch) ∧
    (∀ w, (s.tile tk).swap = some w → s.cycles ≥ w.since + 4096 →
      exec (.swapDrainExpiry tk) s = .next (((s.tile tk).store.filter fun e => e.2.state = .wait && !e.2.spilling).foldl
        (fun s e => s.actOn tk e.1 e.2 0x04) s))

/-- `Claims.DebugStops` and `Claims.PlaneSwaps` together. -/
def Obligations.DebugStopsAndPlaneSwaps : Prop :=
  Claims.DebugStops ∧ Claims.PlaneSwaps

/-! The fabric: the firing rule, results, routing and the narrow plane (02_tokens.md R30, R34, R43, R44, R47;
10_ops_routing.md R191 to R209) -/

/-- The match `m` fires now at the acting slot: it is the first of the slot's ready tags, its unit has not started in this
cycle, no other slot's tag goes first, no request ahead of it takes the last entries at a destination (R42), the slot has not counted
a stall in this cycle, and no poisoned address, predicate or guard ends it. -/
def Sys2Proof.Claims.Fires (s : State) (opc : Nat) (f : OpFields) (m : Match) : Prop :=
  s.best (s.site opc f) = some m ∧ s.unitBusy (s.site opc f) = false ∧ s.outranked (s.site opc f) m = false ∧
    s.yields (s.site opc f) m = false ∧ ((s.tile s.actor.tk).slot (s.site opc f).key).countedAt ≠ s.cycles + 1 ∧
    poisonEnds opc m = false

/-- The state once the operands of a firing have left the store, its unit is in use, and the destinations know the input that
they granted. -/
def Sys2Proof.Claims.taken (s : State) (opc : Nat) (f : OpFields) (m : Match) : State :=
  ((s.consume (s.site opc f).tk m.operands).started (s.site opc f)).pointGrants (s.site opc f) m

/-- A data firing whose result tag is `t`: `u` is the state once TAGOP has read L. -/
def Sys2Proof.Claims.Ready (s : State) (opc : Nat) (f : OpFields) (m : Match) (u : State) (t : Tag) : Prop :=
  Claims.Fires s opc f m ∧ m.eos = false ∧
    ∃ v, (Claims.taken s opc f m).lValue m = (u, v) ∧ u.tagOp (s.site opc f).ck f.tagop m.tag v = some t

/-- The state after a data firing with the payload `p` for every destination, L's credit on the first token. -/
def Sys2Proof.Claims.answer (s : State) (opc : Nat) (f : OpFields) (m : Match) (u : State) (t : Tag) (p : Payload) : State :=
  u.output (s.site opc f) m ((s.site opc f).toAll p t) (m.at? .l)

/-- The opcodes whose EOS does not take the default of R34: `lcarry`, `lvpop`, `sink`, `greord`. -/
def Sys2Proof.Claims.ownEos : List Nat := [0x007, 0x014, 0x01C, 0x022]

/-- R42 to R45, R34 and R410 for every operator: where no tag is ready, its unit has started in this cycle, another tag
goes first or its entries go to others, nothing happens; a poisoned address, predicate or guard consumes the operands and ends the firing with fault
POISON; a firing of EOS tokens consumes them and sends one EOS of their level to every destination that is no G port, with
L's credit, by the cell array after one busy cycle. -/
def Obligations.FiringRule : Prop :=
  ∀ (i : Instr) (opc : Nat) (f : OpFields) (s : State) (q : Site), fabricOf i = some (opc, f) → q = s.site opc f →
    (s.best q = none → exec i s = .next s) ∧
    (∀ m, s.best q = some m →
      (s.unitBusy q = true ∨ s.outranked q m = true ∨ s.yields q m = true ∨
        ((s.tile s.actor.tk).slot q.key).countedAt = s.cycles + 1 → exec i s = .next s) ∧
      (s.unitBusy q = false → s.outranked q m = false → s.yields q m = false →
        ((s.tile s.actor.tk).slot q.key).countedAt ≠ s.cycles + 1 → poisonEnds opc m = true →
        exec i s = .next ((Claims.taken s opc f m).faultFiring q m 0x2A 0)) ∧
      (Claims.Fires s opc f m → m.eos = true → opc ∉ Claims.ownEos →
        (q.unit ≠ .cells →
          exec i s = .next (((Claims.taken s opc f m).noteClosed q m).output q m (q.eosAll m.tag.level m.tag) (m.at? .l))) ∧
        (q.unit = .cells → exec i s =
          .next (((Claims.taken s opc f m).noteClosed q m).arrayStart q m (q.eosAll m.tag.level m.tag) false 1 id))))

/-- How results leave a firing (R29, R43, R47, R192, R210, R214): each token takes the slot and port of its destination, the
first carries L's credit and every other operand's credit goes back to its port by the mesh, on VC3; the vector unit holds the tokens until its latency
is over, the narrow unit for the beats of the longest; and each destination that is no exit gets a reservation. A firing that ends
by a fault sends nothing but one FAULT record of its colour (R248). -/
def Sys2Proof.Claims.ResultsLeave : Prop :=
  ∀ (s : State) (q : Site) (m : Match) (rs : List Result) (o : Operand) (es : List Emission),
    es = s.emissions q rs o.entry.token.credit m.poison → rs ≠ [] → q.opc ≠ 0x199 → q.opc ≠ 0x19A →
    (es.map fun e => (e.slot, e.index, e.dest, e.token.payload)) = (rs.map fun r => (q.slot, r.index, r.dest, r.payload)) ∧
    (es.map fun e => e.token.tag) = (rs.map fun r => { r.tag with slot := r.dest.slot, port := portCode r.dest.port }) ∧
    (es.map fun e => e.token.credit) = o.entry.token.credit :: (rs.drop 1).map (fun _ => none) ∧
    (∀ e ∈ es, e.token.poison = m.poison ∧ e.token.epoch = (s.tile q.tk).epochs.getLsbD q.plane) ∧
    (∀ code va t c, c = m.tag.colour → t = s.faultFiring q m code va → t.tiles = s.tiles ∧ t.dram = s.dram ∧ t.records = s.records ++
      [s.mkRecord q.ck (s.ringOfColour c) (s.colour c).world 0x04 (0x10 + 128 * (va / 2 ^ 46 % 2)) code c (va / 2 ^ 14 % 2 ^ 32)
        { m.tag with slot := BitVec.ofNat 6 q.slot, port := 0 }.toWord]) ∧
    (∀ t, t = s.output q m rs (some o) →
      (q.unit = .vector → (t.tile q.tk).vector =
        (s.tile q.tk).vector ++ [⟨q.plane, s.cycles + vectorLatency q.opc m.eos, es⟩]) ∧
      (q.unit = .narrow → ∃ n : NarrowFiring, (t.tile q.tk).narrow = (s.tile q.tk).narrow ++ [n] ∧ n.plane = q.plane ∧
        n.mode = beatMode q.opc ∧ n.fired = s.cycles ∧ n.sent = 0 ∧ n.out.map (·.2) = es ∧ n.beats = outBeats n.out ∧
        n.sources = (match beatMode q.opc with | .online => m.operands | .forward => [o] | .whole => []).map Operand.source) ∧
      (q.unit = .vector ∨ q.unit = .narrow → (t.cluster q.ck).flits =
        (s.cluster q.ck).flits ++ (m.operands.filter fun x => x.idx != o.idx).filterMap fun x => x.entry.token.credit.map fun c =>
          (MeshSource.tile (tiOf q.tk)).flit s.cycles (s.creditGoal q.ck c) true 3 (.credit c x.entry.token.tag.colour)) ∧
      (∀ k, q.unit = .vector ∨ q.unit = .narrow → (t.tile k).reserved = (s.tile k).reserved ++ (es.filter fun e =>
        (s.exitAt q.ck e.token.tag.ctx.toNat (tiOf q.tk) e.dest).isNone &&
          ((destTile (tiOf q.tk) e.dest).map fun ti => 192 * q.ck + ti) = some k).map
        fun e => ⟨e.token.tag.colour, e.token.tag.ctx, e.dest.slot.toNat, q.plane⟩))

/-- The operators that hold no state of their own and change no tag but by TAGOP. -/
def Sys2Proof.Claims.pure (opc : Nat) : Bool :=
  (1 ≤ opc && opc ≤ 6) || opc = 8 || opc = 0x018 || opc = 0x019 || (0x01D ≤ opc && opc ≤ 0x01F) || (0x040 ≤ opc && opc < 0x140)

/-- R43 and R44, what a data firing of these operators leaves alone: no memory, no scratchpad, no register and no context
changes; the tile loses the operands and marks its unit and slot, tiles get reservations and remember the input they granted, and
credits go back by the mesh. -/
def Sys2Proof.Claims.FiringsLeaveAlone : Prop :=
  ∀ (i : Instr) (opc : Nat) (f : OpFields) (s u w : State) (m : Match) (t : Tag), fabricOf i = some (opc, f) →
    Claims.pure opc = true → Claims.Ready s opc f m u t → exec i s = .next w →
    w = { s with tiles := w.tiles, clusters := w.clusters, free := w.free, nextId := w.nextId } ∧
    (∀ ck, w.cluster ck = { s.cluster ck with flits := (w.cluster ck).flits }) ∧
    (∀ g, g ∈ (w.cluster (ckOf s.actor.tk)).flits → g ∈ (s.cluster (ckOf s.actor.tk)).flits ∨ ∃ k c, g.cargo = .credit k c) ∧
    (∀ k, k ≠ s.actor.tk → w.tile k = { s.tile k with reserved := (w.tile k).reserved, grantFrom := (w.tile k).grantFrom }) ∧
    (∀ a b, a = s.tile s.actor.tk → b = w.tile s.actor.tk →
      b.store = m.operands.foldl (fun st o => Map.del st o.idx) a.store ∧
      b = { a with store := b.store, reserved := b.reserved, lastFired := b.lastFired, latch := none, resume := false,
                   slots := (a.modSlot (s.site opc f).key fun x => { x with firedAt := s.cycles + 1 }).slots,
                   vector := b.vector, narrow := b.narrow })

/-- `Claims.ResultsLeave` and `Claims.FiringsLeaveAlone` together. -/
def Obligations.ResultsAndFrames : Prop :=
  Claims.ResultsLeave ∧ Claims.FiringsLeaveAlone

/-- `const`, `repl`, `eosgen` and `ojoin` (R195, R200, R203). `const` gives IMM in every active lane of a WIDE type, and the
wrapped signed IMM on the narrow plane; `repl` gives the value to sixteen active lanes, as an FP32 number for f32;
`eosgen` sends L, and where the iteration is the IMM-th of its range an EOS of the level closed with the ITER of the
levels below it; `ojoin` sends ORDER where both are ORDER, else a GUARD that is true where both are. -/
def Sys2Proof.Claims.ComputedTokens : Prop :=
  ∀ (s u : State) (f : OpFields) (m : Match) (t : Tag),
    (Claims.Ready s 0x001 f m u t → ∃ p, exec (.const f) s = .next (Claims.answer s 0x001 f m u t p) ∧
      (f.etype.isWide = true → ∃ w : WideVal, p = .wide w ∧ w.mask = (m.wide .l).mask ∧ ∀ i, i < 16 → Lanes.lane w.data i =
        if Lanes.on w.mask i then BitVec.ofNat 32 f.imm.toNat else 0) ∧
      (f.etype.isWide = false → p = .narrow f.etype.digits (Num.wrap f.imm.toInt f.etype.width) .canonical)) ∧
    (Claims.Ready s 0x003 f m u t → ∃ w : WideVal,
      exec (.repl f) s = .next (Claims.answer s 0x003 f m u t (.wide w)) ∧ w.mask = 0xFFFF ∧
      ∀ i, i < 16 → Lanes.lane w.data i = if f.etype = .f32 then BitVec.ofNat 32 (Fp.rne Fp.f32 (Fp.ofInt (m.value .l)))
        else BitVec.ofInt 32 (m.value .l)) ∧
    (∀ p, Claims.Ready s 0x018 f m u t → m.payload? .l = some p →
      exec (.eosgen f) s = .next (u.output (s.site 0x018 f) m ((s.site 0x018 f).toAll p t ++
        (if s.closes (s.site 0x018 f) m.tag then (s.site 0x018 f).eosAll m.tag.level
          (m.tag.closing (s.levelsOf (s.site 0x018 f).ck m.tag.ctx.toNat) m.tag.level.toNat) else [])) (m.at? .l))) ∧
    (Claims.Ready s 0x01F f m u t → exec (.ojoin f) s = .next (Claims.answer s 0x01F f m u t
      (if ∀ x ∈ m.ops, x.2.entry.token.payload = .order then .order
       else .guard (decide (∀ x ∈ m.ops, x.2.entry.token.payload.guardTrue = true)))))

/-- The operators that pass an operand on (R195 to R197, R201, R203): which destinations get it, and which operand. -/
def Sys2Proof.Claims.forwards : List ((OpFields → Instr) × Nat × (Match → List Nat × Port)) :=
  [(.pass, 0x002, fun _ => ([0, 1, 2], .l)), (.steer, 0x004, fun m => ([if m.value .r ≠ 0 then 0 else 1, 2], .l)),
   (.merge, 0x005, fun m => ([0, 1, 2], if m.value .c ≠ 0 then .l else .r)),
   (.amerge, 0x006, fun m => ([0, 1, 2], if (m.at? .l).isSome then .l else .r)),
   (.select, 0x008, fun m => ([0, 1, 2], if m.value .c ≠ 0 then .l else .r)), (.eoswait, 0x019, fun _ => ([0, 1, 2], .l))]

/-- R195 to R197 and R201 to R203: each passes the operand of its table on to the destinations of its table with that
operand's credit, or ends with TAG_RANGE where TAGOP has no result; `drop` and `sink` only return the credits of data;
`gate` passes L on under a true guard and drops it under a false one. -/
def Sys2Proof.Claims.OperandsAreForwarded : Prop :=
  ∀ (s u : State) (f : OpFields) (m : Match) (o : Operand),
    (∀ e ∈ Claims.forwards, ∀ q v, q = s.site e.2.1 f → Claims.Fires s e.2.1 f m → m.eos = false →
      m.at? (e.2.2 m).2 = some o → (Claims.taken s e.2.1 f m).lValue m = (u, v) →
      (∀ t, u.tagOp q.ck f.tagop m.tag v = some t →
        exec (e.1 f) s = .next (u.output q m (q.toSome (e.2.2 m).1 o.entry.token.payload t) (some o))) ∧
      (u.tagOp q.ck f.tagop m.tag v = none → exec (e.1 f) s = .next (u.faultFiring q m 0x02 0))) ∧
    (∀ t p, Claims.Ready s 0x01E f m u t → m.at? .l = some o → m.payload? .g = some p →
      (p.guardTrue = true → exec (.gate f) s = .next (Claims.answer s 0x01E f m u t o.entry.token.payload)) ∧
      (p.guardTrue = false → exec (.gate f) s = .next ((Claims.taken s 0x01E f m).returnCredits s.actor.tk m.operands))) ∧
    (Claims.Fires s 0x01D f m → m.eos = false →
      exec (.drop f) s = .next ((Claims.taken s 0x01D f m).returnCredits s.actor.tk m.operands)) ∧
    (Claims.Fires s 0x019 f m → m.eos = false → m.at? .l = none →
      exec (.eoswait f) s = .next ((Claims.taken s 0x019 f m).returnCredits s.actor.tk m.operands)) ∧
    (Claims.Fires s 0x01C f m → m.eos = false →
      exec (.sink f) s = .next ((Claims.taken s 0x01C f m).returnCredits s.actor.tk m.operands)) ∧
    (∀ l, Claims.Fires s 0x01C f m → m.eos = true → m.tag.level = 0 →
      s.launch? s.actor.ck m.tag.ctx.toNat = some l → s.actor.ck = ckOf s.actor.tk →
      ∃ w l', exec (.sink f) s = .next w ∧ w.launch? s.actor.ck m.tag.ctx.toNat = some l' ∧
        (tiOf s.actor.tk, (s.site 0x01C f).key, m.tag.colour.toNat) ∈ l'.sinkEos)

/-- `Claims.ComputedTokens` and `Claims.OperandsAreForwarded` together. -/
def Obligations.TokensAreRouted : Prop :=
  Claims.ComputedTokens ∧ Claims.OperandsAreForwarded

/-- The tag operators with the tag that each gives (R199), none for TAG_RANGE. -/
def Sys2Proof.Claims.tagOps : List ((OpFields → Instr) × Nat × (OpFields → List Nat → Match → Option Tag)) :=
  [(.tagset, 0x010, fun f ls m => some (m.tag.setIterAt ls m.tag.level.toNat f.imm.toNat)),
   (.taginc, 0x011, fun f ls m => some (m.tag.setIterAt ls m.tag.level.toNat (m.tag.iterAt ls m.tag.level.toNat + f.imm.toNat))),
   (.tagcopy, 0x012, fun _ ls m => some (m.tag.setIterAt ls m.tag.level.toNat (m.value .l))),
   (.lvpush, 0x013, fun f ls m => if m.tag.level.toNat ≥ ls.length - 1 then none else
      some ((m.tag.setLevel (m.tag.level.toNat + 1)).setIterAt ls (m.tag.level.toNat + 1) f.imm.toNat)),
   (.lvpop, 0x014, fun _ ls m => if m.tag.level.toNat = 0 then none else
      some ((m.tag.setIterAt ls m.tag.level.toNat 0).setLevel (m.tag.level.toNat - 1)))]

/-- R198, R199 and R206. The tag operators forward their payload (R of a two-operand `tagcopy`, else L) under the tag of the
table, to which TAGOP is applied, and end with TAG_RANGE where it has none; `lvpop` ends the EOS of the level that it
closes. `lcarry` opens a level with ITER 0 at L and counts it active, sends a carried value round again under the next
ITER while its predicate holds, and otherwise out at DEST2 one level down; an EOS at L goes to DEST2, one at R or C ends.
`greord` passes the token that is next on and counts. -/
def Sys2Proof.Claims.TagsAreChanged : Prop :=
  ∀ (s u : State) (f : OpFields) (m : Match) (o : Operand) (v : Int),
    (∀ e ∈ Claims.tagOps, ∀ q ls, q = s.site e.2.1 f → ls = s.levelsOf q.ck m.tag.ctx.toNat → Claims.Fires s e.2.1 f m →
      m.eos = false → m.at? (if e.2.1 = 0x012 ∧ f.arityN = 2 then .r else .l) = some o →
      (Claims.taken s e.2.1 f m).lValue m = (u, v) →
      (e.2.2 f ls m = none → exec (e.1 f) s = .next ((Claims.taken s e.2.1 f m).faultFiring q m 0x02 0)) ∧
      (∀ x t, e.2.2 f ls m = some x → u.tagOp q.ck f.tagop x v = some t →
        exec (e.1 f) s = .next (u.output q m (q.toSome [0, 1, 2] o.entry.token.payload t) (some o)))) ∧
    (Claims.Fires s 0x014 f m → m.eos = true → OpTable.immField f 3 0 ≠ 0 → m.tag.level.toNat = OpTable.immField f 3 0 →
      exec (.lvpop f) s =
        .next (((Claims.taken s 0x014 f m).noteClosed (s.site 0x014 f) m).returnCredits s.actor.tk m.operands)) ∧
    (∀ i ∈ [Instr.lcarryEntry f, .lcarryBackEdge f, .lcarryEosRelease f], ∀ q ls k n, q = s.site 0x007 f →
      ls = s.levelsOf q.ck m.tag.ctx.toNat → k = m.tag.level.toNat → n = s.activeOf q m.tag → Claims.Fires s 0x007 f m →
      (m.eos = false → (Claims.taken s 0x007 f m).lValue m = (u, v) →
        (∀ x t, m.at? .l = some o → m.tag.push ls 0 = some x → u.tagOp q.ck f.tagop x v = some t →
          exec i s = .next ((u.setActive q m.tag (n + 1)).output q m (q.toSome [0, 1] o.entry.token.payload t) (some o))) ∧
        (∀ t, m.at? .l = none → m.at? .r = some o → k ≠ 0 → m.value .c ≠ 0 →
          u.tagOp q.ck f.tagop (m.tag.setIterAt ls k (m.tag.iterAt ls k + 1)) v = some t →
          exec i s = .next ((u.setActive q m.tag n).output q m (q.toSome [0, 1] o.entry.token.payload t) (some o))) ∧
        (∀ t, m.at? .l = none → m.at? .r = some o → k ≠ 0 → m.value .c = 0 → m.payload? .c ≠ none →
          u.tagOp q.ck f.tagop ((m.tag.setIterAt ls k 0).setLevel (k - 1)) v = some t →
          exec i s = .next ((u.setActive q m.tag (n - 1)).output q m (q.toSome [2] o.entry.token.payload t) (some o)))) ∧
      (m.eos = true → ∀ z, z = (Claims.taken s 0x007 f m).noteClosed q m →
        (m.at? .l = some o → exec i s =
          .next (z.output q m ((q.eosAll m.tag.level m.tag).filter fun r => r.index = 2) (some o))) ∧
        (m.at? .l = none → exec i s = .next (z.returnCredits s.actor.tk m.operands)))) ∧
    (∀ t q w, q = s.site 0x022 f → Claims.Fires s 0x022 f m → m.eos = false → m.at? .l = some o →
      w = (Claims.taken s 0x022 f m).setNext q m.tag (s.nextOf q m.tag + 1) → w.lValue m = (u, v) →
      u.tagOp q.ck f.tagop m.tag v = some t →
      exec (.greord f) s = .next (u.output q m (q.toSome [0, 1, 2] o.entry.token.payload t) (some o)))

/-- `cfgreq` and `gcoal` (R204, R205). With a true guard a `cfgreq` sends a request towards the die's fabric manager, on VC3, and its operand
stays in its entry; with a false one the operand is dropped. A `gcoal` starts the ROWL chunks of its row, each with the
sequence number ITER * ROWL + c as the ITER of its token; a row outside the table reads zeros. -/
def Sys2Proof.Claims.RequestsAndGathers : Prop :=
  ∀ (s u : State) (f : OpFields) (m : Match) (o : Operand) (q : Site),
    (q = s.site 0x020 f → Claims.Fires s 0x020 f m → m.eos = false → m.at? .l = some o →
      (((m.payload? .g).getD .order).guardTrue = true → ∃ (t : State) (g : Flit), exec (.cfgreq f) s = .next t ∧
        (t.cluster q.ck).flits.getLast? = some g ∧ g.vc = 3 ∧ g.router = tiOf q.tk ∧
        g.cargo = .config ⟨q.ck, q.tk, q.slot, q.plane, m.tag, ((s.tile q.tk).slot q.key).word, f.imm.toNat % 2 ^ 16, false⟩ ∧
        Map.get? (t.tile q.tk).store o.idx = some { o.entry with state := .cfgreq, age := 0 }) ∧
      (((m.payload? .g).getD .order).guardTrue = false →
        exec (.cfgreq f) s = .next ((Claims.taken s 0x020 f m).returnCredits s.actor.tk m.operands))) ∧
    (∀ rowl v, q = s.site 0x021 f → rowl = OpTable.immField f 10 4 → Claims.Fires s 0x021 f m → m.eos = false →
      m.at? .l = some o → (Claims.taken s 0x021 f m).lValue m = (u, v) →
      (∀ c, c < rowl → (u.tagOp q.ck f.tagop { m.tag with iter := BitVec.ofNat 32 (m.tag.iter.toNat * rowl + c) } v).isSome) →
      ∃ t new, exec (.gcoal f) s = .next t ∧ (t.tile q.tk).accesses = (s.tile q.tk).accesses ++ new ∧ new.length = rowl ∧
        ∀ c a, new[c]? = some a → a.opc = 0x021 ∧ a.tag = m.tag ∧
          u.tagOp q.ck f.tagop { m.tag with iter := BitVec.ofNat 32 (m.tag.iter.toNat * rowl + c) } v = some a.out ∧
          (∀ n r, (s.tile q.tk).gatherRow f (m.value .l) = (n, some r) → a.addr = r + 64 * c ∧ a.phase = .reissue) ∧
          (∀ n, (s.tile q.tk).gatherRow f (m.value .l) = (n, none) → a.phase = .answered ∧ a.data = ⟨0, 0xFFFF⟩))

/-- `Claims.TagsAreChanged` and `Claims.RequestsAndGathers` together. -/
def Obligations.TagsRequestsAndGathers : Prop :=
  Claims.TagsAreChanged ∧ Claims.RequestsAndGathers

/-- The arithmetic of the narrow plane with the exact result of each (R207). -/
def Sys2Proof.Claims.narrowOps : List ((OpFields → Instr) × Nat × (OpFields → Int → Int → Int)) :=
  [(.nadd, 0x040, fun _ a b => a + b), (.nsub, 0x041, fun _ a b => a - b), (.nneg, 0x042, fun _ a _ => -a),
   (.nabs, 0x043, fun _ a _ => if a < 0 then -a else a), (.nshl, 0x046, fun f a _ => a * 4 ^ f.sub.toNat),
   (.nmulk, 0x047, fun f a _ => a * f.imm.toInt)]
/-- The comparisons of the narrow plane (R208). -/
def Sys2Proof.Claims.compares : List ((OpFields → Instr) × Nat × (Int → Int → Prop)) :=
  [(.nceq, 0x048, fun a b => a = b), (.ncne, 0x049, fun a b => a ≠ b), (.nclt, 0x04A, fun a b => a < b),
   (.ncle, 0x04B, fun a b => a ≤ b)]

/-- R207 to R210. The arithmetic wraps the exact result to the type's width, in some string of its digits; `nmin` and `nmax` pass
an operand on, L of equal ones. A comparison sends a GUARD to a G port and a NARROW value 1 or 0 of four digits elsewhere.
`ntob` wraps or saturates to the type's width, and `bton` reads a field of the type's width from the lanes, inactive ones
as zero; both give canonical digits. One beat of the oldest firing that has one ready leaves the narrow unit in a cycle, to the
mesh; with its last beat the firing is gone. -/
def Obligations.NarrowResults : Prop :=
  ∀ (s u : State) (f : OpFields) (m : Match) (t : Tag),
    (∀ e ∈ Claims.narrowOps, Claims.Ready s e.2.1 f m u t → ∃ form, exec (e.1 f) s =
      .next (Claims.answer s e.2.1 f m { u with free := u.free + 1 } t (.narrow f.etype.digits
        (Num.wrap (e.2.2 f (m.value .l) (m.value .r)) f.etype.width) form))) ∧
    (∀ p, Claims.Ready s 0x044 f m u t → m.payload? (if m.value .r < m.value .l then .r else .l) = some p →
      exec (.nmin f) s = .next (Claims.answer s 0x044 f m u t p)) ∧
    (∀ p, Claims.Ready s 0x045 f m u t → m.payload? (if m.value .l < m.value .r then .r else .l) = some p →
      exec (.nmax f) s = .next (Claims.answer s 0x045 f m u t p)) ∧
    (∀ e ∈ Claims.compares, Claims.Ready s e.2.1 f m u t → f.flags.order = false → ∃ rs,
      exec (e.1 f) s = .next (u.output (s.site e.2.1 f) m rs (m.at? .l)) ∧
      (rs.map fun r => (r.index, r.dest)) = OpTable.dests f ∧ ∀ r ∈ rs, r.tag = t ∧
        (e.2.2 (m.value .l) (m.value .r) → r.payload = if r.dest.port = .g then .guard true else .narrow 4 1 .canonical) ∧
        (¬ e.2.2 (m.value .l) (m.value .r) → r.payload = if r.dest.port = .g then .guard false else .narrow 4 0 .canonical)) ∧
    (Claims.Ready s 0x050 f m u t → exec (.ntobW f) s = .next (Claims.answer s 0x050 f m u t
      (.narrow f.etype.digits (Num.wrap (m.value .l) f.etype.width) .canonical))) ∧
    (Claims.Ready s 0x051 f m u t → exec (.ntobS f) s = .next (Claims.answer s 0x051 f m u t
      (.narrow f.etype.digits (max (-(2 ^ (f.etype.width - 1))) (min (m.value .l) (2 ^ (f.etype.width - 1) - 1))) .canonical))) ∧
    (∀ w digits raw, (f.sub.toNat, w, digits) ∈ [(11, 8, 4), (12, 16, 8), (13, 32, 16), (14, 64, 32)] →
      raw = (List.range (max 1 (w / 32))).foldl (fun a i => a + (if Lanes.on (m.wide .l).mask i then
        (Lanes.lane (m.wide .l).data i).toNat else 0) * 2 ^ (32 * i)) 0 → Claims.Ready s 0x052 f m u t →
      exec (.bton f) s = .next (Claims.answer s 0x052 f m u t
        (.narrow digits (Int.bmod raw (2 ^ w)) .canonical))) ∧
    (∀ tk, ((s.tile tk).lastFired.getD 5 0 = s.cycles + 1 ∨ (∀ n ∈ (s.tile tk).narrow, n.ready s.cycles = false) →
        exec (.narrowBeatEmit tk) s = .next s) ∧
      (∀ i n, (s.tile tk).lastFired.getD 5 0 ≠ s.cycles + 1 → (s.tile tk).narrow[i]? = some n → n.ready s.cycles = true →
        (∀ j x, j < i → (s.tile tk).narrow[j]? = some x → x.ready s.cycles = false) →
        ∃ w, exec (.narrowBeatEmit tk) s = .next w ∧
          (n.sent + 1 < n.beats → (w.tile tk).narrow = (s.tile tk).narrow.set i { n with sent := n.sent + 1 }) ∧
          (n.beats ≤ n.sent + 1 → (w.tile tk).narrow = (s.tile tk).narrow.eraseIdx i) ∧
          (∀ id e dst, n.out = [(id, e)] → n.sent < e.token.payload.beats →
            s.exitAt (ckOf tk) e.token.tag.ctx.toNat (tiOf tk) e.dest = none → destTile (tiOf tk) e.dest = some dst →
            (w.cluster (ckOf tk)).flits = (s.cluster (ckOf tk)).flits ++ [(MeshSource.tile (tiOf tk)).flit s.cycles (dst, 4)
              e.dest.narrow 0 (.token ⟨tiOf tk, e.slot, e.index⟩ n.plane id n.sent e.token)])))

/-! The vector unit (11_ops_vector.md R213 to R229; 04_numbers.md R94) -/

/-- The integer operators of two operands, lane by lane (R215, R216, R218): signed `toInt`, unsigned `toNat`. -/
def Sys2Proof.Claims.laneOps : List ((OpFields → Instr) × Nat × (Lane → Lane → Lane)) :=
  [(.vaddI32, 0x080, fun a b => BitVec.ofInt 32 (a.toInt + b.toInt)),
   (.vaddsatI32, 0x081, fun a b => BitVec.ofInt 32 (max (-2 ^ 31) (min (a.toInt + b.toInt) (2 ^ 31 - 1)))),
   (.vsubI32, 0x082, fun a b => BitVec.ofInt 32 (a.toInt - b.toInt)),
   (.vsubsatI32, 0x083, fun a b => BitVec.ofInt 32 (max (-2 ^ 31) (min (a.toInt - b.toInt) (2 ^ 31 - 1)))),
   (.vmulI32, 0x084, fun a b => BitVec.ofInt 32 (a.toInt * b.toInt)),
   (.vmulhI32, 0x085, fun a b => BitVec.ofInt 32 (Int.fdiv (a.toInt * b.toInt) (2 ^ 32))),
   (.vmulhuI32, 0x086, fun a b => BitVec.ofNat 32 (a.toNat * b.toNat / 2 ^ 32)),
   (.vminI32, 0x088, fun a b => BitVec.ofInt 32 (min a.toInt b.toInt)),
   (.vmaxI32, 0x089, fun a b => BitVec.ofInt 32 (max a.toInt b.toInt)),
   (.vminuI32, 0x08A, fun a b => BitVec.ofNat 32 (min a.toNat b.toNat)),
   (.vmaxuI32, 0x08B, fun a b => BitVec.ofNat 32 (max a.toNat b.toNat)),
   (.vand, 0x090, fun a b => a &&& b), (.vor, 0x091, fun a b => a ||| b), (.vxor, 0x092, fun a b => a ^^^ b),
   (.vceqI32, 0x098, fun a b => if a = b then 0xFFFFFFFF else 0), (.vcneI32, 0x099, fun a b => if a ≠ b then 0xFFFFFFFF else 0),
   (.vcltI32, 0x09A, fun a b => if a.toInt < b.toInt then 0xFFFFFFFF else 0),
   (.vcleI32, 0x09B, fun a b => if a.toInt ≤ b.toInt then 0xFFFFFFFF else 0),
   (.vcltuI32, 0x09C, fun a b => if a.toNat < b.toNat then 0xFFFFFFFF else 0),
   (.vcleuI32, 0x09D, fun a b => if a.toNat ≤ b.toNat then 0xFFFFFFFF else 0)]
/-- The shifts by a count below 32 (R217). -/
def Sys2Proof.Claims.shifts : List ((OpFields → Instr) × Nat × (Lane → Nat → Lane)) :=
  [(.vshl, 0x094, fun a c => BitVec.ofNat 32 (a.toNat * 2 ^ c)), (.vshr, 0x095, fun a c => BitVec.ofNat 32 (a.toNat / 2 ^ c)),
   (.vsra, 0x096, fun a c => BitVec.ofInt 32 (Int.fdiv a.toInt (2 ^ c)))]
/-- A WIDE value with the lanes that `g` gives where `mask` is set, and zero elsewhere (R32). -/
def Sys2Proof.Claims.LanesAre (w : WideVal) (mask : BitVec 16) (g : Nat → Lane) : Prop :=
  w.mask = mask ∧ ∀ i, i < 16 → Lanes.lane w.data i = if mask.getLsbD i then g i else 0

/-- R213, R32 and R215 to R218: each integer operator sends one WIDE token to every destination, with the AND of the operands'
masks and in each active lane what its table says; a shift takes its count from SUB, or with two operands from R's lanes
modulo 32. -/
def Sys2Proof.Claims.VectorIntegerResults : Prop :=
  ∀ (s u : State) (f : OpFields) (m : Match) (t : Tag) (l r : WideVal), l = m.wide .l → r = m.wide .r →
    (∀ e ∈ Claims.laneOps, Claims.Ready s e.2.1 f m u t → ∃ w : WideVal,
      exec (e.1 f) s = .next (Claims.answer s e.2.1 f m u t (.wide w)) ∧
      Claims.LanesAre w (l.mask &&& r.mask) fun i => e.2.2 (Lanes.lane l.data i) (Lanes.lane r.data i)) ∧
    (Claims.Ready s 0x093 f m u t → ∃ w : WideVal, exec (.vnot f) s = .next (Claims.answer s 0x093 f m u t (.wide w)) ∧
      Claims.LanesAre w l.mask fun i => ~~~(Lanes.lane l.data i)) ∧
    (∀ e ∈ Claims.shifts, Claims.Ready s e.2.1 f m u t → ∃ w : WideVal,
      exec (e.1 f) s = .next (Claims.answer s e.2.1 f m u t (.wide w)) ∧
      (m.payload? .r = none → Claims.LanesAre w l.mask fun i => e.2.2 (Lanes.lane l.data i) f.sub.toNat) ∧
      (m.payload? .r ≠ none → Claims.LanesAre w (l.mask &&& r.mask) fun i =>
        e.2.2 (Lanes.lane l.data i) ((Lanes.lane r.data i).toNat % 32)))

/-- The value of an FP32 lane. -/
def Sys2Proof.Claims.val (x : Lane) : Fp.Val := Fp.decode Fp.f32 x.toNat
/-- RNE to FP32, as a lane. -/
def Sys2Proof.Claims.rne (x : Fp.Val) : Lane := BitVec.ofNat 32 (Fp.rne Fp.f32 x)
/-- The FP32 operators of two operands whose table R219, R221 and R222 give. -/
def Sys2Proof.Claims.floatOps : List ((OpFields → Instr) × Nat × (Lane → Lane → Lane)) :=
  [(.vfaddF32, 0x0C0, fun a b => Claims.rne (Fp.sum [Claims.val a, Claims.val b])),
   (.vfsubF32, 0x0C1, fun a b => Claims.rne (Fp.sum [Claims.val a, Fp.neg (Claims.val b)])),
   (.vfmulF32, 0x0C2, fun a b => Claims.rne (Fp.mul (Claims.val a) (Claims.val b))),
   (.vfdivF32, 0x0C4, fun a b => BitVec.ofNat 32 (Fp.div32 a.toNat b.toNat)),
   (.vfminF32, 0x0CD, fun a b => BitVec.ofNat 32 (Fp.minMax false a.toNat b.toNat)),
   (.vfmaxF32, 0x0CE, fun a b => BitVec.ofNat 32 (Fp.minMax true a.toNat b.toNat)),
   (.vfceqF32, 0x0D0, fun a b => if Fp.eq (Claims.val a) (Claims.val b) then 0xFFFFFFFF else 0),
   (.vfcltF32, 0x0D1, fun a b => if Fp.lt (Claims.val a) (Claims.val b) then 0xFFFFFFFF else 0),
   (.vfcleF32, 0x0D2, fun a b => if Fp.lt (Claims.val a) (Claims.val b) ∨ Fp.eq (Claims.val a) (Claims.val b) then 0xFFFFFFFF else 0),
   (.vfcunF32, 0x0D3, fun a b => if Claims.val a = .nan ∨ Claims.val b = .nan then 0xFFFFFFFF else 0)]
/-- The five functions of R220. -/
def Sys2Proof.Claims.functions : List ((OpFields → Instr) × Nat × (Fp.Val → Nat)) :=
  [(.vfrcpF32, 0x0C8, Fp.rcp Fp.f32), (.vfrsqF32, 0x0C9, Fp.rsq Fp.f32), (.vfsqrtF32, 0x0CA, Fp.sqrt Fp.f32),
   (.vfexp2F32, 0x0CB, Fp.exp2 Fp.f32), (.vflog2F32, 0x0CC, Fp.log2 Fp.f32)]
/-- The special values of R220: −∞, a finite number below zero where it has one, −0, +0 and +∞. -/
def Sys2Proof.Claims.specials : List ((Fp.Val → Nat) × Nat × Option Nat × Nat × Nat × Nat) :=
  [(Fp.rcp Fp.f32, 0x80000000, none, 0xFF800000, 0x7F800000, 0), (Fp.rsq Fp.f32, 0x7FC00000, some 0x7FC00000, 0xFF800000, 0x7F800000, 0),
   (Fp.sqrt Fp.f32, 0x7FC00000, some 0x7FC00000, 0x80000000, 0, 0x7F800000), (Fp.exp2 Fp.f32, 0, none, 0x3F800000, 0x3F800000, 0x7F800000),
   (Fp.log2 Fp.f32, 0x7FC00000, some 0x7FC00000, 0xFF800000, 0xFF800000, 0x7F800000)]

/-- R213 and R219 to R222: each FP32 operator sends one WIDE token with the AND of the masks and in each active lane what its
table says; the functions, the division, the minimum and the maximum take the special values of R219 to R221, and a NaN
operand gives the canonical NaN. -/
def Sys2Proof.Claims.VectorFloatResults : Prop :=
  (∀ (s u : State) (f : OpFields) (m : Match) (t : Tag) (l r c : WideVal), l = m.wide .l → r = m.wide .r → c = m.wide .c →
    (∀ e ∈ Claims.floatOps, Claims.Ready s e.2.1 f m u t → ∃ w : WideVal,
      exec (e.1 f) s = .next (Claims.answer s e.2.1 f m u t (.wide w)) ∧
      Claims.LanesAre w (l.mask &&& r.mask) fun i => e.2.2 (Lanes.lane l.data i) (Lanes.lane r.data i)) ∧
    (Claims.Ready s 0x0C3 f m u t → ∃ w : WideVal, exec (.vfmaF32 f) s = .next (Claims.answer s 0x0C3 f m u t (.wide w)) ∧
      Claims.LanesAre w (l.mask &&& r.mask &&& c.mask) fun i => Claims.rne (Fp.sum
        [Fp.mul (Claims.val (Lanes.lane l.data i)) (Claims.val (Lanes.lane r.data i)), Claims.val (Lanes.lane c.data i)])) ∧
    (∀ e ∈ Claims.functions, Claims.Ready s e.2.1 f m u t → ∃ w : WideVal,
      exec (e.1 f) s = .next (Claims.answer s e.2.1 f m u t (.wide w)) ∧
      Claims.LanesAre w l.mask fun i => BitVec.ofNat 32 (e.2.2 (Claims.val (Lanes.lane l.data i))))) ∧
  (∀ e ∈ Claims.specials, e.1 .nan = 0x7FC00000 ∧ e.1 (.inf true) = e.2.1 ∧
    (∀ b, e.2.2.1 = some b → ∀ n x, e.1 (.fin true (n + 1) x) = b) ∧ (∀ x, e.1 (.fin true 0 x) = e.2.2.2.1) ∧
    (∀ x, e.1 (.fin false 0 x) = e.2.2.2.2.1) ∧ e.1 (.inf false) = e.2.2.2.2.2) ∧
  (∀ (a b : Lane) (sign : Nat), sign = (a.toNat / 2 ^ 31 + b.toNat / 2 ^ 31) % 2 * 2 ^ 31 →
    (Claims.val a = .nan ∨ Claims.val b = .nan → Fp.div32 a.toNat b.toNat = 0x7FC00000 ∧
      ∀ max, Fp.minMax max a.toNat b.toNat = 0x7FC00000) ∧
    (Claims.val a ≠ .nan → Claims.val b ≠ .nan →
      ((a.toNat % 2 ^ 31 = 0 ∧ b.toNat % 2 ^ 31 = 0) ∨ (a.toNat % 2 ^ 31 = 0x7F800000 ∧ b.toNat % 2 ^ 31 = 0x7F800000) →
        Fp.div32 a.toNat b.toNat = 0x7FC00000) ∧
      ((a.toNat % 2 ^ 31 ≠ 0 ∧ b.toNat % 2 ^ 31 = 0) ∨ (a.toNat % 2 ^ 31 = 0x7F800000 ∧ b.toNat % 2 ^ 31 < 0x7F800000) →
        Fp.div32 a.toNat b.toNat = sign + 0x7F800000) ∧
      ((a.toNat % 2 ^ 31 = 0 ∧ b.toNat % 2 ^ 31 ≠ 0) ∨ (a.toNat % 2 ^ 31 < 0x7F800000 ∧ b.toNat % 2 ^ 31 = 0x7F800000) →
        Fp.div32 a.toNat b.toNat = sign) ∧
      (Fp.lt (Claims.val a) (Claims.val b) = true → Fp.minMax false a.toNat b.toNat = a.toNat ∧
        Fp.minMax true a.toNat b.toNat = b.toNat)) ∧
    Fp.minMax false 0 0x80000000 = 0x80000000 ∧ Fp.minMax true 0x80000000 0 = 0)

/-- `Claims.VectorIntegerResults` and `Claims.VectorFloatResults` together. -/
def Obligations.VectorOperatorsCompute : Prop :=
  Claims.VectorIntegerResults ∧ Claims.VectorFloatResults

/-- The conversions of one operand with the bits of each element of their sources and results (R223, R225): the widening shapes, with
the width of a source element, and the part shapes, with the width of a result element and the code of an absent one. -/
def Sys2Proof.Claims.widens : List ((OpFields → Instr) × Nat × Nat × (Nat → Nat)) :=
  [(.vcvtF32Bf16, 0x100, 16, Lanes.cvt Fp.bf16 Fp.f32), (.vcvtF32F16, 0x103, 16, Lanes.cvt Fp.f16 Fp.f32),
   (.vcvtF32E4m3, 0x105, 8, Lanes.cvt Fp.e4m3 Fp.f32), (.vcvtF32E5m2, 0x107, 8, Lanes.cvt Fp.e5m2 Fp.f32),
   (.vqdec, 0x110, 4, fun c => Fp.rne Fp.f32 (Fp.q16n c))]
/-- The part shapes. -/
def Sys2Proof.Claims.parts : List ((OpFields → Instr) × Nat × Nat × Nat × (Nat → Nat)) :=
  [(.vcvtE4m3F32, 0x106, 8, 0, Lanes.cvt Fp.f32 Fp.e4m3), (.vcvtE5m2F32, 0x108, 8, 0, Lanes.cvt Fp.f32 Fp.e5m2),
   (.vcvtI8I32, 0x10C, 8, 0, fun b => (BitVec.ofInt 8 (max (-128) (min (BitVec.ofNat 32 b).toInt 127))).toNat),
   (.vqenc, 0x111, 4, 7, Fp.q16nEnc)]
/-- The pair shapes, whose mapping also takes IMM32, the ITER and the lane (R224). -/
def Sys2Proof.Claims.pairs : List ((OpFields → Instr) × Nat × (Nat → Nat → Nat → Nat → Nat)) :=
  [(.vcvtBf16F32, 0x101, fun _ _ _ b => Lanes.cvt Fp.f32 Fp.bf16 b), (.vcvtF16F32, 0x104, fun _ _ _ b => Lanes.cvt Fp.f32 Fp.f16 b),
   (.vcvtsrBf16F32, 0x102, Fp.srBf16)]
/-- The lane shapes. -/
def Sys2Proof.Claims.lanewise : List ((OpFields → Instr) × Nat × (Lane → Lane)) :=
  [(.vcvtI32F32, 0x109, fun a => BitVec.ofInt 32 (Fp.toI32 Fp.truncInt (Claims.val a))),
   (.vcvtnI32F32, 0x10A, fun a => BitVec.ofInt 32 (Fp.toI32 Fp.roundInt (Claims.val a))),
   (.vcvtF32I32, 0x10B, fun a => Claims.rne (Fp.ofInt a.toInt))]

/-- R223 to R225: where each element of a conversion stands, with p = SUB. A widening gives lane i the element 16p + i, active
with the lane that holds it; a part puts sixteen elements at 16p, a pair puts L's at 0 and R's at 16, zero (for `vqenc` 7) for an inactive lane,
zero elsewhere, under a full mask; the lane shapes keep the mask. -/
def Sys2Proof.Claims.VectorConversions : Prop :=
  ∀ (s u : State) (f : OpFields) (m : Match) (t : Tag) (l r : WideVal) (p : Nat), l = m.wide .l → r = m.wide .r → p = f.sub.toNat →
    (∀ e ∈ Claims.lanewise, Claims.Ready s e.2.1 f m u t → ∃ w : WideVal,
      exec (e.1 f) s = .next (Claims.answer s e.2.1 f m u t (.wide w)) ∧
      Claims.LanesAre w l.mask fun i => e.2.2 (Lanes.lane l.data i)) ∧
    (∀ e ∈ Claims.widens, Claims.Ready s e.2.1 f m u t → ∃ w : WideVal,
      exec (e.1 f) s = .next (Claims.answer s e.2.1 f m u t (.wide w)) ∧
      ∀ i, i < 16 → w.mask.getLsbD i = l.mask.getLsbD ((16 * p + i) * e.2.2.1 / 32) ∧
        Lanes.lane w.data i = if w.mask.getLsbD i then
          BitVec.ofNat 32 (e.2.2.2 (l.data.extractLsb' (e.2.2.1 * (16 * p + i)) e.2.2.1).toNat) else 0) ∧
    (∀ e ∈ Claims.parts, Claims.Ready s e.2.1 f m u t → ∃ w : WideVal,
      exec (e.1 f) s = .next (Claims.answer s e.2.1 f m u t (.wide w)) ∧ w.mask = 0xFFFF ∧
      ∀ j, j < 512 / e.2.2.1 → (w.data.extractLsb' (e.2.2.1 * j) e.2.2.1).toNat =
        if 16 * p ≤ j ∧ j < 16 * p + 16 then
          (if l.mask.getLsbD (j - 16 * p) then e.2.2.2.2 (Lanes.lane l.data (j - 16 * p)).toNat else e.2.2.2.1) % 2 ^ e.2.2.1
        else 0) ∧
    (∀ e ∈ Claims.pairs, Claims.Ready s e.2.1 f m u t → ∃ w : WideVal,
      exec (e.1 f) s = .next (Claims.answer s e.2.1 f m u t (.wide w)) ∧ w.mask = 0xFFFF ∧
      ∀ j v, j < 16 → v = e.2.2 f.imm.toNat m.tag.iter.toNat j →
        (w.data.extractLsb' (16 * j) 16).toNat = (if l.mask.getLsbD j then v (Lanes.lane l.data j).toNat else 0) % 2 ^ 16 ∧
        (w.data.extractLsb' (16 * (16 + j)) 16).toNat =
          (if m.payload? .r ≠ none ∧ r.mask.getLsbD j then v (Lanes.lane r.data j).toNat else 0) % 2 ^ 16)

/-- The reductions with the value of an empty root (R94, R226). -/
def Sys2Proof.Claims.reductions : List ((OpFields → Instr) × Nat × (Nat → Nat → Nat) × Nat) :=
  [(.vrsumF32, 0x118, Fp.add32, 0), (.vrmaxF32, 0x119, Fp.minMax true, 0x7FC00000), (.vrminF32, 0x11A, Fp.minMax false, 0x7FC00000),
   (.vrsumI32, 0x11B, fun a b => (a + b) % 2 ^ 32, 0)]
/-- A node of the pairwise tree: an empty side leaves the other (R94). -/
def Sys2Proof.Claims.node (g : Nat → Nat → Nat) (x y : Option Nat) : Option Nat :=
  match x, y with | some a, some b => some (g a b) | some a, none => some a | none, b => b
/-- The root over 2^k leaves from leaf i on. -/
def Sys2Proof.Claims.root (g : Nat → Nat → Nat) (leaf : Nat → Option Nat) : Nat → Nat → Option Nat
  | 0, i => leaf i
  | k + 1, i => Claims.node g (Claims.root g leaf k i) (Claims.root g leaf k (i + 2 ^ k))

/-- R226 to R229 and R214. A reduction writes the root of the pairwise tree to all sixteen lanes, active, a NaN root of an FP32 one in its canonical form (R76). `vperm` moves lanes or bytes under
its selector, `vrot` rotates lanes and mask, and `vcx` exchanges the lanes of each pair that is out of order, DEST1 getting the companion exchanged
alike. VECTOR_RESULT_EMIT lets out the earliest result that is due. -/
def Sys2Proof.Claims.VectorMoves : Prop :=
  ∀ (s u : State) (f : OpFields) (m : Match) (t : Tag) (l r : WideVal), l = m.wide .l → r = m.wide .r →
    (∀ e ∈ Claims.reductions, Claims.Ready s e.2.1 f m u t → ∃ w : WideVal,
      exec (e.1 f) s = .next (Claims.answer s e.2.1 f m u t (.wide w)) ∧
      ∀ r, r = BitVec.ofNat 32 ((Claims.root e.2.2.1
          (fun i => if l.mask.getLsbD i then some (Lanes.lane l.data i).toNat else none) 4 0).getD e.2.2.2) →
        Claims.LanesAre w 0xFFFF fun _ => if e.2.1 ≠ 0x11B ∧ Claims.val r = .nan then 0x7FC00000 else r) ∧
    (Claims.Ready s 0x120 f m u t → ∃ w : WideVal, exec (.vperm f) s = .next (Claims.answer s 0x120 f m u t (.wide w)) ∧
      (f.sub = 0 → ∀ i sel, i < 16 → sel = Lanes.lane r.data i →
        (sel.getLsbD 31 = true → w.mask.getLsbD i = r.mask.getLsbD i ∧ Lanes.lane w.data i = 0) ∧
        (sel.getLsbD 31 = false → w.mask.getLsbD i = (r.mask.getLsbD i && l.mask.getLsbD (sel.toNat % 16)) ∧
          Lanes.lane w.data i = if w.mask.getLsbD i then Lanes.lane l.data (sel.toNat % 16) else 0)) ∧
      (f.sub ≠ 0 → w.mask = r.mask ∧ ∀ j sel, j < 64 → sel = (Lanes.byte r.data j).toNat → Lanes.byte w.data j =
        if sel ≥ 128 ∨ l.mask.getLsbD (sel % 64 / 4) = false ∨ r.mask.getLsbD (j / 4) = false then 0
        else Lanes.byte l.data (sel % 64))) ∧
    (Claims.Ready s 0x121 f m u t → ∃ w : WideVal, exec (.vrot f) s = .next (Claims.answer s 0x121 f m u t (.wide w)) ∧
      ∀ i, i < 16 → w.mask.getLsbD i = l.mask.getLsbD ((i + f.sub.toNat) % 16) ∧
        Lanes.lane w.data i = Lanes.lane l.data ((i + f.sub.toNat) % 16)) ∧
    (∀ j k, f.sub.toNat % 32 = 4 * k + j → j < 4 → j < k → k ≤ 4 → f.sub.toNat % 128 < 32 → Claims.Ready s 0x122 f m u t →
      ∃ rs keys comp, exec (.vcx f) s = .next (u.output (s.site 0x122 f) m rs (m.at? .l)) ∧
      (rs.map fun x => (x.index, x.dest)) = OpTable.dests f ∧
      (f.flags.order = false → ∀ x ∈ rs, x.tag = t ∧
        x.payload = .wide (if x.index = 1 ∧ m.payload? .r ≠ none then comp else keys)) ∧
      ∀ i q up swap, i < 16 → i / 2 ^ j % 2 = 0 → q = i + 2 ^ j →
        up = (if (i / 2 ^ k % 2 = 0 ∨ k = 4) = (f.sub.getLsbD 7 = true) then false else true) →
        swap = (if up then Lanes.keyLt f.etype l l q i else Lanes.keyLt f.etype l l i q) → ∀ x y, (x, y) ∈ [(l, keys), (r, comp)] →
          Lanes.lane y.data i = Lanes.lane x.data (if swap then q else i) ∧
          Lanes.lane y.data q = Lanes.lane x.data (if swap then i else q) ∧
          y.mask.getLsbD i = x.mask.getLsbD (if swap then q else i) ∧ y.mask.getLsbD q = x.mask.getLsbD (if swap then i else q)) ∧
    (∀ tk v, v ∈ (s.tile tk).vector → v.due ≤ s.cycles → (∀ x ∈ (s.tile tk).vector, v.due < x.due ∨ x = v) →
      exec (.vectorResultEmit tk) s =
        .next ((s.modTile tk fun x => { x with vector := x.vector.erase v }).deliverAll tk v.plane 0 v.out))

/-- `Claims.VectorConversions` and `Claims.VectorMoves` together. -/
def Obligations.VectorConversionsAndMoves : Prop :=
  Claims.VectorConversions ∧ Claims.VectorMoves

/-! The memory unit (12_ops_memory.md R231 to R248; 08_tile_memory.md R161 to R170) -/

/-- The operators that access the address in L plus the displacement, with their opcodes (R231, R233). -/
def Sys2Proof.Claims.addressOps : List ((OpFields → Instr) × Nat) :=
  [(.ldv, 0x140), (.stv, 0x141), (.ld8, 0x142), (.ld16, 0x143), (.ld32, 0x144), (.ld64, 0x145), (.st8, 0x146), (.st16, 0x147),
   (.st32, 0x148), (.st64, 0x149), (.ldfeC, 0x150), (.ldfeK, 0x151), (.stf, 0x152), (.aaddI32, 0x160), (.aaddF32, 0x161),
   (.aminI32, 0x162), (.amaxI32, 0x163), (.aand, 0x164), (.aor, 0x165), (.axchg, 0x166), (.acas, 0x167)]
/-- A firing of data whose guard lets its access happen (R236). -/
def Sys2Proof.Claims.Accesses (s : State) (opc : Nat) (f : OpFields) (m : Match) : Prop :=
  Claims.Fires s opc f m ∧ m.eos = false ∧ suppressed opc m = false
/-- The state `w` holds the access `a` of a firing as the newest outstanding one of the tile: its result tag is `t`, its data operands
are those of the firing, and L's credit stays with it. -/
def Sys2Proof.Claims.Outstanding (s w : State) (opc : Nat) (f : OpFields) (m : Match) (t : Tag) (a : Access) : Prop :=
  (w.tile s.actor.tk).accesses = (s.tile s.actor.tk).accesses ++ [a] ∧ a.opc = opc ∧ a.slot = s.actor.slot ∧ a.fields = f ∧
    a.tag = m.tag ∧ a.out = t ∧ a.r = m.payload? .r ∧ a.c = m.payload? .c ∧ a.poison = m.poison ∧
    a.credit = (m.at? .l).bind (·.entry.token.credit)
/-- No outstanding access of the acting tile has the next number. -/
def Sys2Proof.Claims.FreshId (s : State) : Prop := ∀ b ∈ (s.tile s.actor.tk).accesses, b.id < s.nextId

/-- An access of tile `tk` is at its scratchpad bank, or goes by the mesh to the tile that its address names, on VC0 (R161). -/
def Sys2Proof.Claims.GoesToBank (w : State) (tk : Nat) (x : Access) : Prop :=
  (x.addr % 2 ^ 24 / 2 ^ 16 = tiOf tk ∨ 192 ≤ x.addr % 2 ^ 24 / 2 ^ 16 → x.phase = .bank) ∧
    (x.addr % 2 ^ 24 / 2 ^ 16 ≠ tiOf tk → x.addr % 2 ^ 24 / 2 ^ 16 < 192 → x.phase = .sent ∧
      (w.cluster (ckOf tk)).flits.getLast? = some ((MeshSource.tile (tiOf tk)).flit w.cycles (x.addr % 2 ^ 24 / 2 ^ 16, 4) false 0
        (.remote tk x.id)))
/-- A request of tile `tk` enters the mesh, on the wide plane's VC0, towards the edge port by which it leaves for its slice (07_network.md R142,
R144). -/
def Sys2Proof.Claims.Posts (w : State) (tk : Nat) (r : Request) : Prop :=
  ∃ f : Flit, (w.cluster (ckOf tk)).flits.getLast? = some f ∧ f.cargo = .request r ∧ f.narrow = false ∧ f.vc = 0 ∧ f.router = tiOf tk ∧
    (f.dst, f.out) = portPlace (sliceExit tk r.sk)

/-- R233 to R236, what a firing of an address operator does with its address a = L + IMM32. A false guard suppresses the access (with
FLAGS.ORDER it still sends ORDER). A TAGOP without a result ends the firing with TAG_RANGE (the model's order, log 111). Outside [0, 2^47) the fault is VA_RANGE, a full/empty operator outside the scratchpad window gives FE_SPACE, and an address off its
alignment ALIGN. In the window the access goes to its bank; elsewhere a TLB miss starts a walk and keeps the entries, a fault of the translation ends the
firing, and a hit issues the access. -/
def Sys2Proof.Claims.MemoryOperatorsIssue : Prop :=
  ∀ e ∈ Claims.addressOps, ∀ (s u : State) (f : OpFields) (m : Match) (q : Site) (a : Int) (n : Nat), q = s.site e.2 f →
    a = m.value .l + f.imm.toInt → n = (if e.2 = 0x142 ∨ e.2 = 0x146 then 1 else if e.2 = 0x143 ∨ e.2 = 0x147 then 2
      else if e.2 = 0x144 ∨ e.2 = 0x148 then 4 else if e.2 = 0x145 ∨ e.2 = 0x149 then 8 else 64) →
    (Claims.Fires s e.2 f m → m.eos = false → suppressed e.2 m = true →
      (f.flags.order = false → exec (e.1 f) s = .next ((Claims.taken s e.2 f m).returnCredits s.actor.tk m.operands)) ∧
      (∀ t, f.flags.order = true → Claims.Ready s e.2 f m u t →
        exec (e.1 f) s = .next (Claims.answer s e.2 f m u t .order))) ∧
    (Claims.Accesses s e.2 f m →
      (∀ v, s.needsWalk q m = false → (Claims.taken s e.2 f m).lValue m = (u, v) → u.tagOp q.ck f.tagop m.tag v = none →
        exec (e.1 f) s = .next (u.faultFiring q m 0x02 0)) ∧
      (∀ t, Claims.Ready s e.2 f m u t → a < 0 ∨ 2 ^ 47 ≤ a →
        exec (e.1 f) s = .next (u.faultFiring q m 0x14 (a % 2 ^ 64).toNat)) ∧
      (∀ va : Nat, a = va → va < 2 ^ 47 →
        (∀ t, Claims.Ready s e.2 f m u t → 0x150 ≤ e.2 → e.2 ≤ 0x152 → va < windowBase →
          exec (e.1 f) s = .next (u.faultFiring q m 0x1C va)) ∧
        (∀ t, Claims.Ready s e.2 f m u t → ¬ (0x150 ≤ e.2 ∧ e.2 ≤ 0x152 ∧ va < windowBase) → va % n ≠ 0 →
          exec (e.1 f) s = .next (u.faultFiring q m 0x1B va)) ∧
        (va % n = 0 → windowBase ≤ va → f.flags.commit = false → Claims.FreshId s → ∀ t, Claims.Ready s e.2 f m u t →
          ∃ (w : State) (x : Access), exec (e.1 f) s = .next w ∧ Claims.Outstanding s w e.2 f m t x ∧ x.addr = va ∧
            Claims.GoesToBank w q.tk x ∧
            w.dram = s.dram ∧ ∀ k, (w.tile k).scratch = (s.tile k).scratch) ∧
        (va % n = 0 → va < windowBase → ¬ (0x150 ≤ e.2 ∧ e.2 ≤ 0x152) →
          (s.needsWalk q m = true → ∃ w : State, exec (e.1 f) s = .next w ∧
            (w.tile q.tk).walks = (s.tile q.tk).walks ++ [⟨q.slot, m.tag, va, memWrites e.2⟩] ∧
            (w.tile q.tk).store = (s.tile q.tk).store.map (fun x =>
              if x.1 ∈ m.operands.map (·.idx) then (x.1, { x.2 with state := .walking }) else x) ∧
            (w.tile q.tk).accesses = (s.tile q.tk).accesses ∧ w.dram = s.dram) ∧
          (∀ k t, s.needsWalk q m = false → s.xlateTile q.tk m.tag.colour va (memReads e.2) (memWrites e.2) = .error k →
            Claims.Ready s e.2 f m u t → exec (e.1 f) s = .next ((u.tilePoison q.tk m.tag.colour k va).faultFiring q m k va)) ∧
          (∀ x t, s.needsWalk q m = false → s.xlateTile q.tk m.tag.colour va (memReads e.2) (memWrites e.2) = .ok x →
            Claims.Ready s e.2 f m u t → ∃ (w : State) (y : Access), exec (e.1 f) s = .next (w.startAccess q.tk y) ∧
              Claims.Outstanding s w e.2 f m t y ∧ y.addr = va ∧ y.phase = .sent ∧ w.dram = s.dram))))

/-- R238, R241, R165 and R166, an access whose page is mapped and no device register: an atomic goes to the line's home slice; a load is answered from a live copy in the stash or asks the
home slice, as one through a handle always does; a store at SELF or TILE scope is merged into a live copy, or asks for the line; another store, and one through a handle, goes to the
home slice and is answered at once. No byte of memory changes before a slice performs it. -/
def Sys2Proof.Claims.AccessesGoHome : Prop :=
  ∀ (s : State) (tk : Nat) (a : Access) (x : Xlat), x.device = false → a.fields.flags.commit = false →
    ∃ t : State, s.accessLine tk a x = t ∧ t.dram = s.dram ∧ t.slices = s.slices ∧
    (isAtomic a.opc = true → ∃ r : Request, Claims.Posts t tk r ∧ r.kind = .atomic a.opc a.rWide a.cWide? a.poison ∧ r.pa = x.pa ∧
      r.sk = x.sk ∧ r.key = x.key ∧ r.answer = some a.id) ∧
    (isAtomic a.opc = false → a.isStore = false →
      (∀ l, a.isHandle = false → a.opc ≠ 0x021 → (s.tile tk).stashHit x.pa x.key = some l → t.clusters = s.clusters ∧
        ∀ b ∈ (t.tile tk).accesses, b.id = a.id → b.opc = a.opc → b.phase = .answered) ∧
      (a.isHandle = true ∨ (s.tile tk).stashHit x.pa x.key = none → ∃ r : Request, Claims.Posts t tk r ∧ r.kind = .read ∧ r.pa = x.pa ∧ r.sk = x.sk ∧
        r.key = x.key ∧ r.pts = (s.tile tk).pts ∧ r.answer = some a.id)) ∧
    (isAtomic a.opc = false → a.isStore = true → localScope (a.scope x.scope) = true → (s.tile tk).stashCap ≠ 0 → a.isHandle = false →
      (∀ l, (s.tile tk).stashHit x.pa x.key = some l → t.clusters = s.clusters ∧
        (∃ y ∈ (t.tile tk).stash, y.pa = l.pa ∧ y.data = (l.merge (a.storeBytes (x.pa % 256)) a.poison).data) ∧
        ∀ b ∈ (t.tile tk).accesses, b.id = a.id → b.phase = .answered) ∧
      ((s.tile tk).stashHit x.pa x.key = none → ∃ r : Request, Claims.Posts t tk r ∧ r.kind = .read ∧ r.pa = x.pa ∧
        r.answer = some a.id)) ∧
    (isAtomic a.opc = false → a.isStore = true → localScope (a.scope x.scope) = false ∨ (s.tile tk).stashCap = 0 ∨ a.isHandle = true →
      ∃ r : Request, Claims.Posts t tk r ∧ r.kind = .write (a.storeBytes (x.pa % 256)) a.poison ∧ r.pa = x.pa ∧ r.sk = x.sk ∧ r.key = x.key ∧
        ∀ b ∈ (t.tile tk).accesses, b.id = a.id → b.phase = .answered)

/-- `Claims.MemoryOperatorsIssue` and `Claims.AccessesGoHome` together. -/
def Obligations.MemoryOperatorsReachHome : Prop :=
  Claims.MemoryOperatorsIssue ∧ Claims.AccessesGoHome

/-- `ldg` and `fence.s` (R242, R247). A `ldg` whose addresses and descriptor keep their rules makes its tile's release and asks the cluster's group agent, with the displacement 256 * IMM[15:8]; its operands stay in the
store, in FAULT state, until the agent has translated the line (the model's, log 112). A `fence.s` never faults. At SELF or TILE it is answered at once; at a wider scope the stash
writes its dirty lines back first, and then it is answered with the stash empty, or waits for the probes of every slice the tile wrote to. -/
def Sys2Proof.Claims.GroupsAndFences : Prop :=
  ∀ (s u : State) (f : OpFields) (m : Match) (t : Tag) (q : Site) (tk ck : Nat), tk = s.actor.tk → Claims.FreshId s →
    (q = s.site 0x158 f → ck = q.ck → ∀ (va d : Nat) (x : Xlat), m.value .l = va → d = (s.groupAddr q) → va < windowBase → va % 256 = 0 →
      d < windowBase → d % 256 = 0 → Claims.Accesses s 0x158 f m → s.needsWalk q m = false →
      s.xlateTile tk m.tag.colour d true false = .ok x → Claims.Ready s 0x158 f m u t → ∃ (w : State) (y : Access), exec (.ldg f) s = .next w ∧
        Claims.Outstanding s w 0x158 f m t y ∧ y.addr = va ∧ y.object = some x.pa ∧ w.dram = s.dram ∧
        (∀ o ∈ m.operands, ∃ e, Map.get? (w.tile tk).store o.idx = some e ∧ e.state = .group y.id) ∧
        ((s.tile tk).stash = [] → probesOf (dieOf ck) (s.tile tk).touched = [] → (∀ b ∈ (s.tile tk).accesses, b.bankWrite = false) →
          y.phase = .group ∧ ∃ g : Flit, (w.cluster ck).flits.getLast? = some g ∧ g.vc = 2 ∧ (g.dst, g.out) = portPlace unitPort ∧
            g.cargo = .ask ⟨⟨x.pa, va, 256 * OpTable.immField f 15 8⟩, tk, y.id, m.tag, none, none, none⟩) ∧
        ((s.tile tk).stash = [] → probesOf (dieOf ck) (s.tile tk).touched ≠ [] → y.phase = .fence ∧ (w.tile tk).touched = 0 ∧
          ∃ r : Release, w.releases = s.releases ++ [r] ∧ r.src = .tile tk ∧ r.access = some y.id ∧
            r.probes = probesOf (dieOf ck) (s.tile tk).touched)) ∧
    (∀ v, q = s.site 0x170 f → ck = q.ck → Claims.Accesses s 0x170 f m → (Claims.taken s 0x170 f m).lValue m = (u, v) →
      t = (u.tagOp q.ck f.tagop m.tag v).getD m.tag → ∃ (w : State) (y : Access), Claims.Outstanding s w 0x170 f m t y ∧
      (w.tile tk).stash = (s.tile tk).stash ∧ (w.tile tk).touched = (s.tile tk).touched ∧ w.releases = s.releases ∧
      (localScope (OpTable.scopeBits f) = true → exec (.fenceS f) s = .next (w.answer tk y.id id)) ∧
      (localScope (OpTable.scopeBits f) = false → ∀ z, z = w.stashBackAll tk m.tag.ctx.toNat →
        (probesOf (dieOf ck) (z.tile tk).touched = [] → (∀ b ∈ (s.tile tk).accesses, b.bankWrite = false) →
          exec (.fenceS f) s = .next ((z.stashAcquire tk m.tag.ctx.toNat).answer tk y.id id)) ∧
        (probesOf (dieOf ck) (z.tile tk).touched ≠ [] → ∃ v : State, exec (.fenceS f) s = .next v ∧ (v.tile tk).touched = 0 ∧
          (∃ r : Release, v.releases = z.releases ++ [r] ∧ r.src = .tile tk ∧ r.access = some y.id ∧
            r.probes = probesOf (dieOf ck) (z.tile tk).touched) ∧
          ∀ b ∈ (v.tile tk).accesses, b.id = y.id → b.phase = .fence)))

/-- The handle operators (R243 to R246). `ldh.v` and `sth.v` go through a strong handle of a live object of the world to its base plus the
offset; the faults are ALIGN, HANDLE_FORM, OBJ_STALE and OBJ_RANGE in this order. `ldw.v` reads a live object while a pin holds it, and answers that a gone one is gone; `hup`
makes a weak handle strong, and `hrel` takes a reference back. -/
def Sys2Proof.Claims.HandleOperators : Prop :=
  ∀ (s u : State) (f : OpFields) (m : Match) (t : Tag) (h : Handle) (w : World) (off : Int) (tk : Nat), tk = s.actor.tk →
    h = Handle.ofNat (m.value .l % 2 ^ 64).toNat → w = (s.colour m.tag.colour).world → Claims.FreshId s →
    (∀ e ∈ [(Instr.ldhV f, 0x159, Port.r), (Instr.sthV f, 0x15A, Port.c)],
      off = (match m.payload? e.2.2 with | some p => p.value | none => 0) + f.imm.toInt → Claims.Accesses s e.2.1 f m → ∀ bad,
      Claims.Ready s e.2.1 f m u t → bad = (fun k v => exec e.1 s = .next (u.faultFiring (s.site e.2.1 f) m k v)) →
      (off % 64 ≠ 0 → bad 0x1B (off % 2 ^ 64).toNat) ∧
      (off % 64 = 0 → h.low ≠ 0 ∨ h.strong = false → bad 0x1D 0) ∧
      (off % 64 = 0 → h.low = 0 → h.strong = true →
        (s.liveObject w h = none → bad 0x1E 0) ∧
        (∀ o, s.liveObject w h = some o →
          (off < 0 ∨ off + 64 > 2 ^ 14 * o.size → bad 0x1F 0) ∧
          (0 ≤ off → off + 64 ≤ 2 ^ 14 * o.size → ∃ (v : State) (y : Access), 
            exec e.1 s = .next (v.startAccess tk y) ∧ Claims.Outstanding s v e.2.1 f m t y ∧ y.addr = o.base + off.toNat ∧
            v.object h.die h.index = { o with touch := s.touchNow })))) ∧
    (off = (match m.payload? .r with | some p => p.value | none => 0) + f.imm.toInt → off % 64 = 0 → h.low = 0 →
      Claims.Accesses s 0x15B f m → Claims.Ready s 0x15B f m u t →
      (s.liveObject w h = none → ∃ (v : State) (y : Access), exec (.ldwV f) s = .next v ∧ Claims.Outstanding s v 0x15B f m t y ∧ y.phase = .answered ∧
        y.ok = false) ∧
      (∀ o, s.liveObject w h = some o → 0 ≤ off → off + 64 ≤ 2 ^ 14 * o.size → ∃ (v : State) (y : Access), 
        exec (.ldwV f) s = .next (v.startAccess tk y) ∧ Claims.Outstanding s v 0x15B f m t y ∧ y.addr = o.base + off.toNat ∧
        y.pinned = true ∧ v.object h.die h.index = { o with pin := o.pin + 1, touch := s.touchNow })) ∧
    (h.low = 0 → Claims.Accesses s 0x168 f m → Claims.Ready s 0x168 f m u t →
      (h.strong = true ∨ s.liveObject w h = none → ∃ (v : State) (y : Access), exec (.hup f) s = .next v ∧ Claims.Outstanding s v 0x168 f m t y ∧
        y.phase = .answered ∧ y.value = m.value .l ∧ y.ok = h.strong ∧ v.dies = s.dies) ∧
      (∀ o, h.strong = false → s.liveObject w h = some o →
        (o.strong = 65535 → exec (.hup f) s = .next (u.faultFiring (s.site 0x168 f) m 0x20 0)) ∧
        (o.strong ≠ 65535 → ∃ (v : State) (y : Access), exec (.hup f) s = .next v ∧ Claims.Outstanding s v 0x168 f m t y ∧ y.phase = .answered ∧
          y.ok = true ∧ y.value = (BitVec.ofNat 64 { h with strong := true }.toNat).toInt ∧
          v.object h.die h.index = { o with strong := o.strong + 1, touch := s.touchNow }))) ∧
    (h.low = 0 → Claims.Accesses s 0x169 f m → Claims.Ready s 0x169 f m u t →
      (s.liveObject w h = none →
        (h.strong = true → exec (.hrel f) s = .next (u.faultFiring (s.site 0x169 f) m 0x1E 0)) ∧
        (h.strong = false → ∃ (v : State) (y : Access), exec (.hrel f) s = .next v ∧ Claims.Outstanding s v 0x169 f m t y ∧ y.phase = .answered ∧
          v.dies = s.dies)) ∧
      (∀ o n, s.liveObject w h = some o → n = (if h.strong then o.strong else o.weak) →
        (n = 0 → exec (.hrel f) s = .next (u.faultFiring (s.site 0x169 f) m 0x20 0)) ∧
        (n > 1 ∨ (if h.strong then o.weak else o.strong) ≠ 0 → n ≠ 0 → ∃ (v : State) (y : Access), exec (.hrel f) s = .next v ∧
          Claims.Outstanding s v 0x169 f m t y ∧ y.phase = .answered ∧ v.object h.die h.index =
            (if h.strong then { o with strong := n - 1, touch := s.touchNow } else { o with weak := n - 1, touch := s.touchNow }))))

/-- `Claims.GroupsAndFences` and `Claims.HandleOperators` together. -/
def Obligations.GroupsFencesAndHandles : Prop :=
  Claims.GroupsAndFences ∧ Claims.HandleOperators

/-- An outstanding access in a phase, at its place k in its tile. -/
def Sys2Proof.Claims.At (s : State) (tk k : Nat) (a : Access) (p : AccessPhase) : Prop :=
  (s.tile tk).accesses[k]? = some a ∧ a.phase = p ∧ a.opc ≠ 0x021 ∧
    (∀ w, s.planeWorld tk a.plane = some w → s.isFrozen w = false)

/-- Bank `dst` has answered the k-th access `a` of a tile, which is then `x`: it has its answer in its own tile; in another one the answer goes back by the
mesh, on VC1 (07_network.md R142). -/
def Sys2Proof.Claims.BankAnswers (s t : State) (tk k dst : Nat) (a x : Access) : Prop :=
  (t.tile tk).accesses[k]? = some x ∧ x.id = a.id ∧ x.opc = a.opc ∧ x.out = a.out ∧
    (dst = tk → x.phase = .answered ∧ x.since = s.cycles + 1) ∧
    (dst ≠ tk → x.phase = .sent ∧ ∃ f ∈ (t.cluster (ckOf dst)).flits, f.cargo = .reply tk a.id ∧ f.vc = 1 ∧ f.router = tiOf dst ∧
      f.dst = tiOf tk ∧ f.out = 4)

/-- MEMORY_RESULT_ARRIVAL at a scratchpad bank (R161, R238, R241), for the earliest access to its bank that is in the tile, where no other access has its number: out of the cluster's scratchpad or in another
world's it faults. A load is answered with the bytes there, signed, a store writes its active bytes and nothing else, and an atomic writes the new lanes and gives the old ones. In its own
tile the access has its answer; another tile's answer goes back by the mesh, on VC1. -/
def Sys2Proof.Claims.BankAccesses : Prop :=
  ∀ (s : State) (tk k : Nat) (a : Access) (n : Nat), Claims.At s tk k a .bank → n = memAlign a.opc →
    (∀ b ∈ (s.tile tk).accesses.take k, b.phase ≠ .bank ∨ b.bankTile ≠ a.bankTile) →
    ((s.tile tk).accesses.filter fun b => b.id = a.id) = [a] →
    (∀ c, s.spCheck (ckOf tk) a.tag.colour (a.addr % 2 ^ 24) n = .error c → ∃ t : State, exec (.memoryResultArrival tk k) s = .next t ∧
      (t.tile tk).accesses[k]? = some { a with phase := .faulted c } ∧ ∀ j, (t.tile j).scratch = (s.tile j).scratch) ∧
    (∀ dst off, s.spCheck (ckOf tk) a.tag.colour (a.addr % 2 ^ 24) n = .ok (dst, off) →
      (a.opc = 0x140 ∨ (0x142 ≤ a.opc ∧ a.opc ≤ 0x145) → ∃ (bs : List Byte) (x : Access) (t : State),
        bs = Memory.readBytes (s.tile dst).scratch off n ∧ Claims.BankAnswers s t tk k dst a x ∧
          x.data = ⟨BitVec.ofNat 512 (bytesNat bs), 0xFFFF⟩ ∧ x.value = (BitVec.ofNat (8 * n) (bytesNat bs)).toInt ∧
          (∀ j, (t.tile j).scratch = (s.tile j).scratch) ∧ exec (.memoryResultArrival tk k) s = .next t) ∧
      (∀ kind data, (a.opc, kind, data) ∈ [(0x150, FeKind.consume, ⟨0, 0⟩), (0x151, .keep, ⟨0, 0⟩), (0x152, .store, a.rWide)] →
        exec (.memoryResultArrival tk k) s = .next (s.feArrive dst ⟨tk, a.id, off, kind, data, a.poison, a.tag, 0, 0⟩)) ∧
      (a.isStore = true → ∃ (t : State) (x : Access), Claims.BankAnswers s t tk k dst a x ∧
        exec (.memoryResultArrival tk k) s = .next t ∧
        (t.tile dst).scratch = Memory.writePairs (s.tile dst).scratch 0 (a.storeBytes off) ∧
        ∀ j, j ≠ dst → (t.tile j).scratch = (s.tile j).scratch) ∧
      (isAtomic a.opc = true → ∃ (t : State) (x : Access) (new old : WideVal), (new, old) = atomicBlock a.opc
          (BitVec.ofNat 512 (bytesNat (Memory.readBytes (s.tile dst).scratch off 64))) a.rWide a.cWide? ∧
        Claims.BankAnswers s t tk k dst a x ∧ x.data = old ∧ exec (.memoryResultArrival tk k) s = .next t ∧
        (t.tile dst).scratch = Memory.writePairs (s.tile dst).scratch 0 (activeBytes off new) ∧
        ∀ j, j ≠ dst → (t.tile j).scratch = (s.tile j).scratch))

/-- The payload of each destination when an access is answered (R231, R237, R245, R246): `i` is the destination's index and `g` says whether its port is G. -/
def Sys2Proof.Claims.reply (a : Access) (i : Nat) (g : Bool) : Payload :=
  let guard := fun (b : Bool) => if g then Payload.guard b else .narrow 4 (if b then 1 else 0) .canonical
  if a.fields.flags.order = true ∨ a.opc = 0x170 then .order
  else if a.opc ∈ [0x140, 0x150, 0x151, 0x159] then .wide a.data
  else if (0x142 ≤ a.opc ∧ a.opc ≤ 0x145) ∨ a.opc = 0x1A1 then .narrow a.fields.etype.digits a.value .canonical
  else if a.opc = 0x158 then (if g then .guard (decide (a.value ≤ 2)) else .narrow 4 a.value .canonical)
  else if a.opc = 0x15B then (if i = 1 then guard a.ok else .wide (if a.ok then a.data else ⟨0, 0⟩))
  else if a.opc = 0x168 then (if i = 1 then guard a.ok else .narrow 32 a.value .canonical)
  else if 0x160 ≤ a.opc ∧ a.opc ≤ 0x167 then
    (let m := match a.cWide? with | some c => a.rWide.mask &&& c.mask | none => a.rWide.mask
     .wide (Lanes.masked m (Lanes.lane a.data.data)))
  else .narrow 4 0 .canonical

/-- MEMORY_RESULT_ARRIVAL, WALK_COMPLETE, FE_TIMEOUT and FE_RESEND (R170, R235, R237, R240, R243, R248). An answered access leaves the table and sends each destination its reply under
the result tag, in a later cycle than it was answered in; a faulted one releases its reservations and ends with a record; one whose page has come starts again. A walk that finds its page lets the entries fire, and one that finds none leaves them to the pager. A parked access that
is as old as its colour's limit ends with a record of status FE_TIMEOUT, and a refused one is sent again after 16 cycles, by the mesh from another tile. -/
def Obligations.AccessesEnd : Prop :=
  ∀ (s : State) (tk k : Nat),
    (∀ a rs, Claims.At s tk k a .answered → a.since ≠ s.cycles + 1 → rs = (OpTable.dests a.fields).map (fun d =>
        (⟨d.1, d.2, Claims.reply a d.1 (d.2.port = .g), a.out⟩ : Result)) → rs ≠ [] → a.memPoison = false →
      exec (.memoryResultArrival tk k) s = .next ((s.dropAccess tk a).deliverAll tk a.plane (if a.opc = 0x170 then 0 else 1)
        ((s.dropAccess tk a).emissions (a.site tk) rs a.credit a.poison))) ∧
    (∀ a c, Claims.At s tk k a (.faulted c) → exec (.memoryResultArrival tk k) s = .next (s.faultAccess tk a c)) ∧
    (∀ a, Claims.At s tk k a .reissue → exec (.memoryResultArrival tk k) s = .next (s.startAccess tk a)) ∧
    (∀ w z, (s.tile tk).walks[k]? = some w → z = s.modTile tk (fun x => { x with walks := x.walks.eraseIdx k }) →
      ∃ v r, z.xlateWalk tk w.tag.colour w.va (!w.write) w.write = (v, r) ∧
        (∀ x, r = .ok x → exec (.walkComplete tk k) s = .next (v.walked tk w .wait)) ∧
        (r = .error 0x10 → exec (.walkComplete tk k) s = .next ((v.tilePage tk w.tag.colour w.va).walked tk w
          (.page w.tag.colour.toNat (w.va / 2 ^ 14)))) ∧
        (∀ c, r = .error c → c ≠ 0x10 →
          exec (.walkComplete tk k) s = .next ((v.tilePoison tk w.tag.colour c w.va).endWalking tk w c))) ∧
    (∀ w lim, (s.tile tk).parked[k]? = some w → lim = (s.colour w.tag.colour).age →
      (lim = 0 ∨ w.age < lim → exec (.feTimeout tk k) s = .next s) ∧
      (lim ≠ 0 → lim ≤ w.age → ∃ z : State, exec (.feTimeout tk k) s = .next (z.feServe tk (w.off / 64) 17) ∧
        (z.tile tk).parked = (s.tile tk).parked.eraseIdx k ∧ ∃ r, z.records = s.records ++ [r] ∧ r.kind = 0x02 ∧ r.status = 0x03 ∧
          r.colour = w.tag.colour ∧ r.bytes = 64)) ∧
    (∀ w z, (s.tile tk).refused[k]? = some w → w.resendAt ≤ s.cycles →
      z = s.modTile tk (fun t => { t with refused := t.refused.eraseIdx k }) →
      (w.src = tk ∨ (∀ b ∈ (s.tile w.src).accesses, b.id ≠ w.id) → exec (.feResend tk k) s = .next (z.feArrive tk w)) ∧
      (∀ b, w.src ≠ tk → (s.tile w.src).accesses.find? (fun b => b.id = w.id) = some b →
        exec (.feResend tk k) s = .next (z.sendRemote w.src b)))

/-- Full/empty accesses (R169, R170, R239). Where the four granules are as the access needs them, a load answers with the bytes and, if it consumes, empties them, and a store writes its active bytes and
fills them; both then serve what waits there. In its own tile the access then has its answer; to another one the answer goes by the mesh, on VC1. Otherwise the access is parked while fewer than sixteen are, and else refused for 16 cycles. -/
def Sys2Proof.Claims.FullEmptyAccesses : Prop :=
  ∀ (s : State) (tk : Nat) (w : FeWait),
    ((s.tile tk).feReady w.off w.kind = true → s.feArrive tk w = (s.feDo tk w).feServe tk (w.off / 64) 17 ∧
      (w.kind = .store → ((s.feDo tk w).tile tk).scratch = Memory.writePairs (s.tile tk).scratch 0 (activeBytes w.off w.data) ∧
        ∀ g ∈ granulesOf w.off 64, g ∈ ((s.feDo tk w).tile tk).full) ∧
      (w.kind ≠ .store → ((s.feDo tk w).tile tk).scratch = (s.tile tk).scratch ∧
        ((s.feDo tk w).tile tk).full = (if w.kind = .consume then ((s.tile tk).setFull (granulesOf w.off 64) false).full else (s.tile tk).full) ∧
        ∀ b ∈ ((s.feDo tk w).tile w.src).accesses, b.id = w.id →
          b.data = ⟨BitVec.ofNat 512 (bytesNat (Memory.readBytes (s.tile tk).scratch w.off 64)), 0xFFFF⟩ ∧
          (w.src = tk → b.phase = .answered) ∧ (w.src ≠ tk → b.phase = .sent ∧ ∃ f ∈ ((s.feDo tk w).cluster (ckOf tk)).flits,
            f.cargo = .reply w.src w.id ∧ f.vc = 1 ∧ f.router = tiOf tk ∧ f.dst = tiOf w.src ∧ f.out = 4))) ∧
    ((s.tile tk).feReady w.off w.kind = false →
      ((s.tile tk).parked.length < 16 → ((s.feArrive tk w).tile tk).parked = (s.tile tk).parked ++ [{ w with age := 0 }]) ∧
      (16 ≤ (s.tile tk).parked.length →
        ((s.feArrive tk w).tile tk).refused = (s.tile tk).refused ++ [{ w with resendAt := s.cycles + 16 }] ∧
          ((s.feArrive tk w).tile tk).parked = (s.tile tk).parked) ∧
      (∀ k, ((s.feArrive tk w).tile k).scratch = (s.tile k).scratch) ∧
      ∀ b ∈ ((s.feArrive tk w).tile w.src).accesses, b.id = w.id → b.phase = .parked)

/-- `Claims.BankAccesses` and `Claims.FullEmptyAccesses` together. -/
def Obligations.ScratchpadAccesses : Prop :=
  Claims.BankAccesses ∧ Claims.FullEmptyAccesses

/-! The cell array, attention and KV state (13_ops_matrix.md R252 to R270; 04_numbers.md R90 to R96) -/

/-- The cell array of the acting tile works on a firing: `busy` cycles from now it ends, and each destination of the word then gets the
payload `p` of its index under the tag `t` (with FLAGS.ORDER an ORDER token). -/
def Sys2Proof.Claims.Working (s w : State) (f : OpFields) (t : Tag) (busy : Nat) (p : Nat → Payload) (a : ArrayFiring) : Prop :=
  (w.tile s.actor.tk).array = some a ∧ a.lastBusy = s.cycles + busy - 1 ∧
    (a.out.map fun e => (e.index, e.dest, e.token.payload, e.token.tag)) = (OpTable.dests f).map fun d =>
      (d.1, d.2, if f.flags.order then .order else p d.1, { t with slot := d.2.slot, port := portCode d.2.port })
/-- The accumulators of the acting tile afterwards, and no scratchpad changed. -/
def Sys2Proof.Claims.Cells (s w : State) (g : Nat → Nat → Nat → Lane) : Prop :=
  (∀ n i j, n < 4 → i < 16 → j < 16 → (w.tile s.actor.tk).regs.cell n i j = g n i j) ∧
    ∀ k, (w.tile k).scratch = (s.tile k).scratch
/-- The `mma` operators. -/
def Sys2Proof.Claims.mmas : List ((OpFields → Instr) × Nat) :=
  [(.mmaE4m3, 0x180), (.mmaE5m2, 0x181), (.mmaE4e5, 0x182), (.mmaBf16, 0x183), (.mmaI8, 0x184), (.mmaQ16n, 0x185)]
/-- One step of a product (R90 to R92): groups of sixteen exact products (eight for BF16; integers, whose zero has no sign, for I8), each group rounded once and then added in order; the
sum of all 64 products, rounded once and without the old value, for Q16N. -/
def Sys2Proof.Claims.product (opc : Nat) (a b : List Fp.Val) (c : Lane) : Lane :=
  let ps := (List.zipWith Fp.mul a b).map fun v => match opc, v with | 0x184, .fin _ 0 e => Fp.Val.fin false 0 e | _, v => v
  let n := if opc = 0x183 then 8 else 16
  if opc = 0x185 then BitVec.ofNat 32 (Fp.rne Fp.f32 (Fp.sum ps))
  else BitVec.ofNat 32 ((List.range (64 / n)).foldl (fun x g =>
    Fp.add32 x (Fp.rne Fp.f32 (Fp.sum ((ps.drop (n * g)).take n)))) c.toNat)

/-- R254 to R258, an `mma`, where TAGOP has a result: a source that breaks its rules, or a granule of its extent that does not exist, faults before anything changes. Otherwise the LD field loads
registers from L, Z zeroes accumulator ACC, and STEPS + 1 products are added to it; the array is busy for 32 cycles a step (64 for BF16, 16 for Q16N) and then sends L on and
advances the buffers read. -/
def Sys2Proof.Claims.MatrixProducts : Prop :=
  ∀ e ∈ Claims.mmas, ∀ (s u : State) (f : OpFields) (m : Match) (t : Tag) (q : Site) (fa fb steps acc : Nat) (z : State),
    q = s.site e.2 f → fa = mmaFormat e.2 true → fb = mmaFormat e.2 false → steps = OpTable.immField f 27 24 + 1 →
    acc = OpTable.immField f 23 22 → z = s.modRegs q.tk (fun r => loadRegs r q m) → Claims.Ready s e.2 f m u t →
    ∀ ra rb, ra = s.sourceOf q m.tag.colour (OpTable.immField f 17 16) (OpTable.immField f 15 12) →
      rb = s.sourceOf q m.tag.colour (OpTable.immField f 11 10) (OpTable.immField f 9 6) →
    (∀ k, ra = .error k ∨ (∃ a, ra = .ok a) ∧ rb = .error k →
      exec (e.1 f) s = .next (u.faultFiring q m k 0)) ∧
    (∀ a b, ra = .ok a → rb = .ok b → ∀ bad, bad = ((a.bind fun r => s.extentFault q m.tag.colour r (rowBytes fa) steps).orElse fun _ =>
        b.bind fun r => s.extentFault q m.tag.colour r (rowBytes fb) steps) →
      (∀ k, bad = some k → exec (e.1 f) s = .next (u.faultFiring q m k 0)) ∧
      (bad = none → ∃ (w : State) (x : ArrayFiring), exec (e.1 f) s = .next w ∧
        Claims.Working s w f t (if e.2 = 0x183 then 64 * steps else if e.2 = 0x185 then 16 else 32 * steps)
          (fun _ => (m.payload? .l).getD .order) x ∧
        (∀ h, h ∈ x.cons ↔ ∃ r, (a = some r ∨ b = some r) ∧ r.header = some h) ∧
        (w.tile q.tk).regs.v = (z.tile q.tk).regs.v ∧
        Claims.Cells s w fun n i j => if n ≠ acc then (s.tile q.tk).regs.cell n i j else
          (List.range steps).foldl (fun c k => Claims.product e.2
            ((z.operandRows q a fa (OpTable.immField f 15 12) k).getD i [])
            ((z.operandRows q b fb (OpTable.immField f 9 6) k).getD j []) c)
            (if OpTable.immField f 21 21 = 1 then 0 else (s.tile q.tk).regs.cell acc i j)))

/-- R259 to R261 and R253. `scalc` adds the product accumulator times each row's scale, where L and R are active; `accz` zeroes an accumulator, `accwr` writes a row's active lanes, `accrd` sends a row (or
queues the whole accumulator for a buffer), and `xsort` sends the keys sorted, stably, with their lanes. ARRAY_FIRING_END writes the rows, advances the pointers and sends the results. -/
def Sys2Proof.Claims.AccumulatorOperators : Prop :=
  ∀ (s u : State) (f : OpFields) (m : Match) (t : Tag) (l r : WideVal) (old : Nat → Nat → Nat → Lane), l = m.wide .l → r = m.wide .r →
    old = (s.tile s.actor.tk).regs.cell → ∀ (pass : Nat → Payload), pass = (fun _ => (m.payload? .l).getD .order) →
    (Claims.Ready s 0x188 f m u t → ∃ (w : State) (a : ArrayFiring), exec (.scalc f) s = .next w ∧ Claims.Working s w f t 16 pass a ∧
      Claims.Cells s w fun n i j =>
        if n = OpTable.immField f 3 2 ∧ l.mask.getLsbD i = true ∧ r.mask.getLsbD i = true then
          Claims.rne (Fp.sum [Claims.val (old n i j), Claims.val (Claims.rne (Fp.mul (Claims.val (old (OpTable.immField f 1 0) i j))
            (Claims.val (Claims.rne (Fp.mul (Claims.val (Lanes.lane l.data i)) (.fin false ((Lanes.lane r.data i).toNat % 256 + 1) (-8)))))))])
        else old n i j) ∧
    (Claims.Ready s 0x189 f m u t → ∃ (w : State) (a : ArrayFiring), exec (.accz f) s = .next w ∧ Claims.Working s w f t 1 pass a ∧
      Claims.Cells s w fun n i j => if n = OpTable.immField f 1 0 then 0 else old n i j) ∧
    (Claims.Ready s 0x18B f m u t → ∃ (w : State) (a : ArrayFiring), exec (.accwr f) s = .next w ∧ Claims.Working s w f t 1 pass a ∧
      Claims.Cells s w fun n i j => if n = OpTable.immField f 1 0 ∧ i = OpTable.immField f 7 4 ∧ l.mask.getLsbD j = true then
        Lanes.lane l.data j else old n i j) ∧
    (OpTable.immField f 9 8 ≠ 2 → Claims.Ready s 0x18A f m u t → ∃ (w : State) (a : ArrayFiring) (v : WideVal), exec (.accrd f) s = .next w ∧
      Claims.Working s w f t 1 (fun _ => .wide v) a ∧ Claims.Cells s w old ∧ v.mask = 0xFFFF ∧ ∀ j, j < 16 →
        Lanes.lane v.data j = old (OpTable.immField f 1 0)
          (if OpTable.immField f 9 8 = 1 then ((m.payload? .l).getD .order).value.toNat % 16 else OpTable.immField f 7 4) j) ∧
    (∀ h p, OpTable.immField f 9 8 = 2 → p = ((s.tile s.actor.tk).regs.pair (OpTable.immField f 13 10)) →
      s.bufferCheck (s.site 0x18A f) m.tag.colour p = .ok h → 1024 ≤ ((s.tile s.actor.tk).bufferEntry h).1 → ∀ at',
      at' = (s.tile s.actor.tk).entryAt h ((s.tile s.actor.tk).word32 h) → at' + 1024 ≤ 4096 * (s.tile s.actor.tk).spk.toNat →
      Claims.Ready s 0x18A f m u t → ∃ (w : State) (a : ArrayFiring), exec (.accrd f) s = .next w ∧ Claims.Working s w f t 16 pass a ∧
        a.prod = some h ∧ Claims.Cells s w old ∧ ∀ i b, i < 16 → b < 64 → a.rows[64 * i + b]? =
          some (at' + 64 * i + b, (old (OpTable.immField f 1 0) i (b / 4)).extractLsb' (8 * (b % 4)) 8)) ∧
    (f.flags.order = false → Claims.Ready s 0x190 f m u t → ∃ (w : State) (a : ArrayFiring) (keys idx : WideVal) (list : List Nat), exec (.xsort f) s = .next w ∧
      Claims.Working s w f t 10 (fun i => .wide (if i = 1 then idx else keys)) a ∧ Claims.Cells s w old ∧
      List.Perm list ((List.range 16).filter fun i => l.mask.getLsbD i) ∧
      (∀ (x y i j : Nat), x < y → list[x]? = some i → list[y]? = some j → ∀ ki kj, ki = Lanes.key f.etype (Lanes.lane l.data i) →
        kj = Lanes.key f.etype (Lanes.lane l.data j) →
        (if OpTable.immField f 0 0 = 1 then kj < ki else ki < kj) ∨ (ki = kj ∧ i < j)) ∧
      ∀ x, x < 16 → keys.mask.getLsbD x = decide (x < list.length) ∧ idx.mask.getLsbD x = decide (x < list.length) ∧
        Lanes.lane keys.data x = (match list[x]? with | some i => Lanes.lane l.data i | none => 0) ∧
        Lanes.lane idx.data x = (match list[x]? with | some i => BitVec.ofNat 32 i | none => 0)) ∧
    (∀ tk (a : ArrayFiring), (s.tile tk).array = some a → (s.tile tk).trail = [] → a.scanOf = none → a.lastBusy < s.cycles → ∃ w : State,
      exec (.arrayFiringEnd tk) s = .next (w.deliverAll tk a.plane 0 a.out) ∧ (w.tile tk).array = none ∧
      w = { s with tiles := w.tiles } ∧ (∀ k, k ≠ tk → w.tile k = s.tile k) ∧
      (a.cons = [] → a.prod = none → (w.tile tk).scratch = Memory.writePairs (s.tile tk).scratch 0 a.rows) ∧
      (∀ h, a.cons = [h] → a.prod = none → a.rows = [] → (w.tile tk).scratch =
        Memory.writePairs (s.tile tk).scratch 0 (pairsAt (h + 4) (natBytes 4 ((s.tile tk).word32 (h + 4) + 1)))))

/-- `Claims.MatrixProducts` and `Claims.AccumulatorOperators` together. -/
def Obligations.CellArrayComputes : Prop :=
  Claims.MatrixProducts ∧ Claims.AccumulatorOperators

/-- R268 to R270 with R95 and R96. `ascan` scores the visible keys of its sequence, in ascending position, and after 4 + 8 cycles for each sixteen keys sends the nine tokens of the triple to each destination, one in a cycle; a control payload or a configuration that breaks
its table faults KV_FORM. `ared` merges the triples of L and R, and `anorm` sends the eight quotients, one level deeper. -/
def Sys2Proof.Claims.AttentionOperators : Prop :=
  ∀ (s u : State) (f : OpFields) (m : Match) (t : Tag) (tk : Nat), tk = s.actor.tk →
    (∀ g c q, q = s.site 0x198 f → g = (s.tile tk).kvCfg f → c = m.wide .c →
      (Claims.Ready s 0x198 f m u t →
        (g.ok = false ∨ scanOk c = false → exec (.ascan f) s = .next (u.faultFiring q m 0x22 0)) ∧
        (∀ k, g.ok = true → scanOk c = true → s.kvCheck tk m.tag.colour g (scanSeq c) = .error k →
          exec (.ascan f) s = .next (u.faultFiring q m k 0))) ∧
      (∀ d k slots x, g.ok = true → scanOk c = true → s.kvCheck tk m.tag.colour g (scanSeq c) = .ok () → d = g.desc (scanSeq c) →
        k = (s.tile tk).kvSeq d → slots = (visible g k c).map (fun p => p / g.tiles) →
        (∀ n ∈ slots, n < k.cap ∧ k.slot n + 256 ≤ 4096 * (s.tile tk).spk.toNat) → Claims.Ready s 0x198 f m u t →
        x = Triple.score (slots.map fun n =>
          (s.tile tk).scoreKey d k (queryOf (m.wide .l) (m.wide .r)) (Lanes.lane c.data 4).toNat n) →
        ∃ (w : State) (a : ArrayFiring), exec (.ascan f) s = .next w ∧ (w.tile tk).array = some a ∧
          a.lastBusy = s.cycles + (4 + 8 * ((slots.length + 15) / 16)) - 1 ∧ a.scanOf = some (scanSeq c) ∧
          (a.out.map fun e => (e.index, e.token.payload)) =
            (OpTable.dests f).flatMap (fun y => x.group.map fun v => (y.1, Payload.wide v)) ∧
          ∀ j, (w.tile j).scratch = (s.tile j).scratch)) ∧
    (∀ (a : ArrayFiring) (n per : Nat), (s.tile n).array = some a → (s.tile n).trail = [] → a.scanOf ≠ none → a.out.length = 9 * per →
      a.lastBusy < s.cycles → a.rows = [] → a.prod = none → a.cons = [] → ∃ w : State, exec (.arrayFiringEnd n) s = .next w ∧
        (w.tile n).array = none ∧ (w.tile n).scratch = (s.tile n).scratch ∧ (w.tile n).trail = (List.range 8).map fun i =>
          ⟨a.plane, s.cycles + 1 + i, (List.range per).filterMap fun j => a.out[9 * j + i + 1]?⟩) ∧
    (∀ n x, (s.tile n).array = none → (s.tile n).trail = [x] → x.due ≤ s.cycles → exec (.arrayFiringEnd n) s =
      .next ((s.modTile n fun t => { t with trail := [] }).deliverAll n x.plane 0 x.out)) ∧
    (Claims.Ready s 0x199 f m u t → exec (.ared f) s = .next (u.output (s.site 0x199 f) m ((s.site 0x199 f).groups
      ((Triple.ofOps (m.every .l)).merge (Triple.ofOps (m.every .r))).group fun _ => t) (m.at? .l))) ∧
    (∀ q v (tags : Nat → Tag), q = s.site 0x19A f → Claims.Fires s 0x19A f m → m.eos = false →
      (Claims.taken s 0x19A f m).lValue m = (u, v) →
      (m.tag.level.toNat ≥ (s.levelsOf q.ck m.tag.ctx.toNat).length - 1 →
        exec (.anorm f) s = .next (u.faultFiring q m 0x02 0)) ∧
      ((∀ (c : Nat) x, c < 8 → m.tag.push (s.levelsOf q.ck m.tag.ctx.toNat) c = some x → u.tagOp q.ck f.tagop x v = some (tags c)) →
        m.tag.level.toNat < (s.levelsOf q.ck m.tag.ctx.toNat).length - 1 → ∃ rs, exec (.anorm f) s = .next (u.output q m rs (m.at? .l)) ∧
          (rs.map fun r => (r.index, r.payload, r.tag)) = (OpTable.dests f).flatMap fun y => (List.range 8).map fun c =>
            (y.1, Payload.wide (lanesOf (((Triple.ofOps (m.every .l)).norm.drop (16 * c)).take 16)), tags c)))

/-- R264 to R267, the KV operators with their configuration register and control word w = L, where TAGOP has a result: a configuration or descriptor that breaks R262 to R264 faults. `kvapp` writes the active bytes of a quarter of a position that the tile
owns, with its header; `kvseq` answers LEN and ND after reading, opening, advancing or drafting, and `kvtrim` truncates and clears drafts, each with the control granule as the rules say. -/
def Sys2Proof.Claims.KvOperators : Prop :=
  ∀ (s u : State) (f : OpFields) (m : Match) (t : Tag) (g : KvCfg) (w tk : Nat), tk = s.actor.tk → g = (s.tile tk).kvCfg f →
    w = (m.value .l % 2 ^ 64).toNat → Claims.FreshId s →
    (∀ e ∈ [(Instr.kvapp f, 0x1A0), (.kvseqRead f, 0x1A1), (.kvseqOpen f, 0x1A1), (.kvseqAdvance f, 0x1A1), (.kvseqDraft f, 0x1A1),
        (.kvtrim f, 0x1A2)], ∀ k, Claims.Accesses s e.2 f m → Claims.Ready s e.2 f m u t →
      s.kvCheck tk m.tag.colour g (kvSeq e.2 (m.value .l)) = .error k → exec e.1 s = .next (u.faultFiring (s.site e.2 f) m k 0)) ∧
    (∀ k n, s.kvCheck tk m.tag.colour g (kvSeq 0x1A0 (m.value .l)) = .ok () → k = (s.tile tk).kvSeq (g.desc (w / 2 ^ 26 % 64)) →
      n = w % 2 ^ 24 / g.tiles → Claims.Accesses s 0x1A0 f m → Claims.Ready s 0x1A0 f m u t →
      (w % 2 ^ 24 % g.tiles ≠ g.ridx →
        exec (.kvapp f) s = .next (u.faultFiring (s.site 0x1A0 f) m 0x23 0)) ∧
      (w % 2 ^ 24 % g.tiles = g.ridx → k.cap ≤ n →
        exec (.kvapp f) s = .next (u.faultFiring (s.site 0x1A0 f) m 0x24 0)) ∧
      (w % 2 ^ 24 % g.tiles = g.ridx → n < k.cap → k.slot n + 256 ≤ 4096 * (s.tile tk).spk.toNat → f.flags.commit = false →
        ∃ (v : State) (y : Access), exec (.kvapp f) s = .next v ∧ Claims.Outstanding s v 0x1A0 f m t y ∧
          y.phase = .answered ∧ (v.tile tk).scratch = ((s.tile tk).kvAppend g w (m.wide .r) m.poison).1.scratch ∧
          ∀ j, j ≠ tk → (v.tile j).scratch = (s.tile j).scratch)) ∧
    (∀ i ∈ [Instr.kvseqRead f, .kvseqOpen f, .kvseqAdvance f, .kvseqDraft f], ∀ d r, d = g.desc (w / 2 ^ 56 % 64) →
      r = kvSeqStep g (s.tile tk).spk.toNat w ((s.tile tk).kvSeq d) → s.kvCheck tk m.tag.colour g (kvSeq 0x1A1 (m.value .l)) = .ok () →
      Claims.Accesses s 0x1A1 f m → Claims.Ready s 0x1A1 f m u t →
      (∀ c, r = .error c → exec i s = .next (u.faultFiring (s.site 0x1A1 f) m c 0)) ∧
      (∀ k o, r = .ok (k, o) → ∃ (v : State) (y : Access), exec i s = .next v ∧
        Claims.Outstanding s v 0x1A1 f m t y ∧ y.phase = .answered ∧ y.value = k.len + 2 ^ 32 * k.nd ∧
        (w / 2 ^ 62 % 4 = 0 → (v.tile tk).scratch = (s.tile tk).scratch) ∧
        (w / 2 ^ 62 % 4 ≠ 0 → o = false → (v.tile tk).scratch = Memory.writePairs (s.tile tk).scratch 0 (pairsAt d k.bytes)))) ∧
    (∀ op base cap n spk (k : KvSeq), w = op * 2 ^ 62 + base * 2 ^ 40 + cap * 2 ^ 32 + n → base < 2 ^ 16 → cap < 256 → n < 2 ^ 32 →
      (op = 0 → base = 0 → cap = 0 → n = 0 → kvSeqStep g spk w k = .ok (k, false)) ∧
      (op = 1 → n = 0 → base % 256 = 0 → 1 ≤ cap → cap ≤ 192 → base + 256 * cap ≤ 4096 * spk →
        kvSeqStep g spk w k = .ok (⟨base, cap, 0, 0⟩, true)) ∧
      (op = 2 → base = 0 → cap = 0 → k.len + n < 2 ^ 32 → g.cnt (k.len + n + k.nd) ≤ k.cap →
        kvSeqStep g spk w k = .ok ({ k with len := k.len + n }, false)) ∧
      (op = 3 → base = 0 → cap = 0 → n ≤ 64 → g.cnt (k.len + n) ≤ k.cap → kvSeqStep g spk w k = .ok ({ k with nd := n }, false)) ∧
      (op = 2 → base = 0 → cap = 0 → k.len + n < 2 ^ 32 → k.cap < g.cnt (k.len + n + k.nd) → kvSeqStep g spk w k = .error 0x24)) ∧
    (∀ d k trunc, d = g.desc (w / 2 ^ 56 % 64) → k = (s.tile tk).kvSeq d → trunc = (w / 2 ^ 54 % 2 = 1) →
      s.kvCheck tk m.tag.colour g (kvSeq 0x1A2 (m.value .l)) = .ok () → Claims.Accesses s 0x1A2 f m →
      Claims.Ready s 0x1A2 f m u t →
      (w / 2 ^ 62 ≠ 0 ∨ w / 2 ^ 32 % 2 ^ 22 ≠ 0 ∨ (¬ trunc ∧ w % 2 ^ 32 ≠ 0) →
        exec (.kvtrim f) s = .next (u.faultFiring (s.site 0x1A2 f) m 0x22 0)) ∧
      (w / 2 ^ 62 = 0 → w / 2 ^ 32 % 2 ^ 22 = 0 → trunc ∨ w % 2 ^ 32 = 0 →
        ∃ (v : State) (y : Access) (k' : KvSeq), exec (.kvtrim f) s = .next v ∧ Claims.Outstanding s v 0x1A2 f m t y ∧ y.phase = .answered ∧
          k' = { k with nd := if w / 2 ^ 55 % 2 = 1 then 0 else k.nd, len := if w / 2 ^ 54 % 2 = 1 then min k.len (w % 2 ^ 32) else k.len } ∧
          (v.tile tk).scratch = (((s.tile tk).spWrite (pairsAt d k'.bytes) false).clearHeaders d
            fun i => decide (64 * i ≥ g.cnt (k'.len + k'.nd))).scratch))

/-- `Claims.AttentionOperators` and `Claims.KvOperators` together. -/
def Obligations.AttentionAndKvOperatorsCompute : Prop :=
  Claims.AttentionOperators ∧ Claims.KvOperators

/-! Tokens on their way, stall ages and spills, and the streams' steps (02_tokens.md R38 to R57; 07_network.md R146; 06_slices.md R131, R132;
12_ops_memory.md R249, R250; 14_control_core.md R290; 16_scheduling.md R315) -/

/-- TOKEN_ARRIVAL (R36 to R39): a flit of a token that its tile's router grants. The first beat takes the lowest free entry and frees its reservation, a further one is held at the token's entry; a
token that its port does not accept is dropped with a FAULT record, its credit returned by the mesh. CREDIT_RETURN brings a credit to its port, where the colour has one token less in flight from the end of the cycle on (R48), FLIT_PROMOTION promotes a buffer's head flit as old as PROMO (R146), and STALL_COUNT counts, once in a cycle in which the slot does not fire, one cause of a
slot's stall (R45). -/
def Sys2Proof.Claims.TokenSteps : Prop :=
  ∀ (s : State) (ck k : Nat),
    (∀ (f : Flit) (tk i : Nat) (edge : Edge) (plane id beat : Nat) (x : Token), (s.cluster ck).flits[k]? = some f →
      f.cargo = .token edge plane id beat x → tk = 192 * ck + f.dst → f.atGoal = true → ckOf tk = ck → (s.tile tk).freeEntry = some i →
      (s.meshGrant ck f.router f.out f.narrow ≠ some (k, f) → exec (.tokenArrival ck k) s = .next s) ∧
      (s.meshGrant ck f.router f.out f.narrow = some (k, f) → ∃ t : State, exec (.tokenArrival ck k) s = .next t ∧ t.dram = s.dram ∧
        (∀ j, j ≠ tk → t.tile j = s.tile j) ∧
        (beat = 0 → (t.tile tk).reserved = (s.tile tk).reserved.erase ⟨x.tag.colour, x.tag.ctx, x.tag.slot.toNat, plane⟩ ∧
          (s.accepted tk plane x = true → s.snapshotOf ck x.tag.ctx.toNat = none → (t.cluster ck).flits = (s.cluster ck).flits.eraseIdx k ∧
            (t.tile tk).store = Map.put (s.tile tk).store i ⟨x, id, [s.cycles], s.cycles, s.seq, 0, .wait, false⟩) ∧
          (s.accepted tk plane x = false → (t.tile tk).store = (s.tile tk).store ∧ (∃ r : EventRecord, t.records = s.records ++ [r]) ∧
            (t.cluster ck).flits = (s.cluster ck).flits.eraseIdx k ++ (x.credit.toList.map fun c =>
              (MeshSource.tile (tiOf tk)).flit s.cycles (s.creditGoal ck c) true 3 (.credit c x.tag.colour)))) ∧
        (beat ≠ 0 → (t.cluster ck).flits = (s.cluster ck).flits.eraseIdx k ∧ (t.tile tk).reserved = (s.tile tk).reserved ∧
          (t.tile tk).store = (s.tile tk).store.map fun e =>
            if e.2.id = id then (e.1, { e.2 with beats := e.2.beats ++ [s.cycles] }) else e))) ∧
    (∀ p c, (s.cluster ck).credits[k]? = some (p, c) → ∃ t : State, exec (.creditReturn ck k) s = .next t ∧
      (t.cluster ck).credits = (s.cluster ck).credits.eraseIdx k ∧ (t.cluster ck).returned = (s.cluster ck).returned ++ [(p, c)] ∧
      (t.cluster ck).ports = (s.cluster ck).ports ∧ t.tiles = s.tiles) ∧
    (∀ (x : Cluster) p c e, x.returned = [(p, c)] → Map.get? x.ports p = some e → x.creditsTaken.returned = [] ∧
      Map.get? x.creditsTaken.ports p = some { e with inFlight := Map.put e.inFlight c.toNat (Map.get e.inFlight c.toNat 0 - 1) }) ∧
    (∀ f, (s.cluster ck).flits[k]? = some f → (s.cluster ck).promo ≠ 0 → (s.cluster ck).promo.toNat ≤ f.age → f.vc ≤ 1 →
      (∀ g ∈ (s.cluster ck).flits.take k, ¬ (g.router = f.router ∧ g.inp = f.inp ∧ g.narrow = f.narrow ∧ g.vc = f.vc)) →
      ∃ t : State, exec (.flitPromotion ck k) s = .next t ∧ (t.cluster ck).flits[k]? = some { f with promoted := true } ∧
        (∀ j, j ≠ k → (t.cluster ck).flits[j]? = (s.cluster ck).flits[j]?) ∧ t.tiles = s.tiles) ∧
    (∀ tk slot c a, s.isFrozen ((s.planeWorld tk (slot / 64)).getD 0) = false → s.stallCause tk slot = some c →
      a = (s.tile tk).slot slot →
      (a.countedAt = s.cycles + 1 ∨ a.firedAt = s.cycles + 1 ∨ s.slotStarts tk slot = true → exec (.stallCount tk slot) s = .next s) ∧
      (a.countedAt ≠ s.cycles + 1 → a.firedAt ≠ s.cycles + 1 → s.slotStarts tk slot = false → ∃ t : State,
        exec (.stallCount tk slot) s = .next t ∧ t = { s with tiles := t.tiles } ∧
        (t.tile tk).slot slot = { (match c with
          | 1 => { a with waitPlane := satInc a.waitPlane } | 2 => { a with waitFault := satInc a.waitFault }
          | 3 => { a with waitQuota := satInc a.waitQuota } | 4 => { a with waitOutput := satInc a.waitOutput }
          | 5 => { a with waitOperand := satInc a.waitOperand } | _ => a) with countedAt := s.cycles + 1 } ∧
        (∀ j, j ≠ slot → (t.tile tk).slot j = (s.tile tk).slot j) ∧ ∀ j, j ≠ tk → t.tile j = s.tile j))

/-- What a router's output grants (R143 to R146): the head flit of a buffer that wants this output, and has a free place at the next hop; VC3 goes first, then VC2 and promoted
flits, then VC0 and VC1 in turns; within a level, and at the last level within a channel, the flit of the greater age. A granted flit goes to the next router, along x first and then along y, and its age begins again there. A turn has as many grants as its channel's weight. -/
def Sys2Proof.Claims.MeshGrants : Prop :=
  ∀ (s : State) (ck r o : Nat) (n : Bool) (i : Nat) (f : Flit), (∀ g ∈ (s.cluster ck).flits, g.vc ≤ 3) →
    ((s.cluster ck).outPort r o n).turn ≤ 1 →
    (s.meshGrant ck r o n = some (i, f) → (s.cluster ck).flits[i]? = some f ∧ f.router = r ∧ f.narrow = n ∧ f.output = o ∧
      (∀ g ∈ (s.cluster ck).flits.take i, ¬ (g.router = f.router ∧ g.inp = f.inp ∧ g.narrow = f.narrow ∧ g.vc = f.vc)) ∧
      (f.router ≠ f.dst → ((s.cluster ck).flits.filter fun g => g.router = (nextRouter r o).1 ∧ g.inp = (nextRouter r o).2 ∧ g.narrow = n ∧
        g.vc = f.vc).length < 4) ∧
      ∀ j g, (j, g) ∈ s.meshHeads ck r o n → f.level ≤ g.level ∧ (g.level = f.level → f.level < 3 ∨ g.vc = f.vc → g.age ≤ f.age) ∧
        (f.level = 3 → f.vc ≠ ((s.cluster ck).outPort r o n).turn → g.vc ≠ ((s.cluster ck).outPort r o n).turn)) ∧
    (s.meshGrant ck r o n = none → s.meshHeads ck r o n = []) ∧
    ((s.cluster ck).flits[i]? = some f →
      (((s.meshHop ck i f).cluster ck).flits = (s.cluster ck).flits.eraseIdx i ++
        [{ f with router := (nextRouter f.router f.output).1, inp := (nextRouter f.router f.output).2, enters := s.cycles + 1, age := 0,
                  promoted := false }]) ∧
      (f.router % 16 < f.dst % 16 → nextRouter f.router f.output = (f.router + 1, 3)) ∧
      (f.dst % 16 < f.router % 16 → nextRouter f.router f.output = (f.router - 1, 1)) ∧
      (f.router % 16 = f.dst % 16 → f.router / 16 < f.dst / 16 → nextRouter f.router f.output = (f.router + 16, 0)) ∧
      (f.router % 16 = f.dst % 16 → f.dst / 16 < f.router / 16 → nextRouter f.router f.output = (f.router - 16, 2)) ∧
      (f.router = f.dst → f.output = f.out)) ∧
    (∀ (p : OutPort) now w, w = (if f.vc = 0 then (s.cluster ck).wgt0 else (s.cluster ck).wgt1).toNat → f.level = 3 → f.vc ≤ 1 → 1 < w →
      (p.left = 0 ∨ p.turn ≠ f.vc → ((s.cluster ck).grantedOut p now f).turn = f.vc ∧ ((s.cluster ck).grantedOut p now f).left = w - 1) ∧
      (p.turn = f.vc → p.left = 1 → ((s.cluster ck).grantedOut p now f).turn = 1 - f.vc))

/-- `Claims.TokenSteps` and `Claims.MeshGrants` together. -/
def Obligations.TokensArrive : Prop :=
  Claims.TokenSteps ∧ Claims.MeshGrants

/-- STALL_AGE_EXPIRY, SPILL_ACK and SPILL_READBACK (R50 to R57). An entry as old as its colour's limit is purged under POLICY PURGE: freed, its credit returned, with a record of kind PURGE and status
AGE; under SPILL its record is written at TILE scope, unless the directory is full or the presence bit of its place is set, which purges it with status SPILL_REFUSED. A written record sets the presence bit, makes the directory entry and frees the entry, where no partner has come;
a read-back clears the bit and the directory entry and fills an entry again. -/
def Obligations.EntriesAge : Prop :=
  ∀ (s : State) (tk k : Nat),
    (∀ i e z, (s.tile tk).lastFired.getD 4 0 ≠ s.cycles + 1 → (s.tile tk).store.find? (fun x =>
        x.2.state = .wait && !x.2.spilling && (s.colour x.2.token.tag.colour).age != 0 &&
          (s.colour x.2.token.tag.colour).age ≤ x.2.age) = some (i, e) → z = s.acted tk →
      ((s.colour e.token.tag.colour).spill = false → ∃ (t : State) (r : EventRecord), exec (.stallAgeExpiry tk) s = .next t ∧
        (t.tile tk).store = Map.del (s.tile tk).store i ∧ t.records = s.records ++ [r] ∧ r.kind = 0x02 ∧ r.status = 0x01 ∧
        (∀ j, j ≠ tk → t.tile j = s.tile j) ∧ t.dram = s.dram) ∧
      ((s.colour e.token.tag.colour).spill = true → (s.colour e.token.tag.colour).spillBase ≠ none →
        ((∃ c, e.token.credit = some c ∧ c.ck ≠ ckOf tk) ∨ (s.tile tk).spillFull i e.token.tag = true →
          exec (.stallAgeExpiry tk) s = .next (z.purgeEntry tk i e 0x02)) ∧
        ((∀ c, e.token.credit = some c → c.ck = ckOf tk) → (s.tile tk).spillFull i e.token.tag = false →
          (∀ u, z.present tk e.token.tag = .done u true → exec (.stallAgeExpiry tk) s = .next (u.purgeEntry tk i e 0x02)) ∧
          (∀ u v, z.present tk e.token.tag = .done u false →
            u.tileWrite tk e.token.tag.colour (u.spillAt tk e.token.tag) e.token.spillRecord e.token.poison 3 = .done v () →
            exec (.stallAgeExpiry tk) s = .next (v.setEntry tk i { e with spilling := true }))))) ∧
    (∀ i e, ((s.tile tk).store.filter fun x => x.2.spilling)[k]? = some (i, e) →
      ((∃ y ∈ (s.tile tk).store, y.1 ≠ i ∧ y.2.token.tag.slot = e.token.tag.slot ∧ y.2.token.tag.same e.token.tag = true) →
        exec (.spillAck tk k) s = .next (s.setEntry tk i { e with spilling := false })) ∧
      ((∀ y ∈ (s.tile tk).store, y.1 = i ∨ y.2.token.tag.slot ≠ e.token.tag.slot ∨ y.2.token.tag.same e.token.tag = false) →
        ∀ v, s.presence tk e.token.tag true = .done v () → exec (.spillAck tk k) s = .next (v.modTile tk fun x =>
          { x with store := Map.del x.store i, spills := x.spills ++ [⟨e.token, false⟩] }))) ∧
    (∀ x i l u bs bad p, ((s.tile tk).spills.filter fun x => x.reading)[k]? = some x → (s.tile tk).freeEntry = some i →
      s.colourRoom tk x.token.tag.colour = true → s.launch? (ckOf tk) x.token.tag.ctx.toNat = some l → l.plane = (s.tile tk).plane.toNat →
      s.isFrozen l.world = false →
      s.tileRead tk x.token.tag.colour (s.spillAt tk x.token.tag) 80 3 = .done u (bs, bad) →
      ∃ z : State, z = ((u.presence tk x.token.tag false).stateOr u).modTile tk (fun y => { y with spills := y.spills.erase x }) ∧
        (readPayload x.token.payload (bs.drop 16) = none → exec (.spillReadback tk k) s = .next (z.purge tk x.token 0x05 0x03)) ∧
        (readPayload x.token.payload (bs.drop 16) = some p → exec (.spillReadback tk k) s =
          .next (z.fillWhole tk i { x.token with payload := p, poison := x.token.poison || bad })))

/-- The streams' steps (R47, R131, R132, R290, R315). A binding whose port is free, in a running launch, becomes active; it then reads one element after another at the address of its pattern, a
generator a line at a time within its window, and after the last one its EOS; a port admits the oldest token of the binding whose turn it is, with colour, context, slot and port stamped. -/
def Sys2Proof.Claims.StreamsDeliver : Prop :=
  ∀ (s : State) (ck k : Nat),
    (∀ b l, (s.cluster ck).bindings[k]? = some b → s.launch? ck b.ctx = some l → l.state = .running → b.isExit = false → b.active = false →
      b.finished = false → s.isFrozen l.world = false → (∀ x ∈ (s.cluster ck).bindings, x.phys = b.phys → x.isExit = true ∨ x.active = false) →
      (∀ x ∈ (s.cluster ck).bindings.take k, x.phys ≠ b.phys ∨ x.colour ≠ b.colour ∨ x.isExit = true ∨ s.bindingDone ck x.id = true) →
      ∃ t : State, exec (.bindingActivate ck k) s = .next t ∧ (∃ e, (t.cluster ck).bindings[k]? = some { b with active := true, epoch := e }) ∧
        t.tiles = s.tiles ∧ t.dram = s.dram) ∧
    (∀ b l a u bs bad, (s.cluster ck).bindings[k]? = some b → s.launch? ck b.ctx = some l → s.isFrozen l.world = false →
      ((s.cluster ck).bindings.filter fun x => x.id = b.id) = [b] → b.kind = .memory → b.isExit = false → b.active = true →
      (s.cluster ck).fabricCard b.phys b.colour false = none → b.waitPage = none →
      (b.nextRead = b.total → ∃ t : State, exec (.streamElementRead ck k) s = .next t ∧ (t.cluster ck).bindings[k]? =
        some { b with ready := b.ready ++ [⟨⟨0, 0, 0, 0, 0, 0⟩, .eos 0, none, false, false⟩], nextRead := b.nextRead + 1 }) ∧
      (b.nextRead < b.total → b.addr b.nextRead = (a : Nat) → s.streamRead ck b a (elemBytes b.elem) = .done u (bs, bad) →
        ∃ (t : State) (e : List Extent), exec (.streamElementRead ck k) s = .next t ∧
        (b.elem = 0 → (t.cluster ck).bindings[k]? = some { b with extents := e, nextRead := b.nextRead + 1, ready := b.ready ++
          [⟨⟨0, 0, 0, 0, 0, BitVec.ofNat 32 b.nextRead⟩, .wide ⟨BitVec.ofNat 512 (bytesNat bs), 0xFFFF⟩, none, bad, false⟩] }) ∧
        (∀ d, b.elem ≠ 0 → Num.readBeats ((List.range (elemBeats b.elem)).map fun i => bytesNat ((bs.drop (4 * i)).take 4))
            (l.elemDigits b) = some d → (t.cluster ck).bindings[k]? = some { b with extents := e, nextRead := b.nextRead + 1, ready := b.ready ++
          [⟨⟨0, 0, 0, 0, 0, BitVec.ofNat 32 b.nextRead⟩, .narrow d.length (Num.digitsValue d) (.exact d), none, bad, false⟩] }))) ∧
    (∀ sk g b l slice window, (s.slice sk).pushes[k]? = some g → (s.cluster g.ck).bindings.find? (fun b => b.id = g.binding) = some b →
      s.launch? g.ck b.ctx = some l → b.kind = .push slice window → b.active = true → s.isFrozen l.world = false →
      (b.nextRead = b.total → exec (.pushLineRead sk k) s = .next (s.endElements g.ck b)) ∧
      (b.nextRead < b.total → window ≤ b.linesHeld → exec (.pushLineRead sk k) s = .next s) ∧
      (∀ u x y, b.nextRead < b.total → b.linesHeld < window → b.waitPage = none → 0 ≤ b.addr b.nextRead →
        s.xlateStream g.ck b (b.addr b.nextRead).toNat true false = (u, .ok x) → x.device = false → (u.slice x.sk).waits x.pa = false →
        u.cutFrom (sliceStop slice) x.sk = false → (u.slice x.sk).line? x.pa = some y → y.key = x.key →
        ∃ (t : State) (e : List Extent) (n : Nat) (ts : List Token), exec (.pushLineRead sk k) s = .next t ∧
          (t.cluster g.ck).bindings.find? (fun b => b.id = g.binding) =
            some { b with extents := e, nextRead := b.nextRead + n, ready := b.ready ++ ts } ∧
          0 < n ∧ ts.length = n ∧ b.nextRead + n ≤ b.total ∧
          (∀ i, i < n → b.addr (b.nextRead + i) / 256 = b.addr b.nextRead / 256 ∧ ∀ off, off = (b.addr (b.nextRead + i) % 256).toNat →
            0 ≤ b.addr (b.nextRead + i) → ts[i]? = some ⟨⟨0, 0, 0, 0, 0, BitVec.ofNat 32 (b.nextRead + i)⟩,
              .wide ⟨BitVec.ofNat 512 (bytesNat (((lineBytes y.data 0 256).drop off).take 64)), 0xFFFF⟩, none, y.poison.getLsbD (off / 64),
              false⟩) ∧
          (b.nextRead + n < b.total → b.addr (b.nextRead + n) / 256 ≠ b.addr b.nextRead / 256)) ∧
      (s.portTurn g.ck b.phys = some b → exec (.pushElementDeliver sk k) s = .next (s.admitNext g.ck b))) ∧
    (∀ b, s.portTurn ck k = some b → b.kind = .memory → exec (.admitToken ck k) s = .next (s.admitNext ck b)) ∧
    (∀ b l g x rest, s.launch? ck b.ctx = some l → b.ready = x :: rest → l.ports[b.gport]? = some g → (s.colour b.colour).state = .live →
      b.kind = .memory → ((s.cluster ck).bindings.filter fun x => x.id = b.id) = [b] → ∃ (u : State) (y : Token) (id : Nat) (narrow : Bool),
        u = s.admitNext ck b ∧ narrow = (l.entryPlane g).getD (match x.payload with | .narrow _ _ _ => true | _ => false) ∧
        y = ⟨⟨b.colour, BitVec.ofNat 11 b.ctx, BitVec.ofNat 6 g.slot, portCode g.port, x.tag.level, x.tag.iter &&& iterMask l.levels⟩, x.payload,
          g.table.map fun i => ⟨ck, i⟩, x.poison, b.epoch⟩ ∧
        (u.cluster ck).flits = (s.cluster ck).flits ++ ((List.range x.payload.beats).map fun j =>
          (MeshSource.port g.phys).flit s.cycles (g.ti, 4) narrow 1 (.token ⟨192 + g.phys, 0, 0⟩ l.plane id j y)) ∧
        (u.tile (192 * ck + g.ti)).reserved = (s.tile (192 * ck + g.ti)).reserved ++ [⟨b.colour, BitVec.ofNat 11 b.ctx, g.slot, l.plane⟩] ∧
        (∀ i e, g.table = some i → Map.get? (s.cluster ck).ports i = some e → Map.get? (u.cluster ck).ports i =
          some { e with inFlight := Map.put e.inFlight b.colour.toNat (Map.get e.inFlight b.colour.toNat 0 + 1) }))

/-- EXIT_DELIVERY and EXIT_REORDER_AGE_RELEASE (R47, R49, R249, R250). A token that comes first from its edge passes its exit port: its credit is returned, and it waits at the exit stream's binding, or is recorded as EXIT_UNBOUND where none takes it. With ordered delivery it
passes only where its ITER is NEXT; one up to 63 ahead is held while there is an entry free, a held one that equals NEXT passes, and a held token as old as its colour's limit makes NEXT the smallest held ITER. -/
def Sys2Proof.Claims.ExitsDeliver : Prop :=
  ∀ (s : State) (ck k : Nat),
    (∀ e ctx c, (s.cluster ck).exits[k]? = some e → s.scanning ck = false → ctx = e.token.tag.ctx.toNat → c = e.token.tag.colour →
      s.isFrozen ((s.worldOfCtx ck ctx).getD 0) = false → (∀ x ∈ (s.cluster ck).exits.take k, x.phys ≠ e.phys ∨ x.edge ≠ e.edge) →
      ((s.cluster ck).orderedExit e.phys ctx c = none →
        (∀ u, s.passExit ck e.phys e.token = (u, true) → exec (.exitDelivery ck k) s =
          .next (u.modCluster ck fun x => { x with exits := x.exits.eraseIdx k })) ∧
        (∀ u, s.passExit ck e.phys e.token = (u, false) → exec (.exitDelivery ck k) s = .next u)) ∧
      (∀ b r, (s.cluster ck).orderedExit e.phys ctx c = some b → r = s.reorder ck ctx b.gport c → e.token.payload.isEos = false →
        e.token.tag.iter ≠ r.next →
        ((e.token.tag.iter - r.next).toNat ≤ 63 → (s.cluster ck).entryFree r = true → ∃ t : State, exec (.exitDelivery ck k) s = .next t ∧
          (t.reorder ck ctx b.gport c).held = r.held ++ [(e.token, 0)] ∧ (t.reorder ck ctx b.gport c).next = r.next ∧
          (t.cluster ck).exits = (s.cluster ck).exits.eraseIdx k) ∧
        (63 < (e.token.tag.iter - r.next).toNat ∨ (s.cluster ck).entryFree r = false → exec (.exitDelivery ck k) s = .next s)) ∧
      (∀ b r u, (s.cluster ck).orderedExit e.phys ctx c = some b → r = s.reorder ck ctx b.gport c → e.token.payload.isEos = false →
        e.token.tag.iter = r.next → s.passExit ck e.phys e.token = (u, true) → ∃ t : State, exec (.exitDelivery ck k) s = .next t ∧
          t = (u.passedNext ck e.phys r none).modCluster ck (fun x => { x with exits := x.exits.eraseIdx k }) ∧
          (t.reorder ck ctx b.gport c).next = (u.reorder ck ctx b.gport c).next + 1)) ∧
    (∀ r h u p, (s.cluster ck).exits.length ≤ k → (s.cluster ck).reorders[k - (s.cluster ck).exits.length]? = some r → p = s.reorderPort ck r →
      s.scanning ck = false → s.isFrozen ((s.worldOfCtx ck r.ctx).getD 0) = false →
      (Map.get (s.cluster ck).lastAdmitted (64 + p) (0, 0)).2 ≠ s.cycles + 1 → r.held.find? (fun h => h.1.tag.iter = r.next) = some h →
      s.passExit ck p h.1 = (u, true) → ∃ t : State, exec (.exitDelivery ck k) s = .next t ∧
        (t.reorder ck r.ctx r.gport r.colour).next = (u.reorder ck r.ctx r.gport r.colour).next + 1 ∧
        (t.reorder ck r.ctx r.gport r.colour).held = (u.reorder ck r.ctx r.gport r.colour).held.erase h) ∧
    (∀ phys t ctx c, ctx = t.tag.ctx.toNat → c = t.tag.colour →
      (s.die (dieOf ck)).libs.find? (fun x => x.ck = ck && x.ctx = ctx) = none →
      (∀ b ∈ (s.cluster ck).bindings, ¬ (∃ sc sp, b.kind = .link sc sp)) →
      ((∀ b ∈ (s.cluster ck).bindings, ¬ (b.isExit = true ∧ b.ctx = ctx ∧ b.phys = phys ∧ b.colour = c)) →
        s.passExit ck phys t = ((s.unbound ck phys t 0).noteExitEos ck ctx phys t, true)) ∧
      (∀ b, (s.cluster ck).bindings.find? (fun b => b.isExit && b.ctx = ctx && b.phys = phys && b.colour = c) = some b →
        (s.cluster ck).fabricCard phys c true = none →
        (t.payload = .eos 0 → s.passExit ck phys t =
          (((s.exitCredit ck phys t).modBinding ck b.id fun b => { b with finished := true }).noteExitEos ck ctx phys t, true)) ∧
        (∀ n, t.payload = .eos n → n ≠ 0 → s.passExit ck phys t = (s.exitCredit ck phys t, true)) ∧
        (t.payload.isEos = false → t.tag.iter.toNat ≥ b.total → s.passExit ck phys t = (s.unbound ck phys t 1, true)) ∧
        (t.payload.isEos = false → t.tag.iter.toNat < b.total → s.passExit ck phys t =
          (((s.exitCredit ck phys t).modBinding ck b.id fun b => { b with ready := b.ready ++ [t] }).flushExit ck b.id
            (b.ready.length + 1), true)))) ∧
    (∀ r h, (s.cluster ck).reorders[k]? = some r → r.lowest = some h → s.scanning ck = false →
      (s.colour r.colour).age ≠ 0 → (∃ x ∈ r.held, (s.colour r.colour).age ≤ x.2) →
      exec (.exitReorderAgeRelease ck k) s = .next (s.modReorder ck r.ctx r.gport r.colour fun r => { r with next := h.1.tag.iter }))

/-- `Claims.StreamsDeliver` and `Claims.ExitsDeliver` together. -/
def Obligations.StreamsAndExitsDeliver : Prop :=
  Claims.StreamsDeliver ∧ Claims.ExitsDeliver

/-! Home slices, base dies, keys and releases (05_main_memory.md R100, R115, R116; 06_slices.md R121 to R129; 07_network.md R155; 24_trust.md R394) -/

/-- The request `r` stands at place k among those at their slices' stops, and no earlier one of its source, or of its bank, stands before it or, of its source, in a conflict queue. -/
def Sys2Proof.Claims.NextAt (s : State) (k : Nat) (r : Request) : Prop :=
  s.requests[k]? = some r ∧ (∀ x ∈ s.requests.take k, x.sk = r.sk → x.src ≠ r.src ∧ bankOf x.pa ≠ bankOf r.pa) ∧
    (∀ x ∈ (s.slice r.sk).conflicts, x.src ≠ r.src)
/-- The state `t` has one flit more on the rings than `s`, of the response class, with an answer to request `r` of a tile or stream. -/
def Sys2Proof.Claims.Answers (s t : State) (r : Request) (d : AnswerData) : Prop :=
  (∀ ck x, r.src ≠ .context ck x) → ∃ f : RingFlit, t.net = s.net ++ [f] ∧ f.cargo = .answer ⟨r, d⟩ ∧ f.cls = 1 ∧ f.src = sliceStop r.sk ∧
    f.colour = r.colour

/-- SLICE_READ and SLICE_WRITE (R121 to R125) at a slice that holds the line under the request's key: a read leases the line for 256 beyond the later of the reader's clock and WTS, and the answer goes back by the rings with the line and its lease;
a write or an atomic writes its bytes with WTS and RTS at the later of the writer's clock and RTS + 1, and an atomic is answered with the old lanes. No byte of DRAM and no other line changes. Of a write by world 0 or 1, the bytes of a setting that TDISP has locked (24_trust.md R400) are ignored. A read whose line the slice does not hold takes the lock
and asks the stack port. A request to a line that is not free waits in its bank's conflict queue, or is refused while 16 wait there. An answer raises its source's clock, and gives a tile's load the line's bytes. -/
def Sys2Proof.Claims.SlicesServe : Prop :=
  ∀ (s : State) (k : Nat) (r : Request) (x : Line), Claims.NextAt s k r →
    ((s.slice r.sk).waits r.pa = true → ∀ i ∈ [Instr.sliceRead k, .sliceWrite k], (i = .sliceRead k ↔ r.kind = .read) →
      ((s.slice r.sk).queued r.pa < 16 → exec i s = .next (({ s with requests := s.requests.eraseIdx k } : State).modSlice r.sk fun l =>
        { l with conflicts := l.conflicts ++ [r] })) ∧
      (16 ≤ (s.slice r.sk).queued r.pa → exec i s = .next s)) ∧
    ((s.slice r.sk).waits r.pa = false → (s.slice r.sk).line? r.pa = some x → x.key = r.key →
      (r.kind = .read → ∃ (t : State) (y : Line), exec (.sliceRead k) s = .next t ∧ (t.slice r.sk).line? r.pa = some y ∧ y.data = x.data ∧
        y.wts = x.wts ∧ y.rts = maxTime x.rts (maxTime r.pts x.wts + 256) ∧ y.dirty = x.dirty ∧ t.dram = s.dram ∧
        t.requests = s.requests.eraseIdx k ∧ (∀ pa, pa / 256 ≠ r.pa / 256 → (t.slice r.sk).line? pa = (s.slice r.sk).line? pa) ∧
        Claims.Answers s t r (.line x.data x.poison x.wts (maxTime r.pts x.wts + 256))) ∧
      (∀ all ps p, r.kind = .write all p → ps = s.unlocked r.world r.pa all → ∃ (t : State) (y : Line), exec (.sliceWrite k) s = .next t ∧
        (t.slice r.sk).line? r.pa = some y ∧ y.data = lineSet x.data ps ∧ y.dirty = x.dirty ||| unitsOf ps ∧ y.wts = maxTime r.pts (x.rts + 1) ∧ y.rts = y.wts ∧
        t.dram = s.dram ∧ t.requests = s.requests.eraseIdx k ∧ Claims.Answers s t r .ack ∧
        (∀ tk, r.src = .tile tk → (t.tile tk).pts = maxTime (s.tile tk).pts y.wts) ∧
        (∀ pa, pa / 256 ≠ r.pa / 256 → (t.slice r.sk).line? pa = (s.slice r.sk).line? pa)) ∧
      (∀ opc v c p, r.kind = .atomic opc v c p → ∃ (t : State) (y : Line) (new old : WideVal), exec (.sliceWrite k) s = .next t ∧
        (new, old) = atomicBlock opc (lineUnit x.data (r.off / 64)) v c ∧ (t.slice r.sk).line? r.pa = some y ∧
        y.data = lineSet x.data (s.unlocked r.world r.pa (activeBytes r.off new)) ∧ y.wts = maxTime r.pts (x.rts + 1) ∧ y.rts = y.wts ∧ t.dram = s.dram ∧
        Claims.Answers s t r (.old old (x.poison.getLsbD (r.off / 64))) ∧
        ∀ tk, r.src = .tile tk → (t.tile tk).pts = maxTime (s.tile tk).pts y.wts)) ∧
    ((s.slice r.sk).waits r.pa = false → (s.slice r.sk).line? r.pa = none → r.kind = .read → ∃ t : State, exec (.sliceRead k) s = .next t ∧
      (t.slice r.sk).misses = (s.slice r.sk).misses ++ [⟨r, false, none, false⟩] ∧ t.requests = s.requests.eraseIdx k ∧ t.dram = s.dram ∧
      ∃ f : RingFlit, t.net = s.net ++ [f] ∧ f.cargo = .lineRead r.sk (r.pa / 256 * 256) ∧ f.cls = 0 ∧ f.goal = memoryPort r.pa)

/-- What an answer does at its tile (R124, R125; 12_ops_memory.md R238, R241): the tile's clock rises to the line's WTS; a load with no copy in the stash has the line's bytes, an
atomic the old lanes. -/
def Sys2Proof.Claims.AnswersArrive : Prop :=
  ∀ (s : State) (tk id : Nat) (r : Request) (a : Access), r.src = .tile tk → r.answer = some id →
    (s.tile tk).accesses.find? (fun a => a.id = id) = some a → (∀ b ∈ (s.tile tk).accesses, b.id = id → b = a) →
    (∀ d p wts fin t, t = s.takeAnswer ⟨r, .line d p wts fin⟩ → a.isStore = false → a.opc ≠ 0x021 → (s.tile tk).stashLine r.pa = none →
      (t.tile tk).pts = maxTime (s.tile tk).pts wts ∧ t.dram = s.dram ∧ ∀ b ∈ (t.tile tk).accesses, b.id = id →
        b.phase = .answered ∧ b.since = s.cycles + 1 ∧ b.data = ⟨BitVec.ofNat 512 (bytesNat (lineBytes d r.off (memAlign a.opc))), 0xFFFF⟩ ∧
        b.value = (BitVec.ofNat (8 * memAlign a.opc) (bytesNat (lineBytes d r.off (memAlign a.opc)))).toInt) ∧
    (∀ v bad t, t = s.takeAnswer ⟨r, .old v bad⟩ → t.dram = s.dram ∧ ∀ b ∈ (t.tile tk).accesses, b.id = id →
      b.phase = .answered ∧ b.since = s.cycles + 1 ∧ b.data = v)

/-- `Claims.SlicesServe` and `Claims.AnswersArrive` together. -/
def Obligations.SlicesServe : Prop :=
  Claims.SlicesServe ∧ Claims.AnswersArrive

/-- CONFLICT_QUEUE_LOCK, RDLINE, WRLINE, WRMASK, LINE_FILL and PTS_ADVANCE (R100, R114, R121, R123). A queued request takes its line's lock, in queue order; the base die reads the line of a miss that has come to it under its key, with no write-back of that line waiting, and sends it back; the first write-back of a line that has come to it writes the units
of its mask, whole lines by WRLINE; a filled line is installed and its request performed; and a clock advances by one. -/
def Obligations.LinesMove : Prop :=
  ∀ (s : State) (sk k : Nat),
    (∀ r, (s.slice sk).conflicts[k]? = some r → (s.slice sk).locked r.pa = false →
      (∀ x ∈ (s.slice sk).conflicts.take k, x.pa / 256 ≠ r.pa / 256) → exec (.conflictQueueLock sk k) s =
        .next ((s.modSlice sk fun l => { l with conflicts := l.conflicts.eraseIdx k }).startRequest r)) ∧
    (∀ m, (s.slice sk).misses[k]? = some m → m.data = none → m.asked = true → (∀ w ∈ (s.slice sk).writeBacks, w.pa ≠ m.request.pa / 256 * 256) →
      ∃ (t : State) (n : Miss) (d : BitVec 2048) (p : BitVec 4), exec (.rdline sk k) s = .next t ∧ (t.slice sk).misses[k]? = some n ∧
        n = { m with data := some (d, p) } ∧ t.dram = s.dram ∧ ∀ i, i < 4 → lineUnit d i = s.readUnit (m.request.pa / 256 * 4 + i) m.request.key ∧
          p.getLsbD i = s.dramPoison.contains (m.request.pa / 256 * 4 + i) ∧
          ∃ f : RingFlit, t.net = s.net ++ [f] ∧ f.cargo = .lineData sk (m.request.pa / 256 * 256)) ∧
    (∀ w, (s.slice sk).writeBacks[k]? = some w → w.asked = true → (∀ x ∈ (s.slice sk).writeBacks.take k, x.pa ≠ w.pa) →
      ∀ i ∈ [Instr.wrline sk k, .wrmask sk k], (i = .wrline sk k ↔ w.units = 0xF) →
      exec i s = .next ((s.writeUnits w.pa w.key w.units w.poison w.data).modSlice sk fun l =>
        { l with writeBacks := l.writeBacks.eraseIdx k })) ∧
    (∀ u c d p, s.dram.wf = true → ∃ t : State, t = s.writeUnit u c d p ∧ t.dramUnit u = d ∧ (∀ v, v ≠ u → t.dramUnit v = s.dramUnit v) ∧
      t.readUnit u c = d ∧ t.slices = s.slices) ∧
    (∀ u c w, Map.get? s.dramKey u = some w → w ≠ s.keyIn (holderOf (64 * u)) c → s.readUnit u c =
      Cipher.deciphered (Cipher.keyOf (s.keyIn (holderOf (64 * u)) c)) (64 * u) (Cipher.enciphered (Cipher.keyOf w) (64 * u) (s.dramUnit u))) ∧
    (∀ m d p, (s.slice sk).misses[k]? = some m → m.data = some (d, p) → m.back = true → exec (.lineFill sk k) s =
      .next (State.performOn (((s.modSlice sk fun l => { l with misses := l.misses.eraseIdx k }).seen sk m.request.pa m.request.world).filled sk
        m.request.pa m.request.key m.request.world d p) m.request)) ∧
    (∀ tk, ∃ t : State, exec (.ptsAdvance (.tile tk)) s = .next t ∧ t.tile tk = { s.tile tk with pts := (s.tile tk).pts + 1 } ∧
      (∀ j, j ≠ tk → t.tile j = s.tile j) ∧ t = { s with tiles := t.tiles }) ∧
    (∀ ck x, x < 8 → ∃ t : State, exec (.ptsAdvance (.context ck x)) s = .next t ∧
      t.context ck x = { s.context ck x with pts := (s.context ck x).pts + 1 })

/-- KEYSET, KEYKILL and SLICE_EPOCH_END (R100, R127 to R129, R394). A key is drawn afresh for one holder's slot of a colour that is FREE; the slot of a colour not LIVE is cleared once no line of it is left. At the end of an epoch of 2^20 SCLK cycles each world's SHMISS takes its count and the counts begin
again, unless FREEZE stands. -/
def Sys2Proof.Claims.KeysAndWays : Prop :=
  ∀ (s : State) (n sk : Nat) (c : Colour),
    (n < 9 → (s.colour c).state = .free → ∃ t : State, exec (.keyset n c.toNat) s = .next t ∧ t.keyIn n c = s.keyFresh ∧
      t.keyFresh = s.keyFresh + 1 ∧ (∀ m d, 512 * m + d.toNat ≠ 512 * n + c.toNat → t.keyIn m d = s.keyIn m d) ∧
      t = { s with keySlots := t.keySlots, keyFresh := t.keyFresh }) ∧
    (n < 9 → (s.colour c).state ≠ .live → (∀ e ∈ s.slices, ∀ x ∈ e.2.lines, x.key ≠ c) → ∃ t : State,
      exec (.keykill n c.toNat) s = .next t ∧ t = { s with keySlots := Map.del s.keySlots (512 * n + c.toNat) }) ∧
    (s.sclk / 2 ^ 20 ≤ (s.slice sk).epochs → exec (.sliceEpochEnd sk) s = .next s) ∧
    ((s.slice sk).epochs < s.sclk / 2 ^ 20 → (s.slice sk).wayFreeze = true → exec (.sliceEpochEnd sk) s =
      .next (s.modSlice sk fun l => { l with epochs := l.epochs + 1 })) ∧
    ((s.slice sk).epochs < s.sclk / 2 ^ 20 → (s.slice sk).wayFreeze = false → ∃ t : State, exec (.sliceEpochEnd sk) s = .next t ∧ (t.slice sk).epochs = (s.slice sk).epochs + 1 ∧
      (t.slice sk).shadowHits = [] ∧ (t.slice sk).shadowMiss = [] ∧ (t.slice sk).lines = (s.slice sk).lines ∧ (t.slice sk).mts = (s.slice sk).mts ∧
      (∀ w, w < 64 → (Map.get? (s.slice sk).shadowMiss w).isSome →
        ((t.slice sk).way w).shmiss = BitVec.ofNat 32 (Map.get (s.slice sk).shadowMiss w 0)) ∧
      ∀ j, j ≠ sk → t.slice j = s.slice j)

/-- RELEASE_PROBE, HUB_PROBE_FORWARD and RELEASE_COMPLETE (R155, R247). A slice acknowledges a probe once every earlier request of the source has passed it; a remote hub turns its probe into those of its die's 64 slices; with every answer, and every earlier write to a scratchpad acknowledged, a waiting context goes on, a fence empties
the stash and is answered, and the ask of an `ldg` leaves for the cluster's group agent (R135, R242). -/
def Sys2Proof.Claims.ReleasesComplete : Prop :=
  ∀ (s : State) (k : Nat) (r : Release), s.releases[k]? = some r →
    (∀ sk, s.slicePassed r sk = true → s.cut r.src.ck sk = false → exec (.releaseProbe k sk) s = 
      .next { s with releases := s.releases.set k { r with probes := r.probes.filterMap (ProbeTarget.acked sk) } }) ∧
    (∀ sk, s.slicePassed r sk = false → exec (.releaseProbe k sk) s = .next s) ∧
    (∀ d, s.cut r.src.ck (64 * d) = false → exec (.hubProbeForward k d) s = 
      .next { s with releases := s.releases.set k { r with probes := (r.probes.map fun p =>
        if p = .hub d then .forwarded ((List.range 64).map fun i => 64 * d + i) else p) } }) ∧
    (r.probes ≠ [] ∨ s.banksDone r = false → exec (.releaseComplete k) s = .next s) ∧
    (∀ ck x, r.probes = [] → r.src = .context ck x → x < 8 → (s.context ck x).park = .release → ∃ t : State, exec (.releaseComplete k) s = .next t ∧
      t.releases = s.releases.eraseIdx k ∧ t.context ck x = { s.context ck x with park := .none, released := true } ∧ t.dram = s.dram) ∧
    (∀ tk id a, r.probes = [] → s.banksDone r = true → r.src = .tile tk → r.access = some id →
      (s.tile tk).accesses.find? (fun a => a.id = id) = some a → ∃ t : State, exec (.releaseComplete k) s = .next t ∧ t.releases = s.releases.eraseIdx k ∧
        (a.opc ≠ 0x158 → (t.tile tk).stash = [] ∧ ∀ b ∈ (t.tile tk).accesses, b.id = id → b.phase = .answered) ∧
        (a.opc = 0x158 → (∀ b ∈ (t.tile tk).accesses, b.id = id → b.phase = .group) ∧
          ∃ f ∈ (t.cluster (ckOf tk)).flits, f.vc = 2 ∧ f.router = tiOf tk ∧
            f.cargo = .ask ⟨⟨a.object.getD 0, a.addr, 256 * OpTable.immField a.fields 15 8⟩, tk, id, a.tag, none, none, none⟩))

/-- `Claims.KeysAndWays` and `Claims.ReleasesComplete` together. -/
def Obligations.KeysWaysAndReleases : Prop :=
  Claims.KeysAndWays ∧ Claims.ReleasesComplete

/-! Invalidations, paging, device registers, world pages, functions, attestation, the host's accesses, errors and bring-up (05_main_memory.md R110 to R113, R117; 21_faults_preemption.md R371 to R375;
24_trust.md R392 to R405; 25_reliability.md R407 to R412; 26_host_and_package.md R414 to R424) -/

/-- The four sweeps of an invalidation and its completion (R110 to R112, R117, R118, R302): the sweep of the operation's mode clears the translations it names from every TLB, and changes nothing else where no stash holds dirty bytes, which it would send home first, and no generator holds extents, which it would
translate again; a discard drops the lines that the pages map from slices, stashes and leases without write-back, once no request of theirs waits at a slice. BUSY falls once the sweep is done and, but for the discard, no access of the range or the colours named is left; a context in `wfe` goes on. -/
def Sys2Proof.Claims.InvalidationsComplete : Prop :=
  ∀ (s : State) (ck x : Nat) (c : Context), x < 8 → c = s.context ck x → c.mmBusy = true →
    (c.mmDone = false → ∀ e ∈ [(Instr.mminvRange ck x, (0 : Nat), staleRange c.mmColour c.mminva.toNat c.mmPages.toNat),
        (.mminvColour ck x, 1, fun t => t.colour = c.mmColour),
        (.mminvWorld ck x, 2, fun t => (s.colour t.colour).world = (s.colour c.mmColour).world)], c.mmMode.toNat = e.2.1 → ∃ t : State,
      exec e.1 s = .next t ∧ (t.context ck x).mmDone = true ∧ (∀ k, k < 12288 → (t.tile k).tlb = (s.tile k).tlb.filter fun y => !e.2.2 y) ∧
      ((∀ y ∈ s.tiles, ∀ l ∈ y.2.stash, l.dirty = 0) → (∀ y ∈ s.clusters, ∀ b ∈ y.2.bindings, b.extents = []) →
        t.context ck x = { c with mmDone := true } ∧ t.dram = s.dram ∧ t.slices = s.slices ∧
        (∀ k, (t.cluster k).l2tlb = (s.cluster k).l2tlb.filter fun y => !e.2.2 y) ∧
        ∀ k, (t.cluster k).tlb = (s.cluster k).tlb.filter fun y => !e.2.2 y)) ∧
    (c.mmDone = false → c.mmMode = 3 → ∀ g : Nat → Colour → Bool, g = s.mappedIn c.mmColour c.mminva.toNat c.mmPages.toNat →
      (s.dropWaits g = false → ∃ t : State, exec (.mminvDiscard ck x) s = .next t ∧ (t.context ck x).mmDone = true ∧ t.dram = s.dram ∧
        (∀ e ∈ t.slices, ∀ l ∈ e.2.lines, g l.pa l.key = false) ∧ (∀ e ∈ t.tiles, ∀ l ∈ e.2.stash, g l.pa l.key = false) ∧
        (∀ e ∈ t.clusters, ∀ k ∈ e.2.ctxs.toList, ∀ l ∈ k.leases, g l.pa l.key = false) ∧
        ∀ k, (t.slice k).writeBacks = (s.slice k).writeBacks.map fun w => if g w.pa w.key then { w with locks := false, discarded := true } else w) ∧
      (s.dropWaits g = true → exec (.mminvDiscard ck x) s = .next s)) ∧
    (c.mmDone = true → ∀ names : Colour → Colour → Option Nat → Bool,
      names = (fun key d va => if c.mmMode = 2 then decide ((s.colour d).world = (s.colour c.mmColour).world) else match va with
        | none => s.mayKey c.mmColour key
        | some a => decide (d = c.mmColour) && (decide (c.mmMode = 1) ||
          decide (c.mminva.toNat ≤ a / 2 ^ 14 ∧ a / 2 ^ 14 < c.mminva.toNat + c.mmPages.toNat))) →
      (c.mmMode = 3 ∨ s.accessesLeft names = false → ∃ t : State, exec (.invalidationComplete ck x) s = .next t ∧
        (t.context ck x).mmBusy = false ∧ (t.context ck x).mmDone = false ∧ t.tiles = s.tiles ∧ t.dram = s.dram ∧
        ∀ n, c.park = .timer n → (t.context ck x).park = .none ∧ (t.context ck x).pc = c.pc + 8) ∧
      (c.mmMode ≠ 3 → s.accessesLeft names = true → exec (.invalidationComplete ck x) s = .next s))

/-- `Claims.InvalidationStarts` and `Claims.InvalidationsComplete` together. -/
def Obligations.InvalidationsStartAndComplete : Prop :=
  Claims.InvalidationStarts ∧ Claims.InvalidationsComplete

/-- PAGER_FAULT_TOKEN, PAGER_SERVICE and FAULT_TIME_EXPIRY (R371 to R375). A token makes a pending entry, or joins the one of its page; the first entry that is not held is served: the path is built with zeroed pages from the colour's pool, a PAGER record is sent and the waiters go on, or without a page every entry of the colour is held
and one record with status EMPTY is sent. An entry that has waited longer than FTIME poisons its colour. -/
def Obligations.PagesAreServed : Prop :=
  ∀ (s : State) (d k : Nat),
    (∀ x n, s.faultTokens[k]? = some x → x.ask = .page n → x.die = d → ∃ t : State, exec (.pagerFaultToken k) s = .next t ∧
      t.faultTokens = s.faultTokens.eraseIdx k ∧ t.dram = s.dram ∧ (∃ p ∈ (t.die d).pager, p.colour = x.colour ∧ p.ask = .page n) ∧
      ((∀ p ∈ (s.die d).pager, p.colour ≠ x.colour ∨ p.ask ≠ .page n) →
        (t.die d).pager = (s.die d).pager ++ [⟨x.colour, .page n, s.cycles, false⟩])) ∧
    (∀ x code va, s.faultTokens[k]? = some x → x.ask = .poison code va → exec (.pagerFaultToken k) s =
      .next (({ s with faultTokens := s.faultTokens.eraseIdx k } : State).poisonColour x.die x.colour code va)) ∧
    (∀ e n b, (s.die d).pager[k]? = some e → e.ask = .page n → e.held = false → (∀ p ∈ (s.die d).pager.take k, p.held = true) →
      b = s.buildPath d e.colour (n * 2 ^ 14) 3 1 ((s.colour e.colour).root.toNat * 2 ^ 14) →
      (b.ok = true → ∃ t : State, t = b.s.modDie d (fun x => { x with pager := x.pager.erase e }) ∧ exec (.pagerService d k) s =
        .next ((t.record (16 * d) (t.ringOfColour e.colour) (t.colour e.colour).world 0x07 0 0 e.colour 0 (BitVec.ofNat 64 (n * 2 ^ 14 % 2 ^ 47))).unpage d
          fun col page => col = e.colour.toNat && page = n)) ∧
      (b.ok = false → ∃ t : State, exec (.pagerService d k) s = .next t ∧
        (∀ p ∈ (t.die d).pager, p.colour = e.colour → p.held = true) ∧ e.colour.toNat ∈ (t.die d).emptied ∧
        (e.colour.toNat ∉ (b.s.die d).emptied → ∃ r : EventRecord, t.records = b.s.records ++ [r] ∧ r.kind = 0x07 ∧ r.status = 0x01))) ∧
    (∀ e n, (s.die d).pager[k]? = some e → e.ask = .page n → ∀ lim, lim = 1024 * bits (s.poolEntry d e.colour) 159 128 →
      ((s.die d).pgEn = true → lim ≠ 0 → lim ≤ s.cycles - e.raised →
        exec (.faultTimeExpiry d k) s = .next (s.poisonColour d e.colour 0x29 (n * 2 ^ 14))) ∧
      (lim = 0 → exec (.faultTimeExpiry d k) s = .next s))

/-- The register writes that are steps (R415), by world 0, each with the rule of its register: SLWAYn takes CEIL and FLOOR where they are consistent and else sets ERR (R128), SLWAYC FREEZE (R127), MSHCTL its weights and PROMO or ERR (R147), STCSEL begins its counters again (R156), PGRETRY releases the colour's held
entries (R373), LCABORT aborts a launch (R376), CCEN, TBPF and RLCFG take their fields (R303, R383, R411). A world without the right changes nothing but HREFUSE, which holds the address. -/
def Obligations.RegistersAreWritten : Prop :=
  ∀ (s : State) (v : BitVec 64) (n w : Nat),
    (n < 256 → w < 64 → ∀ ceil floor, ceil = v.toNat / 2 ^ 8 % 2 ^ 5 → floor = v.toNat % 2 ^ 5 → ∃ t : State,
      exec (.slwayWrite 0 n w v) s = .next t ∧ t = { s with slices := t.slices } ∧
      (floor ≤ ceil → ceil ≤ 16 → (s.slice n).floorSum w floor ≤ 16 → ((t.slice n).way w).ceil.toNat = ceil ∧ ((t.slice n).way w).floor.toNat = floor ∧
        (t.slice n).wayErr = (s.slice n).wayErr ∧ ∀ x, x ≠ w → (t.slice n).way x = (s.slice n).way x) ∧
      (ceil < floor ∨ 16 < ceil ∨ 16 < (s.slice n).floorSum w floor → t.slice n = { s.slice n with wayErr := true })) ∧
    (n < 256 → ∃ t : State, exec (.slwaycWrite 0 n v) s = .next t ∧ t.slice n = { s.slice n with
      wayErr := if v.toNat / 2 % 2 = 1 then false else (s.slice n).wayErr, wayFreeze := decide (v.toNat % 2 = 1) }) ∧
    (n < 64 → ∃ t : State, exec (.mshctlWrite 0 n v) s = .next t ∧
      (v.toNat / 2 ^ 8 % 16 = 0 ∨ v.toNat % 16 = 0 ∨ (1 ≤ v.toNat / 2 ^ 16 % 2 ^ 10 ∧ v.toNat / 2 ^ 16 % 2 ^ 10 ≤ 7) →
        t.cluster n = { s.cluster n with mshErr := true }) ∧
      (v.toNat / 2 ^ 8 % 16 ≠ 0 → v.toNat % 16 ≠ 0 → v.toNat / 2 ^ 16 % 2 ^ 10 = 0 ∨ 8 ≤ v.toNat / 2 ^ 16 % 2 ^ 10 →
        (t.cluster n).promo.toNat = v.toNat / 2 ^ 16 % 2 ^ 10 ∧ (t.cluster n).wgt1.toNat = v.toNat / 2 ^ 8 % 16 ∧
        (t.cluster n).wgt0.toNat = v.toNat % 16)) ∧
    (n < 64 → w < 8 → ∃ t : State, exec (.stcselWrite 0 n w v) s = .next t ∧ Map.get? (t.station n).sel w = some (BitVec.ofNat 10 v.toNat) ∧
      Map.get? (t.station n).cloc w = some 0 ∧ Map.get? (t.station n).cxd w = some 0) ∧
    (n < 4 → ∃ t : State, exec (.pgretryWrite 0 n v) s = .next t ∧ (t.die n).pager = (s.die n).pager.map (fun p =>
      if p.colour = BitVec.ofNat 9 v.toNat then { p with held := false } else p) ∧ (v.toNat % 512) ∉ (t.die n).emptied) ∧
    (n < 64 → (s.cluster n).lcBusy = false → ∀ z, z = s.modCluster n (fun k => { k with lcCtx := BitVec.ofNat 11 v.toNat }) →
      (v.toNat < 2 ^ 63 → exec (.lcabortWrite 0 n v) s = .next z) ∧
      (2 ^ 63 ≤ v.toNat → exec (.lcabortWrite 0 n v) s = .next (z.abort n (v.toNat % 2048)))) ∧
    (n < 64 → exec (.ccenWrite 0 n v) s = .next (s.modCluster n fun k => { k with ccen := BitVec.ofNat 8 v.toNat })) ∧
    (n < 12288 → w < 4 → ∃ t : State, exec (.tbpfWrite 0 n w v) s = .next t ∧
      (t.tile n).tbpf.toList = (s.tile n).tbpf.toList.set w (v &&& 0xFFFFF000FFFFFFFF) ∧ ∀ k, k ≠ n → t.tile k = s.tile k) ∧
    (n < 4 → ∃ t : State, exec (.rlcfgWrite 0 n v) s = .next t ∧
      (v.toNat % 256 = 0 ∨ 40 < v.toNat / 256 % 64 → (t.die n).rlErr = true ∧ (t.die n).rlN = (s.die n).rlN) ∧
      (v.toNat % 256 ≠ 0 → v.toNat / 256 % 64 ≤ 40 → (t.die n).rlN.toNat = v.toNat % 256 ∧ (t.die n).rlWexp.toNat = v.toNat / 256 % 64)) ∧
    (∀ pa, regAt pa = .pwrcap → 600 ≤ v.toNat % 4096 → v.toNat % 4096 ≤ 1800 →
      exec (.registerWrite 0 pa v) s = .next { s with pwrcap := BitVec.ofNat 12 (v.toNat % 4096) }) ∧
    (∀ pa, regAt pa = .none → exec (.registerWrite 0 pa v) s = .next s) ∧
    (∀ world pa, s.mayWrite world (regAt pa) v.toNat = false →
      exec (.registerWrite world pa v) s = .next { s with hrefuseV := true, hrefusePa := BitVec.ofNat 52 pa })

/-- The world-page commands (R394 to R396, R406; 05_main_memory.md R103, R113; 09_block_transfer.md R188) and MSI-X (R397), for a world that the host reaches and a page that is not BUSY: the page takes the arguments, and afterwards BUSY is 0 with STATUS and RESULT. COLOUR_ALLOC gives the lowest FREE colour fresh keys and
writes its entry of the colour table, COLOUR_RETIRE begins a retirement, RING_CREATE enables the lowest free ring, RING_DESTROY disables one, MACSEC_SA installs an association. Both tables stand in memory, whose bytes outside the entry stay. -/
def Sys2Proof.Claims.WorldPageCommands : Prop :=
  ∀ (s : State) (w : Nat) (a0 a1 a2 : BitVec 64) (wd : World) (c : Colour), 7 ≤ s.bootStage.toNat → s.hostReach w = true → wd = BitVec.ofNat 6 w →
    (s.worldPage w).busy = false → Memory.wf s.dram = true → ∀ apart : State → Nat → Prop, apart = (fun t at' =>
      ∀ a, a < at' ∨ at' + 32 ≤ a → t.peek a = s.peek a) →
    (∀ n root ks, n < 512 → (s.colour (BitVec.ofNat 9 n)).state = .free → (∀ m, m < n → (s.colour (BitVec.ofNat 9 m)).state ≠ .free) →
      root = a0.extractLsb' 14 38 → ks = (if a1.getLsbD 9 then a1.extractLsb' 0 9 else BitVec.ofNat 9 n) → s.inExtent wd (root.toNat * 2 ^ 14) = true →
      (a1.getLsbD 9 = true → s.liveIn ks wd = true) → ∃ t : State, exec (.colourAlloc w a0 a1) s = .next t ∧
        t.colour (BitVec.ofNat 9 n) = { ColourEntry.reset with state := .live, world := wd, root := root, kshare := ks } ∧
        (∀ h, h < 9 → t.keyIn h (BitVec.ofNat 9 n) = s.keyFresh) ∧ (t.worldPage w).busy = false ∧ (t.worldPage w).status = 0 ∧
        (t.worldPage w).result = BitVec.ofNat 32 n ∧ (∀ d : Colour, d.toNat ≠ n → t.colour d = s.colour d) ∧ apart t (s.colourBase + 32 * n) ∧
        t.peekNat (s.colourBase + 32 * n) 32 = (t.colour (BitVec.ofNat 9 n)).toNat) ∧
    ((∀ m, m < 512 → (s.colour (BitVec.ofNat 9 m)).state ≠ .free) → ∃ t : State, exec (.colourAlloc w a0 a1) s = .next t ∧
      (t.worldPage w).status = 0x1A ∧ (t.worldPage w).busy = false ∧ t.colours = s.colours ∧ t.dram = s.dram ∧ t.slices = s.slices) ∧
    (c = a0.extractLsb' 0 9 → ∃ t : State, exec (.colourRetire w a0) s = .next t ∧ (t.worldPage w).busy = false ∧
      (t.worldPage w).status.toNat = s.retireStatus wd c ∧
      (s.retireStatus wd c = 0 → (t.colour c).state = .retiring ∧ apart t (s.colourBase + 32 * c.toNat)) ∧
      (s.retireStatus wd c ≠ 0 → t.colours = s.colours ∧ t.dram = s.dram ∧ t.slices = s.slices)) ∧
    (∀ n lg, s.disabledRing (2 ^ 16 - 64) 64 = some n → c = a2.extractLsb' 0 9 → lg = 4 + a2.toNat / 2 ^ 9 % 16 → s.liveIn c wd = true → lg ≤ 16 →
      a2.toNat / 2 ^ 19 = 0 → a0.toNat % (32 * 2 ^ lg) = 0 → a1.toNat % 4 = 0 → ∃ t : State, exec (.ringCreate w a0 a1 a2) s = .next t ∧
        (t.ring n).en = true ∧ (t.ring n).base = a0 ∧ (t.ring n).consa = a1 ∧ (t.ring n).colour = c ∧ (t.ring n).world = wd ∧
        (t.ring n).log2n.toNat = lg ∧ (t.worldPage w).status = 0 ∧ (t.worldPage w).result = BitVec.ofNat 32 n ∧ (t.worldPage w).busy = false ∧
        apart t (s.ringAt n) ∧ ∀ k, k ≠ n → t.ring k = s.ring k) ∧
    (∀ n, n = a0.toNat % 2 ^ 16 →
      (64 ≤ n → s.ringUsable n wd = true → (∀ r ∈ s.records, r.ring ≠ n) → ∃ t : State, exec (.ringDestroy w a0) s = .next t ∧
        (t.ring n).en = false ∧ apart t (s.ringAt n) ∧ (t.worldPage w).busy = false ∧ (t.worldPage w).status = 0) ∧
      (n < 64 ∨ s.ringUsable n wd = false → ∃ t : State, exec (.ringDestroy w a0) s = .next t ∧ (t.worldPage w).status = 0x02 ∧
        (t.worldPage w).busy = false ∧ t.rings = s.rings ∧ t.dram = s.dram ∧ t.slices = s.slices)) ∧
    (∀ z u x v b, w = 1 → c = a1.extractLsb' 0 9 → s.liveIn c 1 = true →
      z = s.modWorldPage w (fun p => { p with arg0 := a0, arg1 := a1, busy := true, cmd := 0x05 }) →
      z.engineRead hostUnit c a0.toNat 64 2 = .done u (b, false) → saOf b = some x → u.installSa x = some v → ∃ t : State,
        exec (.macsecSa w a0 a1) s = .next t ∧ x ∈ t.macsec ∧ (t.worldPage w).busy = false ∧ (t.worldPage w).status = 0 ∧
        (x.transmit = true → x.port < 8 → t.ethUp.getLsbD x.port = true)) ∧
    (w ≠ 1 → ∃ t : State, exec (.macsecSa w a0 a1) s = .next t ∧ (t.worldPage w).status = 0x02 ∧ t.macsec = s.macsec) ∧
    (∀ n, n = a0.toNat % 2 ^ 16 → s.ringUsable n wd = true →
      exec (.wevarmWrite w a0) s = .next (s.modRing n fun g => { g with notify := true })) ∧
    (∀ fn vec, w = fn + 1 →
      (∃ t : State, exec (.msiXTableWrite fn vec true) s = .next t ∧ vec ∈ (t.function fn).masked ∧ t.replies = s.replies) ∧
      (∃ t : State, exec (.msiXTableWrite fn vec false) s = .next t ∧ vec ∉ (t.function fn).pending ∧
        t.replies = s.replies ++ (if vec ∈ (s.function fn).pending then [.message fn vec] else [])))

/-- Functions and the removal of worlds (R398 to R400), with the host link up. Clearing VF Enable removes the worlds of all virtual functions, a function level reset one; setting it waits for removals. A removed world is noted, its function answers no more and its records are gone; REMOVAL_COMPLETE ends the removal. A TDISP
interface is locked from CONFIG_UNLOCKED and runs from CONFIG_LOCKED. -/
def Sys2Proof.Claims.FunctionsAreRemoved : Prop :=
  ∀ (s : State) (n : Nat), 7 ≤ s.bootStage.toNat →
    (s.vfEnable = true → exec .vfEnableClear s = .next (((List.range s.numVfs).map (· + 2)).foldl State.removeWorld
      { s with vfEnable := false, vfHeld := none })) ∧
    (s.vfEnable = false → s.removals = [] → exec (.vfEnableSet n) s = .next { s with numVfs := n, vfEnable := true, vfHeld := none }) ∧
    (s.vfEnable = false → s.removals ≠ [] → exec (.vfEnableSet n) s = .next { s with vfHeld := some n }) ∧
    (s.hostReach (n + 1) = true → exec (.functionLevelReset n) s = .next (s.removeWorld (n + 1))) ∧
    (∀ w, w < 64 → w ∉ s.removals → w ∈ (s.removeWorld w).removals ∧
      (∀ r ∈ (s.removeWorld w).records, r.producer ≠ BitVec.ofNat 6 w) ∧ (2 ≤ w → (s.removeWorld w).hostReach w = false) ∧
      (s.removeWorld w).isFrozen (BitVec.ofNat 6 w) = true) ∧
    (s.hostReach (n + 1) = true →
      (s.secureFor n = true → (s.function n).tdisp = .configUnlocked →
        exec (.tdispStateChange n .configLocked) s = .next (s.modFunction n fun f => { f with tdisp := .configLocked })) ∧
      (s.secureFor n = true → (s.function n).tdisp = .configLocked →
        exec (.tdispStateChange n .run) s = .next (s.modFunction n fun f => { f with tdisp := .run })) ∧
      (s.secureFor n = true → (s.function n).tdisp = .error →
        exec (.tdispStateChange n .configUnlocked) s = .next (s.modFunction n fun f => { f with tdisp := .configUnlocked })) ∧
      exec (.tdispStateChange n .error) s = .next ((s.modFunction n fun f => { f with tdisp := .error }).removeWorld (n + 1)) ∧
      (s.secureFor n = true → (s.function n).tdisp = .configLocked ∨ (s.function n).tdisp = .run →
        exec (.tdispStateChange n .configUnlocked) s = .next (s.removeWorld (n + 1)))) ∧
    (∀ w u, s.removalReady w = true → s.removed w = some u → exec (.removalComplete w) s = .next u ∧ w ∉ u.removals) ∧
    (∀ w, s.removalReady w = false → exec (.removalComplete w) s = .next s)

/-- `Claims.WorldPageCommands` and `Claims.FunctionsAreRemoved` together. -/
def Obligations.WorldPagesAndFunctions : Prop :=
  Claims.WorldPageCommands ∧ Claims.FunctionsAreRemoved

/-- The SPDM requests of a function's mailbox (R401, R402, R405; the response codes and free bytes are the model's, log 14) and link training (R404). Before the algorithms are negotiated every request that needs them is answered by ERROR; a session is opened by KEY_EXCHANGE and secure after FINISH, and only then IDE_KM programs
a key. A measurement block is answered as the rules give it. A link whose end gives a wrong answer is down. -/
def Obligations.AttestationIsAnswered : Prop :=
  ∀ (s : State) (fn : Nat) (f : Function), 7 ≤ s.bootStage.toNat → s.hostReach (fn + 1) = true → f = s.function fn → ∀ said : Instr → Nat → List Byte → Function → Prop,
    said = (fun i code known g => ∃ (t : State) (bs : List Byte), exec i s = .next t ∧ t.replies = s.replies ++ [.spdm fn code (known ++ bs)] ∧
      t.function fn = g ∧ t.dram = s.dram ∧ t.tiles = s.tiles) →
    said (.getVersion fn) 0x04 [] { f with negotiated := false, session := false, finished := false } ∧
    said (.getCapabilities fn) 0x61 [] f ∧
    (∀ a h, (a / 16 % 2 = 1 ∧ h % 2 = 1 → said (.negotiateAlgorithms fn a h) 0x63 [] { f with negotiated := true }) ∧
      (a / 16 % 2 ≠ 1 ∨ h % 2 ≠ 1 → said (.negotiateAlgorithms fn a h) 0x7F [] f)) ∧
    (∀ slot nonce, (f.negotiated = true → said (.getDigests fn) 0x01 [] f ∧ said (.getCertificate fn 0) 0x02 [] f ∧
        said (.challenge fn 0 nonce) 0x03 [] f) ∧
      (f.negotiated = false ∨ slot ≠ 0 → said (.getCertificate fn slot) 0x7F [] f ∧ said (.challenge fn slot nonce) 0x7F [] f)) ∧
    (∀ nonce, f.negotiated = true → said (.getMeasurements fn 1 nonce) 0x60 (Sha.digestBytes (s.measure 0x101).digest) f ∧
      (∀ m, s.removals.contains (BitVec.ofNat 6 (fn + 1) : World).toNat = false → m = s.measure (BitVec.ofNat 6 (fn + 1) : World).toNat →
        ∃ st : Byte, said (.getMeasurements fn 4 nonce) 0x60 (Sha.digestBytes m.digest ++ [st, 0, 0, 0] ++ natBytes 4 m.count.toNat) f) ∧
      (fn ≠ 0 → ∀ i, 5 ≤ i → said (.getMeasurements fn i nonce) 0x7F [] f)) ∧
    (∀ share, (f.negotiated = true → said (.keyExchange fn share) 0x64 [] { f with session := true, finished := false }) ∧
      (f.negotiated = false → said (.keyExchange fn share) 0x7F [] f)) ∧
    (∀ v, (f.session = true → f.finished = false → Config.finishChecks v = true → said (.finish fn v) 0x65 [] { f with finished := true }) ∧
      (f.session = false ∨ f.finished = true ∨ Config.finishChecks v = false → said (.finish fn v) 0x7F [] f)) ∧
    (f.session = true → said (.endSession fn) 0x6C [] { f with session := false, finished := false }) ∧
    (∀ stream key, (f.finished = true → stream ≤ 8 → said (.ideKm fn stream key) 0x7E [] { f with stream := if stream = 0 then f.stream else some stream }) ∧
      (f.finished = false ∨ 8 < stream → said (.ideKm fn stream key) 0x7F [] f)) ∧
    (∀ link answer, link ∉ s.linksDown →
      ∀ good, good = linkProof s.linkSecret ((Config.drawn s.free).setWidth 128) ((Config.drawn (s.free + 1)).setWidth 128) link →
      (answer = good → exec (.d2dLinkTraining link answer) s = .next { s with free := s.free + 2 }) ∧
      (answer ≠ good → ∃ t : State, exec (.d2dLinkTraining link answer) s = .next t ∧ link ∈ t.linksDown))

/-- The host's accesses (R405, R415, R417 to R419). Through BAR2 a function reaches 2^36 bytes of its world's window colour, translated as any access of the colour, and an access outside, of another stream or without a window is an Unsupported Request; one whose line is locked, or behind a link that is down, is made again. BAR0 of the PF has the register window, where a read gives the register's value as world 1
reads it; below it a world page, where a write of WMCMD with BUSY starts the command with the page's arguments (R395, R396) and one of WEVARM arms the ring. A frame of the transport that came under MACsec is taken at a port that is up. -/
def Obligations.HostAccesses : Prop :=
  ∀ (s : State) (w : Nat) (acc : HostAccess) (h : Nat) (c : Colour), s.hostReach w = true → h = (Map.get s.hwcol w 0).toNat →
    c = BitVec.ofNat 9 (h / 2 ^ 47 % 2 ^ 9) →
    (s.bootStage.toNat < 7 → exec (.bar2Access w acc) s = .next { s with replies := s.replies ++ [.retry (w - 1)] }) ∧
    (7 ≤ s.bootStage.toNat →
      (s.streamOk w acc.stream = false ∨ h / 2 ^ 63 % 2 = 0 ∨ s.liveIn c (BitVec.ofNat 6 w) = false ∨ 2 ^ 36 < acc.offset + acc.size →
        exec (.bar2Access w acc) s = .next { s with replies := s.replies ++ [.unsupported (w - 1)] }) ∧
      (s.streamOk w acc.stream = true → h / 2 ^ 63 % 2 = 1 → s.liveIn c (BitVec.ofNat 6 w) = true → acc.offset + acc.size ≤ 2 ^ 36 →
        ∀ r, r = s.hostWindow c (h / 2 ^ 36 % 2 ^ 11 * 2 ^ 36 + acc.offset) acc.size acc.write →
        (∀ t bs p, r = .done t (bs, p) → exec (.bar2Access w acc) s = .next { t with replies := t.replies ++
          [if acc.write.isSome then .completed (w - 1) else if p then .poisoned (w - 1) else .bytes (w - 1) bs] }) ∧
        (∀ t k va, r = .fault t k va → ∃ u : State, exec (.bar2Access w acc) s = .next u ∧
          u.replies = t.replies ++ [if acc.write.isSome then .completed (w - 1) else .poisoned (w - 1)] ∧ u.dram = t.dram) ∧
        (r = .busy → exec (.bar2Access w acc) s = .next s)) ∧
      (acc.stream = 0 → acc.size = 8 → (s.function 0).tdisp ≠ .run → w = 1 → ∀ pa o, o < 0x3FFFFF8 → o % 8 = 0 → acc.offset = 0x4000000 + o → pa = deviceBase + o →
        (acc.write = none → s.mayRead 1 (regAt pa) = true → exec (.registerWindowAccess w acc) s =
          .next { s with replies := s.replies ++ [.bytes 0 (natBytes 8 (s.regValue (regAt pa)))] }) ∧
        (acc.write = none → s.mayRead 1 (regAt pa) = false → exec (.registerWindowAccess w acc) s =
          .next { s.refuseReg pa with replies := s.replies ++ [.bytes 0 (natBytes 8 0)] })) ∧
      (s.streamOk w acc.stream = true → acc.size = 8 → ∀ v p, v < 2 ^ 64 → acc.write = some (natBytes 8 v) → p = s.worldPage w →
        (acc.offset = 0x18 → 2 ^ 63 ≤ v → p.busy = false →
          (∀ e ∈ [(Instr.colourAlloc w p.arg0 p.arg1, 1), (.colourRetire w p.arg0, 2), (.ringCreate w p.arg0 p.arg1 p.arg2, 3),
              (.ringDestroy w p.arg0, 4), (.macsecSa w p.arg0 p.arg1, 5)], v % 256 = e.2 →
            ∃ t : State, exec e.1 s = .next t ∧ exec (.registerWindowAccess w acc) s = .next { t with replies := t.replies ++ [.completed (w - 1)] })) ∧
        (acc.offset = 0x18 → p.busy = true → exec (.registerWindowAccess w acc) s = .next { s with replies := s.replies ++ [.completed (w - 1)] }) ∧
        (acc.offset = 0x20 → ∃ t : State, exec (.wevarmWrite w (BitVec.ofNat 64 v)) s = .next t ∧
          exec (.registerWindowAccess w acc) s = .next { t with replies := t.replies ++ [.completed (w - 1)] })) ∧
      (2 ≤ w → acc.stream = 0 → (s.function (w - 1)).tdisp ≠ .run → 0x4000 < acc.offset + acc.size →
        exec (.registerWindowAccess w acc) s = .next { s with replies := s.replies ++ [.unsupported (w - 1)] })) ∧
    (∀ port ty sec,
      (ty = 0x88B5 → sec = true → s.ethUp.getLsbD port = true → exec (.ethernetFrameRx port ty sec) s =
        .next { s with frames := Map.put s.frames port (Map.get s.frames port 0 + 1) }) ∧
      (ty ≠ 0x88B5 ∨ sec = false ∨ s.ethUp.getLsbD port = false → exec (.ethernetFrameRx port ty sec) s = .next s))

/-- Checks and their fates (R407, R409 to R412): an uncorrected error poisons what it meets, a granule, a flit's payload, a unit of a line, of DRAM or of CXL.mem (R101), or purges a matching-store entry with status ECC, and sends an ERROR record; corrected errors are counted per instance and window, and the N-th retires the instance: a bank's lines are
written back first. -/
def Sys2Proof.Claims.ErrorsAreContained : Prop :=
  ∀ (s : State) (e : ErrorPlace) (key : Nat), key = errorKey e →
    (e.code = 1 → e.item < 256 * (s.tile e.unit).spk.toNat → ∃ (t : State) (r : EventRecord), exec (.uncorrectedError e) s = .next t ∧
      e.item ∈ (t.tile e.unit).poison ∧ (t.tile e.unit).scratch = (s.tile e.unit).scratch ∧ t.records = s.records ++ [r] ∧ r.kind = 0x08 ∧
      r.status = 0x02 ∧ r.fault = 0x2A) ∧
    (∀ i x, e.code = 2 → (s.tile e.unit).store[e.item]? = some (i, x) → ∃ t : State, exec (.uncorrectedError e) s = .next t ∧
      (t.tile e.unit).store = Map.del (s.tile e.unit).store i ∧ ∃ p r : EventRecord, t.records = s.records ++ [p, r] ∧ p.kind = 0x02 ∧
        p.status = 0x40 ∧ r.kind = 0x08) ∧
    (∀ f, e.code = 3 → (s.cluster e.unit).flits[e.item]? = some f → ∃ (t : State) (r : EventRecord), exec (.uncorrectedError e) s = .next t ∧
      t.records = s.records ++ [r] ∧ r.kind = 0x08 ∧
      (t.cluster e.unit).flits = if e.header then (s.cluster e.unit).flits.eraseIdx e.item
        else (s.cluster e.unit).flits.set e.item { f with cargo := f.cargo.poisoned }) ∧
    (∀ en p i b (x : Token), (Cargo.token en p i b x).poisoned = .token en p i b { x with poison := true }) ∧
    (e.code = 7 → ∃ (t : State) (r : EventRecord), exec (.uncorrectedError e) s = .next t ∧ t.dram = s.dram ∧ t.records = s.records ++ [r] ∧
      (if e.unit < 8 then 2 ^ 30 * e.unit + e.item % 2 ^ 30 else 2 ^ 42 + e.item) ∈ t.dramPoison) ∧
    (e.code = 2 ∨ e.code = 3 → exec (.correctedError e) s = .next s) ∧
    (∀ n, e.code ∈ [4, 5, 6] → n = Map.get s.ceCounts key 0 + 1 →
      (n ≠ (s.die (placeDie e)).rlN.toNat → exec (.correctedError e) s = .next { s with ceCounts := Map.put s.ceCounts key n }) ∧
      (e.code = 4 → e.bank < 4 → n = (s.die (placeDie e)).rlN.toNat → ∃ (t : State) (r : EventRecord), exec (.correctedError e) s = .next t ∧
        (t.slice e.unit).bankOff.getLsbD e.bank = true ∧ (∀ l ∈ (t.slice e.unit).lines, bankOf l.pa ≠ e.bank) ∧ t.dram = s.dram ∧
        t.records = s.records ++ [r] ∧ r.kind = 0x08 ∧ r.status = 0x03)) ∧
    (∀ k, exec (.ringCrcRetry k) s = exec (.correctedError ⟨5, k, 0, 0, false⟩) s) ∧
    (∃ t : State, exec .errorWindowBoundary s = .next t ∧ (∀ tk, s.windowEdge (dieOf (ckOf tk)) = true → Map.get? s.tiles tk ≠ none →
        (t.tile tk).cecnt = 0) ∧ (∀ x ∈ t.ceCounts, s.windowEdge (keyDie x.1) = false) ∧ t.dram = s.dram)

/-- BOOT, THROTTLE and THERMTRIP (R420 to R424): each stage ends only after the one before and with no error, a stage that fails sets ERR and nothing goes on; the image that is taken is the first copy that checks; the colour and ring tables are cleared before the host link; a link whose proof is wrong is down; and PERST_N returns everything to reset but what DRAM holds, the model's own agenda and counters, the replies and THERMTRIP (log 37). -/
def Sys2Proof.Claims.BootStages : Prop :=
  ∀ (s : State),
    exec (.boot .perst) s = .next { State.reset with agenda := s.agenda, free := s.free, keyFresh := s.keyFresh, dram := s.dram, dramKey := s.dramKey, dramPoison := s.dramPoison, replies := s.replies, thermtrip := s.thermtrip } ∧
    (s.bootErr = 0 →
      (∀ a b body, s.bootStage = 0 → bootBody a = some body ∨ (bootBody a = none ∧ bootBody b = some body) → ∃ t : State,
        exec (.boot (.image a b)) s = .next t ∧ t.bootStage = 1 ∧ t.bootErr = 0 ∧ (t.measure 0x101).digest = Sha.hash (Config.firmwareImage 1 ++ body)) ∧
      (∀ a b, s.bootStage = 0 → bootBody a = none → bootBody b = none → exec (.boot (.image a b)) s = .next { s with bootErr := 0x01 }) ∧
      (∀ l, s.bootStage = 1 → exec (.boot (.pll l)) s = .next (if l then { s with bootStage := 2 } else { s with bootErr := 0x02 })) ∧
      (∀ k as, s.bootStage = 2 → ((∀ l, l < 6 → linkProved k as l = true) → exec (.boot (.links k as)) s =
          .next { s with linkSecret := k, bootStage := 3 }) ∧
        (∀ l, l < 6 → linkProved k as l = false → ∃ t : State, exec (.boot (.links k as)) s = .next t ∧ t.bootErr = 0x03 ∧ l ∈ t.linksDown)) ∧
      (∀ x, s.bootStage = 3 → exec (.boot (.stacks x)) s = .next { s with stkfail := x, bootStage := 4 }) ∧
      (s.bootStage = 4 → exec (.boot (.firmware none)) s = .next { s with bootErr := 0x05 }) ∧
      (s.bootStage = 5 → exec (.boot (.tables false)) s = .next { s with bootErr := 0x06 } ∧
        ∃ t : State, exec (.boot (.tables true)) s = .next t ∧ t.bootStage = 6 ∧ t.bootErr = 0 ∧ (∀ c, (t.colour c).state = .free) ∧
          (∀ a, s.colourBase ≤ a ∧ a < s.colourBase + 2 ^ 14 ∨ s.ringBase ≤ a ∧ a < s.ringBase + 2 ^ 21 → Memory.read t.dram a = 0) ∧
          (s.ringBase % 256 = 0 → ∀ n, n < 2 ^ 16 → (t.ring n).en = false)) ∧
      (s.bootStage = 6 → exec (.boot .hostLink) s = .next { s with bootStage := 7 })) ∧
    (∀ i, i ≠ .perst → s.bootErr ≠ 0 → exec (.boot i) s = .next s) ∧
    (∀ on, exec (.throttle on) s = .next { s with throttled := on }) ∧
    exec .thermtrip s = .next { s with thermtrip := true }

/-- `Claims.ErrorsAreContained` and `Claims.BootStages` together. -/
def Obligations.ErrorsAndBoot : Prop :=
  Claims.ErrorsAreContained ∧ Claims.BootStages

/-! The whole machine: what a step runs, how words and instructions correspond, what reset leaves, and the invariant of memory (01_notation.md R14, R16, R21; 03_formats.md R59 to R71;
14_control_core.md R275, R278; 26_host_and_package.md R415) -/

/-- A step (log 3). With an empty agenda the FCLK cycle ends; `setBreak` sets or clears BRK of an installed word (R60); an event of the device runs its instruction; a `fire` runs the operator whose word stands in the slot of the tile's active plane (R59); an `issue` of a context that can issue runs the instruction of the 8 bytes at PC (R68, R275): of the bytes
that the line at the home of PC's translation holds. A PC that is no multiple of 8 traps MISALIGNED_TARGET, bytes that are no instruction trap ILLEGAL (R71), poisoned bytes and a page of device registers trap by their faults, and a line that is locked is fetched again. -/
def Obligations.StepRunsTheDecodedInstruction : Prop :=
  ∀ (s : State) (rest : List Move) (z : State), z = { s with agenda := rest } →
    (s.agenda = [] → step s = .next s.cycle) ∧
    (s.agenda = .cycle :: rest → step s = .next z.cycle) ∧
    (∀ tk plane slot on, s.agenda = .setBreak tk plane slot on :: rest → ∃ t : State, step s = .next t ∧ (∀ k, k ≠ tk → t.tile k = s.tile k) ∧
      ∀ w, w = ((s.tile tk).slot (64 * plane + slot)).word → ((t.tile tk).slot (64 * plane + slot)).word =
        if w = 0 then 0 else if on then w ||| 0x80 else w &&& ~~~0x80) ∧
    (∀ i, s.agenda = .event i :: rest → (isStep i = true → step s = exec i z) ∧ (isStep i = false → step s = .next z)) ∧
    (∀ tk slot w, s.agenda = .fire tk slot :: rest → w = ((s.tile tk).slot (64 * (s.tile tk).plane.toNat + slot)).word.toNat →
      (∀ i, decodeFabric w = .ok i → step s = exec i (z.actTile tk slot)) ∧
      (∀ e, decodeFabric w = .error e → step s = .next (z.actTile tk slot))) ∧
    (∀ ck ctx, s.agenda = .issue ck ctx :: rest →
      ((z.act ck ctx).canIssue = false → step s = .next (z.act ck ctx)) ∧
      ((z.act ck ctx).canIssue = true → ∀ u : State, u = (z.act ck ctx).modCluster ck (fun k => { k with lastIssued := ctx, issuedAt := s.cycles + 1 }) →
        (u.me.pc.toNat % 8 ≠ 0 → step s = .next (u.takeTrap 0x02 0 0 0)) ∧
        (u.me.pc.toNat % 8 = 0 →
          (∀ (t v : State) (x : Xlat) (d : BitVec 2048) (p : BitVec 4) (w : Nat),
            u.xlateCore ck u.me.colour u.me.pc.toNat true false = (t, .ok x) →
            (x.device = true → step s = .next (t.memTrap codePerm u.me.pc.toNat)) ∧
            (x.device = false → t.lineBusy t.actor.ck x.sk x.pa = true → step s = .next t) ∧
            (x.device = false → t.lineBusy t.actor.ck x.sk x.pa = false → t.plainRead x.sk x.pa x.key (t.colour u.me.colour).world = (v, d, p) →
              w = bytesNat (lineBytes d (x.pa % 256) 8) → ∀ y : State, y = v.countAccess v.actor.ck x.sk 0 1 u.me.colour (v.colour u.me.colour).world →
              (p.getLsbD (x.pa % 256 / 64) = true → step s = .next (y.memTrap codePoison u.me.pc.toNat)) ∧
              (p.getLsbD (x.pa % 256 / 64) = false → (∀ i, decodeCore w = .ok i → step s = exec i y) ∧
                (∀ e, decodeCore w = .error e → step s = .next y.illegal)))) ∧
          (∀ (t : State) (k : Nat), u.xlateCore ck u.me.colour u.me.pc.toNat true false = (t, .error k) →
            step s = .next (if k = codeNotMapped then t.parkPage t.me.colour u.me.pc.toNat else t.memTrap k u.me.pc.toNat)))))

/-- The instruction whose words a step shares with others: the manual lists several steps under one word, and the operands of a firing, or xa[8], choose among them. -/
def Sys2Proof.Claims.asRead : Instr → Instr
  | .thaw xa => .freeze xa
  | .lcarryBackEdge f => .lcarryEntry f
  | .lcarryEosRelease f => .lcarryEntry f
  | .kvseqOpen f => .kvseqRead f
  | .kvseqAdvance f => .kvseqRead f
  | .kvseqDraft f => .kvseqRead f
  | i => i

/-- Decoding and encoding agree (R59, R60, R68 to R71), for every instruction with every operand: the bytes that `encode` writes decode to the instruction again, and a number of 64 or of 128 bits that decodes is the one that the instruction it gives encodes to, so no two words mean one instruction and no bit is
dropped. -/
def Obligations.DecodeAndEncodeAgree : Prop :=
  (∀ (i : Instr) (bs : List Byte), encode i = some bs → decodeBytes bs = .ok (Claims.asRead i)) ∧
  (∀ (w : Nat) (i : Instr), w < 2 ^ 64 → decodeCore w = .ok i → encodeCore i = some w) ∧
  (∀ (w : Nat) (i : Instr), w < 2 ^ 128 → decodeFabric w = .ok i → encodeFabric i = some w)

/-- The words of the manual's worked encodings (R14, R59, R68, R70, R71; 13_ops_matrix.md R256) decode to the instructions they stand for, and its forbidden words to none. -/
def Obligations.ManualWordsDecode : Prop :=
  decodeCore 0x3638C09000000018 = .ok (.ldxD 7 3 0x18 (some .die)) ∧ decodeCore 0x3638C00000000018 = .ok (.ldxD 7 3 0x18 none) ∧
  decodeCore 0x28014C00FFFFFFFE = .ok (.beq 5 6 0xFFFFFFFE) ∧ decodeCore 0x3E2A8CB000000000 = .ok (.amoCas 5 6 10 (some .pkg)) ∧
  decodeCore 0x2F0A400000000040 = .ok (.jalr 1 9 0x40) ∧ decodeCore 0x4A00000000000000 = .ok .cend ∧
  (∀ w ∈ [0x3638C08000000018, 0x3638C1F000000018, 0x3638C89000000018], decodeCore w = .error .illegal) ∧
  decodeFabric 0x4040100840388BE62000000000000000 = .ok (.vaddI32 ⟨2, false, .keep, .i32, 0, some ⟨1, 0, 7, .l, false⟩, some ⟨2, 31, 12, .r, false⟩, none, 0, ⟨false, false, 0, false⟩⟩) ∧
  decodeFabric 0x2040D008404900000000000000000000 = .ok (.nadd ⟨2, false, .keep, .n32, 0, some ⟨1, 0, 9, .l, true⟩, none, none, 0, ⟨false, false, 0, false⟩⟩) ∧
  decodeFabric 0x4A201038025000000000000000000000 = .ok (.vshl ⟨1, false, .keep, .i32, 3, some ⟨0, 1, 10, .l, false⟩, none, none, 0, ⟨false, false, 0, false⟩⟩) ∧
  decodeFabric 0xC2A09008002880030000000041048000 = .ok (.mmaQ16n ⟨1, false, .keep, .q16n, 0, some ⟨0, 0, 5, .l, false⟩, some ⟨0, 0, 6, .l, false⟩, none, 0x410480, ⟨false, false, 0, false⟩⟩)

/-- Memory keeps its canonical form under every step: addresses rise strictly and no entry holds what an unlisted address reads as, so that equal memories are equal data. -/
def Obligations.MemoryStaysCanonical : Prop :=
  ∀ s t : State, Memory.wf s.dram = true → step s = .next t → Memory.wf t.dram = true

/-- What reset leaves, by the reset columns of the manual's tables: memory lists nothing and is canonical; TIMEBASE is 0 (R276); every colour is FREE (R103) and every ring disabled (R188); SLWAYn has CEIL 16 and all else 0 (R127); RLCFG has N = 4 and WEXP = 24 (R411); PWRCAP is 1,800 (R424); every
context is out of a handler with its trap registers zero (R276); boot stage 0 with no error (R415). -/
def Obligations.ResetLeavesTheTablesValues : Prop :=
  Memory.wf State.reset.dram = true ∧ (∀ a, State.reset.peek a = Memory.unlisted) ∧ State.reset.timebase = 0 ∧
  (∀ c, State.reset.colour c = ColourEntry.reset ∧ (State.reset.colour c).state = .free) ∧ (∀ n, (State.reset.ring n).en = false) ∧
  (∀ k w, State.reset.regValue (.slway k w) = 16 * 2 ^ 8 ∧ State.reset.regValue (.slwayc k) = 0) ∧
  (∀ d, State.reset.regValue (.rlcfg d) = 24 * 2 ^ 8 + 4 ∧ State.reset.regValue (.pgtbl d) = 0) ∧ State.reset.regValue .pwrcap = 1800 ∧
  (∀ k, State.reset.regValue (.stwloc k 0) = 0 ∧ State.reset.regValue (.stcsel k 0) = 0) ∧ State.reset.regValue .bootsts = 0 ∧ State.reset.regValue .hrefuse = 0 ∧
  (∀ ck x, x < 8 → ∀ c, c = State.reset.context ck x → c.tm = false ∧ c.trapCode = 0 ∧ c.trapFcode = 0 ∧ c.trapCause = 0 ∧ c.epc = 0 ∧ c.tval = 0 ∧
    c.tvec = 0 ∧ c.scratch = 0 ∧ c.stsValue = 0 ∧ c.stsStatus = 0 ∧ c.mmBusy = false)
/-! Where the instructions of several families complete -/

/-- Control-core instructions whose effect is larger than one register complete: the atomics (R284) with the old value in xd; `cjoin` (R287) once its atomic is done; `cend` and
`cyield` (R287) with the context idle; `scond` (R292) with the context waiting, and SCOND_RETIRE with the launch started or cancelled; `gsplice` (R294) with the new context SPLICING, or installed at once behind an
ENDED one; `gfree` (R295); `jsub` and CARD_ACCEPT (R296, R178) with the card in the window; `gjoin` and `gleave` (R297). -/
def Sys2Proof.Claims.CoreInstructionsComplete : Prop :=
  ∀ (s : State) (ck : Nat), s.actor.ctx < 8 → ck = s.actor.ck →
    (∀ e ∈ Claims.atomics, ∀ (xd xb xa : Reg) (sc : Option Scope),
      (∀ tk off, Claims.InScratchpad s (s.reg xa).toNat 8 tk off → (∀ g ∈ granulesOf off 8, g ∉ (s.tile tk).poison) →
        ∃ t : State, exec (e.1 xd xb xa sc) s = .next t ∧ t.me.pc = s.me.pc + 8 ∧
          t.reg xd = if xd = 0 then 0 else BitVec.ofNat 64 (Claims.littleEndian (s.tile tk).scratch off 8)) ∧
      (∀ s1 x l p, Claims.InMemory s (s.reg xa).toNat 8 true true s1 x → Claims.HomeFree s1 x → s1.actor = s.actor →
        ((s1.modMe fun k => { k.dropLease x.pa with touched := touch k.touched (dieOf s.actor.ck) x.sk }).plainRead x.sk x.pa x.key
          s.me.world).2 = (l, p) → p = 0 →
        ∃ t : State, exec (e.1 xd xb xa sc) s = .next t ∧ t.me.pc = s.me.pc + 8 ∧
          t.reg xd = if xd = 0 then 0 else BitVec.ofNat 64 (bytesNat (lineBytes l (x.pa % 256) 8)))) ∧
    (∀ xa u old, Claims.Released s → s.coreAtomic (s.reg xa).toNat 4 (fun o => (o + 2 ^ 32 - 1) % 2 ^ 32) = .done u old →
      u.actor = s.actor → ∃ t : State, exec (.cjoin xa) s = .next t ∧ t.me.pc = s.me.pc + 8) ∧
    (∃ t : State, exec .cend s = .next t ∧ t.me.running = false ∧ t.me.regs = s.me.regs) ∧
    (Claims.QueueRoom s ck s.me.queue.toNat → ∃ t : State, exec .cyield s = .next t ∧ t.me.running = false ∧
      ∃ r ∈ (t.queue ck s.me.queue.toNat).records, r.record = ⟨s.me.world, s.me.colour, s.me.queue, 0, s.reg 2, s.me.pc + 8⟩) ∧
    (∀ (xa : Reg) (imm : BitVec 32) (sc : Option Scope) (w l : Nat) (x : Launch), w = imm.toNat % 2 ^ 11 → l = imm.toNat / 2 ^ 11 % 2 ^ 11 →
      imm.toNat < 2 ^ 22 → w ≠ l → s.worldOfCtx ck w = some s.me.world → s.launch? ck l = some x → x.world = s.me.world → x.state = .held →
      ∃ t : State, exec (.scond xa imm sc) s = .next t ∧ t.me.park = .cond l (s.reg xa) (s.unfinished ck w)) ∧
    (∀ a l ids x u bs, s.me.park = .cond l a ids → (∀ i ∈ ids, s.bindingDone ck i = true) → s.launch? ck l = some x → x.state = .held →
      x.world = s.me.world → (s.acquireMe scopePkg).coreRead a.toNat 8 = .done u bs → u.actor = s.actor → u.launch? ck l = some x →
      ∃ t : State, exec (.scondRetire ck s.actor.ctx) s = .next t ∧ t.me.stsStatus = 0 ∧ t.me.pc = u.me.pc + 8 ∧
        t.me.stsValue = (if bytesNat bs = 0 then 0 else 1)) ∧
    (∀ (xa xb : Reg) u v o q bs (d : LaunchDesc) (g : Image) (p : Placed) ports pred ctx (l : Launch) hs b, pred = (s.reg xb).toNat →
      s.coreRead (s.reg xa).toNat 32 = .done u bs → LaunchDesc.of (bytesNat bs) = some d → d.hold = false → pred < 2048 → u.actor = s.actor →
      u.launch? ck pred = some l → l.world = u.me.world → l.successor = none → l.state ≠ .splicing →
      u.readImage ck u.me.colour d.image = .done v (some g) → v.actor = u.actor → v.me = u.me → g.snapshot = false →
      g.world = v.me.world.toNat → g.placeAt l.x l.y = some (p, ports) → refused (p.failures g.warn) = false →
      (∀ x ∈ p.words, l.covers x.ti = true) → v.placeCheck ck g p l.plane ports (some pred) = .ok ctx →
      v.createAll ck v.me.world [] [] (v.creationFuel g.objects.length) g.objects = .made o hs →
      o.writeHandles v.me.colour (g.objects.zip hs) = .done q () → q.actor = u.actor → q.launch? ck pred = some l → ctx ≠ pred →
      (l.state = .ended → ((q.cfgErrors ck d.ring v.me.world ck l.plane p (p.failures g.warn)).extendMeasure v.me.world.toNat
        g.bytes).setBounds ck p v.me.world g.tiles = some b) →
      ∃ t : State, exec (.gsplice xa xb) s = .next t ∧ (l.state ≠ .ended → t.me.park = .splice ctx) ∧
        (l.state = .ended → t.me.stsStatus = 0 ∧ t.me.stsValue = BitVec.ofNat 11 ctx)) ∧
    (∀ (xa : Reg) (l : Launch), (s.reg xa).toNat < 2048 → s.launch? ck (s.reg xa).toNat = some l → l.world = s.me.world → l.state = .ended ∨ l.state = .held →
      ∃ t : State, exec (.gfree xa) s = .next t ∧ t.me.stsStatus = 0 ∧ t.me.pc = s.me.pc + 8) ∧
    (∀ (xa : Reg) u bs, s.coreRead (s.reg xa).toNat 64 = .done u bs → u.actor = s.actor →
      ∃ t : State, exec (.jsub xa) s = .next t ∧ t.me.park = .window (BitVec.ofNat 512 (bytesNat bs))) ∧
    (∀ b, s.me.park = .window b → (s.cluster ck).cards.length < 32 → ∃ (t : State) (c : Card), exec (.cardAccept ck s.actor.ctx) s = .next t ∧
      (t.cluster ck).cards = (s.cluster ck).cards ++ [c] ∧ c.bits = b ∧ t.me.pc = s.me.pc + 8) ∧
    (∀ (xa : Reg) (imm : BitVec 32) u pa (g : GroupDesc), imm.toNat < 192 → s.coreGroup (s.reg xa).toNat = .done u pa → u.actor = s.actor →
      g = u.groupDesc pa → g.formOk = true →
      ((g.enrolled = 0 ∨ g.colour = u.me.colour) → (∃ m, m < 64 ∧ bits (g.member.getD m 0) 15 15 = 0) →
        ∃ t : State, exec (.gjoin xa imm) s = .next t ∧ t.me.stsStatus = 0 ∧ t.me.pc = u.me.pc + 8) ∧
      (∀ m, g.memberOf imm.toNat = some m → ∃ t : State, exec (.gleave xa imm) s = .next t ∧ t.me.stsStatus = 0 ∧ t.me.pc = u.me.pc + 8))

/-- Steps of the scheduler and the splice logic that complete: RECORD_POP (R311) starts a record in an idle context, JOIN_REREAD (R310) makes a record runnable, LAUNCH_END (R319) ends a quiet launch, SPLICE_TOKEN,
SPLICE_INSTALL and SPLICE_REGISTER_WRITE (R320 to R323) bring a word to its slot, install it, and write a tile's registers. -/
def Sys2Proof.Claims.SchedulerStepsComplete : Prop :=
  ∀ (s : State) (ck tk k : Nat),
    (∀ x q e i r, (s.cluster ck).poppedAt ≠ s.cycles + 1 → (s.cluster ck).idle = some x → (s.cluster ck).winner = some q →
      (s.queue ck q).first = some (e, i) → (s.queue ck q).records[i]? = some r → r.record.code.toNat % 8 = 0 →
      ∃ t : State, exec (.recordPop ck) s = .next t ∧ (t.context ck x).running = true ∧ (t.context ck x).pc = r.record.code) ∧
    (∀ q i r u bs, (s.cluster ck).waitingRecords[k]? = some (q, i) → s.stalledBehind ck q i = false → (s.queue ck q).records[i]? = some r →
      r.record.joina ≠ 0 → r.record.joina.toNat / 2 ^ 24 ≠ 0x7FFFFF → (∀ n, r.state ≠ .runnable n) →
      s.engineRead ck r.record.colour r.record.joina.toNat 4 2 = .done u (bs, false) → bytesNat bs = 0 →
      exec (.joinReread ck k) s =
        .next (u.modQueue ck q fun x => { x with records := x.records.modify i fun y => { y with state := .runnable u.cycles } })) ∧
    (∀ ctx l m u, (s.cluster ck).lcBusy = false → s.launch? ck ctx = some l → l.state = .running → l.bound = true → s.launchQuiet ck ctx l = true →
      u = (if l.writtenBack then s else s.launchSettle ck ctx l) → u.launch? ck ctx = some m → m.outstanding = 0 →
      u.anyToken ck (goneCtx ck ctx) = false → exec (.launchEnd ck ctx) s = .next (u.endLaunch ck ctx 0 0)) ∧
    (∀ x, (s.cluster ck).splices[k]? = some x → ∃ t : State, exec (.spliceToken ck k) s = .next t ∧
      ((t.tile (192 * ck + x.ti)).slot (64 * x.plane + x.slot)).pending = some (x.word, x.ctx)) ∧
    (∀ w c, ((s.tile tk).slot k).pending = some (w, c) →
      (((s.tile tk).slot k).ctx = none ∨ ∃ p, ((s.tile tk).slot k).ctx = some p ∧ s.slotClosed tk k p = true) →
      (∀ x ∈ (s.cluster (ckOf tk)).splicesOut, ¬ (x.ctx = c ∧ x.ti = tiOf tk ∧ x.slot = k % 64)) →
      ∃ t : State, exec (.spliceInstall tk k) s = .next t ∧ ((t.tile tk).slot k).word = w ∧ ((t.tile tk).slot k).pending = none) ∧
    (∀ c l r u, (s.cluster (ckOf tk)).launches.findSome?
        (fun e => (e.2.spliceRegs.find? fun r => r.ti = tiOf tk).map fun r => (e.1, e.2, r)) = some (c, l, r) →
      (∀ p, l.predecessor = some p → ∀ j, j < 64 → ((s.tile tk).slot (64 * l.plane + j)).ctx = some p → s.slotClosed tk (64 * l.plane + j) p = true) →
      s.setBound tk r.need l.world = some u → ∃ t : State, exec (.spliceRegisterWrite tk) s = .next t ∧
        ∀ m, u.launch? (ckOf tk) c = some m → ∃ n, t.launch? (ckOf tk) c = some n ∧ n.spliceRegs = m.spliceRegs.erase r)

/-- Steps of group loads and of home slices that complete: GROUP_REQUEST (R135) sends a member's ask, GROUP_ASK and GROUP_QUEUE_ADMIT (R136) take one, GROUP_TIMER_EXPIRY (R136) fills, GROUP_FILL (R137) serves the members that asked;
SLICE_READ and SLICE_WRITE (R124, R125) perform a request to a line that is present, CONFLICT_QUEUE_LOCK (R121) takes the lock of one that waited, RDLINE, WRLINE and WRMASK (R100) serve the line at the stack port,
LINE_FILL (R121) ends a miss, and PTS_ADVANCE (R123) moves a clock. -/
def Sys2Proof.Claims.MemoryStepsComplete : Prop :=
  ∀ (s : State) (ck sk k : Nat),
    (∀ a g m u x, (s.cluster ck).asks[k]? = some a → a.sent = none → a.waitPage = none → a.passed = none → g = s.groupDesc a.key.desc →
      g.formOk = true → (∀ i, i < 4 → s.peekPoison (a.key.desc + 64 * i) = false) → g.memberOf (tiOf a.tk) = some m →
      g.enrolled.getLsbD m = true → a.tag.colour = g.colour → g.offset + a.key.disp + 256 ≤ 4096 * (s.tile a.tk).spk.toNat →
      (∀ d ∈ (s.cluster ck).deliveries, d.key ≠ a.key) → (∀ b ∈ (s.cluster ck).asks, ¬ (b.key = a.key ∧ b.waitPage.isSome)) →
      (∀ p ∈ (s.cluster ck).pendingKeys, p.key ≠ a.key) → s.xlateEngine ck a.tag.colour a.key.line true false = (u, .ok x) → x.device = false →
      ∃ t : State, exec (.groupRequest ck k) s = .next t ∧ (t.cluster ck).asks[k]? = some { a with sent := some m }) ∧
    (∀ a rest, (s.slice sk).asks = a :: rest → (∀ h ∈ (s.slice sk).holds, ¬ (h.ask.key = a.key ∧ h.ask.ck = a.ck)) →
      (s.slice sk).holds.length < 32 → (s.slice sk).groupQueue = [] → exec (.groupAsk sk 0) s =
        .next (((s.modSlice sk fun l => { l with asks := rest }).modSlice sk fun l =>
          { l with holds := l.holds ++ [⟨a, (1 : Word) <<< a.member, a.timer, none⟩] }).groupTest sk a.key.desc)) ∧
    (∀ a rest, (s.slice sk).groupQueue = a :: rest → (∀ h ∈ (s.slice sk).holds, ¬ (h.ask.key = a.key ∧ h.ask.ck = a.ck)) →
      (s.slice sk).holds.length < 32 → exec (.groupQueueAdmit sk) s =
        .next (((s.modSlice sk fun l => { l with groupQueue := rest }).modSlice sk fun l =>
          { l with holds := l.holds ++ [⟨a, (1 : Word) <<< a.member, a.timer, none⟩] }).groupTest sk a.key.desc)) ∧
    (∀ h, (s.slice sk).holds[k]? = some h → h.cause.isSome = true ∨ h.timer = 0 → (s.colour h.ask.colour).poisoned = false →
      (s.colour h.ask.colour).state = .live → (s.slice sk).waits h.ask.pa = false →
      ∃ t : State, exec (.groupTimerExpiry sk k) s = .next t ∧ h ∉ (t.slice sk).holds) ∧
    (∀ f, (s.cluster ck).fills[k]? = some f → s.lockedAnywhere f.key.desc = false →
      ∃ t : State, exec (.groupFill ck k) s = .next t ∧ (t.cluster ck).fills = (s.cluster ck).fills.eraseIdx k) ∧
    (∀ r x, Claims.NextAt s k r → (s.slice r.sk).waits r.pa = false → (s.slice r.sk).line? r.pa = some x → x.key = r.key →
      ∃ t : State, exec (if r.kind = .read then .sliceRead k else .sliceWrite k) s = .next t ∧ t.requests = s.requests.eraseIdx k ∧
        ∃ y, (t.slice r.sk).line? r.pa = some y ∧ y.key = r.key) ∧
    (∀ r, (s.slice sk).conflicts[k]? = some r → (s.slice sk).locked r.pa = false → (∀ x ∈ (s.slice sk).conflicts.take k, x.pa / 256 ≠ r.pa / 256) →
      exec (.conflictQueueLock sk k) s = .next ((s.modSlice sk fun l => { l with conflicts := l.conflicts.eraseIdx k }).startRequest r)) ∧
    (∀ m, (s.slice sk).misses[k]? = some m → m.data = none → m.asked = true → (∀ w ∈ (s.slice sk).writeBacks, w.pa ≠ m.request.pa / 256 * 256) →
      ∃ (t : State) (n : Miss), exec (.rdline sk k) s = .next t ∧ (t.slice sk).misses[k]? = some n ∧ n.data.isSome = true) ∧
    (∀ w, (s.slice sk).writeBacks[k]? = some w → w.asked = true → (∀ x ∈ (s.slice sk).writeBacks.take k, x.pa ≠ w.pa) →
      ∃ t : State, exec (if w.units = 0xF then .wrline sk k else .wrmask sk k) s = .next t ∧
        (t.slice sk).writeBacks = (s.slice sk).writeBacks.eraseIdx k) ∧
    (∀ m d, (s.slice sk).misses[k]? = some m → m.data = some d → m.back = true →
      ∃ t : State, exec (.lineFill sk k) s = .next t ∧ (t.slice sk).misses = (s.slice sk).misses.eraseIdx k) ∧
    (∀ tk, ∃ t : State, exec (.ptsAdvance (.tile tk)) s = .next t ∧ (t.tile tk).pts = (s.tile tk).pts + 1)

/-- `Claims.CoreInstructionsComplete`, `Claims.SchedulerStepsComplete` and `Claims.MemoryStepsComplete` together. -/
def Obligations.InstructionsAndStepsComplete : Prop :=
  Claims.CoreInstructionsComplete ∧ Claims.SchedulerStepsComplete ∧ Claims.MemoryStepsComplete

/-- The acting tile has an outstanding access of the firing's operator at address `va`, with the result tag `t`. -/
def Sys2Proof.Claims.Issued (s w : State) (opc : Nat) (f : OpFields) (t : Tag) (va : Nat) : Prop :=
  ∃ x ∈ (w.tile s.actor.tk).accesses, x.opc = opc ∧ x.fields = f ∧ x.out = t ∧ x.addr = va
/-- The step `i` starts such an access, at a scratchpad bank or by its translation (R233). -/
def Sys2Proof.Claims.Starts (i : Instr) (s : State) (opc : Nat) (f : OpFields) (t : Tag) (va : Nat) : Prop :=
  ∃ (v : State) (x : Access), exec i s = .next (v.startAccess s.actor.tk x) ∧ x ∈ (v.tile s.actor.tk).accesses ∧ x.opc = opc ∧ x.fields = f ∧
    x.out = t ∧ x.addr = va

/-- The memory operators complete, where a firing of data has a result tag: the address operators (R233 to R241) at an aligned address of the scratchpad window, or of a page that the tile's TLB maps for the access; `ldg` (R242) on lines that keep its rules; the handle operators (R243 to R246) on a live object that holds the bytes, `ldw.v` and `hup` on a gone one too; `fence.s` (R247) always. Each leaves an outstanding access with
that tag. -/
def Sys2Proof.Claims.MemoryOperatorsComplete : Prop :=
  ∀ (s u : State) (f : OpFields) (m : Match) (t : Tag) (h : Handle) (w : World) (off : Int) (va : Nat),
    h = Handle.ofNat (m.value .l % 2 ^ 64).toNat → w = (s.colour m.tag.colour).world →
    (∀ e ∈ Claims.addressOps, m.value .l + f.imm.toInt = va → va < 2 ^ 47 →
      va % (if e.2 = 0x142 ∨ e.2 = 0x146 then 1 else if e.2 = 0x143 ∨ e.2 = 0x147 then 2
        else if e.2 = 0x144 ∨ e.2 = 0x148 then 4 else if e.2 = 0x145 ∨ e.2 = 0x149 then 8 else 64) = 0 →
      Claims.Accesses s e.2 f m → Claims.Ready s e.2 f m u t →
      windowBase ≤ va ∨ (¬ (0x150 ≤ e.2 ∧ e.2 ≤ 0x152) ∧ s.needsWalk (s.site e.2 f) m = false ∧
        ∃ x : Xlat, s.xlateTile s.actor.tk m.tag.colour va (memReads e.2) (memWrites e.2) = .ok x) →
      Claims.Starts (e.1 f) s e.2 f t va) ∧
    (∀ (d : Nat) (x : Xlat), m.value .l = va → d = s.groupAddr (s.site 0x158 f) → va < windowBase → va % 256 = 0 → d < windowBase → d % 256 = 0 →
      Claims.Accesses s 0x158 f m → s.needsWalk (s.site 0x158 f) m = false → s.xlateTile s.actor.tk m.tag.colour d true false = .ok x →
      Claims.Ready s 0x158 f m u t → ∃ v : State, exec (.ldg f) s = .next v ∧ Claims.Issued s v 0x158 f t va) ∧
    (∀ e ∈ [(Instr.ldhV f, 0x159, Port.r), (Instr.sthV f, 0x15A, Port.c), (Instr.ldwV f, 0x15B, Port.r)], ∀ o : ObjectEntry,
      off = (match m.payload? e.2.2 with | some p => p.value | none => 0) + f.imm.toInt → off % 64 = 0 → h.low = 0 →
      (e.2.1 ≠ 0x15B → h.strong = true) → s.liveObject w h = some o → 0 ≤ off → off + 64 ≤ 2 ^ 14 * o.size →
      Claims.Accesses s e.2.1 f m → Claims.Ready s e.2.1 f m u t → Claims.Starts e.1 s e.2.1 f t (o.base + off.toNat)) ∧
    (h.low = 0 → off = (match m.payload? .r with | some p => p.value | none => 0) + f.imm.toInt → off % 64 = 0 →
      s.liveObject w h = none → Claims.Accesses s 0x15B f m → Claims.Ready s 0x15B f m u t →
      ∃ v : State, exec (.ldwV f) s = .next v ∧ Claims.Issued s v 0x15B f t 0) ∧
    (h.low = 0 → Claims.Accesses s 0x168 f m → Claims.Ready s 0x168 f m u t →
      (∀ o, h.strong = false → s.liveObject w h = some o → o.strong ≠ 65535) →
      ∃ v : State, exec (.hup f) s = .next v ∧ Claims.Issued s v 0x168 f t 0) ∧
    (∀ o, h.low = 0 → Claims.Accesses s 0x169 f m → Claims.Ready s 0x169 f m u t → s.liveObject w h = some o →
      (if h.strong then o.strong else o.weak) ≠ 0 → ∃ v : State, exec (.hrel f) s = .next v ∧ Claims.Issued s v 0x169 f t 0) ∧
    (∀ v, Claims.Accesses s 0x170 f m → (Claims.taken s 0x170 f m).lValue m = (u, v) → t = (u.tagOp (s.site 0x170 f).ck f.tagop m.tag v).getD m.tag →
      ∃ v : State, exec (.fenceS f) s = .next v ∧ Claims.Issued s v 0x170 f t 0)

/-- The cell array of the acting tile is busy until the given number of cycles is over. -/
def Sys2Proof.Claims.Busy (s w : State) (n : Nat) : Prop :=
  ∃ a : ArrayFiring, (w.tile s.actor.tk).array = some a ∧ a.lastBusy = s.cycles + n - 1

/-- The operators of the cell array, of attention and of KV state complete, where a firing of data has a result tag: `mma` (R256 to R258) with sources and extents that keep their rules, `scalc`, `accz`, `accwr`, `accrd` and `xsort` (R259 to R261), `ascan` (R268)
with a configuration, control payload and descriptor that keep theirs; `ared` (R269) sends the merged triple and `anorm` (R270) its quotients, one level deeper; `kvapp` (R265) to a position that the tile owns, `kvseq` (R266) where its step has a result, and `kvtrim` (R267) with a control payload of its
form. ARRAY_FIRING_END (R253) frees the array. -/
def Sys2Proof.Claims.ArrayOperatorsComplete : Prop :=
  ∀ (s u : State) (f : OpFields) (m : Match) (t : Tag) (tk : Nat) (g : KvCfg) (w : Nat), tk = s.actor.tk → g = (s.tile tk).kvCfg f →
    w = (m.value .l % 2 ^ 64).toNat →
    (∀ e ∈ Claims.mmas, ∀ q a b, q = s.site e.2 f → Claims.Ready s e.2 f m u t →
      s.sourceOf q m.tag.colour (OpTable.immField f 17 16) (OpTable.immField f 15 12) = .ok a →
      s.sourceOf q m.tag.colour (OpTable.immField f 11 10) (OpTable.immField f 9 6) = .ok b →
      (a.bind fun r => s.extentFault q m.tag.colour r (rowBytes (mmaFormat e.2 true)) (OpTable.immField f 27 24 + 1)) = none →
      (b.bind fun r => s.extentFault q m.tag.colour r (rowBytes (mmaFormat e.2 false)) (OpTable.immField f 27 24 + 1)) = none →
      ∃ v : State, exec (e.1 f) s = .next v ∧
        Claims.Busy s v (if e.2 = 0x183 then 64 * (OpTable.immField f 27 24 + 1) else if e.2 = 0x185 then 16 else 32 * (OpTable.immField f 27 24 + 1))) ∧
    (∀ e ∈ [(Instr.scalc f, 0x188, 16), (.accz f, 0x189, 1), (.accwr f, 0x18B, 1), (.xsort f, 0x190, 10)], Claims.Ready s e.2.1 f m u t →
      ∃ v : State, exec e.1 s = .next v ∧ Claims.Busy s v e.2.2) ∧
    (OpTable.immField f 9 8 ≠ 2 → Claims.Ready s 0x18A f m u t → ∃ v : State, exec (.accrd f) s = .next v ∧ Claims.Busy s v 1) ∧
    (∀ h p at', OpTable.immField f 9 8 = 2 → p = (s.tile tk).regs.pair (OpTable.immField f 13 10) → s.bufferCheck (s.site 0x18A f) m.tag.colour p = .ok h →
      1024 ≤ ((s.tile tk).bufferEntry h).1 → at' = (s.tile tk).entryAt h ((s.tile tk).word32 h) → at' + 1024 ≤ 4096 * (s.tile tk).spk.toNat →
      Claims.Ready s 0x18A f m u t → ∃ v : State, exec (.accrd f) s = .next v ∧ Claims.Busy s v 16) ∧
    (∀ c d k slots, c = m.wide .c → g.ok = true → scanOk c = true → s.kvCheck tk m.tag.colour g (scanSeq c) = .ok () → d = g.desc (scanSeq c) →
      k = (s.tile tk).kvSeq d → slots = (visible g k c).map (fun p => p / g.tiles) →
      (∀ n ∈ slots, n < k.cap ∧ k.slot n + 256 ≤ 4096 * (s.tile tk).spk.toNat) → Claims.Ready s 0x198 f m u t →
      ∃ v : State, exec (.ascan f) s = .next v ∧ Claims.Busy s v (4 + 8 * ((slots.length + 15) / 16))) ∧
    (Claims.Ready s 0x199 f m u t → exec (.ared f) s = .next (u.output (s.site 0x199 f) m ((s.site 0x199 f).groups
      ((Triple.ofOps (m.every .l)).merge (Triple.ofOps (m.every .r))).group fun _ => t) (m.at? .l))) ∧
    (∀ v (tags : Nat → Tag), Claims.Fires s 0x19A f m → m.eos = false → (Claims.taken s 0x19A f m).lValue m = (u, v) →
      (∀ (c : Nat) x, c < 8 → m.tag.push (s.levelsOf (s.site 0x19A f).ck m.tag.ctx.toNat) c = some x →
        u.tagOp (s.site 0x19A f).ck f.tagop x v = some (tags c)) →
      m.tag.level.toNat < (s.levelsOf (s.site 0x19A f).ck m.tag.ctx.toNat).length - 1 →
      ∃ rs : List Result, exec (.anorm f) s = .next (u.output (s.site 0x19A f) m rs (m.at? .l)) ∧ rs.length = 8 * (OpTable.dests f).length) ∧
    (∀ k n, s.kvCheck tk m.tag.colour g (kvSeq 0x1A0 (m.value .l)) = .ok () → k = (s.tile tk).kvSeq (g.desc (w / 2 ^ 26 % 64)) →
      n = w % 2 ^ 24 / g.tiles → w % 2 ^ 24 % g.tiles = g.ridx → n < k.cap → k.slot n + 256 ≤ 4096 * (s.tile tk).spk.toNat →
      Claims.Accesses s 0x1A0 f m → Claims.Ready s 0x1A0 f m u t → ∃ (v : State) (x : Access), exec (.kvapp f) s = .next v ∧
        x ∈ (v.tile tk).accesses ∧ x.opc = 0x1A0 ∧ x.out = t) ∧
    (∀ i ∈ [Instr.kvseqRead f, .kvseqOpen f, .kvseqAdvance f, .kvseqDraft f], ∀ r, s.kvCheck tk m.tag.colour g (kvSeq 0x1A1 (m.value .l)) = .ok () →
      kvSeqStep g (s.tile tk).spk.toNat w ((s.tile tk).kvSeq (g.desc (w / 2 ^ 56 % 64))) = .ok r →
      Claims.Accesses s 0x1A1 f m → Claims.Ready s 0x1A1 f m u t → ∃ (v : State) (x : Access), exec i s = .next v ∧
        x ∈ (v.tile tk).accesses ∧ x.opc = 0x1A1 ∧ x.out = t) ∧
    (s.kvCheck tk m.tag.colour g (kvSeq 0x1A2 (m.value .l)) = .ok () → w / 2 ^ 62 = 0 → w / 2 ^ 32 % 2 ^ 22 = 0 → w / 2 ^ 54 % 2 = 1 ∨ w % 2 ^ 32 = 0 →
      Claims.Accesses s 0x1A2 f m → Claims.Ready s 0x1A2 f m u t → ∃ (v : State) (x : Access), exec (.kvtrim f) s = .next v ∧
        x ∈ (v.tile tk).accesses ∧ x.opc = 0x1A2 ∧ x.out = t) ∧
    (∀ n (a : ArrayFiring), (s.tile n).array = some a → (s.tile n).trail = [] → a.lastBusy < s.cycles →
      ∃ v : State, exec (.arrayFiringEnd n) s = .next v ∧ (v.tile n).array = none)

/-- `Claims.MemoryOperatorsComplete` and `Claims.ArrayOperatorsComplete` together. -/
def Obligations.MemoryAndArrayOperatorsComplete : Prop :=
  Claims.MemoryOperatorsComplete ∧ Claims.ArrayOperatorsComplete
end

