-- ==== Sys2Proof/Laws/Memory.lean ====
section
/-!
SUPPORT. The laws of sparse tables and of byte memories: reading after writing, and that every memory operation keeps
the canonical form.
-/
namespace Sys2Proof.Machine

/-! Sparse tables -/

theorem Map.get?_put_self {α : Type} (m : Map α) (n : Nat) (x : α) : Map.get? (Map.put m n x) n = some x := by
  induction m with
  | nil => simp [Map.put, Map.get?]
  | cons h r ih =>
    obtain ⟨k, v⟩ := h
    simp only [Map.put]
    split
    · simp [Map.get?]
    · split
      · simp [Map.get?]
      · rename_i h1 h2
        simp only [Map.get?, if_neg (fun e : k = n => h2 e.symm), ih]

theorem Map.get?_put_other {α : Type} (m : Map α) {n k : Nat} (x : α) (h : k ≠ n) :
    Map.get? (Map.put m n x) k = Map.get? m k := by
  induction m with
  | nil => simp [Map.put, Map.get?, Ne.symm h]
  | cons e r ih =>
    obtain ⟨j, v⟩ := e
    simp only [Map.put]
    split
    · simp [Map.get?, Ne.symm h]
    · split
      · rename_i h2
        simp [Map.get?, Ne.symm h, h2 ▸ Ne.symm h]
      · simp only [Map.get?, ih]

@[simp] theorem Map.get_put_self {α : Type} (m : Map α) (n : Nat) (x d : α) : Map.get (Map.put m n x) n d = x := by
  simp [Map.get, Map.get?_put_self]
theorem Map.get_put_other {α : Type} (m : Map α) {n k : Nat} (x d : α) (h : k ≠ n) :
    Map.get (Map.put m n x) k d = Map.get m k d := by
  simp [Map.get, Map.get?_put_other m x h]
@[simp] theorem Map.get_nil {α : Type} (n : Nat) (d : α) : Map.get ([] : Map α) n d = d := rfl

/-! Byte memories -/

theorem Memory.wfFrom_mono {m : Memory} {a b : Nat} (h : Memory.wfFrom a m = true) (hb : b ≤ a) :
    Memory.wfFrom b m = true := by
  cases m with
  | nil => rfl
  | cons e r =>
    obtain ⟨k, v⟩ := e
    simp only [Memory.wfFrom, Bool.and_eq_true, decide_eq_true_eq] at h ⊢
    exact ⟨⟨by omega, h.1.2⟩, h.2⟩

theorem Memory.wfFrom_write {m : Memory} {n a : Nat} (b : Byte) (h : Memory.wfFrom n m = true) (ha : n ≤ a) :
    Memory.wfFrom n (Memory.write m a b) = true := by
  induction m generalizing n with
  | nil =>
    simp only [Memory.write]
    split
    · rfl
    · simp_all [Memory.wfFrom]
  | cons e r ih =>
    obtain ⟨k, v⟩ := e
    simp only [Memory.wfFrom, Bool.and_eq_true, decide_eq_true_eq] at h
    obtain ⟨⟨hk, hv⟩, hr⟩ := h
    simp only [Memory.write]
    split
    · split
      · simp_all [Memory.wfFrom]
      · rename_i h1 h2
        simp only [Memory.wfFrom, Bool.and_eq_true, decide_eq_true_eq]
        exact ⟨⟨ha, by simpa using h2⟩, ⟨by omega, hv⟩, hr⟩
    · split
      · split
        · exact Memory.wfFrom_mono hr (by omega)
        · rename_i h1 h2 h3
          simp_all [Memory.wfFrom]
      · simp only [Memory.wfFrom, Bool.and_eq_true, decide_eq_true_eq]
        exact ⟨⟨hk, hv⟩, ih hr (by omega)⟩

/-- Writing a byte keeps the canonical form. -/
theorem Memory.wf_write {m : Memory} (a : Nat) (b : Byte) (h : m.wf = true) : (Memory.write m a b).wf = true :=
  Memory.wfFrom_write b h (Nat.zero_le _)
/-- Writing bytes keeps the canonical form. -/
theorem Memory.wf_writeBytes {m : Memory} (a : Nat) (bs : List Byte) (h : m.wf = true) :
    (Memory.writeBytes m a bs).wf = true := by
  induction bs generalizing m a with
  | nil => exact h
  | cons b r ih => exact ih (a + 1) (Memory.wf_write a b h)
/-- Writing pairs keeps the canonical form. -/
theorem Memory.wf_writePairs {m : Memory} (a : Nat) (ps : List (Nat × Byte)) (h : m.wf = true) :
    (Memory.writePairs m a ps).wf = true := by
  induction ps generalizing m with
  | nil => exact h
  | cons p r ih => exact ih (Memory.wf_write _ _ h)
theorem Memory.wfFrom_filter {m : Memory} {n : Nat} (p : Host.Cell → Bool) (h : Memory.wfFrom n m = true) :
    Memory.wfFrom n (m.filter p) = true := by
  induction m generalizing n with
  | nil => rfl
  | cons e r ih =>
    obtain ⟨k, v⟩ := e
    simp only [Memory.wfFrom, Bool.and_eq_true, decide_eq_true_eq] at h
    simp only [List.filter_cons]
    split
    · simp only [Memory.wfFrom, Bool.and_eq_true, decide_eq_true_eq]
      exact ⟨h.1, ih h.2⟩
    · exact Memory.wfFrom_mono (ih h.2) (by omega)
/-- Removing entries keeps the canonical form. -/
theorem Memory.wf_filter {m : Memory} (p : Host.Cell → Bool) (h : m.wf = true) : Memory.wf (m.filter p) = true :=
  Memory.wfFrom_filter p h
theorem Memory.wf_nil : Memory.wf [] = true := rfl

theorem Memory.read_below {m : Memory} {n a : Nat} (h : Memory.wfFrom n m = true) (ha : a < n) :
    Memory.read m a = Memory.unlisted := by
  induction m generalizing n with
  | nil => rfl
  | cons e r ih =>
    obtain ⟨k, v⟩ := e
    simp only [Memory.wfFrom, Bool.and_eq_true, decide_eq_true_eq] at h
    simp only [Memory.read, if_neg (show ¬k = a by omega)]
    exact ih h.2 (by omega)

theorem Memory.read_write_from {m : Memory} {n : Nat} (h : Memory.wfFrom n m = true) (a : Nat) (b : Byte) (c : Nat) :
    Memory.read (Memory.write m a b) c = if c = a then b else Memory.read m c := by
  induction m generalizing n with
  | nil =>
    simp only [Memory.write]
    by_cases hb : b = Memory.unlisted
    · rw [if_pos hb, hb]; simp [Memory.read]
    · rw [if_neg hb]; simp only [Memory.read]; by_cases hc : a = c
      · simp [hc]
      · simp [hc, Ne.symm hc]
  | cons e r ih =>
    obtain ⟨k, v⟩ := e
    simp only [Memory.wfFrom, Bool.and_eq_true, decide_eq_true_eq] at h
    simp only [Memory.write]
    split
    · rename_i hlt
      split
      · rename_i hb
        split
        · rename_i hc
          subst hc hb
          simp only [Memory.read, if_neg (show ¬k = c by omega)]
          exact Memory.read_below h.2 (by omega)
        · rfl
      · simp only [Memory.read, eq_comm (a := a) (b := c)]
    · split
      · rename_i hle heq
        subst heq
        split
        · rename_i hb
          subst hb
          split
          · rename_i hc
            subst hc
            exact Memory.read_below h.2 (by omega)
          · rename_i hc
            simp only [Memory.read, if_neg (fun x : a = c => hc x.symm)]
        · simp only [Memory.read, eq_comm (a := a) (b := c)]
          split <;> simp_all
      · rename_i hle hne
        simp only [Memory.read, ih h.2]
        by_cases hk : k = c
        · subst hk; simp [Ne.symm hne]
        · simp [hk]

/-- Reading after writing one byte of a canonical memory. -/
theorem Memory.read_write {m : Memory} (h : m.wf = true) (a : Nat) (b : Byte) (c : Nat) :
    Memory.read (Memory.write m a b) c = if c = a then b else Memory.read m c :=
  Memory.read_write_from h a b c

/-- Outside the bytes written, a memory reads as before. -/
theorem Memory.read_writeBytes_outside {m : Memory} (h : m.wf = true) (a : Nat) (bs : List Byte) (c : Nat)
    (hc : c < a ∨ a + bs.length ≤ c) : Memory.read (Memory.writeBytes m a bs) c = Memory.read m c := by
  induction bs generalizing m a with
  | nil => rfl
  | cons b r ih =>
    simp only [List.length_cons] at hc
    simp only [Memory.writeBytes]
    rw [ih (Memory.wf_write a b h) (a + 1) (by omega), Memory.read_write h, if_neg (by omega)]

/-- Inside the bytes written, a memory reads the bytes. -/
theorem Memory.read_writeBytes_inside {m : Memory} (h : m.wf = true) (a : Nat) (bs : List Byte) (i : Nat)
    (hi : i < bs.length) : Memory.read (Memory.writeBytes m a bs) (a + i) = bs[i] := by
  induction bs generalizing m a i with
  | nil => simp at hi
  | cons b r ih =>
    simp only [Memory.writeBytes]
    cases i with
    | zero =>
      show Memory.read (Memory.writeBytes (Memory.write m a b) (a + 1) r) a = b
      rw [Memory.read_writeBytes_outside (Memory.wf_write a b h) (a + 1) r a (by omega), Memory.read_write h]
      simp
    | succ j =>
      have := ih (Memory.wf_write a b h) (a + 1) j (by simpa using hi)
      simpa [Nat.add_assoc, Nat.add_comm 1 j] using this

end Sys2Proof.Machine
end

