-- ==== Sys2Proof/Laws/State.lean ====
section
/-!
SUPPORT. One lemma per field and per update of the state: an update of one table leaves every other field as it
was. Generated from the list of fields; every proof is `rfl`.
-/
namespace Sys2Proof.Machine

/-! `modCluster` -/
@[simp] theorem State.modCluster_agenda (s : State) (ck : Nat) (g : Cluster → Cluster) : (s.modCluster ck g).agenda = s.agenda := rfl
@[simp] theorem State.modCluster_actor (s : State) (ck : Nat) (g : Cluster → Cluster) : (s.modCluster ck g).actor = s.actor := rfl
@[simp] theorem State.modCluster_free (s : State) (ck : Nat) (g : Cluster → Cluster) : (s.modCluster ck g).free = s.free := rfl
@[simp] theorem State.modCluster_seq (s : State) (ck : Nat) (g : Cluster → Cluster) : (s.modCluster ck g).seq = s.seq := rfl
@[simp] theorem State.modCluster_nextId (s : State) (ck : Nat) (g : Cluster → Cluster) : (s.modCluster ck g).nextId = s.nextId := rfl
@[simp] theorem State.modCluster_timebase (s : State) (ck : Nat) (g : Cluster → Cluster) : (s.modCluster ck g).timebase = s.timebase := rfl
@[simp] theorem State.modCluster_cycles (s : State) (ck : Nat) (g : Cluster → Cluster) : (s.modCluster ck g).cycles = s.cycles := rfl
@[simp] theorem State.modCluster_dram (s : State) (ck : Nat) (g : Cluster → Cluster) : (s.modCluster ck g).dram = s.dram := rfl
@[simp] theorem State.modCluster_dramKey (s : State) (ck : Nat) (g : Cluster → Cluster) : (s.modCluster ck g).dramKey = s.dramKey := rfl
@[simp] theorem State.modCluster_dramPoison (s : State) (ck : Nat) (g : Cluster → Cluster) : (s.modCluster ck g).dramPoison = s.dramPoison := rfl
@[simp] theorem State.modCluster_keySlots (s : State) (ck : Nat) (g : Cluster → Cluster) : (s.modCluster ck g).keySlots = s.keySlots := rfl
@[simp] theorem State.modCluster_keyFresh (s : State) (ck : Nat) (g : Cluster → Cluster) : (s.modCluster ck g).keyFresh = s.keyFresh := rfl
@[simp] theorem State.modCluster_colours (s : State) (ck : Nat) (g : Cluster → Cluster) : (s.modCluster ck g).colours = s.colours := rfl
@[simp] theorem State.modCluster_colourBase (s : State) (ck : Nat) (g : Cluster → Cluster) : (s.modCluster ck g).colourBase = s.colourBase := rfl
@[simp] theorem State.modCluster_ringBase (s : State) (ck : Nat) (g : Cluster → Cluster) : (s.modCluster ck g).ringBase = s.ringBase := rfl
@[simp] theorem State.modCluster_rings (s : State) (ck : Nat) (g : Cluster → Cluster) : (s.modCluster ck g).rings = s.rings := rfl
@[simp] theorem State.modCluster_records (s : State) (ck : Nat) (g : Cluster → Cluster) : (s.modCluster ck g).records = s.records := rfl
@[simp] theorem State.modCluster_joins (s : State) (ck : Nat) (g : Cluster → Cluster) : (s.modCluster ck g).joins = s.joins := rfl
@[simp] theorem State.modCluster_tiles (s : State) (ck : Nat) (g : Cluster → Cluster) : (s.modCluster ck g).tiles = s.tiles := rfl
@[simp] theorem State.modCluster_slices (s : State) (ck : Nat) (g : Cluster → Cluster) : (s.modCluster ck g).slices = s.slices := rfl
@[simp] theorem State.modCluster_stations (s : State) (ck : Nat) (g : Cluster → Cluster) : (s.modCluster ck g).stations = s.stations := rfl
@[simp] theorem State.modCluster_dies (s : State) (ck : Nat) (g : Cluster → Cluster) : (s.modCluster ck g).dies = s.dies := rfl
@[simp] theorem State.modCluster_requests (s : State) (ck : Nat) (g : Cluster → Cluster) : (s.modCluster ck g).requests = s.requests := rfl
@[simp] theorem State.modCluster_net (s : State) (ck : Nat) (g : Cluster → Cluster) : (s.modCluster ck g).net = s.net := rfl
@[simp] theorem State.modCluster_served (s : State) (ck : Nat) (g : Cluster → Cluster) : (s.modCluster ck g).served = s.served := rfl
@[simp] theorem State.modCluster_releases (s : State) (ck : Nat) (g : Cluster → Cluster) : (s.modCluster ck g).releases = s.releases := rfl
@[simp] theorem State.modCluster_faultTokens (s : State) (ck : Nat) (g : Cluster → Cluster) : (s.modCluster ck g).faultTokens = s.faultTokens := rfl
@[simp] theorem State.modCluster_prefetches (s : State) (ck : Nat) (g : Cluster → Cluster) : (s.modCluster ck g).prefetches = s.prefetches := rfl
@[simp] theorem State.modCluster_bootStage (s : State) (ck : Nat) (g : Cluster → Cluster) : (s.modCluster ck g).bootStage = s.bootStage := rfl
@[simp] theorem State.modCluster_bootErr (s : State) (ck : Nat) (g : Cluster → Cluster) : (s.modCluster ck g).bootErr = s.bootErr := rfl
@[simp] theorem State.modCluster_stkfail (s : State) (ck : Nat) (g : Cluster → Cluster) : (s.modCluster ck g).stkfail = s.stkfail := rfl
@[simp] theorem State.modCluster_linksDown (s : State) (ck : Nat) (g : Cluster → Cluster) : (s.modCluster ck g).linksDown = s.linksDown := rfl
@[simp] theorem State.modCluster_linkSecret (s : State) (ck : Nat) (g : Cluster → Cluster) : (s.modCluster ck g).linkSecret = s.linkSecret := rfl
@[simp] theorem State.modCluster_hrefuseV (s : State) (ck : Nat) (g : Cluster → Cluster) : (s.modCluster ck g).hrefuseV = s.hrefuseV := rfl
@[simp] theorem State.modCluster_hrefusePa (s : State) (ck : Nat) (g : Cluster → Cluster) : (s.modCluster ck g).hrefusePa = s.hrefusePa := rfl
@[simp] theorem State.modCluster_hcxl (s : State) (ck : Nat) (g : Cluster → Cluster) : (s.modCluster ck g).hcxl = s.hcxl := rfl
@[simp] theorem State.modCluster_wxbase (s : State) (ck : Nat) (g : Cluster → Cluster) : (s.modCluster ck g).wxbase = s.wxbase := rfl
@[simp] theorem State.modCluster_hwcol (s : State) (ck : Nat) (g : Cluster → Cluster) : (s.modCluster ck g).hwcol = s.hwcol := rfl
@[simp] theorem State.modCluster_ethUp (s : State) (ck : Nat) (g : Cluster → Cluster) : (s.modCluster ck g).ethUp = s.ethUp := rfl
@[simp] theorem State.modCluster_pwrcap (s : State) (ck : Nat) (g : Cluster → Cluster) : (s.modCluster ck g).pwrcap = s.pwrcap := rfl
@[simp] theorem State.modCluster_throttled (s : State) (ck : Nat) (g : Cluster → Cluster) : (s.modCluster ck g).throttled = s.throttled := rfl
@[simp] theorem State.modCluster_thermtrip (s : State) (ck : Nat) (g : Cluster → Cluster) : (s.modCluster ck g).thermtrip = s.thermtrip := rfl
@[simp] theorem State.modCluster_worldPages (s : State) (ck : Nat) (g : Cluster → Cluster) : (s.modCluster ck g).worldPages = s.worldPages := rfl
@[simp] theorem State.modCluster_numVfs (s : State) (ck : Nat) (g : Cluster → Cluster) : (s.modCluster ck g).numVfs = s.numVfs := rfl
@[simp] theorem State.modCluster_vfEnable (s : State) (ck : Nat) (g : Cluster → Cluster) : (s.modCluster ck g).vfEnable = s.vfEnable := rfl
@[simp] theorem State.modCluster_vfHeld (s : State) (ck : Nat) (g : Cluster → Cluster) : (s.modCluster ck g).vfHeld = s.vfHeld := rfl
@[simp] theorem State.modCluster_removals (s : State) (ck : Nat) (g : Cluster → Cluster) : (s.modCluster ck g).removals = s.removals := rfl
@[simp] theorem State.modCluster_functions (s : State) (ck : Nat) (g : Cluster → Cluster) : (s.modCluster ck g).functions = s.functions := rfl
@[simp] theorem State.modCluster_measures (s : State) (ck : Nat) (g : Cluster → Cluster) : (s.modCluster ck g).measures = s.measures := rfl
@[simp] theorem State.modCluster_ideKeys (s : State) (ck : Nat) (g : Cluster → Cluster) : (s.modCluster ck g).ideKeys = s.ideKeys := rfl
@[simp] theorem State.modCluster_macsec (s : State) (ck : Nat) (g : Cluster → Cluster) : (s.modCluster ck g).macsec = s.macsec := rfl
@[simp] theorem State.modCluster_frames (s : State) (ck : Nat) (g : Cluster → Cluster) : (s.modCluster ck g).frames = s.frames := rfl
@[simp] theorem State.modCluster_replies (s : State) (ck : Nat) (g : Cluster → Cluster) : (s.modCluster ck g).replies = s.replies := rfl
@[simp] theorem State.modCluster_ceCounts (s : State) (ck : Nat) (g : Cluster → Cluster) : (s.modCluster ck g).ceCounts = s.ceCounts := rfl
@[simp] theorem State.modCluster_cePages (s : State) (ck : Nat) (g : Cluster → Cluster) : (s.modCluster ck g).cePages = s.cePages := rfl
@[simp] theorem State.modCluster_frozen (s : State) (ck : Nat) (g : Cluster → Cluster) : (s.modCluster ck g).frozen = s.frozen := rfl
@[simp] theorem State.modCluster_thawing (s : State) (ck : Nat) (g : Cluster → Cluster) : (s.modCluster ck g).thawing = s.thawing := rfl
@[simp] theorem State.modCluster_debugStops (s : State) (ck : Nat) (g : Cluster → Cluster) : (s.modCluster ck g).debugStops = s.debugStops := rfl
@[simp] theorem State.modCluster_snaps (s : State) (ck : Nat) (g : Cluster → Cluster) : (s.modCluster ck g).snaps = s.snaps := rfl
@[simp] theorem State.modCluster_tile (s : State) (ck : Nat) (g : Cluster → Cluster) (z : Nat) : (s.modCluster ck g).tile z = s.tile z := rfl
@[simp] theorem State.modCluster_slice (s : State) (ck : Nat) (g : Cluster → Cluster) (z : Nat) : (s.modCluster ck g).slice z = s.slice z := rfl
@[simp] theorem State.modCluster_station (s : State) (ck : Nat) (g : Cluster → Cluster) (z : Nat) : (s.modCluster ck g).station z = s.station z := rfl
@[simp] theorem State.modCluster_die (s : State) (ck : Nat) (g : Cluster → Cluster) (z : Nat) : (s.modCluster ck g).die z = s.die z := rfl
@[simp] theorem State.modCluster_colour (s : State) (ck : Nat) (g : Cluster → Cluster) (z : Colour) : (s.modCluster ck g).colour z = s.colour z := rfl
@[simp] theorem State.modCluster_function (s : State) (ck : Nat) (g : Cluster → Cluster) (z : Nat) : (s.modCluster ck g).function z = s.function z := rfl
@[simp] theorem State.modCluster_worldPage (s : State) (ck : Nat) (g : Cluster → Cluster) (z : Nat) : (s.modCluster ck g).worldPage z = s.worldPage z := rfl

/-! `modTile` -/
@[simp] theorem State.modTile_agenda (s : State) (tk : Nat) (g : Tile → Tile) : (s.modTile tk g).agenda = s.agenda := rfl
@[simp] theorem State.modTile_actor (s : State) (tk : Nat) (g : Tile → Tile) : (s.modTile tk g).actor = s.actor := rfl
@[simp] theorem State.modTile_free (s : State) (tk : Nat) (g : Tile → Tile) : (s.modTile tk g).free = s.free := rfl
@[simp] theorem State.modTile_seq (s : State) (tk : Nat) (g : Tile → Tile) : (s.modTile tk g).seq = s.seq := rfl
@[simp] theorem State.modTile_nextId (s : State) (tk : Nat) (g : Tile → Tile) : (s.modTile tk g).nextId = s.nextId := rfl
@[simp] theorem State.modTile_timebase (s : State) (tk : Nat) (g : Tile → Tile) : (s.modTile tk g).timebase = s.timebase := rfl
@[simp] theorem State.modTile_cycles (s : State) (tk : Nat) (g : Tile → Tile) : (s.modTile tk g).cycles = s.cycles := rfl
@[simp] theorem State.modTile_dram (s : State) (tk : Nat) (g : Tile → Tile) : (s.modTile tk g).dram = s.dram := rfl
@[simp] theorem State.modTile_dramKey (s : State) (tk : Nat) (g : Tile → Tile) : (s.modTile tk g).dramKey = s.dramKey := rfl
@[simp] theorem State.modTile_dramPoison (s : State) (tk : Nat) (g : Tile → Tile) : (s.modTile tk g).dramPoison = s.dramPoison := rfl
@[simp] theorem State.modTile_keySlots (s : State) (tk : Nat) (g : Tile → Tile) : (s.modTile tk g).keySlots = s.keySlots := rfl
@[simp] theorem State.modTile_keyFresh (s : State) (tk : Nat) (g : Tile → Tile) : (s.modTile tk g).keyFresh = s.keyFresh := rfl
@[simp] theorem State.modTile_colours (s : State) (tk : Nat) (g : Tile → Tile) : (s.modTile tk g).colours = s.colours := rfl
@[simp] theorem State.modTile_colourBase (s : State) (tk : Nat) (g : Tile → Tile) : (s.modTile tk g).colourBase = s.colourBase := rfl
@[simp] theorem State.modTile_ringBase (s : State) (tk : Nat) (g : Tile → Tile) : (s.modTile tk g).ringBase = s.ringBase := rfl
@[simp] theorem State.modTile_rings (s : State) (tk : Nat) (g : Tile → Tile) : (s.modTile tk g).rings = s.rings := rfl
@[simp] theorem State.modTile_records (s : State) (tk : Nat) (g : Tile → Tile) : (s.modTile tk g).records = s.records := rfl
@[simp] theorem State.modTile_joins (s : State) (tk : Nat) (g : Tile → Tile) : (s.modTile tk g).joins = s.joins := rfl
@[simp] theorem State.modTile_clusters (s : State) (tk : Nat) (g : Tile → Tile) : (s.modTile tk g).clusters = s.clusters := rfl
@[simp] theorem State.modTile_slices (s : State) (tk : Nat) (g : Tile → Tile) : (s.modTile tk g).slices = s.slices := rfl
@[simp] theorem State.modTile_stations (s : State) (tk : Nat) (g : Tile → Tile) : (s.modTile tk g).stations = s.stations := rfl
@[simp] theorem State.modTile_dies (s : State) (tk : Nat) (g : Tile → Tile) : (s.modTile tk g).dies = s.dies := rfl
@[simp] theorem State.modTile_requests (s : State) (tk : Nat) (g : Tile → Tile) : (s.modTile tk g).requests = s.requests := rfl
@[simp] theorem State.modTile_net (s : State) (tk : Nat) (g : Tile → Tile) : (s.modTile tk g).net = s.net := rfl
@[simp] theorem State.modTile_served (s : State) (tk : Nat) (g : Tile → Tile) : (s.modTile tk g).served = s.served := rfl
@[simp] theorem State.modTile_releases (s : State) (tk : Nat) (g : Tile → Tile) : (s.modTile tk g).releases = s.releases := rfl
@[simp] theorem State.modTile_faultTokens (s : State) (tk : Nat) (g : Tile → Tile) : (s.modTile tk g).faultTokens = s.faultTokens := rfl
@[simp] theorem State.modTile_prefetches (s : State) (tk : Nat) (g : Tile → Tile) : (s.modTile tk g).prefetches = s.prefetches := rfl
@[simp] theorem State.modTile_bootStage (s : State) (tk : Nat) (g : Tile → Tile) : (s.modTile tk g).bootStage = s.bootStage := rfl
@[simp] theorem State.modTile_bootErr (s : State) (tk : Nat) (g : Tile → Tile) : (s.modTile tk g).bootErr = s.bootErr := rfl
@[simp] theorem State.modTile_stkfail (s : State) (tk : Nat) (g : Tile → Tile) : (s.modTile tk g).stkfail = s.stkfail := rfl
@[simp] theorem State.modTile_linksDown (s : State) (tk : Nat) (g : Tile → Tile) : (s.modTile tk g).linksDown = s.linksDown := rfl
@[simp] theorem State.modTile_linkSecret (s : State) (tk : Nat) (g : Tile → Tile) : (s.modTile tk g).linkSecret = s.linkSecret := rfl
@[simp] theorem State.modTile_hrefuseV (s : State) (tk : Nat) (g : Tile → Tile) : (s.modTile tk g).hrefuseV = s.hrefuseV := rfl
@[simp] theorem State.modTile_hrefusePa (s : State) (tk : Nat) (g : Tile → Tile) : (s.modTile tk g).hrefusePa = s.hrefusePa := rfl
@[simp] theorem State.modTile_hcxl (s : State) (tk : Nat) (g : Tile → Tile) : (s.modTile tk g).hcxl = s.hcxl := rfl
@[simp] theorem State.modTile_wxbase (s : State) (tk : Nat) (g : Tile → Tile) : (s.modTile tk g).wxbase = s.wxbase := rfl
@[simp] theorem State.modTile_hwcol (s : State) (tk : Nat) (g : Tile → Tile) : (s.modTile tk g).hwcol = s.hwcol := rfl
@[simp] theorem State.modTile_ethUp (s : State) (tk : Nat) (g : Tile → Tile) : (s.modTile tk g).ethUp = s.ethUp := rfl
@[simp] theorem State.modTile_pwrcap (s : State) (tk : Nat) (g : Tile → Tile) : (s.modTile tk g).pwrcap = s.pwrcap := rfl
@[simp] theorem State.modTile_throttled (s : State) (tk : Nat) (g : Tile → Tile) : (s.modTile tk g).throttled = s.throttled := rfl
@[simp] theorem State.modTile_thermtrip (s : State) (tk : Nat) (g : Tile → Tile) : (s.modTile tk g).thermtrip = s.thermtrip := rfl
@[simp] theorem State.modTile_worldPages (s : State) (tk : Nat) (g : Tile → Tile) : (s.modTile tk g).worldPages = s.worldPages := rfl
@[simp] theorem State.modTile_numVfs (s : State) (tk : Nat) (g : Tile → Tile) : (s.modTile tk g).numVfs = s.numVfs := rfl
@[simp] theorem State.modTile_vfEnable (s : State) (tk : Nat) (g : Tile → Tile) : (s.modTile tk g).vfEnable = s.vfEnable := rfl
@[simp] theorem State.modTile_vfHeld (s : State) (tk : Nat) (g : Tile → Tile) : (s.modTile tk g).vfHeld = s.vfHeld := rfl
@[simp] theorem State.modTile_removals (s : State) (tk : Nat) (g : Tile → Tile) : (s.modTile tk g).removals = s.removals := rfl
@[simp] theorem State.modTile_functions (s : State) (tk : Nat) (g : Tile → Tile) : (s.modTile tk g).functions = s.functions := rfl
@[simp] theorem State.modTile_measures (s : State) (tk : Nat) (g : Tile → Tile) : (s.modTile tk g).measures = s.measures := rfl
@[simp] theorem State.modTile_ideKeys (s : State) (tk : Nat) (g : Tile → Tile) : (s.modTile tk g).ideKeys = s.ideKeys := rfl
@[simp] theorem State.modTile_macsec (s : State) (tk : Nat) (g : Tile → Tile) : (s.modTile tk g).macsec = s.macsec := rfl
@[simp] theorem State.modTile_frames (s : State) (tk : Nat) (g : Tile → Tile) : (s.modTile tk g).frames = s.frames := rfl
@[simp] theorem State.modTile_replies (s : State) (tk : Nat) (g : Tile → Tile) : (s.modTile tk g).replies = s.replies := rfl
@[simp] theorem State.modTile_ceCounts (s : State) (tk : Nat) (g : Tile → Tile) : (s.modTile tk g).ceCounts = s.ceCounts := rfl
@[simp] theorem State.modTile_cePages (s : State) (tk : Nat) (g : Tile → Tile) : (s.modTile tk g).cePages = s.cePages := rfl
@[simp] theorem State.modTile_frozen (s : State) (tk : Nat) (g : Tile → Tile) : (s.modTile tk g).frozen = s.frozen := rfl
@[simp] theorem State.modTile_thawing (s : State) (tk : Nat) (g : Tile → Tile) : (s.modTile tk g).thawing = s.thawing := rfl
@[simp] theorem State.modTile_debugStops (s : State) (tk : Nat) (g : Tile → Tile) : (s.modTile tk g).debugStops = s.debugStops := rfl
@[simp] theorem State.modTile_snaps (s : State) (tk : Nat) (g : Tile → Tile) : (s.modTile tk g).snaps = s.snaps := rfl
@[simp] theorem State.modTile_cluster (s : State) (tk : Nat) (g : Tile → Tile) (z : Nat) : (s.modTile tk g).cluster z = s.cluster z := rfl
@[simp] theorem State.modTile_slice (s : State) (tk : Nat) (g : Tile → Tile) (z : Nat) : (s.modTile tk g).slice z = s.slice z := rfl
@[simp] theorem State.modTile_station (s : State) (tk : Nat) (g : Tile → Tile) (z : Nat) : (s.modTile tk g).station z = s.station z := rfl
@[simp] theorem State.modTile_die (s : State) (tk : Nat) (g : Tile → Tile) (z : Nat) : (s.modTile tk g).die z = s.die z := rfl
@[simp] theorem State.modTile_colour (s : State) (tk : Nat) (g : Tile → Tile) (z : Colour) : (s.modTile tk g).colour z = s.colour z := rfl
@[simp] theorem State.modTile_function (s : State) (tk : Nat) (g : Tile → Tile) (z : Nat) : (s.modTile tk g).function z = s.function z := rfl
@[simp] theorem State.modTile_worldPage (s : State) (tk : Nat) (g : Tile → Tile) (z : Nat) : (s.modTile tk g).worldPage z = s.worldPage z := rfl

/-! `modSlice` -/
@[simp] theorem State.modSlice_agenda (s : State) (sk : Nat) (g : Slice → Slice) : (s.modSlice sk g).agenda = s.agenda := rfl
@[simp] theorem State.modSlice_actor (s : State) (sk : Nat) (g : Slice → Slice) : (s.modSlice sk g).actor = s.actor := rfl
@[simp] theorem State.modSlice_free (s : State) (sk : Nat) (g : Slice → Slice) : (s.modSlice sk g).free = s.free := rfl
@[simp] theorem State.modSlice_seq (s : State) (sk : Nat) (g : Slice → Slice) : (s.modSlice sk g).seq = s.seq := rfl
@[simp] theorem State.modSlice_nextId (s : State) (sk : Nat) (g : Slice → Slice) : (s.modSlice sk g).nextId = s.nextId := rfl
@[simp] theorem State.modSlice_timebase (s : State) (sk : Nat) (g : Slice → Slice) : (s.modSlice sk g).timebase = s.timebase := rfl
@[simp] theorem State.modSlice_cycles (s : State) (sk : Nat) (g : Slice → Slice) : (s.modSlice sk g).cycles = s.cycles := rfl
@[simp] theorem State.modSlice_dram (s : State) (sk : Nat) (g : Slice → Slice) : (s.modSlice sk g).dram = s.dram := rfl
@[simp] theorem State.modSlice_dramKey (s : State) (sk : Nat) (g : Slice → Slice) : (s.modSlice sk g).dramKey = s.dramKey := rfl
@[simp] theorem State.modSlice_dramPoison (s : State) (sk : Nat) (g : Slice → Slice) : (s.modSlice sk g).dramPoison = s.dramPoison := rfl
@[simp] theorem State.modSlice_keySlots (s : State) (sk : Nat) (g : Slice → Slice) : (s.modSlice sk g).keySlots = s.keySlots := rfl
@[simp] theorem State.modSlice_keyFresh (s : State) (sk : Nat) (g : Slice → Slice) : (s.modSlice sk g).keyFresh = s.keyFresh := rfl
@[simp] theorem State.modSlice_colours (s : State) (sk : Nat) (g : Slice → Slice) : (s.modSlice sk g).colours = s.colours := rfl
@[simp] theorem State.modSlice_colourBase (s : State) (sk : Nat) (g : Slice → Slice) : (s.modSlice sk g).colourBase = s.colourBase := rfl
@[simp] theorem State.modSlice_ringBase (s : State) (sk : Nat) (g : Slice → Slice) : (s.modSlice sk g).ringBase = s.ringBase := rfl
@[simp] theorem State.modSlice_rings (s : State) (sk : Nat) (g : Slice → Slice) : (s.modSlice sk g).rings = s.rings := rfl
@[simp] theorem State.modSlice_records (s : State) (sk : Nat) (g : Slice → Slice) : (s.modSlice sk g).records = s.records := rfl
@[simp] theorem State.modSlice_joins (s : State) (sk : Nat) (g : Slice → Slice) : (s.modSlice sk g).joins = s.joins := rfl
@[simp] theorem State.modSlice_clusters (s : State) (sk : Nat) (g : Slice → Slice) : (s.modSlice sk g).clusters = s.clusters := rfl
@[simp] theorem State.modSlice_tiles (s : State) (sk : Nat) (g : Slice → Slice) : (s.modSlice sk g).tiles = s.tiles := rfl
@[simp] theorem State.modSlice_stations (s : State) (sk : Nat) (g : Slice → Slice) : (s.modSlice sk g).stations = s.stations := rfl
@[simp] theorem State.modSlice_dies (s : State) (sk : Nat) (g : Slice → Slice) : (s.modSlice sk g).dies = s.dies := rfl
@[simp] theorem State.modSlice_requests (s : State) (sk : Nat) (g : Slice → Slice) : (s.modSlice sk g).requests = s.requests := rfl
@[simp] theorem State.modSlice_net (s : State) (sk : Nat) (g : Slice → Slice) : (s.modSlice sk g).net = s.net := rfl
@[simp] theorem State.modSlice_served (s : State) (sk : Nat) (g : Slice → Slice) : (s.modSlice sk g).served = s.served := rfl
@[simp] theorem State.modSlice_releases (s : State) (sk : Nat) (g : Slice → Slice) : (s.modSlice sk g).releases = s.releases := rfl
@[simp] theorem State.modSlice_faultTokens (s : State) (sk : Nat) (g : Slice → Slice) : (s.modSlice sk g).faultTokens = s.faultTokens := rfl
@[simp] theorem State.modSlice_prefetches (s : State) (sk : Nat) (g : Slice → Slice) : (s.modSlice sk g).prefetches = s.prefetches := rfl
@[simp] theorem State.modSlice_bootStage (s : State) (sk : Nat) (g : Slice → Slice) : (s.modSlice sk g).bootStage = s.bootStage := rfl
@[simp] theorem State.modSlice_bootErr (s : State) (sk : Nat) (g : Slice → Slice) : (s.modSlice sk g).bootErr = s.bootErr := rfl
@[simp] theorem State.modSlice_stkfail (s : State) (sk : Nat) (g : Slice → Slice) : (s.modSlice sk g).stkfail = s.stkfail := rfl
@[simp] theorem State.modSlice_linksDown (s : State) (sk : Nat) (g : Slice → Slice) : (s.modSlice sk g).linksDown = s.linksDown := rfl
@[simp] theorem State.modSlice_linkSecret (s : State) (sk : Nat) (g : Slice → Slice) : (s.modSlice sk g).linkSecret = s.linkSecret := rfl
@[simp] theorem State.modSlice_hrefuseV (s : State) (sk : Nat) (g : Slice → Slice) : (s.modSlice sk g).hrefuseV = s.hrefuseV := rfl
@[simp] theorem State.modSlice_hrefusePa (s : State) (sk : Nat) (g : Slice → Slice) : (s.modSlice sk g).hrefusePa = s.hrefusePa := rfl
@[simp] theorem State.modSlice_hcxl (s : State) (sk : Nat) (g : Slice → Slice) : (s.modSlice sk g).hcxl = s.hcxl := rfl
@[simp] theorem State.modSlice_wxbase (s : State) (sk : Nat) (g : Slice → Slice) : (s.modSlice sk g).wxbase = s.wxbase := rfl
@[simp] theorem State.modSlice_hwcol (s : State) (sk : Nat) (g : Slice → Slice) : (s.modSlice sk g).hwcol = s.hwcol := rfl
@[simp] theorem State.modSlice_ethUp (s : State) (sk : Nat) (g : Slice → Slice) : (s.modSlice sk g).ethUp = s.ethUp := rfl
@[simp] theorem State.modSlice_pwrcap (s : State) (sk : Nat) (g : Slice → Slice) : (s.modSlice sk g).pwrcap = s.pwrcap := rfl
@[simp] theorem State.modSlice_throttled (s : State) (sk : Nat) (g : Slice → Slice) : (s.modSlice sk g).throttled = s.throttled := rfl
@[simp] theorem State.modSlice_thermtrip (s : State) (sk : Nat) (g : Slice → Slice) : (s.modSlice sk g).thermtrip = s.thermtrip := rfl
@[simp] theorem State.modSlice_worldPages (s : State) (sk : Nat) (g : Slice → Slice) : (s.modSlice sk g).worldPages = s.worldPages := rfl
@[simp] theorem State.modSlice_numVfs (s : State) (sk : Nat) (g : Slice → Slice) : (s.modSlice sk g).numVfs = s.numVfs := rfl
@[simp] theorem State.modSlice_vfEnable (s : State) (sk : Nat) (g : Slice → Slice) : (s.modSlice sk g).vfEnable = s.vfEnable := rfl
@[simp] theorem State.modSlice_vfHeld (s : State) (sk : Nat) (g : Slice → Slice) : (s.modSlice sk g).vfHeld = s.vfHeld := rfl
@[simp] theorem State.modSlice_removals (s : State) (sk : Nat) (g : Slice → Slice) : (s.modSlice sk g).removals = s.removals := rfl
@[simp] theorem State.modSlice_functions (s : State) (sk : Nat) (g : Slice → Slice) : (s.modSlice sk g).functions = s.functions := rfl
@[simp] theorem State.modSlice_measures (s : State) (sk : Nat) (g : Slice → Slice) : (s.modSlice sk g).measures = s.measures := rfl
@[simp] theorem State.modSlice_ideKeys (s : State) (sk : Nat) (g : Slice → Slice) : (s.modSlice sk g).ideKeys = s.ideKeys := rfl
@[simp] theorem State.modSlice_macsec (s : State) (sk : Nat) (g : Slice → Slice) : (s.modSlice sk g).macsec = s.macsec := rfl
@[simp] theorem State.modSlice_frames (s : State) (sk : Nat) (g : Slice → Slice) : (s.modSlice sk g).frames = s.frames := rfl
@[simp] theorem State.modSlice_replies (s : State) (sk : Nat) (g : Slice → Slice) : (s.modSlice sk g).replies = s.replies := rfl
@[simp] theorem State.modSlice_ceCounts (s : State) (sk : Nat) (g : Slice → Slice) : (s.modSlice sk g).ceCounts = s.ceCounts := rfl
@[simp] theorem State.modSlice_cePages (s : State) (sk : Nat) (g : Slice → Slice) : (s.modSlice sk g).cePages = s.cePages := rfl
@[simp] theorem State.modSlice_frozen (s : State) (sk : Nat) (g : Slice → Slice) : (s.modSlice sk g).frozen = s.frozen := rfl
@[simp] theorem State.modSlice_thawing (s : State) (sk : Nat) (g : Slice → Slice) : (s.modSlice sk g).thawing = s.thawing := rfl
@[simp] theorem State.modSlice_debugStops (s : State) (sk : Nat) (g : Slice → Slice) : (s.modSlice sk g).debugStops = s.debugStops := rfl
@[simp] theorem State.modSlice_snaps (s : State) (sk : Nat) (g : Slice → Slice) : (s.modSlice sk g).snaps = s.snaps := rfl
@[simp] theorem State.modSlice_cluster (s : State) (sk : Nat) (g : Slice → Slice) (z : Nat) : (s.modSlice sk g).cluster z = s.cluster z := rfl
@[simp] theorem State.modSlice_tile (s : State) (sk : Nat) (g : Slice → Slice) (z : Nat) : (s.modSlice sk g).tile z = s.tile z := rfl
@[simp] theorem State.modSlice_station (s : State) (sk : Nat) (g : Slice → Slice) (z : Nat) : (s.modSlice sk g).station z = s.station z := rfl
@[simp] theorem State.modSlice_die (s : State) (sk : Nat) (g : Slice → Slice) (z : Nat) : (s.modSlice sk g).die z = s.die z := rfl
@[simp] theorem State.modSlice_colour (s : State) (sk : Nat) (g : Slice → Slice) (z : Colour) : (s.modSlice sk g).colour z = s.colour z := rfl
@[simp] theorem State.modSlice_function (s : State) (sk : Nat) (g : Slice → Slice) (z : Nat) : (s.modSlice sk g).function z = s.function z := rfl
@[simp] theorem State.modSlice_worldPage (s : State) (sk : Nat) (g : Slice → Slice) (z : Nat) : (s.modSlice sk g).worldPage z = s.worldPage z := rfl

/-! `modStation` -/
@[simp] theorem State.modStation_agenda (s : State) (st : Nat) (g : Station → Station) : (s.modStation st g).agenda = s.agenda := rfl
@[simp] theorem State.modStation_actor (s : State) (st : Nat) (g : Station → Station) : (s.modStation st g).actor = s.actor := rfl
@[simp] theorem State.modStation_free (s : State) (st : Nat) (g : Station → Station) : (s.modStation st g).free = s.free := rfl
@[simp] theorem State.modStation_seq (s : State) (st : Nat) (g : Station → Station) : (s.modStation st g).seq = s.seq := rfl
@[simp] theorem State.modStation_nextId (s : State) (st : Nat) (g : Station → Station) : (s.modStation st g).nextId = s.nextId := rfl
@[simp] theorem State.modStation_timebase (s : State) (st : Nat) (g : Station → Station) : (s.modStation st g).timebase = s.timebase := rfl
@[simp] theorem State.modStation_cycles (s : State) (st : Nat) (g : Station → Station) : (s.modStation st g).cycles = s.cycles := rfl
@[simp] theorem State.modStation_dram (s : State) (st : Nat) (g : Station → Station) : (s.modStation st g).dram = s.dram := rfl
@[simp] theorem State.modStation_dramKey (s : State) (st : Nat) (g : Station → Station) : (s.modStation st g).dramKey = s.dramKey := rfl
@[simp] theorem State.modStation_dramPoison (s : State) (st : Nat) (g : Station → Station) : (s.modStation st g).dramPoison = s.dramPoison := rfl
@[simp] theorem State.modStation_keySlots (s : State) (st : Nat) (g : Station → Station) : (s.modStation st g).keySlots = s.keySlots := rfl
@[simp] theorem State.modStation_keyFresh (s : State) (st : Nat) (g : Station → Station) : (s.modStation st g).keyFresh = s.keyFresh := rfl
@[simp] theorem State.modStation_colours (s : State) (st : Nat) (g : Station → Station) : (s.modStation st g).colours = s.colours := rfl
@[simp] theorem State.modStation_colourBase (s : State) (st : Nat) (g : Station → Station) : (s.modStation st g).colourBase = s.colourBase := rfl
@[simp] theorem State.modStation_ringBase (s : State) (st : Nat) (g : Station → Station) : (s.modStation st g).ringBase = s.ringBase := rfl
@[simp] theorem State.modStation_rings (s : State) (st : Nat) (g : Station → Station) : (s.modStation st g).rings = s.rings := rfl
@[simp] theorem State.modStation_records (s : State) (st : Nat) (g : Station → Station) : (s.modStation st g).records = s.records := rfl
@[simp] theorem State.modStation_joins (s : State) (st : Nat) (g : Station → Station) : (s.modStation st g).joins = s.joins := rfl
@[simp] theorem State.modStation_clusters (s : State) (st : Nat) (g : Station → Station) : (s.modStation st g).clusters = s.clusters := rfl
@[simp] theorem State.modStation_tiles (s : State) (st : Nat) (g : Station → Station) : (s.modStation st g).tiles = s.tiles := rfl
@[simp] theorem State.modStation_slices (s : State) (st : Nat) (g : Station → Station) : (s.modStation st g).slices = s.slices := rfl
@[simp] theorem State.modStation_dies (s : State) (st : Nat) (g : Station → Station) : (s.modStation st g).dies = s.dies := rfl
@[simp] theorem State.modStation_requests (s : State) (st : Nat) (g : Station → Station) : (s.modStation st g).requests = s.requests := rfl
@[simp] theorem State.modStation_net (s : State) (st : Nat) (g : Station → Station) : (s.modStation st g).net = s.net := rfl
@[simp] theorem State.modStation_served (s : State) (st : Nat) (g : Station → Station) : (s.modStation st g).served = s.served := rfl
@[simp] theorem State.modStation_releases (s : State) (st : Nat) (g : Station → Station) : (s.modStation st g).releases = s.releases := rfl
@[simp] theorem State.modStation_faultTokens (s : State) (st : Nat) (g : Station → Station) : (s.modStation st g).faultTokens = s.faultTokens := rfl
@[simp] theorem State.modStation_prefetches (s : State) (st : Nat) (g : Station → Station) : (s.modStation st g).prefetches = s.prefetches := rfl
@[simp] theorem State.modStation_bootStage (s : State) (st : Nat) (g : Station → Station) : (s.modStation st g).bootStage = s.bootStage := rfl
@[simp] theorem State.modStation_bootErr (s : State) (st : Nat) (g : Station → Station) : (s.modStation st g).bootErr = s.bootErr := rfl
@[simp] theorem State.modStation_stkfail (s : State) (st : Nat) (g : Station → Station) : (s.modStation st g).stkfail = s.stkfail := rfl
@[simp] theorem State.modStation_linksDown (s : State) (st : Nat) (g : Station → Station) : (s.modStation st g).linksDown = s.linksDown := rfl
@[simp] theorem State.modStation_linkSecret (s : State) (st : Nat) (g : Station → Station) : (s.modStation st g).linkSecret = s.linkSecret := rfl
@[simp] theorem State.modStation_hrefuseV (s : State) (st : Nat) (g : Station → Station) : (s.modStation st g).hrefuseV = s.hrefuseV := rfl
@[simp] theorem State.modStation_hrefusePa (s : State) (st : Nat) (g : Station → Station) : (s.modStation st g).hrefusePa = s.hrefusePa := rfl
@[simp] theorem State.modStation_hcxl (s : State) (st : Nat) (g : Station → Station) : (s.modStation st g).hcxl = s.hcxl := rfl
@[simp] theorem State.modStation_wxbase (s : State) (st : Nat) (g : Station → Station) : (s.modStation st g).wxbase = s.wxbase := rfl
@[simp] theorem State.modStation_hwcol (s : State) (st : Nat) (g : Station → Station) : (s.modStation st g).hwcol = s.hwcol := rfl
@[simp] theorem State.modStation_ethUp (s : State) (st : Nat) (g : Station → Station) : (s.modStation st g).ethUp = s.ethUp := rfl
@[simp] theorem State.modStation_pwrcap (s : State) (st : Nat) (g : Station → Station) : (s.modStation st g).pwrcap = s.pwrcap := rfl
@[simp] theorem State.modStation_throttled (s : State) (st : Nat) (g : Station → Station) : (s.modStation st g).throttled = s.throttled := rfl
@[simp] theorem State.modStation_thermtrip (s : State) (st : Nat) (g : Station → Station) : (s.modStation st g).thermtrip = s.thermtrip := rfl
@[simp] theorem State.modStation_worldPages (s : State) (st : Nat) (g : Station → Station) : (s.modStation st g).worldPages = s.worldPages := rfl
@[simp] theorem State.modStation_numVfs (s : State) (st : Nat) (g : Station → Station) : (s.modStation st g).numVfs = s.numVfs := rfl
@[simp] theorem State.modStation_vfEnable (s : State) (st : Nat) (g : Station → Station) : (s.modStation st g).vfEnable = s.vfEnable := rfl
@[simp] theorem State.modStation_vfHeld (s : State) (st : Nat) (g : Station → Station) : (s.modStation st g).vfHeld = s.vfHeld := rfl
@[simp] theorem State.modStation_removals (s : State) (st : Nat) (g : Station → Station) : (s.modStation st g).removals = s.removals := rfl
@[simp] theorem State.modStation_functions (s : State) (st : Nat) (g : Station → Station) : (s.modStation st g).functions = s.functions := rfl
@[simp] theorem State.modStation_measures (s : State) (st : Nat) (g : Station → Station) : (s.modStation st g).measures = s.measures := rfl
@[simp] theorem State.modStation_ideKeys (s : State) (st : Nat) (g : Station → Station) : (s.modStation st g).ideKeys = s.ideKeys := rfl
@[simp] theorem State.modStation_macsec (s : State) (st : Nat) (g : Station → Station) : (s.modStation st g).macsec = s.macsec := rfl
@[simp] theorem State.modStation_frames (s : State) (st : Nat) (g : Station → Station) : (s.modStation st g).frames = s.frames := rfl
@[simp] theorem State.modStation_replies (s : State) (st : Nat) (g : Station → Station) : (s.modStation st g).replies = s.replies := rfl
@[simp] theorem State.modStation_ceCounts (s : State) (st : Nat) (g : Station → Station) : (s.modStation st g).ceCounts = s.ceCounts := rfl
@[simp] theorem State.modStation_cePages (s : State) (st : Nat) (g : Station → Station) : (s.modStation st g).cePages = s.cePages := rfl
@[simp] theorem State.modStation_frozen (s : State) (st : Nat) (g : Station → Station) : (s.modStation st g).frozen = s.frozen := rfl
@[simp] theorem State.modStation_thawing (s : State) (st : Nat) (g : Station → Station) : (s.modStation st g).thawing = s.thawing := rfl
@[simp] theorem State.modStation_debugStops (s : State) (st : Nat) (g : Station → Station) : (s.modStation st g).debugStops = s.debugStops := rfl
@[simp] theorem State.modStation_snaps (s : State) (st : Nat) (g : Station → Station) : (s.modStation st g).snaps = s.snaps := rfl
@[simp] theorem State.modStation_cluster (s : State) (st : Nat) (g : Station → Station) (z : Nat) : (s.modStation st g).cluster z = s.cluster z := rfl
@[simp] theorem State.modStation_tile (s : State) (st : Nat) (g : Station → Station) (z : Nat) : (s.modStation st g).tile z = s.tile z := rfl
@[simp] theorem State.modStation_slice (s : State) (st : Nat) (g : Station → Station) (z : Nat) : (s.modStation st g).slice z = s.slice z := rfl
@[simp] theorem State.modStation_die (s : State) (st : Nat) (g : Station → Station) (z : Nat) : (s.modStation st g).die z = s.die z := rfl
@[simp] theorem State.modStation_colour (s : State) (st : Nat) (g : Station → Station) (z : Colour) : (s.modStation st g).colour z = s.colour z := rfl
@[simp] theorem State.modStation_function (s : State) (st : Nat) (g : Station → Station) (z : Nat) : (s.modStation st g).function z = s.function z := rfl
@[simp] theorem State.modStation_worldPage (s : State) (st : Nat) (g : Station → Station) (z : Nat) : (s.modStation st g).worldPage z = s.worldPage z := rfl

/-! `modDie` -/
@[simp] theorem State.modDie_agenda (s : State) (d : Nat) (g : Die → Die) : (s.modDie d g).agenda = s.agenda := rfl
@[simp] theorem State.modDie_actor (s : State) (d : Nat) (g : Die → Die) : (s.modDie d g).actor = s.actor := rfl
@[simp] theorem State.modDie_free (s : State) (d : Nat) (g : Die → Die) : (s.modDie d g).free = s.free := rfl
@[simp] theorem State.modDie_seq (s : State) (d : Nat) (g : Die → Die) : (s.modDie d g).seq = s.seq := rfl
@[simp] theorem State.modDie_nextId (s : State) (d : Nat) (g : Die → Die) : (s.modDie d g).nextId = s.nextId := rfl
@[simp] theorem State.modDie_timebase (s : State) (d : Nat) (g : Die → Die) : (s.modDie d g).timebase = s.timebase := rfl
@[simp] theorem State.modDie_cycles (s : State) (d : Nat) (g : Die → Die) : (s.modDie d g).cycles = s.cycles := rfl
@[simp] theorem State.modDie_dram (s : State) (d : Nat) (g : Die → Die) : (s.modDie d g).dram = s.dram := rfl
@[simp] theorem State.modDie_dramKey (s : State) (d : Nat) (g : Die → Die) : (s.modDie d g).dramKey = s.dramKey := rfl
@[simp] theorem State.modDie_dramPoison (s : State) (d : Nat) (g : Die → Die) : (s.modDie d g).dramPoison = s.dramPoison := rfl
@[simp] theorem State.modDie_keySlots (s : State) (d : Nat) (g : Die → Die) : (s.modDie d g).keySlots = s.keySlots := rfl
@[simp] theorem State.modDie_keyFresh (s : State) (d : Nat) (g : Die → Die) : (s.modDie d g).keyFresh = s.keyFresh := rfl
@[simp] theorem State.modDie_colours (s : State) (d : Nat) (g : Die → Die) : (s.modDie d g).colours = s.colours := rfl
@[simp] theorem State.modDie_colourBase (s : State) (d : Nat) (g : Die → Die) : (s.modDie d g).colourBase = s.colourBase := rfl
@[simp] theorem State.modDie_ringBase (s : State) (d : Nat) (g : Die → Die) : (s.modDie d g).ringBase = s.ringBase := rfl
@[simp] theorem State.modDie_rings (s : State) (d : Nat) (g : Die → Die) : (s.modDie d g).rings = s.rings := rfl
@[simp] theorem State.modDie_records (s : State) (d : Nat) (g : Die → Die) : (s.modDie d g).records = s.records := rfl
@[simp] theorem State.modDie_joins (s : State) (d : Nat) (g : Die → Die) : (s.modDie d g).joins = s.joins := rfl
@[simp] theorem State.modDie_clusters (s : State) (d : Nat) (g : Die → Die) : (s.modDie d g).clusters = s.clusters := rfl
@[simp] theorem State.modDie_tiles (s : State) (d : Nat) (g : Die → Die) : (s.modDie d g).tiles = s.tiles := rfl
@[simp] theorem State.modDie_slices (s : State) (d : Nat) (g : Die → Die) : (s.modDie d g).slices = s.slices := rfl
@[simp] theorem State.modDie_stations (s : State) (d : Nat) (g : Die → Die) : (s.modDie d g).stations = s.stations := rfl
@[simp] theorem State.modDie_requests (s : State) (d : Nat) (g : Die → Die) : (s.modDie d g).requests = s.requests := rfl
@[simp] theorem State.modDie_net (s : State) (d : Nat) (g : Die → Die) : (s.modDie d g).net = s.net := rfl
@[simp] theorem State.modDie_served (s : State) (d : Nat) (g : Die → Die) : (s.modDie d g).served = s.served := rfl
@[simp] theorem State.modDie_releases (s : State) (d : Nat) (g : Die → Die) : (s.modDie d g).releases = s.releases := rfl
@[simp] theorem State.modDie_faultTokens (s : State) (d : Nat) (g : Die → Die) : (s.modDie d g).faultTokens = s.faultTokens := rfl
@[simp] theorem State.modDie_prefetches (s : State) (d : Nat) (g : Die → Die) : (s.modDie d g).prefetches = s.prefetches := rfl
@[simp] theorem State.modDie_bootStage (s : State) (d : Nat) (g : Die → Die) : (s.modDie d g).bootStage = s.bootStage := rfl
@[simp] theorem State.modDie_bootErr (s : State) (d : Nat) (g : Die → Die) : (s.modDie d g).bootErr = s.bootErr := rfl
@[simp] theorem State.modDie_stkfail (s : State) (d : Nat) (g : Die → Die) : (s.modDie d g).stkfail = s.stkfail := rfl
@[simp] theorem State.modDie_linksDown (s : State) (d : Nat) (g : Die → Die) : (s.modDie d g).linksDown = s.linksDown := rfl
@[simp] theorem State.modDie_linkSecret (s : State) (d : Nat) (g : Die → Die) : (s.modDie d g).linkSecret = s.linkSecret := rfl
@[simp] theorem State.modDie_hrefuseV (s : State) (d : Nat) (g : Die → Die) : (s.modDie d g).hrefuseV = s.hrefuseV := rfl
@[simp] theorem State.modDie_hrefusePa (s : State) (d : Nat) (g : Die → Die) : (s.modDie d g).hrefusePa = s.hrefusePa := rfl
@[simp] theorem State.modDie_hcxl (s : State) (d : Nat) (g : Die → Die) : (s.modDie d g).hcxl = s.hcxl := rfl
@[simp] theorem State.modDie_wxbase (s : State) (d : Nat) (g : Die → Die) : (s.modDie d g).wxbase = s.wxbase := rfl
@[simp] theorem State.modDie_hwcol (s : State) (d : Nat) (g : Die → Die) : (s.modDie d g).hwcol = s.hwcol := rfl
@[simp] theorem State.modDie_ethUp (s : State) (d : Nat) (g : Die → Die) : (s.modDie d g).ethUp = s.ethUp := rfl
@[simp] theorem State.modDie_pwrcap (s : State) (d : Nat) (g : Die → Die) : (s.modDie d g).pwrcap = s.pwrcap := rfl
@[simp] theorem State.modDie_throttled (s : State) (d : Nat) (g : Die → Die) : (s.modDie d g).throttled = s.throttled := rfl
@[simp] theorem State.modDie_thermtrip (s : State) (d : Nat) (g : Die → Die) : (s.modDie d g).thermtrip = s.thermtrip := rfl
@[simp] theorem State.modDie_worldPages (s : State) (d : Nat) (g : Die → Die) : (s.modDie d g).worldPages = s.worldPages := rfl
@[simp] theorem State.modDie_numVfs (s : State) (d : Nat) (g : Die → Die) : (s.modDie d g).numVfs = s.numVfs := rfl
@[simp] theorem State.modDie_vfEnable (s : State) (d : Nat) (g : Die → Die) : (s.modDie d g).vfEnable = s.vfEnable := rfl
@[simp] theorem State.modDie_vfHeld (s : State) (d : Nat) (g : Die → Die) : (s.modDie d g).vfHeld = s.vfHeld := rfl
@[simp] theorem State.modDie_removals (s : State) (d : Nat) (g : Die → Die) : (s.modDie d g).removals = s.removals := rfl
@[simp] theorem State.modDie_functions (s : State) (d : Nat) (g : Die → Die) : (s.modDie d g).functions = s.functions := rfl
@[simp] theorem State.modDie_measures (s : State) (d : Nat) (g : Die → Die) : (s.modDie d g).measures = s.measures := rfl
@[simp] theorem State.modDie_ideKeys (s : State) (d : Nat) (g : Die → Die) : (s.modDie d g).ideKeys = s.ideKeys := rfl
@[simp] theorem State.modDie_macsec (s : State) (d : Nat) (g : Die → Die) : (s.modDie d g).macsec = s.macsec := rfl
@[simp] theorem State.modDie_frames (s : State) (d : Nat) (g : Die → Die) : (s.modDie d g).frames = s.frames := rfl
@[simp] theorem State.modDie_replies (s : State) (d : Nat) (g : Die → Die) : (s.modDie d g).replies = s.replies := rfl
@[simp] theorem State.modDie_ceCounts (s : State) (d : Nat) (g : Die → Die) : (s.modDie d g).ceCounts = s.ceCounts := rfl
@[simp] theorem State.modDie_cePages (s : State) (d : Nat) (g : Die → Die) : (s.modDie d g).cePages = s.cePages := rfl
@[simp] theorem State.modDie_frozen (s : State) (d : Nat) (g : Die → Die) : (s.modDie d g).frozen = s.frozen := rfl
@[simp] theorem State.modDie_thawing (s : State) (d : Nat) (g : Die → Die) : (s.modDie d g).thawing = s.thawing := rfl
@[simp] theorem State.modDie_debugStops (s : State) (d : Nat) (g : Die → Die) : (s.modDie d g).debugStops = s.debugStops := rfl
@[simp] theorem State.modDie_snaps (s : State) (d : Nat) (g : Die → Die) : (s.modDie d g).snaps = s.snaps := rfl
@[simp] theorem State.modDie_cluster (s : State) (d : Nat) (g : Die → Die) (z : Nat) : (s.modDie d g).cluster z = s.cluster z := rfl
@[simp] theorem State.modDie_tile (s : State) (d : Nat) (g : Die → Die) (z : Nat) : (s.modDie d g).tile z = s.tile z := rfl
@[simp] theorem State.modDie_slice (s : State) (d : Nat) (g : Die → Die) (z : Nat) : (s.modDie d g).slice z = s.slice z := rfl
@[simp] theorem State.modDie_station (s : State) (d : Nat) (g : Die → Die) (z : Nat) : (s.modDie d g).station z = s.station z := rfl
@[simp] theorem State.modDie_colour (s : State) (d : Nat) (g : Die → Die) (z : Colour) : (s.modDie d g).colour z = s.colour z := rfl
@[simp] theorem State.modDie_function (s : State) (d : Nat) (g : Die → Die) (z : Nat) : (s.modDie d g).function z = s.function z := rfl
@[simp] theorem State.modDie_worldPage (s : State) (d : Nat) (g : Die → Die) (z : Nat) : (s.modDie d g).worldPage z = s.worldPage z := rfl

/-! `modColour` -/
@[simp] theorem State.modColour_agenda (s : State) (c : Colour) (g : ColourEntry → ColourEntry) : (s.modColour c g).agenda = s.agenda := rfl
@[simp] theorem State.modColour_actor (s : State) (c : Colour) (g : ColourEntry → ColourEntry) : (s.modColour c g).actor = s.actor := rfl
@[simp] theorem State.modColour_free (s : State) (c : Colour) (g : ColourEntry → ColourEntry) : (s.modColour c g).free = s.free := rfl
@[simp] theorem State.modColour_seq (s : State) (c : Colour) (g : ColourEntry → ColourEntry) : (s.modColour c g).seq = s.seq := rfl
@[simp] theorem State.modColour_nextId (s : State) (c : Colour) (g : ColourEntry → ColourEntry) : (s.modColour c g).nextId = s.nextId := rfl
@[simp] theorem State.modColour_timebase (s : State) (c : Colour) (g : ColourEntry → ColourEntry) : (s.modColour c g).timebase = s.timebase := rfl
@[simp] theorem State.modColour_cycles (s : State) (c : Colour) (g : ColourEntry → ColourEntry) : (s.modColour c g).cycles = s.cycles := rfl
@[simp] theorem State.modColour_dram (s : State) (c : Colour) (g : ColourEntry → ColourEntry) : (s.modColour c g).dram = s.dram := rfl
@[simp] theorem State.modColour_dramKey (s : State) (c : Colour) (g : ColourEntry → ColourEntry) : (s.modColour c g).dramKey = s.dramKey := rfl
@[simp] theorem State.modColour_dramPoison (s : State) (c : Colour) (g : ColourEntry → ColourEntry) : (s.modColour c g).dramPoison = s.dramPoison := rfl
@[simp] theorem State.modColour_keySlots (s : State) (c : Colour) (g : ColourEntry → ColourEntry) : (s.modColour c g).keySlots = s.keySlots := rfl
@[simp] theorem State.modColour_keyFresh (s : State) (c : Colour) (g : ColourEntry → ColourEntry) : (s.modColour c g).keyFresh = s.keyFresh := rfl
@[simp] theorem State.modColour_colourBase (s : State) (c : Colour) (g : ColourEntry → ColourEntry) : (s.modColour c g).colourBase = s.colourBase := rfl
@[simp] theorem State.modColour_ringBase (s : State) (c : Colour) (g : ColourEntry → ColourEntry) : (s.modColour c g).ringBase = s.ringBase := rfl
@[simp] theorem State.modColour_rings (s : State) (c : Colour) (g : ColourEntry → ColourEntry) : (s.modColour c g).rings = s.rings := rfl
@[simp] theorem State.modColour_records (s : State) (c : Colour) (g : ColourEntry → ColourEntry) : (s.modColour c g).records = s.records := rfl
@[simp] theorem State.modColour_joins (s : State) (c : Colour) (g : ColourEntry → ColourEntry) : (s.modColour c g).joins = s.joins := rfl
@[simp] theorem State.modColour_clusters (s : State) (c : Colour) (g : ColourEntry → ColourEntry) : (s.modColour c g).clusters = s.clusters := rfl
@[simp] theorem State.modColour_tiles (s : State) (c : Colour) (g : ColourEntry → ColourEntry) : (s.modColour c g).tiles = s.tiles := rfl
@[simp] theorem State.modColour_slices (s : State) (c : Colour) (g : ColourEntry → ColourEntry) : (s.modColour c g).slices = s.slices := rfl
@[simp] theorem State.modColour_stations (s : State) (c : Colour) (g : ColourEntry → ColourEntry) : (s.modColour c g).stations = s.stations := rfl
@[simp] theorem State.modColour_dies (s : State) (c : Colour) (g : ColourEntry → ColourEntry) : (s.modColour c g).dies = s.dies := rfl
@[simp] theorem State.modColour_requests (s : State) (c : Colour) (g : ColourEntry → ColourEntry) : (s.modColour c g).requests = s.requests := rfl
@[simp] theorem State.modColour_net (s : State) (c : Colour) (g : ColourEntry → ColourEntry) : (s.modColour c g).net = s.net := rfl
@[simp] theorem State.modColour_served (s : State) (c : Colour) (g : ColourEntry → ColourEntry) : (s.modColour c g).served = s.served := rfl
@[simp] theorem State.modColour_releases (s : State) (c : Colour) (g : ColourEntry → ColourEntry) : (s.modColour c g).releases = s.releases := rfl
@[simp] theorem State.modColour_faultTokens (s : State) (c : Colour) (g : ColourEntry → ColourEntry) : (s.modColour c g).faultTokens = s.faultTokens := rfl
@[simp] theorem State.modColour_prefetches (s : State) (c : Colour) (g : ColourEntry → ColourEntry) : (s.modColour c g).prefetches = s.prefetches := rfl
@[simp] theorem State.modColour_bootStage (s : State) (c : Colour) (g : ColourEntry → ColourEntry) : (s.modColour c g).bootStage = s.bootStage := rfl
@[simp] theorem State.modColour_bootErr (s : State) (c : Colour) (g : ColourEntry → ColourEntry) : (s.modColour c g).bootErr = s.bootErr := rfl
@[simp] theorem State.modColour_stkfail (s : State) (c : Colour) (g : ColourEntry → ColourEntry) : (s.modColour c g).stkfail = s.stkfail := rfl
@[simp] theorem State.modColour_linksDown (s : State) (c : Colour) (g : ColourEntry → ColourEntry) : (s.modColour c g).linksDown = s.linksDown := rfl
@[simp] theorem State.modColour_linkSecret (s : State) (c : Colour) (g : ColourEntry → ColourEntry) : (s.modColour c g).linkSecret = s.linkSecret := rfl
@[simp] theorem State.modColour_hrefuseV (s : State) (c : Colour) (g : ColourEntry → ColourEntry) : (s.modColour c g).hrefuseV = s.hrefuseV := rfl
@[simp] theorem State.modColour_hrefusePa (s : State) (c : Colour) (g : ColourEntry → ColourEntry) : (s.modColour c g).hrefusePa = s.hrefusePa := rfl
@[simp] theorem State.modColour_hcxl (s : State) (c : Colour) (g : ColourEntry → ColourEntry) : (s.modColour c g).hcxl = s.hcxl := rfl
@[simp] theorem State.modColour_wxbase (s : State) (c : Colour) (g : ColourEntry → ColourEntry) : (s.modColour c g).wxbase = s.wxbase := rfl
@[simp] theorem State.modColour_hwcol (s : State) (c : Colour) (g : ColourEntry → ColourEntry) : (s.modColour c g).hwcol = s.hwcol := rfl
@[simp] theorem State.modColour_ethUp (s : State) (c : Colour) (g : ColourEntry → ColourEntry) : (s.modColour c g).ethUp = s.ethUp := rfl
@[simp] theorem State.modColour_pwrcap (s : State) (c : Colour) (g : ColourEntry → ColourEntry) : (s.modColour c g).pwrcap = s.pwrcap := rfl
@[simp] theorem State.modColour_throttled (s : State) (c : Colour) (g : ColourEntry → ColourEntry) : (s.modColour c g).throttled = s.throttled := rfl
@[simp] theorem State.modColour_thermtrip (s : State) (c : Colour) (g : ColourEntry → ColourEntry) : (s.modColour c g).thermtrip = s.thermtrip := rfl
@[simp] theorem State.modColour_worldPages (s : State) (c : Colour) (g : ColourEntry → ColourEntry) : (s.modColour c g).worldPages = s.worldPages := rfl
@[simp] theorem State.modColour_numVfs (s : State) (c : Colour) (g : ColourEntry → ColourEntry) : (s.modColour c g).numVfs = s.numVfs := rfl
@[simp] theorem State.modColour_vfEnable (s : State) (c : Colour) (g : ColourEntry → ColourEntry) : (s.modColour c g).vfEnable = s.vfEnable := rfl
@[simp] theorem State.modColour_vfHeld (s : State) (c : Colour) (g : ColourEntry → ColourEntry) : (s.modColour c g).vfHeld = s.vfHeld := rfl
@[simp] theorem State.modColour_removals (s : State) (c : Colour) (g : ColourEntry → ColourEntry) : (s.modColour c g).removals = s.removals := rfl
@[simp] theorem State.modColour_functions (s : State) (c : Colour) (g : ColourEntry → ColourEntry) : (s.modColour c g).functions = s.functions := rfl
@[simp] theorem State.modColour_measures (s : State) (c : Colour) (g : ColourEntry → ColourEntry) : (s.modColour c g).measures = s.measures := rfl
@[simp] theorem State.modColour_ideKeys (s : State) (c : Colour) (g : ColourEntry → ColourEntry) : (s.modColour c g).ideKeys = s.ideKeys := rfl
@[simp] theorem State.modColour_macsec (s : State) (c : Colour) (g : ColourEntry → ColourEntry) : (s.modColour c g).macsec = s.macsec := rfl
@[simp] theorem State.modColour_frames (s : State) (c : Colour) (g : ColourEntry → ColourEntry) : (s.modColour c g).frames = s.frames := rfl
@[simp] theorem State.modColour_replies (s : State) (c : Colour) (g : ColourEntry → ColourEntry) : (s.modColour c g).replies = s.replies := rfl
@[simp] theorem State.modColour_ceCounts (s : State) (c : Colour) (g : ColourEntry → ColourEntry) : (s.modColour c g).ceCounts = s.ceCounts := rfl
@[simp] theorem State.modColour_cePages (s : State) (c : Colour) (g : ColourEntry → ColourEntry) : (s.modColour c g).cePages = s.cePages := rfl
@[simp] theorem State.modColour_frozen (s : State) (c : Colour) (g : ColourEntry → ColourEntry) : (s.modColour c g).frozen = s.frozen := rfl
@[simp] theorem State.modColour_thawing (s : State) (c : Colour) (g : ColourEntry → ColourEntry) : (s.modColour c g).thawing = s.thawing := rfl
@[simp] theorem State.modColour_debugStops (s : State) (c : Colour) (g : ColourEntry → ColourEntry) : (s.modColour c g).debugStops = s.debugStops := rfl
@[simp] theorem State.modColour_snaps (s : State) (c : Colour) (g : ColourEntry → ColourEntry) : (s.modColour c g).snaps = s.snaps := rfl
@[simp] theorem State.modColour_cluster (s : State) (c : Colour) (g : ColourEntry → ColourEntry) (z : Nat) : (s.modColour c g).cluster z = s.cluster z := rfl
@[simp] theorem State.modColour_tile (s : State) (c : Colour) (g : ColourEntry → ColourEntry) (z : Nat) : (s.modColour c g).tile z = s.tile z := rfl
@[simp] theorem State.modColour_slice (s : State) (c : Colour) (g : ColourEntry → ColourEntry) (z : Nat) : (s.modColour c g).slice z = s.slice z := rfl
@[simp] theorem State.modColour_station (s : State) (c : Colour) (g : ColourEntry → ColourEntry) (z : Nat) : (s.modColour c g).station z = s.station z := rfl
@[simp] theorem State.modColour_die (s : State) (c : Colour) (g : ColourEntry → ColourEntry) (z : Nat) : (s.modColour c g).die z = s.die z := rfl
@[simp] theorem State.modColour_function (s : State) (c : Colour) (g : ColourEntry → ColourEntry) (z : Nat) : (s.modColour c g).function z = s.function z := rfl
@[simp] theorem State.modColour_worldPage (s : State) (c : Colour) (g : ColourEntry → ColourEntry) (z : Nat) : (s.modColour c g).worldPage z = s.worldPage z := rfl

/-! `modFunction` -/
@[simp] theorem State.modFunction_agenda (s : State) (fn : Nat) (g : Function → Function) : (s.modFunction fn g).agenda = s.agenda := rfl
@[simp] theorem State.modFunction_actor (s : State) (fn : Nat) (g : Function → Function) : (s.modFunction fn g).actor = s.actor := rfl
@[simp] theorem State.modFunction_free (s : State) (fn : Nat) (g : Function → Function) : (s.modFunction fn g).free = s.free := rfl
@[simp] theorem State.modFunction_seq (s : State) (fn : Nat) (g : Function → Function) : (s.modFunction fn g).seq = s.seq := rfl
@[simp] theorem State.modFunction_nextId (s : State) (fn : Nat) (g : Function → Function) : (s.modFunction fn g).nextId = s.nextId := rfl
@[simp] theorem State.modFunction_timebase (s : State) (fn : Nat) (g : Function → Function) : (s.modFunction fn g).timebase = s.timebase := rfl
@[simp] theorem State.modFunction_cycles (s : State) (fn : Nat) (g : Function → Function) : (s.modFunction fn g).cycles = s.cycles := rfl
@[simp] theorem State.modFunction_dram (s : State) (fn : Nat) (g : Function → Function) : (s.modFunction fn g).dram = s.dram := rfl
@[simp] theorem State.modFunction_dramKey (s : State) (fn : Nat) (g : Function → Function) : (s.modFunction fn g).dramKey = s.dramKey := rfl
@[simp] theorem State.modFunction_dramPoison (s : State) (fn : Nat) (g : Function → Function) : (s.modFunction fn g).dramPoison = s.dramPoison := rfl
@[simp] theorem State.modFunction_keySlots (s : State) (fn : Nat) (g : Function → Function) : (s.modFunction fn g).keySlots = s.keySlots := rfl
@[simp] theorem State.modFunction_keyFresh (s : State) (fn : Nat) (g : Function → Function) : (s.modFunction fn g).keyFresh = s.keyFresh := rfl
@[simp] theorem State.modFunction_colours (s : State) (fn : Nat) (g : Function → Function) : (s.modFunction fn g).colours = s.colours := rfl
@[simp] theorem State.modFunction_colourBase (s : State) (fn : Nat) (g : Function → Function) : (s.modFunction fn g).colourBase = s.colourBase := rfl
@[simp] theorem State.modFunction_ringBase (s : State) (fn : Nat) (g : Function → Function) : (s.modFunction fn g).ringBase = s.ringBase := rfl
@[simp] theorem State.modFunction_rings (s : State) (fn : Nat) (g : Function → Function) : (s.modFunction fn g).rings = s.rings := rfl
@[simp] theorem State.modFunction_records (s : State) (fn : Nat) (g : Function → Function) : (s.modFunction fn g).records = s.records := rfl
@[simp] theorem State.modFunction_joins (s : State) (fn : Nat) (g : Function → Function) : (s.modFunction fn g).joins = s.joins := rfl
@[simp] theorem State.modFunction_clusters (s : State) (fn : Nat) (g : Function → Function) : (s.modFunction fn g).clusters = s.clusters := rfl
@[simp] theorem State.modFunction_tiles (s : State) (fn : Nat) (g : Function → Function) : (s.modFunction fn g).tiles = s.tiles := rfl
@[simp] theorem State.modFunction_slices (s : State) (fn : Nat) (g : Function → Function) : (s.modFunction fn g).slices = s.slices := rfl
@[simp] theorem State.modFunction_stations (s : State) (fn : Nat) (g : Function → Function) : (s.modFunction fn g).stations = s.stations := rfl
@[simp] theorem State.modFunction_dies (s : State) (fn : Nat) (g : Function → Function) : (s.modFunction fn g).dies = s.dies := rfl
@[simp] theorem State.modFunction_requests (s : State) (fn : Nat) (g : Function → Function) : (s.modFunction fn g).requests = s.requests := rfl
@[simp] theorem State.modFunction_net (s : State) (fn : Nat) (g : Function → Function) : (s.modFunction fn g).net = s.net := rfl
@[simp] theorem State.modFunction_served (s : State) (fn : Nat) (g : Function → Function) : (s.modFunction fn g).served = s.served := rfl
@[simp] theorem State.modFunction_releases (s : State) (fn : Nat) (g : Function → Function) : (s.modFunction fn g).releases = s.releases := rfl
@[simp] theorem State.modFunction_faultTokens (s : State) (fn : Nat) (g : Function → Function) : (s.modFunction fn g).faultTokens = s.faultTokens := rfl
@[simp] theorem State.modFunction_prefetches (s : State) (fn : Nat) (g : Function → Function) : (s.modFunction fn g).prefetches = s.prefetches := rfl
@[simp] theorem State.modFunction_bootStage (s : State) (fn : Nat) (g : Function → Function) : (s.modFunction fn g).bootStage = s.bootStage := rfl
@[simp] theorem State.modFunction_bootErr (s : State) (fn : Nat) (g : Function → Function) : (s.modFunction fn g).bootErr = s.bootErr := rfl
@[simp] theorem State.modFunction_stkfail (s : State) (fn : Nat) (g : Function → Function) : (s.modFunction fn g).stkfail = s.stkfail := rfl
@[simp] theorem State.modFunction_linksDown (s : State) (fn : Nat) (g : Function → Function) : (s.modFunction fn g).linksDown = s.linksDown := rfl
@[simp] theorem State.modFunction_linkSecret (s : State) (fn : Nat) (g : Function → Function) : (s.modFunction fn g).linkSecret = s.linkSecret := rfl
@[simp] theorem State.modFunction_hrefuseV (s : State) (fn : Nat) (g : Function → Function) : (s.modFunction fn g).hrefuseV = s.hrefuseV := rfl
@[simp] theorem State.modFunction_hrefusePa (s : State) (fn : Nat) (g : Function → Function) : (s.modFunction fn g).hrefusePa = s.hrefusePa := rfl
@[simp] theorem State.modFunction_hcxl (s : State) (fn : Nat) (g : Function → Function) : (s.modFunction fn g).hcxl = s.hcxl := rfl
@[simp] theorem State.modFunction_wxbase (s : State) (fn : Nat) (g : Function → Function) : (s.modFunction fn g).wxbase = s.wxbase := rfl
@[simp] theorem State.modFunction_hwcol (s : State) (fn : Nat) (g : Function → Function) : (s.modFunction fn g).hwcol = s.hwcol := rfl
@[simp] theorem State.modFunction_ethUp (s : State) (fn : Nat) (g : Function → Function) : (s.modFunction fn g).ethUp = s.ethUp := rfl
@[simp] theorem State.modFunction_pwrcap (s : State) (fn : Nat) (g : Function → Function) : (s.modFunction fn g).pwrcap = s.pwrcap := rfl
@[simp] theorem State.modFunction_throttled (s : State) (fn : Nat) (g : Function → Function) : (s.modFunction fn g).throttled = s.throttled := rfl
@[simp] theorem State.modFunction_thermtrip (s : State) (fn : Nat) (g : Function → Function) : (s.modFunction fn g).thermtrip = s.thermtrip := rfl
@[simp] theorem State.modFunction_worldPages (s : State) (fn : Nat) (g : Function → Function) : (s.modFunction fn g).worldPages = s.worldPages := rfl
@[simp] theorem State.modFunction_numVfs (s : State) (fn : Nat) (g : Function → Function) : (s.modFunction fn g).numVfs = s.numVfs := rfl
@[simp] theorem State.modFunction_vfEnable (s : State) (fn : Nat) (g : Function → Function) : (s.modFunction fn g).vfEnable = s.vfEnable := rfl
@[simp] theorem State.modFunction_vfHeld (s : State) (fn : Nat) (g : Function → Function) : (s.modFunction fn g).vfHeld = s.vfHeld := rfl
@[simp] theorem State.modFunction_removals (s : State) (fn : Nat) (g : Function → Function) : (s.modFunction fn g).removals = s.removals := rfl
@[simp] theorem State.modFunction_measures (s : State) (fn : Nat) (g : Function → Function) : (s.modFunction fn g).measures = s.measures := rfl
@[simp] theorem State.modFunction_ideKeys (s : State) (fn : Nat) (g : Function → Function) : (s.modFunction fn g).ideKeys = s.ideKeys := rfl
@[simp] theorem State.modFunction_macsec (s : State) (fn : Nat) (g : Function → Function) : (s.modFunction fn g).macsec = s.macsec := rfl
@[simp] theorem State.modFunction_frames (s : State) (fn : Nat) (g : Function → Function) : (s.modFunction fn g).frames = s.frames := rfl
@[simp] theorem State.modFunction_replies (s : State) (fn : Nat) (g : Function → Function) : (s.modFunction fn g).replies = s.replies := rfl
@[simp] theorem State.modFunction_ceCounts (s : State) (fn : Nat) (g : Function → Function) : (s.modFunction fn g).ceCounts = s.ceCounts := rfl
@[simp] theorem State.modFunction_cePages (s : State) (fn : Nat) (g : Function → Function) : (s.modFunction fn g).cePages = s.cePages := rfl
@[simp] theorem State.modFunction_frozen (s : State) (fn : Nat) (g : Function → Function) : (s.modFunction fn g).frozen = s.frozen := rfl
@[simp] theorem State.modFunction_thawing (s : State) (fn : Nat) (g : Function → Function) : (s.modFunction fn g).thawing = s.thawing := rfl
@[simp] theorem State.modFunction_debugStops (s : State) (fn : Nat) (g : Function → Function) : (s.modFunction fn g).debugStops = s.debugStops := rfl
@[simp] theorem State.modFunction_snaps (s : State) (fn : Nat) (g : Function → Function) : (s.modFunction fn g).snaps = s.snaps := rfl
@[simp] theorem State.modFunction_cluster (s : State) (fn : Nat) (g : Function → Function) (z : Nat) : (s.modFunction fn g).cluster z = s.cluster z := rfl
@[simp] theorem State.modFunction_tile (s : State) (fn : Nat) (g : Function → Function) (z : Nat) : (s.modFunction fn g).tile z = s.tile z := rfl
@[simp] theorem State.modFunction_slice (s : State) (fn : Nat) (g : Function → Function) (z : Nat) : (s.modFunction fn g).slice z = s.slice z := rfl
@[simp] theorem State.modFunction_station (s : State) (fn : Nat) (g : Function → Function) (z : Nat) : (s.modFunction fn g).station z = s.station z := rfl
@[simp] theorem State.modFunction_die (s : State) (fn : Nat) (g : Function → Function) (z : Nat) : (s.modFunction fn g).die z = s.die z := rfl
@[simp] theorem State.modFunction_colour (s : State) (fn : Nat) (g : Function → Function) (z : Colour) : (s.modFunction fn g).colour z = s.colour z := rfl
@[simp] theorem State.modFunction_worldPage (s : State) (fn : Nat) (g : Function → Function) (z : Nat) : (s.modFunction fn g).worldPage z = s.worldPage z := rfl

/-! `modWorldPage` -/
@[simp] theorem State.modWorldPage_agenda (s : State) (w : Nat) (g : WorldPage → WorldPage) : (s.modWorldPage w g).agenda = s.agenda := rfl
@[simp] theorem State.modWorldPage_actor (s : State) (w : Nat) (g : WorldPage → WorldPage) : (s.modWorldPage w g).actor = s.actor := rfl
@[simp] theorem State.modWorldPage_free (s : State) (w : Nat) (g : WorldPage → WorldPage) : (s.modWorldPage w g).free = s.free := rfl
@[simp] theorem State.modWorldPage_seq (s : State) (w : Nat) (g : WorldPage → WorldPage) : (s.modWorldPage w g).seq = s.seq := rfl
@[simp] theorem State.modWorldPage_nextId (s : State) (w : Nat) (g : WorldPage → WorldPage) : (s.modWorldPage w g).nextId = s.nextId := rfl
@[simp] theorem State.modWorldPage_timebase (s : State) (w : Nat) (g : WorldPage → WorldPage) : (s.modWorldPage w g).timebase = s.timebase := rfl
@[simp] theorem State.modWorldPage_cycles (s : State) (w : Nat) (g : WorldPage → WorldPage) : (s.modWorldPage w g).cycles = s.cycles := rfl
@[simp] theorem State.modWorldPage_dram (s : State) (w : Nat) (g : WorldPage → WorldPage) : (s.modWorldPage w g).dram = s.dram := rfl
@[simp] theorem State.modWorldPage_dramKey (s : State) (w : Nat) (g : WorldPage → WorldPage) : (s.modWorldPage w g).dramKey = s.dramKey := rfl
@[simp] theorem State.modWorldPage_dramPoison (s : State) (w : Nat) (g : WorldPage → WorldPage) : (s.modWorldPage w g).dramPoison = s.dramPoison := rfl
@[simp] theorem State.modWorldPage_keySlots (s : State) (w : Nat) (g : WorldPage → WorldPage) : (s.modWorldPage w g).keySlots = s.keySlots := rfl
@[simp] theorem State.modWorldPage_keyFresh (s : State) (w : Nat) (g : WorldPage → WorldPage) : (s.modWorldPage w g).keyFresh = s.keyFresh := rfl
@[simp] theorem State.modWorldPage_colours (s : State) (w : Nat) (g : WorldPage → WorldPage) : (s.modWorldPage w g).colours = s.colours := rfl
@[simp] theorem State.modWorldPage_colourBase (s : State) (w : Nat) (g : WorldPage → WorldPage) : (s.modWorldPage w g).colourBase = s.colourBase := rfl
@[simp] theorem State.modWorldPage_ringBase (s : State) (w : Nat) (g : WorldPage → WorldPage) : (s.modWorldPage w g).ringBase = s.ringBase := rfl
@[simp] theorem State.modWorldPage_rings (s : State) (w : Nat) (g : WorldPage → WorldPage) : (s.modWorldPage w g).rings = s.rings := rfl
@[simp] theorem State.modWorldPage_records (s : State) (w : Nat) (g : WorldPage → WorldPage) : (s.modWorldPage w g).records = s.records := rfl
@[simp] theorem State.modWorldPage_joins (s : State) (w : Nat) (g : WorldPage → WorldPage) : (s.modWorldPage w g).joins = s.joins := rfl
@[simp] theorem State.modWorldPage_clusters (s : State) (w : Nat) (g : WorldPage → WorldPage) : (s.modWorldPage w g).clusters = s.clusters := rfl
@[simp] theorem State.modWorldPage_tiles (s : State) (w : Nat) (g : WorldPage → WorldPage) : (s.modWorldPage w g).tiles = s.tiles := rfl
@[simp] theorem State.modWorldPage_slices (s : State) (w : Nat) (g : WorldPage → WorldPage) : (s.modWorldPage w g).slices = s.slices := rfl
@[simp] theorem State.modWorldPage_stations (s : State) (w : Nat) (g : WorldPage → WorldPage) : (s.modWorldPage w g).stations = s.stations := rfl
@[simp] theorem State.modWorldPage_dies (s : State) (w : Nat) (g : WorldPage → WorldPage) : (s.modWorldPage w g).dies = s.dies := rfl
@[simp] theorem State.modWorldPage_requests (s : State) (w : Nat) (g : WorldPage → WorldPage) : (s.modWorldPage w g).requests = s.requests := rfl
@[simp] theorem State.modWorldPage_net (s : State) (w : Nat) (g : WorldPage → WorldPage) : (s.modWorldPage w g).net = s.net := rfl
@[simp] theorem State.modWorldPage_served (s : State) (w : Nat) (g : WorldPage → WorldPage) : (s.modWorldPage w g).served = s.served := rfl
@[simp] theorem State.modWorldPage_releases (s : State) (w : Nat) (g : WorldPage → WorldPage) : (s.modWorldPage w g).releases = s.releases := rfl
@[simp] theorem State.modWorldPage_faultTokens (s : State) (w : Nat) (g : WorldPage → WorldPage) : (s.modWorldPage w g).faultTokens = s.faultTokens := rfl
@[simp] theorem State.modWorldPage_prefetches (s : State) (w : Nat) (g : WorldPage → WorldPage) : (s.modWorldPage w g).prefetches = s.prefetches := rfl
@[simp] theorem State.modWorldPage_bootStage (s : State) (w : Nat) (g : WorldPage → WorldPage) : (s.modWorldPage w g).bootStage = s.bootStage := rfl
@[simp] theorem State.modWorldPage_bootErr (s : State) (w : Nat) (g : WorldPage → WorldPage) : (s.modWorldPage w g).bootErr = s.bootErr := rfl
@[simp] theorem State.modWorldPage_stkfail (s : State) (w : Nat) (g : WorldPage → WorldPage) : (s.modWorldPage w g).stkfail = s.stkfail := rfl
@[simp] theorem State.modWorldPage_linksDown (s : State) (w : Nat) (g : WorldPage → WorldPage) : (s.modWorldPage w g).linksDown = s.linksDown := rfl
@[simp] theorem State.modWorldPage_linkSecret (s : State) (w : Nat) (g : WorldPage → WorldPage) : (s.modWorldPage w g).linkSecret = s.linkSecret := rfl
@[simp] theorem State.modWorldPage_hrefuseV (s : State) (w : Nat) (g : WorldPage → WorldPage) : (s.modWorldPage w g).hrefuseV = s.hrefuseV := rfl
@[simp] theorem State.modWorldPage_hrefusePa (s : State) (w : Nat) (g : WorldPage → WorldPage) : (s.modWorldPage w g).hrefusePa = s.hrefusePa := rfl
@[simp] theorem State.modWorldPage_hcxl (s : State) (w : Nat) (g : WorldPage → WorldPage) : (s.modWorldPage w g).hcxl = s.hcxl := rfl
@[simp] theorem State.modWorldPage_wxbase (s : State) (w : Nat) (g : WorldPage → WorldPage) : (s.modWorldPage w g).wxbase = s.wxbase := rfl
@[simp] theorem State.modWorldPage_hwcol (s : State) (w : Nat) (g : WorldPage → WorldPage) : (s.modWorldPage w g).hwcol = s.hwcol := rfl
@[simp] theorem State.modWorldPage_ethUp (s : State) (w : Nat) (g : WorldPage → WorldPage) : (s.modWorldPage w g).ethUp = s.ethUp := rfl
@[simp] theorem State.modWorldPage_pwrcap (s : State) (w : Nat) (g : WorldPage → WorldPage) : (s.modWorldPage w g).pwrcap = s.pwrcap := rfl
@[simp] theorem State.modWorldPage_throttled (s : State) (w : Nat) (g : WorldPage → WorldPage) : (s.modWorldPage w g).throttled = s.throttled := rfl
@[simp] theorem State.modWorldPage_thermtrip (s : State) (w : Nat) (g : WorldPage → WorldPage) : (s.modWorldPage w g).thermtrip = s.thermtrip := rfl
@[simp] theorem State.modWorldPage_numVfs (s : State) (w : Nat) (g : WorldPage → WorldPage) : (s.modWorldPage w g).numVfs = s.numVfs := rfl
@[simp] theorem State.modWorldPage_vfEnable (s : State) (w : Nat) (g : WorldPage → WorldPage) : (s.modWorldPage w g).vfEnable = s.vfEnable := rfl
@[simp] theorem State.modWorldPage_vfHeld (s : State) (w : Nat) (g : WorldPage → WorldPage) : (s.modWorldPage w g).vfHeld = s.vfHeld := rfl
@[simp] theorem State.modWorldPage_removals (s : State) (w : Nat) (g : WorldPage → WorldPage) : (s.modWorldPage w g).removals = s.removals := rfl
@[simp] theorem State.modWorldPage_functions (s : State) (w : Nat) (g : WorldPage → WorldPage) : (s.modWorldPage w g).functions = s.functions := rfl
@[simp] theorem State.modWorldPage_measures (s : State) (w : Nat) (g : WorldPage → WorldPage) : (s.modWorldPage w g).measures = s.measures := rfl
@[simp] theorem State.modWorldPage_ideKeys (s : State) (w : Nat) (g : WorldPage → WorldPage) : (s.modWorldPage w g).ideKeys = s.ideKeys := rfl
@[simp] theorem State.modWorldPage_macsec (s : State) (w : Nat) (g : WorldPage → WorldPage) : (s.modWorldPage w g).macsec = s.macsec := rfl
@[simp] theorem State.modWorldPage_frames (s : State) (w : Nat) (g : WorldPage → WorldPage) : (s.modWorldPage w g).frames = s.frames := rfl
@[simp] theorem State.modWorldPage_replies (s : State) (w : Nat) (g : WorldPage → WorldPage) : (s.modWorldPage w g).replies = s.replies := rfl
@[simp] theorem State.modWorldPage_ceCounts (s : State) (w : Nat) (g : WorldPage → WorldPage) : (s.modWorldPage w g).ceCounts = s.ceCounts := rfl
@[simp] theorem State.modWorldPage_cePages (s : State) (w : Nat) (g : WorldPage → WorldPage) : (s.modWorldPage w g).cePages = s.cePages := rfl
@[simp] theorem State.modWorldPage_frozen (s : State) (w : Nat) (g : WorldPage → WorldPage) : (s.modWorldPage w g).frozen = s.frozen := rfl
@[simp] theorem State.modWorldPage_thawing (s : State) (w : Nat) (g : WorldPage → WorldPage) : (s.modWorldPage w g).thawing = s.thawing := rfl
@[simp] theorem State.modWorldPage_debugStops (s : State) (w : Nat) (g : WorldPage → WorldPage) : (s.modWorldPage w g).debugStops = s.debugStops := rfl
@[simp] theorem State.modWorldPage_snaps (s : State) (w : Nat) (g : WorldPage → WorldPage) : (s.modWorldPage w g).snaps = s.snaps := rfl
@[simp] theorem State.modWorldPage_cluster (s : State) (w : Nat) (g : WorldPage → WorldPage) (z : Nat) : (s.modWorldPage w g).cluster z = s.cluster z := rfl
@[simp] theorem State.modWorldPage_tile (s : State) (w : Nat) (g : WorldPage → WorldPage) (z : Nat) : (s.modWorldPage w g).tile z = s.tile z := rfl
@[simp] theorem State.modWorldPage_slice (s : State) (w : Nat) (g : WorldPage → WorldPage) (z : Nat) : (s.modWorldPage w g).slice z = s.slice z := rfl
@[simp] theorem State.modWorldPage_station (s : State) (w : Nat) (g : WorldPage → WorldPage) (z : Nat) : (s.modWorldPage w g).station z = s.station z := rfl
@[simp] theorem State.modWorldPage_die (s : State) (w : Nat) (g : WorldPage → WorldPage) (z : Nat) : (s.modWorldPage w g).die z = s.die z := rfl
@[simp] theorem State.modWorldPage_colour (s : State) (w : Nat) (g : WorldPage → WorldPage) (z : Colour) : (s.modWorldPage w g).colour z = s.colour z := rfl
@[simp] theorem State.modWorldPage_function (s : State) (w : Nat) (g : WorldPage → WorldPage) (z : Nat) : (s.modWorldPage w g).function z = s.function z := rfl

/-! `modContext` -/
@[simp] theorem State.modContext_agenda (s : State) (ck x : Nat) (g : Context → Context) : (s.modContext ck x g).agenda = s.agenda := rfl
@[simp] theorem State.modContext_actor (s : State) (ck x : Nat) (g : Context → Context) : (s.modContext ck x g).actor = s.actor := rfl
@[simp] theorem State.modContext_free (s : State) (ck x : Nat) (g : Context → Context) : (s.modContext ck x g).free = s.free := rfl
@[simp] theorem State.modContext_seq (s : State) (ck x : Nat) (g : Context → Context) : (s.modContext ck x g).seq = s.seq := rfl
@[simp] theorem State.modContext_nextId (s : State) (ck x : Nat) (g : Context → Context) : (s.modContext ck x g).nextId = s.nextId := rfl
@[simp] theorem State.modContext_timebase (s : State) (ck x : Nat) (g : Context → Context) : (s.modContext ck x g).timebase = s.timebase := rfl
@[simp] theorem State.modContext_cycles (s : State) (ck x : Nat) (g : Context → Context) : (s.modContext ck x g).cycles = s.cycles := rfl
@[simp] theorem State.modContext_dram (s : State) (ck x : Nat) (g : Context → Context) : (s.modContext ck x g).dram = s.dram := rfl
@[simp] theorem State.modContext_dramKey (s : State) (ck x : Nat) (g : Context → Context) : (s.modContext ck x g).dramKey = s.dramKey := rfl
@[simp] theorem State.modContext_dramPoison (s : State) (ck x : Nat) (g : Context → Context) : (s.modContext ck x g).dramPoison = s.dramPoison := rfl
@[simp] theorem State.modContext_keySlots (s : State) (ck x : Nat) (g : Context → Context) : (s.modContext ck x g).keySlots = s.keySlots := rfl
@[simp] theorem State.modContext_keyFresh (s : State) (ck x : Nat) (g : Context → Context) : (s.modContext ck x g).keyFresh = s.keyFresh := rfl
@[simp] theorem State.modContext_colours (s : State) (ck x : Nat) (g : Context → Context) : (s.modContext ck x g).colours = s.colours := rfl
@[simp] theorem State.modContext_colourBase (s : State) (ck x : Nat) (g : Context → Context) : (s.modContext ck x g).colourBase = s.colourBase := rfl
@[simp] theorem State.modContext_ringBase (s : State) (ck x : Nat) (g : Context → Context) : (s.modContext ck x g).ringBase = s.ringBase := rfl
@[simp] theorem State.modContext_rings (s : State) (ck x : Nat) (g : Context → Context) : (s.modContext ck x g).rings = s.rings := rfl
@[simp] theorem State.modContext_records (s : State) (ck x : Nat) (g : Context → Context) : (s.modContext ck x g).records = s.records := rfl
@[simp] theorem State.modContext_joins (s : State) (ck x : Nat) (g : Context → Context) : (s.modContext ck x g).joins = s.joins := rfl
@[simp] theorem State.modContext_tiles (s : State) (ck x : Nat) (g : Context → Context) : (s.modContext ck x g).tiles = s.tiles := rfl
@[simp] theorem State.modContext_slices (s : State) (ck x : Nat) (g : Context → Context) : (s.modContext ck x g).slices = s.slices := rfl
@[simp] theorem State.modContext_stations (s : State) (ck x : Nat) (g : Context → Context) : (s.modContext ck x g).stations = s.stations := rfl
@[simp] theorem State.modContext_dies (s : State) (ck x : Nat) (g : Context → Context) : (s.modContext ck x g).dies = s.dies := rfl
@[simp] theorem State.modContext_requests (s : State) (ck x : Nat) (g : Context → Context) : (s.modContext ck x g).requests = s.requests := rfl
@[simp] theorem State.modContext_net (s : State) (ck x : Nat) (g : Context → Context) : (s.modContext ck x g).net = s.net := rfl
@[simp] theorem State.modContext_served (s : State) (ck x : Nat) (g : Context → Context) : (s.modContext ck x g).served = s.served := rfl
@[simp] theorem State.modContext_releases (s : State) (ck x : Nat) (g : Context → Context) : (s.modContext ck x g).releases = s.releases := rfl
@[simp] theorem State.modContext_faultTokens (s : State) (ck x : Nat) (g : Context → Context) : (s.modContext ck x g).faultTokens = s.faultTokens := rfl
@[simp] theorem State.modContext_prefetches (s : State) (ck x : Nat) (g : Context → Context) : (s.modContext ck x g).prefetches = s.prefetches := rfl
@[simp] theorem State.modContext_bootStage (s : State) (ck x : Nat) (g : Context → Context) : (s.modContext ck x g).bootStage = s.bootStage := rfl
@[simp] theorem State.modContext_bootErr (s : State) (ck x : Nat) (g : Context → Context) : (s.modContext ck x g).bootErr = s.bootErr := rfl
@[simp] theorem State.modContext_stkfail (s : State) (ck x : Nat) (g : Context → Context) : (s.modContext ck x g).stkfail = s.stkfail := rfl
@[simp] theorem State.modContext_linksDown (s : State) (ck x : Nat) (g : Context → Context) : (s.modContext ck x g).linksDown = s.linksDown := rfl
@[simp] theorem State.modContext_linkSecret (s : State) (ck x : Nat) (g : Context → Context) : (s.modContext ck x g).linkSecret = s.linkSecret := rfl
@[simp] theorem State.modContext_hrefuseV (s : State) (ck x : Nat) (g : Context → Context) : (s.modContext ck x g).hrefuseV = s.hrefuseV := rfl
@[simp] theorem State.modContext_hrefusePa (s : State) (ck x : Nat) (g : Context → Context) : (s.modContext ck x g).hrefusePa = s.hrefusePa := rfl
@[simp] theorem State.modContext_hcxl (s : State) (ck x : Nat) (g : Context → Context) : (s.modContext ck x g).hcxl = s.hcxl := rfl
@[simp] theorem State.modContext_wxbase (s : State) (ck x : Nat) (g : Context → Context) : (s.modContext ck x g).wxbase = s.wxbase := rfl
@[simp] theorem State.modContext_hwcol (s : State) (ck x : Nat) (g : Context → Context) : (s.modContext ck x g).hwcol = s.hwcol := rfl
@[simp] theorem State.modContext_ethUp (s : State) (ck x : Nat) (g : Context → Context) : (s.modContext ck x g).ethUp = s.ethUp := rfl
@[simp] theorem State.modContext_pwrcap (s : State) (ck x : Nat) (g : Context → Context) : (s.modContext ck x g).pwrcap = s.pwrcap := rfl
@[simp] theorem State.modContext_throttled (s : State) (ck x : Nat) (g : Context → Context) : (s.modContext ck x g).throttled = s.throttled := rfl
@[simp] theorem State.modContext_thermtrip (s : State) (ck x : Nat) (g : Context → Context) : (s.modContext ck x g).thermtrip = s.thermtrip := rfl
@[simp] theorem State.modContext_worldPages (s : State) (ck x : Nat) (g : Context → Context) : (s.modContext ck x g).worldPages = s.worldPages := rfl
@[simp] theorem State.modContext_numVfs (s : State) (ck x : Nat) (g : Context → Context) : (s.modContext ck x g).numVfs = s.numVfs := rfl
@[simp] theorem State.modContext_vfEnable (s : State) (ck x : Nat) (g : Context → Context) : (s.modContext ck x g).vfEnable = s.vfEnable := rfl
@[simp] theorem State.modContext_vfHeld (s : State) (ck x : Nat) (g : Context → Context) : (s.modContext ck x g).vfHeld = s.vfHeld := rfl
@[simp] theorem State.modContext_removals (s : State) (ck x : Nat) (g : Context → Context) : (s.modContext ck x g).removals = s.removals := rfl
@[simp] theorem State.modContext_functions (s : State) (ck x : Nat) (g : Context → Context) : (s.modContext ck x g).functions = s.functions := rfl
@[simp] theorem State.modContext_measures (s : State) (ck x : Nat) (g : Context → Context) : (s.modContext ck x g).measures = s.measures := rfl
@[simp] theorem State.modContext_ideKeys (s : State) (ck x : Nat) (g : Context → Context) : (s.modContext ck x g).ideKeys = s.ideKeys := rfl
@[simp] theorem State.modContext_macsec (s : State) (ck x : Nat) (g : Context → Context) : (s.modContext ck x g).macsec = s.macsec := rfl
@[simp] theorem State.modContext_frames (s : State) (ck x : Nat) (g : Context → Context) : (s.modContext ck x g).frames = s.frames := rfl
@[simp] theorem State.modContext_replies (s : State) (ck x : Nat) (g : Context → Context) : (s.modContext ck x g).replies = s.replies := rfl
@[simp] theorem State.modContext_ceCounts (s : State) (ck x : Nat) (g : Context → Context) : (s.modContext ck x g).ceCounts = s.ceCounts := rfl
@[simp] theorem State.modContext_cePages (s : State) (ck x : Nat) (g : Context → Context) : (s.modContext ck x g).cePages = s.cePages := rfl
@[simp] theorem State.modContext_frozen (s : State) (ck x : Nat) (g : Context → Context) : (s.modContext ck x g).frozen = s.frozen := rfl
@[simp] theorem State.modContext_thawing (s : State) (ck x : Nat) (g : Context → Context) : (s.modContext ck x g).thawing = s.thawing := rfl
@[simp] theorem State.modContext_debugStops (s : State) (ck x : Nat) (g : Context → Context) : (s.modContext ck x g).debugStops = s.debugStops := rfl
@[simp] theorem State.modContext_snaps (s : State) (ck x : Nat) (g : Context → Context) : (s.modContext ck x g).snaps = s.snaps := rfl
@[simp] theorem State.modContext_tile (s : State) (ck x : Nat) (g : Context → Context) (z : Nat) : (s.modContext ck x g).tile z = s.tile z := rfl
@[simp] theorem State.modContext_slice (s : State) (ck x : Nat) (g : Context → Context) (z : Nat) : (s.modContext ck x g).slice z = s.slice z := rfl
@[simp] theorem State.modContext_station (s : State) (ck x : Nat) (g : Context → Context) (z : Nat) : (s.modContext ck x g).station z = s.station z := rfl
@[simp] theorem State.modContext_die (s : State) (ck x : Nat) (g : Context → Context) (z : Nat) : (s.modContext ck x g).die z = s.die z := rfl
@[simp] theorem State.modContext_colour (s : State) (ck x : Nat) (g : Context → Context) (z : Colour) : (s.modContext ck x g).colour z = s.colour z := rfl
@[simp] theorem State.modContext_function (s : State) (ck x : Nat) (g : Context → Context) (z : Nat) : (s.modContext ck x g).function z = s.function z := rfl
@[simp] theorem State.modContext_worldPage (s : State) (ck x : Nat) (g : Context → Context) (z : Nat) : (s.modContext ck x g).worldPage z = s.worldPage z := rfl

/-! `modMe` -/
@[simp] theorem State.modMe_agenda (s : State) (g : Context → Context) : (s.modMe g).agenda = s.agenda := rfl
@[simp] theorem State.modMe_actor (s : State) (g : Context → Context) : (s.modMe g).actor = s.actor := rfl
@[simp] theorem State.modMe_free (s : State) (g : Context → Context) : (s.modMe g).free = s.free := rfl
@[simp] theorem State.modMe_seq (s : State) (g : Context → Context) : (s.modMe g).seq = s.seq := rfl
@[simp] theorem State.modMe_nextId (s : State) (g : Context → Context) : (s.modMe g).nextId = s.nextId := rfl
@[simp] theorem State.modMe_timebase (s : State) (g : Context → Context) : (s.modMe g).timebase = s.timebase := rfl
@[simp] theorem State.modMe_cycles (s : State) (g : Context → Context) : (s.modMe g).cycles = s.cycles := rfl
@[simp] theorem State.modMe_dram (s : State) (g : Context → Context) : (s.modMe g).dram = s.dram := rfl
@[simp] theorem State.modMe_dramKey (s : State) (g : Context → Context) : (s.modMe g).dramKey = s.dramKey := rfl
@[simp] theorem State.modMe_dramPoison (s : State) (g : Context → Context) : (s.modMe g).dramPoison = s.dramPoison := rfl
@[simp] theorem State.modMe_keySlots (s : State) (g : Context → Context) : (s.modMe g).keySlots = s.keySlots := rfl
@[simp] theorem State.modMe_keyFresh (s : State) (g : Context → Context) : (s.modMe g).keyFresh = s.keyFresh := rfl
@[simp] theorem State.modMe_colours (s : State) (g : Context → Context) : (s.modMe g).colours = s.colours := rfl
@[simp] theorem State.modMe_colourBase (s : State) (g : Context → Context) : (s.modMe g).colourBase = s.colourBase := rfl
@[simp] theorem State.modMe_ringBase (s : State) (g : Context → Context) : (s.modMe g).ringBase = s.ringBase := rfl
@[simp] theorem State.modMe_rings (s : State) (g : Context → Context) : (s.modMe g).rings = s.rings := rfl
@[simp] theorem State.modMe_records (s : State) (g : Context → Context) : (s.modMe g).records = s.records := rfl
@[simp] theorem State.modMe_joins (s : State) (g : Context → Context) : (s.modMe g).joins = s.joins := rfl
@[simp] theorem State.modMe_tiles (s : State) (g : Context → Context) : (s.modMe g).tiles = s.tiles := rfl
@[simp] theorem State.modMe_slices (s : State) (g : Context → Context) : (s.modMe g).slices = s.slices := rfl
@[simp] theorem State.modMe_stations (s : State) (g : Context → Context) : (s.modMe g).stations = s.stations := rfl
@[simp] theorem State.modMe_dies (s : State) (g : Context → Context) : (s.modMe g).dies = s.dies := rfl
@[simp] theorem State.modMe_requests (s : State) (g : Context → Context) : (s.modMe g).requests = s.requests := rfl
@[simp] theorem State.modMe_net (s : State) (g : Context → Context) : (s.modMe g).net = s.net := rfl
@[simp] theorem State.modMe_served (s : State) (g : Context → Context) : (s.modMe g).served = s.served := rfl
@[simp] theorem State.modMe_releases (s : State) (g : Context → Context) : (s.modMe g).releases = s.releases := rfl
@[simp] theorem State.modMe_faultTokens (s : State) (g : Context → Context) : (s.modMe g).faultTokens = s.faultTokens := rfl
@[simp] theorem State.modMe_prefetches (s : State) (g : Context → Context) : (s.modMe g).prefetches = s.prefetches := rfl
@[simp] theorem State.modMe_bootStage (s : State) (g : Context → Context) : (s.modMe g).bootStage = s.bootStage := rfl
@[simp] theorem State.modMe_bootErr (s : State) (g : Context → Context) : (s.modMe g).bootErr = s.bootErr := rfl
@[simp] theorem State.modMe_stkfail (s : State) (g : Context → Context) : (s.modMe g).stkfail = s.stkfail := rfl
@[simp] theorem State.modMe_linksDown (s : State) (g : Context → Context) : (s.modMe g).linksDown = s.linksDown := rfl
@[simp] theorem State.modMe_linkSecret (s : State) (g : Context → Context) : (s.modMe g).linkSecret = s.linkSecret := rfl
@[simp] theorem State.modMe_hrefuseV (s : State) (g : Context → Context) : (s.modMe g).hrefuseV = s.hrefuseV := rfl
@[simp] theorem State.modMe_hrefusePa (s : State) (g : Context → Context) : (s.modMe g).hrefusePa = s.hrefusePa := rfl
@[simp] theorem State.modMe_hcxl (s : State) (g : Context → Context) : (s.modMe g).hcxl = s.hcxl := rfl
@[simp] theorem State.modMe_wxbase (s : State) (g : Context → Context) : (s.modMe g).wxbase = s.wxbase := rfl
@[simp] theorem State.modMe_hwcol (s : State) (g : Context → Context) : (s.modMe g).hwcol = s.hwcol := rfl
@[simp] theorem State.modMe_ethUp (s : State) (g : Context → Context) : (s.modMe g).ethUp = s.ethUp := rfl
@[simp] theorem State.modMe_pwrcap (s : State) (g : Context → Context) : (s.modMe g).pwrcap = s.pwrcap := rfl
@[simp] theorem State.modMe_throttled (s : State) (g : Context → Context) : (s.modMe g).throttled = s.throttled := rfl
@[simp] theorem State.modMe_thermtrip (s : State) (g : Context → Context) : (s.modMe g).thermtrip = s.thermtrip := rfl
@[simp] theorem State.modMe_worldPages (s : State) (g : Context → Context) : (s.modMe g).worldPages = s.worldPages := rfl
@[simp] theorem State.modMe_numVfs (s : State) (g : Context → Context) : (s.modMe g).numVfs = s.numVfs := rfl
@[simp] theorem State.modMe_vfEnable (s : State) (g : Context → Context) : (s.modMe g).vfEnable = s.vfEnable := rfl
@[simp] theorem State.modMe_vfHeld (s : State) (g : Context → Context) : (s.modMe g).vfHeld = s.vfHeld := rfl
@[simp] theorem State.modMe_removals (s : State) (g : Context → Context) : (s.modMe g).removals = s.removals := rfl
@[simp] theorem State.modMe_functions (s : State) (g : Context → Context) : (s.modMe g).functions = s.functions := rfl
@[simp] theorem State.modMe_measures (s : State) (g : Context → Context) : (s.modMe g).measures = s.measures := rfl
@[simp] theorem State.modMe_ideKeys (s : State) (g : Context → Context) : (s.modMe g).ideKeys = s.ideKeys := rfl
@[simp] theorem State.modMe_macsec (s : State) (g : Context → Context) : (s.modMe g).macsec = s.macsec := rfl
@[simp] theorem State.modMe_frames (s : State) (g : Context → Context) : (s.modMe g).frames = s.frames := rfl
@[simp] theorem State.modMe_replies (s : State) (g : Context → Context) : (s.modMe g).replies = s.replies := rfl
@[simp] theorem State.modMe_ceCounts (s : State) (g : Context → Context) : (s.modMe g).ceCounts = s.ceCounts := rfl
@[simp] theorem State.modMe_cePages (s : State) (g : Context → Context) : (s.modMe g).cePages = s.cePages := rfl
@[simp] theorem State.modMe_frozen (s : State) (g : Context → Context) : (s.modMe g).frozen = s.frozen := rfl
@[simp] theorem State.modMe_thawing (s : State) (g : Context → Context) : (s.modMe g).thawing = s.thawing := rfl
@[simp] theorem State.modMe_debugStops (s : State) (g : Context → Context) : (s.modMe g).debugStops = s.debugStops := rfl
@[simp] theorem State.modMe_snaps (s : State) (g : Context → Context) : (s.modMe g).snaps = s.snaps := rfl
@[simp] theorem State.modMe_tile (s : State) (g : Context → Context) (z : Nat) : (s.modMe g).tile z = s.tile z := rfl
@[simp] theorem State.modMe_slice (s : State) (g : Context → Context) (z : Nat) : (s.modMe g).slice z = s.slice z := rfl
@[simp] theorem State.modMe_station (s : State) (g : Context → Context) (z : Nat) : (s.modMe g).station z = s.station z := rfl
@[simp] theorem State.modMe_die (s : State) (g : Context → Context) (z : Nat) : (s.modMe g).die z = s.die z := rfl
@[simp] theorem State.modMe_colour (s : State) (g : Context → Context) (z : Colour) : (s.modMe g).colour z = s.colour z := rfl
@[simp] theorem State.modMe_function (s : State) (g : Context → Context) (z : Nat) : (s.modMe g).function z = s.function z := rfl
@[simp] theorem State.modMe_worldPage (s : State) (g : Context → Context) (z : Nat) : (s.modMe g).worldPage z = s.worldPage z := rfl

/-! Bytes changed in memory, ring descriptors and colour-table entries. -/

/-- A left fold whose steps relate a state to the next one relates the first to the last. -/
theorem foldl_rel {α β : Type} {R : α → α → Prop} (hr : ∀ a, R a a) (ht : ∀ a b c, R a b → R b c → R a c)
    (f : α → β → α) (h : ∀ a b, R a (f a b)) (l : List β) (a : α) : R a (l.foldl f a) := by
  induction l generalizing a with
  | nil => exact hr a
  | cons b r ih => exact ht _ _ _ (h a b) (ih (f a b))
/-- A change of bytes reaches DRAM and slices alone. -/
theorem State.poke_frame (s : State) (pa : Nat) (bs : List Byte) :
    s.poke pa bs = { s with dram := (s.poke pa bs).dram, dramKey := (s.poke pa bs).dramKey, slices := (s.poke pa bs).slices } :=
  foldl_rel (R := fun a b : State => b = { a with dram := b.dram, dramKey := b.dramKey, slices := b.slices }) (fun _ => rfl)
    (fun _ _ _ h k => by rw [k, h]) _ (fun s p => by simp only; split <;> rfl) _ _
@[simp] theorem State.poke_agenda (s : State) (pa : Nat) (bs : List Byte) : (s.poke pa bs).agenda = s.agenda :=
  (congrArg State.agenda (s.poke_frame pa bs) :)
@[simp] theorem State.poke_actor (s : State) (pa : Nat) (bs : List Byte) : (s.poke pa bs).actor = s.actor :=
  (congrArg State.actor (s.poke_frame pa bs) :)
@[simp] theorem State.poke_free (s : State) (pa : Nat) (bs : List Byte) : (s.poke pa bs).free = s.free :=
  (congrArg State.free (s.poke_frame pa bs) :)
@[simp] theorem State.poke_seq (s : State) (pa : Nat) (bs : List Byte) : (s.poke pa bs).seq = s.seq :=
  (congrArg State.seq (s.poke_frame pa bs) :)
@[simp] theorem State.poke_nextId (s : State) (pa : Nat) (bs : List Byte) : (s.poke pa bs).nextId = s.nextId :=
  (congrArg State.nextId (s.poke_frame pa bs) :)
@[simp] theorem State.poke_timebase (s : State) (pa : Nat) (bs : List Byte) : (s.poke pa bs).timebase = s.timebase :=
  (congrArg State.timebase (s.poke_frame pa bs) :)
@[simp] theorem State.poke_cycles (s : State) (pa : Nat) (bs : List Byte) : (s.poke pa bs).cycles = s.cycles :=
  (congrArg State.cycles (s.poke_frame pa bs) :)
@[simp] theorem State.poke_dramPoison (s : State) (pa : Nat) (bs : List Byte) : (s.poke pa bs).dramPoison = s.dramPoison :=
  (congrArg State.dramPoison (s.poke_frame pa bs) :)
@[simp] theorem State.poke_keySlots (s : State) (pa : Nat) (bs : List Byte) : (s.poke pa bs).keySlots = s.keySlots :=
  (congrArg State.keySlots (s.poke_frame pa bs) :)
@[simp] theorem State.poke_keyFresh (s : State) (pa : Nat) (bs : List Byte) : (s.poke pa bs).keyFresh = s.keyFresh :=
  (congrArg State.keyFresh (s.poke_frame pa bs) :)
@[simp] theorem State.poke_colours (s : State) (pa : Nat) (bs : List Byte) : (s.poke pa bs).colours = s.colours :=
  (congrArg State.colours (s.poke_frame pa bs) :)
@[simp] theorem State.poke_colourBase (s : State) (pa : Nat) (bs : List Byte) : (s.poke pa bs).colourBase = s.colourBase :=
  (congrArg State.colourBase (s.poke_frame pa bs) :)
@[simp] theorem State.poke_ringBase (s : State) (pa : Nat) (bs : List Byte) : (s.poke pa bs).ringBase = s.ringBase :=
  (congrArg State.ringBase (s.poke_frame pa bs) :)
@[simp] theorem State.poke_rings (s : State) (pa : Nat) (bs : List Byte) : (s.poke pa bs).rings = s.rings :=
  (congrArg State.rings (s.poke_frame pa bs) :)
@[simp] theorem State.poke_records (s : State) (pa : Nat) (bs : List Byte) : (s.poke pa bs).records = s.records :=
  (congrArg State.records (s.poke_frame pa bs) :)
@[simp] theorem State.poke_joins (s : State) (pa : Nat) (bs : List Byte) : (s.poke pa bs).joins = s.joins :=
  (congrArg State.joins (s.poke_frame pa bs) :)
@[simp] theorem State.poke_clusters (s : State) (pa : Nat) (bs : List Byte) : (s.poke pa bs).clusters = s.clusters :=
  (congrArg State.clusters (s.poke_frame pa bs) :)
@[simp] theorem State.poke_tiles (s : State) (pa : Nat) (bs : List Byte) : (s.poke pa bs).tiles = s.tiles :=
  (congrArg State.tiles (s.poke_frame pa bs) :)
@[simp] theorem State.poke_stations (s : State) (pa : Nat) (bs : List Byte) : (s.poke pa bs).stations = s.stations :=
  (congrArg State.stations (s.poke_frame pa bs) :)
@[simp] theorem State.poke_dies (s : State) (pa : Nat) (bs : List Byte) : (s.poke pa bs).dies = s.dies :=
  (congrArg State.dies (s.poke_frame pa bs) :)
@[simp] theorem State.poke_requests (s : State) (pa : Nat) (bs : List Byte) : (s.poke pa bs).requests = s.requests :=
  (congrArg State.requests (s.poke_frame pa bs) :)
@[simp] theorem State.poke_net (s : State) (pa : Nat) (bs : List Byte) : (s.poke pa bs).net = s.net :=
  (congrArg State.net (s.poke_frame pa bs) :)
@[simp] theorem State.poke_served (s : State) (pa : Nat) (bs : List Byte) : (s.poke pa bs).served = s.served :=
  (congrArg State.served (s.poke_frame pa bs) :)
@[simp] theorem State.poke_releases (s : State) (pa : Nat) (bs : List Byte) : (s.poke pa bs).releases = s.releases :=
  (congrArg State.releases (s.poke_frame pa bs) :)
@[simp] theorem State.poke_faultTokens (s : State) (pa : Nat) (bs : List Byte) : (s.poke pa bs).faultTokens = s.faultTokens :=
  (congrArg State.faultTokens (s.poke_frame pa bs) :)
@[simp] theorem State.poke_prefetches (s : State) (pa : Nat) (bs : List Byte) : (s.poke pa bs).prefetches = s.prefetches :=
  (congrArg State.prefetches (s.poke_frame pa bs) :)
@[simp] theorem State.poke_bootStage (s : State) (pa : Nat) (bs : List Byte) : (s.poke pa bs).bootStage = s.bootStage :=
  (congrArg State.bootStage (s.poke_frame pa bs) :)
@[simp] theorem State.poke_bootErr (s : State) (pa : Nat) (bs : List Byte) : (s.poke pa bs).bootErr = s.bootErr :=
  (congrArg State.bootErr (s.poke_frame pa bs) :)
@[simp] theorem State.poke_stkfail (s : State) (pa : Nat) (bs : List Byte) : (s.poke pa bs).stkfail = s.stkfail :=
  (congrArg State.stkfail (s.poke_frame pa bs) :)
@[simp] theorem State.poke_linksDown (s : State) (pa : Nat) (bs : List Byte) : (s.poke pa bs).linksDown = s.linksDown :=
  (congrArg State.linksDown (s.poke_frame pa bs) :)
@[simp] theorem State.poke_linkSecret (s : State) (pa : Nat) (bs : List Byte) : (s.poke pa bs).linkSecret = s.linkSecret :=
  (congrArg State.linkSecret (s.poke_frame pa bs) :)
@[simp] theorem State.poke_hrefuseV (s : State) (pa : Nat) (bs : List Byte) : (s.poke pa bs).hrefuseV = s.hrefuseV :=
  (congrArg State.hrefuseV (s.poke_frame pa bs) :)
@[simp] theorem State.poke_hrefusePa (s : State) (pa : Nat) (bs : List Byte) : (s.poke pa bs).hrefusePa = s.hrefusePa :=
  (congrArg State.hrefusePa (s.poke_frame pa bs) :)
@[simp] theorem State.poke_hcxl (s : State) (pa : Nat) (bs : List Byte) : (s.poke pa bs).hcxl = s.hcxl :=
  (congrArg State.hcxl (s.poke_frame pa bs) :)
@[simp] theorem State.poke_wxbase (s : State) (pa : Nat) (bs : List Byte) : (s.poke pa bs).wxbase = s.wxbase :=
  (congrArg State.wxbase (s.poke_frame pa bs) :)
@[simp] theorem State.poke_hwcol (s : State) (pa : Nat) (bs : List Byte) : (s.poke pa bs).hwcol = s.hwcol :=
  (congrArg State.hwcol (s.poke_frame pa bs) :)
@[simp] theorem State.poke_ethUp (s : State) (pa : Nat) (bs : List Byte) : (s.poke pa bs).ethUp = s.ethUp :=
  (congrArg State.ethUp (s.poke_frame pa bs) :)
@[simp] theorem State.poke_pwrcap (s : State) (pa : Nat) (bs : List Byte) : (s.poke pa bs).pwrcap = s.pwrcap :=
  (congrArg State.pwrcap (s.poke_frame pa bs) :)
@[simp] theorem State.poke_throttled (s : State) (pa : Nat) (bs : List Byte) : (s.poke pa bs).throttled = s.throttled :=
  (congrArg State.throttled (s.poke_frame pa bs) :)
@[simp] theorem State.poke_thermtrip (s : State) (pa : Nat) (bs : List Byte) : (s.poke pa bs).thermtrip = s.thermtrip :=
  (congrArg State.thermtrip (s.poke_frame pa bs) :)
@[simp] theorem State.poke_worldPages (s : State) (pa : Nat) (bs : List Byte) : (s.poke pa bs).worldPages = s.worldPages :=
  (congrArg State.worldPages (s.poke_frame pa bs) :)
@[simp] theorem State.poke_numVfs (s : State) (pa : Nat) (bs : List Byte) : (s.poke pa bs).numVfs = s.numVfs :=
  (congrArg State.numVfs (s.poke_frame pa bs) :)
@[simp] theorem State.poke_vfEnable (s : State) (pa : Nat) (bs : List Byte) : (s.poke pa bs).vfEnable = s.vfEnable :=
  (congrArg State.vfEnable (s.poke_frame pa bs) :)
@[simp] theorem State.poke_vfHeld (s : State) (pa : Nat) (bs : List Byte) : (s.poke pa bs).vfHeld = s.vfHeld :=
  (congrArg State.vfHeld (s.poke_frame pa bs) :)
@[simp] theorem State.poke_removals (s : State) (pa : Nat) (bs : List Byte) : (s.poke pa bs).removals = s.removals :=
  (congrArg State.removals (s.poke_frame pa bs) :)
@[simp] theorem State.poke_functions (s : State) (pa : Nat) (bs : List Byte) : (s.poke pa bs).functions = s.functions :=
  (congrArg State.functions (s.poke_frame pa bs) :)
@[simp] theorem State.poke_measures (s : State) (pa : Nat) (bs : List Byte) : (s.poke pa bs).measures = s.measures :=
  (congrArg State.measures (s.poke_frame pa bs) :)
@[simp] theorem State.poke_ideKeys (s : State) (pa : Nat) (bs : List Byte) : (s.poke pa bs).ideKeys = s.ideKeys :=
  (congrArg State.ideKeys (s.poke_frame pa bs) :)
@[simp] theorem State.poke_macsec (s : State) (pa : Nat) (bs : List Byte) : (s.poke pa bs).macsec = s.macsec :=
  (congrArg State.macsec (s.poke_frame pa bs) :)
@[simp] theorem State.poke_frames (s : State) (pa : Nat) (bs : List Byte) : (s.poke pa bs).frames = s.frames :=
  (congrArg State.frames (s.poke_frame pa bs) :)
@[simp] theorem State.poke_replies (s : State) (pa : Nat) (bs : List Byte) : (s.poke pa bs).replies = s.replies :=
  (congrArg State.replies (s.poke_frame pa bs) :)
@[simp] theorem State.poke_ceCounts (s : State) (pa : Nat) (bs : List Byte) : (s.poke pa bs).ceCounts = s.ceCounts :=
  (congrArg State.ceCounts (s.poke_frame pa bs) :)
@[simp] theorem State.poke_cePages (s : State) (pa : Nat) (bs : List Byte) : (s.poke pa bs).cePages = s.cePages :=
  (congrArg State.cePages (s.poke_frame pa bs) :)
@[simp] theorem State.poke_frozen (s : State) (pa : Nat) (bs : List Byte) : (s.poke pa bs).frozen = s.frozen :=
  (congrArg State.frozen (s.poke_frame pa bs) :)
@[simp] theorem State.poke_thawing (s : State) (pa : Nat) (bs : List Byte) : (s.poke pa bs).thawing = s.thawing :=
  (congrArg State.thawing (s.poke_frame pa bs) :)
@[simp] theorem State.poke_debugStops (s : State) (pa : Nat) (bs : List Byte) : (s.poke pa bs).debugStops = s.debugStops :=
  (congrArg State.debugStops (s.poke_frame pa bs) :)
@[simp] theorem State.poke_snaps (s : State) (pa : Nat) (bs : List Byte) : (s.poke pa bs).snaps = s.snaps :=
  (congrArg State.snaps (s.poke_frame pa bs) :)
/-- An update of a ring descriptor is one of its bytes, and of what the event unit keeps. -/
theorem State.modRing_eq (s : State) (n : Nat) (g : Ring → Ring) : s.modRing n g =
    { s.poke (s.ringAt n) (natBytes 32 (g (s.ring n)).toNat) with
      rings := Map.put s.rings n { Ring.reset with vec := (g (s.ring n)).vec, cons := (g (s.ring n)).cons, dropped := (g (s.ring n)).dropped } } := by
  unfold State.modRing; rfl
@[simp] theorem State.modRing_agenda (s : State) (n : Nat) (g : Ring → Ring) : (s.modRing n g).agenda = s.agenda := by
  rw [s.modRing_eq n g]; simp only [State.poke_agenda]
@[simp] theorem State.modRing_actor (s : State) (n : Nat) (g : Ring → Ring) : (s.modRing n g).actor = s.actor := by
  rw [s.modRing_eq n g]; simp only [State.poke_actor]
@[simp] theorem State.modRing_free (s : State) (n : Nat) (g : Ring → Ring) : (s.modRing n g).free = s.free := by
  rw [s.modRing_eq n g]; simp only [State.poke_free]
@[simp] theorem State.modRing_seq (s : State) (n : Nat) (g : Ring → Ring) : (s.modRing n g).seq = s.seq := by
  rw [s.modRing_eq n g]; simp only [State.poke_seq]
@[simp] theorem State.modRing_nextId (s : State) (n : Nat) (g : Ring → Ring) : (s.modRing n g).nextId = s.nextId := by
  rw [s.modRing_eq n g]; simp only [State.poke_nextId]
@[simp] theorem State.modRing_timebase (s : State) (n : Nat) (g : Ring → Ring) : (s.modRing n g).timebase = s.timebase := by
  rw [s.modRing_eq n g]; simp only [State.poke_timebase]
@[simp] theorem State.modRing_cycles (s : State) (n : Nat) (g : Ring → Ring) : (s.modRing n g).cycles = s.cycles := by
  rw [s.modRing_eq n g]; simp only [State.poke_cycles]
@[simp] theorem State.modRing_dramPoison (s : State) (n : Nat) (g : Ring → Ring) : (s.modRing n g).dramPoison = s.dramPoison := by
  rw [s.modRing_eq n g]; simp only [State.poke_dramPoison]
@[simp] theorem State.modRing_keySlots (s : State) (n : Nat) (g : Ring → Ring) : (s.modRing n g).keySlots = s.keySlots := by
  rw [s.modRing_eq n g]; simp only [State.poke_keySlots]
@[simp] theorem State.modRing_keyFresh (s : State) (n : Nat) (g : Ring → Ring) : (s.modRing n g).keyFresh = s.keyFresh := by
  rw [s.modRing_eq n g]; simp only [State.poke_keyFresh]
@[simp] theorem State.modRing_colours (s : State) (n : Nat) (g : Ring → Ring) : (s.modRing n g).colours = s.colours := by
  rw [s.modRing_eq n g]; simp only [State.poke_colours]
@[simp] theorem State.modRing_colourBase (s : State) (n : Nat) (g : Ring → Ring) : (s.modRing n g).colourBase = s.colourBase := by
  rw [s.modRing_eq n g]; simp only [State.poke_colourBase]
@[simp] theorem State.modRing_ringBase (s : State) (n : Nat) (g : Ring → Ring) : (s.modRing n g).ringBase = s.ringBase := by
  rw [s.modRing_eq n g]; simp only [State.poke_ringBase]
@[simp] theorem State.modRing_records (s : State) (n : Nat) (g : Ring → Ring) : (s.modRing n g).records = s.records := by
  rw [s.modRing_eq n g]; simp only [State.poke_records]
@[simp] theorem State.modRing_joins (s : State) (n : Nat) (g : Ring → Ring) : (s.modRing n g).joins = s.joins := by
  rw [s.modRing_eq n g]; simp only [State.poke_joins]
@[simp] theorem State.modRing_clusters (s : State) (n : Nat) (g : Ring → Ring) : (s.modRing n g).clusters = s.clusters := by
  rw [s.modRing_eq n g]; simp only [State.poke_clusters]
@[simp] theorem State.modRing_tiles (s : State) (n : Nat) (g : Ring → Ring) : (s.modRing n g).tiles = s.tiles := by
  rw [s.modRing_eq n g]; simp only [State.poke_tiles]
@[simp] theorem State.modRing_stations (s : State) (n : Nat) (g : Ring → Ring) : (s.modRing n g).stations = s.stations := by
  rw [s.modRing_eq n g]; simp only [State.poke_stations]
@[simp] theorem State.modRing_dies (s : State) (n : Nat) (g : Ring → Ring) : (s.modRing n g).dies = s.dies := by
  rw [s.modRing_eq n g]; simp only [State.poke_dies]
@[simp] theorem State.modRing_requests (s : State) (n : Nat) (g : Ring → Ring) : (s.modRing n g).requests = s.requests := by
  rw [s.modRing_eq n g]; simp only [State.poke_requests]
@[simp] theorem State.modRing_net (s : State) (n : Nat) (g : Ring → Ring) : (s.modRing n g).net = s.net := by
  rw [s.modRing_eq n g]; simp only [State.poke_net]
@[simp] theorem State.modRing_served (s : State) (n : Nat) (g : Ring → Ring) : (s.modRing n g).served = s.served := by
  rw [s.modRing_eq n g]; simp only [State.poke_served]
@[simp] theorem State.modRing_releases (s : State) (n : Nat) (g : Ring → Ring) : (s.modRing n g).releases = s.releases := by
  rw [s.modRing_eq n g]; simp only [State.poke_releases]
@[simp] theorem State.modRing_faultTokens (s : State) (n : Nat) (g : Ring → Ring) : (s.modRing n g).faultTokens = s.faultTokens := by
  rw [s.modRing_eq n g]; simp only [State.poke_faultTokens]
@[simp] theorem State.modRing_prefetches (s : State) (n : Nat) (g : Ring → Ring) : (s.modRing n g).prefetches = s.prefetches := by
  rw [s.modRing_eq n g]; simp only [State.poke_prefetches]
@[simp] theorem State.modRing_bootStage (s : State) (n : Nat) (g : Ring → Ring) : (s.modRing n g).bootStage = s.bootStage := by
  rw [s.modRing_eq n g]; simp only [State.poke_bootStage]
@[simp] theorem State.modRing_bootErr (s : State) (n : Nat) (g : Ring → Ring) : (s.modRing n g).bootErr = s.bootErr := by
  rw [s.modRing_eq n g]; simp only [State.poke_bootErr]
@[simp] theorem State.modRing_stkfail (s : State) (n : Nat) (g : Ring → Ring) : (s.modRing n g).stkfail = s.stkfail := by
  rw [s.modRing_eq n g]; simp only [State.poke_stkfail]
@[simp] theorem State.modRing_linksDown (s : State) (n : Nat) (g : Ring → Ring) : (s.modRing n g).linksDown = s.linksDown := by
  rw [s.modRing_eq n g]; simp only [State.poke_linksDown]
@[simp] theorem State.modRing_linkSecret (s : State) (n : Nat) (g : Ring → Ring) : (s.modRing n g).linkSecret = s.linkSecret := by
  rw [s.modRing_eq n g]; simp only [State.poke_linkSecret]
@[simp] theorem State.modRing_hrefuseV (s : State) (n : Nat) (g : Ring → Ring) : (s.modRing n g).hrefuseV = s.hrefuseV := by
  rw [s.modRing_eq n g]; simp only [State.poke_hrefuseV]
@[simp] theorem State.modRing_hrefusePa (s : State) (n : Nat) (g : Ring → Ring) : (s.modRing n g).hrefusePa = s.hrefusePa := by
  rw [s.modRing_eq n g]; simp only [State.poke_hrefusePa]
@[simp] theorem State.modRing_hcxl (s : State) (n : Nat) (g : Ring → Ring) : (s.modRing n g).hcxl = s.hcxl := by
  rw [s.modRing_eq n g]; simp only [State.poke_hcxl]
@[simp] theorem State.modRing_wxbase (s : State) (n : Nat) (g : Ring → Ring) : (s.modRing n g).wxbase = s.wxbase := by
  rw [s.modRing_eq n g]; simp only [State.poke_wxbase]
@[simp] theorem State.modRing_hwcol (s : State) (n : Nat) (g : Ring → Ring) : (s.modRing n g).hwcol = s.hwcol := by
  rw [s.modRing_eq n g]; simp only [State.poke_hwcol]
@[simp] theorem State.modRing_ethUp (s : State) (n : Nat) (g : Ring → Ring) : (s.modRing n g).ethUp = s.ethUp := by
  rw [s.modRing_eq n g]; simp only [State.poke_ethUp]
@[simp] theorem State.modRing_pwrcap (s : State) (n : Nat) (g : Ring → Ring) : (s.modRing n g).pwrcap = s.pwrcap := by
  rw [s.modRing_eq n g]; simp only [State.poke_pwrcap]
@[simp] theorem State.modRing_throttled (s : State) (n : Nat) (g : Ring → Ring) : (s.modRing n g).throttled = s.throttled := by
  rw [s.modRing_eq n g]; simp only [State.poke_throttled]
@[simp] theorem State.modRing_thermtrip (s : State) (n : Nat) (g : Ring → Ring) : (s.modRing n g).thermtrip = s.thermtrip := by
  rw [s.modRing_eq n g]; simp only [State.poke_thermtrip]
@[simp] theorem State.modRing_worldPages (s : State) (n : Nat) (g : Ring → Ring) : (s.modRing n g).worldPages = s.worldPages := by
  rw [s.modRing_eq n g]; simp only [State.poke_worldPages]
@[simp] theorem State.modRing_numVfs (s : State) (n : Nat) (g : Ring → Ring) : (s.modRing n g).numVfs = s.numVfs := by
  rw [s.modRing_eq n g]; simp only [State.poke_numVfs]
@[simp] theorem State.modRing_vfEnable (s : State) (n : Nat) (g : Ring → Ring) : (s.modRing n g).vfEnable = s.vfEnable := by
  rw [s.modRing_eq n g]; simp only [State.poke_vfEnable]
@[simp] theorem State.modRing_vfHeld (s : State) (n : Nat) (g : Ring → Ring) : (s.modRing n g).vfHeld = s.vfHeld := by
  rw [s.modRing_eq n g]; simp only [State.poke_vfHeld]
@[simp] theorem State.modRing_removals (s : State) (n : Nat) (g : Ring → Ring) : (s.modRing n g).removals = s.removals := by
  rw [s.modRing_eq n g]; simp only [State.poke_removals]
@[simp] theorem State.modRing_functions (s : State) (n : Nat) (g : Ring → Ring) : (s.modRing n g).functions = s.functions := by
  rw [s.modRing_eq n g]; simp only [State.poke_functions]
@[simp] theorem State.modRing_measures (s : State) (n : Nat) (g : Ring → Ring) : (s.modRing n g).measures = s.measures := by
  rw [s.modRing_eq n g]; simp only [State.poke_measures]
@[simp] theorem State.modRing_ideKeys (s : State) (n : Nat) (g : Ring → Ring) : (s.modRing n g).ideKeys = s.ideKeys := by
  rw [s.modRing_eq n g]; simp only [State.poke_ideKeys]
@[simp] theorem State.modRing_macsec (s : State) (n : Nat) (g : Ring → Ring) : (s.modRing n g).macsec = s.macsec := by
  rw [s.modRing_eq n g]; simp only [State.poke_macsec]
@[simp] theorem State.modRing_frames (s : State) (n : Nat) (g : Ring → Ring) : (s.modRing n g).frames = s.frames := by
  rw [s.modRing_eq n g]; simp only [State.poke_frames]
@[simp] theorem State.modRing_replies (s : State) (n : Nat) (g : Ring → Ring) : (s.modRing n g).replies = s.replies := by
  rw [s.modRing_eq n g]; simp only [State.poke_replies]
@[simp] theorem State.modRing_ceCounts (s : State) (n : Nat) (g : Ring → Ring) : (s.modRing n g).ceCounts = s.ceCounts := by
  rw [s.modRing_eq n g]; simp only [State.poke_ceCounts]
@[simp] theorem State.modRing_cePages (s : State) (n : Nat) (g : Ring → Ring) : (s.modRing n g).cePages = s.cePages := by
  rw [s.modRing_eq n g]; simp only [State.poke_cePages]
@[simp] theorem State.modRing_frozen (s : State) (n : Nat) (g : Ring → Ring) : (s.modRing n g).frozen = s.frozen := by
  rw [s.modRing_eq n g]; simp only [State.poke_frozen]
@[simp] theorem State.modRing_thawing (s : State) (n : Nat) (g : Ring → Ring) : (s.modRing n g).thawing = s.thawing := by
  rw [s.modRing_eq n g]; simp only [State.poke_thawing]
@[simp] theorem State.modRing_debugStops (s : State) (n : Nat) (g : Ring → Ring) : (s.modRing n g).debugStops = s.debugStops := by
  rw [s.modRing_eq n g]; simp only [State.poke_debugStops]
@[simp] theorem State.modRing_snaps (s : State) (n : Nat) (g : Ring → Ring) : (s.modRing n g).snaps = s.snaps := by
  rw [s.modRing_eq n g]; simp only [State.poke_snaps]
@[simp] theorem State.setColour_agenda (s : State) (c : Colour) (g : ColourEntry → ColourEntry) : (s.setColour c g).agenda = s.agenda :=
  (s.modColour c g).poke_agenda (s.colourBase + 32 * c.toNat) (natBytes 32 ((s.modColour c g).colour c).toNat)
@[simp] theorem State.setColour_actor (s : State) (c : Colour) (g : ColourEntry → ColourEntry) : (s.setColour c g).actor = s.actor :=
  (s.modColour c g).poke_actor (s.colourBase + 32 * c.toNat) (natBytes 32 ((s.modColour c g).colour c).toNat)
@[simp] theorem State.setColour_free (s : State) (c : Colour) (g : ColourEntry → ColourEntry) : (s.setColour c g).free = s.free :=
  (s.modColour c g).poke_free (s.colourBase + 32 * c.toNat) (natBytes 32 ((s.modColour c g).colour c).toNat)
@[simp] theorem State.setColour_seq (s : State) (c : Colour) (g : ColourEntry → ColourEntry) : (s.setColour c g).seq = s.seq :=
  (s.modColour c g).poke_seq (s.colourBase + 32 * c.toNat) (natBytes 32 ((s.modColour c g).colour c).toNat)
@[simp] theorem State.setColour_nextId (s : State) (c : Colour) (g : ColourEntry → ColourEntry) : (s.setColour c g).nextId = s.nextId :=
  (s.modColour c g).poke_nextId (s.colourBase + 32 * c.toNat) (natBytes 32 ((s.modColour c g).colour c).toNat)
@[simp] theorem State.setColour_timebase (s : State) (c : Colour) (g : ColourEntry → ColourEntry) : (s.setColour c g).timebase = s.timebase :=
  (s.modColour c g).poke_timebase (s.colourBase + 32 * c.toNat) (natBytes 32 ((s.modColour c g).colour c).toNat)
@[simp] theorem State.setColour_cycles (s : State) (c : Colour) (g : ColourEntry → ColourEntry) : (s.setColour c g).cycles = s.cycles :=
  (s.modColour c g).poke_cycles (s.colourBase + 32 * c.toNat) (natBytes 32 ((s.modColour c g).colour c).toNat)
@[simp] theorem State.setColour_dramPoison (s : State) (c : Colour) (g : ColourEntry → ColourEntry) : (s.setColour c g).dramPoison = s.dramPoison :=
  (s.modColour c g).poke_dramPoison (s.colourBase + 32 * c.toNat) (natBytes 32 ((s.modColour c g).colour c).toNat)
@[simp] theorem State.setColour_keySlots (s : State) (c : Colour) (g : ColourEntry → ColourEntry) : (s.setColour c g).keySlots = s.keySlots :=
  (s.modColour c g).poke_keySlots (s.colourBase + 32 * c.toNat) (natBytes 32 ((s.modColour c g).colour c).toNat)
@[simp] theorem State.setColour_keyFresh (s : State) (c : Colour) (g : ColourEntry → ColourEntry) : (s.setColour c g).keyFresh = s.keyFresh :=
  (s.modColour c g).poke_keyFresh (s.colourBase + 32 * c.toNat) (natBytes 32 ((s.modColour c g).colour c).toNat)
@[simp] theorem State.setColour_colourBase (s : State) (c : Colour) (g : ColourEntry → ColourEntry) : (s.setColour c g).colourBase = s.colourBase :=
  (s.modColour c g).poke_colourBase (s.colourBase + 32 * c.toNat) (natBytes 32 ((s.modColour c g).colour c).toNat)
@[simp] theorem State.setColour_ringBase (s : State) (c : Colour) (g : ColourEntry → ColourEntry) : (s.setColour c g).ringBase = s.ringBase :=
  (s.modColour c g).poke_ringBase (s.colourBase + 32 * c.toNat) (natBytes 32 ((s.modColour c g).colour c).toNat)
@[simp] theorem State.setColour_rings (s : State) (c : Colour) (g : ColourEntry → ColourEntry) : (s.setColour c g).rings = s.rings :=
  (s.modColour c g).poke_rings (s.colourBase + 32 * c.toNat) (natBytes 32 ((s.modColour c g).colour c).toNat)
@[simp] theorem State.setColour_records (s : State) (c : Colour) (g : ColourEntry → ColourEntry) : (s.setColour c g).records = s.records :=
  (s.modColour c g).poke_records (s.colourBase + 32 * c.toNat) (natBytes 32 ((s.modColour c g).colour c).toNat)
@[simp] theorem State.setColour_joins (s : State) (c : Colour) (g : ColourEntry → ColourEntry) : (s.setColour c g).joins = s.joins :=
  (s.modColour c g).poke_joins (s.colourBase + 32 * c.toNat) (natBytes 32 ((s.modColour c g).colour c).toNat)
@[simp] theorem State.setColour_clusters (s : State) (c : Colour) (g : ColourEntry → ColourEntry) : (s.setColour c g).clusters = s.clusters :=
  (s.modColour c g).poke_clusters (s.colourBase + 32 * c.toNat) (natBytes 32 ((s.modColour c g).colour c).toNat)
@[simp] theorem State.setColour_tiles (s : State) (c : Colour) (g : ColourEntry → ColourEntry) : (s.setColour c g).tiles = s.tiles :=
  (s.modColour c g).poke_tiles (s.colourBase + 32 * c.toNat) (natBytes 32 ((s.modColour c g).colour c).toNat)
@[simp] theorem State.setColour_stations (s : State) (c : Colour) (g : ColourEntry → ColourEntry) : (s.setColour c g).stations = s.stations :=
  (s.modColour c g).poke_stations (s.colourBase + 32 * c.toNat) (natBytes 32 ((s.modColour c g).colour c).toNat)
@[simp] theorem State.setColour_dies (s : State) (c : Colour) (g : ColourEntry → ColourEntry) : (s.setColour c g).dies = s.dies :=
  (s.modColour c g).poke_dies (s.colourBase + 32 * c.toNat) (natBytes 32 ((s.modColour c g).colour c).toNat)
@[simp] theorem State.setColour_requests (s : State) (c : Colour) (g : ColourEntry → ColourEntry) : (s.setColour c g).requests = s.requests :=
  (s.modColour c g).poke_requests (s.colourBase + 32 * c.toNat) (natBytes 32 ((s.modColour c g).colour c).toNat)
@[simp] theorem State.setColour_net (s : State) (c : Colour) (g : ColourEntry → ColourEntry) : (s.setColour c g).net = s.net :=
  (s.modColour c g).poke_net (s.colourBase + 32 * c.toNat) (natBytes 32 ((s.modColour c g).colour c).toNat)
@[simp] theorem State.setColour_served (s : State) (c : Colour) (g : ColourEntry → ColourEntry) : (s.setColour c g).served = s.served :=
  (s.modColour c g).poke_served (s.colourBase + 32 * c.toNat) (natBytes 32 ((s.modColour c g).colour c).toNat)
@[simp] theorem State.setColour_releases (s : State) (c : Colour) (g : ColourEntry → ColourEntry) : (s.setColour c g).releases = s.releases :=
  (s.modColour c g).poke_releases (s.colourBase + 32 * c.toNat) (natBytes 32 ((s.modColour c g).colour c).toNat)
@[simp] theorem State.setColour_faultTokens (s : State) (c : Colour) (g : ColourEntry → ColourEntry) : (s.setColour c g).faultTokens = s.faultTokens :=
  (s.modColour c g).poke_faultTokens (s.colourBase + 32 * c.toNat) (natBytes 32 ((s.modColour c g).colour c).toNat)
@[simp] theorem State.setColour_prefetches (s : State) (c : Colour) (g : ColourEntry → ColourEntry) : (s.setColour c g).prefetches = s.prefetches :=
  (s.modColour c g).poke_prefetches (s.colourBase + 32 * c.toNat) (natBytes 32 ((s.modColour c g).colour c).toNat)
@[simp] theorem State.setColour_bootStage (s : State) (c : Colour) (g : ColourEntry → ColourEntry) : (s.setColour c g).bootStage = s.bootStage :=
  (s.modColour c g).poke_bootStage (s.colourBase + 32 * c.toNat) (natBytes 32 ((s.modColour c g).colour c).toNat)
@[simp] theorem State.setColour_bootErr (s : State) (c : Colour) (g : ColourEntry → ColourEntry) : (s.setColour c g).bootErr = s.bootErr :=
  (s.modColour c g).poke_bootErr (s.colourBase + 32 * c.toNat) (natBytes 32 ((s.modColour c g).colour c).toNat)
@[simp] theorem State.setColour_stkfail (s : State) (c : Colour) (g : ColourEntry → ColourEntry) : (s.setColour c g).stkfail = s.stkfail :=
  (s.modColour c g).poke_stkfail (s.colourBase + 32 * c.toNat) (natBytes 32 ((s.modColour c g).colour c).toNat)
@[simp] theorem State.setColour_linksDown (s : State) (c : Colour) (g : ColourEntry → ColourEntry) : (s.setColour c g).linksDown = s.linksDown :=
  (s.modColour c g).poke_linksDown (s.colourBase + 32 * c.toNat) (natBytes 32 ((s.modColour c g).colour c).toNat)
@[simp] theorem State.setColour_linkSecret (s : State) (c : Colour) (g : ColourEntry → ColourEntry) : (s.setColour c g).linkSecret = s.linkSecret :=
  (s.modColour c g).poke_linkSecret (s.colourBase + 32 * c.toNat) (natBytes 32 ((s.modColour c g).colour c).toNat)
@[simp] theorem State.setColour_hrefuseV (s : State) (c : Colour) (g : ColourEntry → ColourEntry) : (s.setColour c g).hrefuseV = s.hrefuseV :=
  (s.modColour c g).poke_hrefuseV (s.colourBase + 32 * c.toNat) (natBytes 32 ((s.modColour c g).colour c).toNat)
@[simp] theorem State.setColour_hrefusePa (s : State) (c : Colour) (g : ColourEntry → ColourEntry) : (s.setColour c g).hrefusePa = s.hrefusePa :=
  (s.modColour c g).poke_hrefusePa (s.colourBase + 32 * c.toNat) (natBytes 32 ((s.modColour c g).colour c).toNat)
@[simp] theorem State.setColour_hcxl (s : State) (c : Colour) (g : ColourEntry → ColourEntry) : (s.setColour c g).hcxl = s.hcxl :=
  (s.modColour c g).poke_hcxl (s.colourBase + 32 * c.toNat) (natBytes 32 ((s.modColour c g).colour c).toNat)
@[simp] theorem State.setColour_wxbase (s : State) (c : Colour) (g : ColourEntry → ColourEntry) : (s.setColour c g).wxbase = s.wxbase :=
  (s.modColour c g).poke_wxbase (s.colourBase + 32 * c.toNat) (natBytes 32 ((s.modColour c g).colour c).toNat)
@[simp] theorem State.setColour_hwcol (s : State) (c : Colour) (g : ColourEntry → ColourEntry) : (s.setColour c g).hwcol = s.hwcol :=
  (s.modColour c g).poke_hwcol (s.colourBase + 32 * c.toNat) (natBytes 32 ((s.modColour c g).colour c).toNat)
@[simp] theorem State.setColour_ethUp (s : State) (c : Colour) (g : ColourEntry → ColourEntry) : (s.setColour c g).ethUp = s.ethUp :=
  (s.modColour c g).poke_ethUp (s.colourBase + 32 * c.toNat) (natBytes 32 ((s.modColour c g).colour c).toNat)
@[simp] theorem State.setColour_pwrcap (s : State) (c : Colour) (g : ColourEntry → ColourEntry) : (s.setColour c g).pwrcap = s.pwrcap :=
  (s.modColour c g).poke_pwrcap (s.colourBase + 32 * c.toNat) (natBytes 32 ((s.modColour c g).colour c).toNat)
@[simp] theorem State.setColour_throttled (s : State) (c : Colour) (g : ColourEntry → ColourEntry) : (s.setColour c g).throttled = s.throttled :=
  (s.modColour c g).poke_throttled (s.colourBase + 32 * c.toNat) (natBytes 32 ((s.modColour c g).colour c).toNat)
@[simp] theorem State.setColour_thermtrip (s : State) (c : Colour) (g : ColourEntry → ColourEntry) : (s.setColour c g).thermtrip = s.thermtrip :=
  (s.modColour c g).poke_thermtrip (s.colourBase + 32 * c.toNat) (natBytes 32 ((s.modColour c g).colour c).toNat)
@[simp] theorem State.setColour_worldPages (s : State) (c : Colour) (g : ColourEntry → ColourEntry) : (s.setColour c g).worldPages = s.worldPages :=
  (s.modColour c g).poke_worldPages (s.colourBase + 32 * c.toNat) (natBytes 32 ((s.modColour c g).colour c).toNat)
@[simp] theorem State.setColour_numVfs (s : State) (c : Colour) (g : ColourEntry → ColourEntry) : (s.setColour c g).numVfs = s.numVfs :=
  (s.modColour c g).poke_numVfs (s.colourBase + 32 * c.toNat) (natBytes 32 ((s.modColour c g).colour c).toNat)
@[simp] theorem State.setColour_vfEnable (s : State) (c : Colour) (g : ColourEntry → ColourEntry) : (s.setColour c g).vfEnable = s.vfEnable :=
  (s.modColour c g).poke_vfEnable (s.colourBase + 32 * c.toNat) (natBytes 32 ((s.modColour c g).colour c).toNat)
@[simp] theorem State.setColour_vfHeld (s : State) (c : Colour) (g : ColourEntry → ColourEntry) : (s.setColour c g).vfHeld = s.vfHeld :=
  (s.modColour c g).poke_vfHeld (s.colourBase + 32 * c.toNat) (natBytes 32 ((s.modColour c g).colour c).toNat)
@[simp] theorem State.setColour_removals (s : State) (c : Colour) (g : ColourEntry → ColourEntry) : (s.setColour c g).removals = s.removals :=
  (s.modColour c g).poke_removals (s.colourBase + 32 * c.toNat) (natBytes 32 ((s.modColour c g).colour c).toNat)
@[simp] theorem State.setColour_functions (s : State) (c : Colour) (g : ColourEntry → ColourEntry) : (s.setColour c g).functions = s.functions :=
  (s.modColour c g).poke_functions (s.colourBase + 32 * c.toNat) (natBytes 32 ((s.modColour c g).colour c).toNat)
@[simp] theorem State.setColour_measures (s : State) (c : Colour) (g : ColourEntry → ColourEntry) : (s.setColour c g).measures = s.measures :=
  (s.modColour c g).poke_measures (s.colourBase + 32 * c.toNat) (natBytes 32 ((s.modColour c g).colour c).toNat)
@[simp] theorem State.setColour_ideKeys (s : State) (c : Colour) (g : ColourEntry → ColourEntry) : (s.setColour c g).ideKeys = s.ideKeys :=
  (s.modColour c g).poke_ideKeys (s.colourBase + 32 * c.toNat) (natBytes 32 ((s.modColour c g).colour c).toNat)
@[simp] theorem State.setColour_macsec (s : State) (c : Colour) (g : ColourEntry → ColourEntry) : (s.setColour c g).macsec = s.macsec :=
  (s.modColour c g).poke_macsec (s.colourBase + 32 * c.toNat) (natBytes 32 ((s.modColour c g).colour c).toNat)
@[simp] theorem State.setColour_frames (s : State) (c : Colour) (g : ColourEntry → ColourEntry) : (s.setColour c g).frames = s.frames :=
  (s.modColour c g).poke_frames (s.colourBase + 32 * c.toNat) (natBytes 32 ((s.modColour c g).colour c).toNat)
@[simp] theorem State.setColour_replies (s : State) (c : Colour) (g : ColourEntry → ColourEntry) : (s.setColour c g).replies = s.replies :=
  (s.modColour c g).poke_replies (s.colourBase + 32 * c.toNat) (natBytes 32 ((s.modColour c g).colour c).toNat)
@[simp] theorem State.setColour_ceCounts (s : State) (c : Colour) (g : ColourEntry → ColourEntry) : (s.setColour c g).ceCounts = s.ceCounts :=
  (s.modColour c g).poke_ceCounts (s.colourBase + 32 * c.toNat) (natBytes 32 ((s.modColour c g).colour c).toNat)
@[simp] theorem State.setColour_cePages (s : State) (c : Colour) (g : ColourEntry → ColourEntry) : (s.setColour c g).cePages = s.cePages :=
  (s.modColour c g).poke_cePages (s.colourBase + 32 * c.toNat) (natBytes 32 ((s.modColour c g).colour c).toNat)
@[simp] theorem State.setColour_frozen (s : State) (c : Colour) (g : ColourEntry → ColourEntry) : (s.setColour c g).frozen = s.frozen :=
  (s.modColour c g).poke_frozen (s.colourBase + 32 * c.toNat) (natBytes 32 ((s.modColour c g).colour c).toNat)
@[simp] theorem State.setColour_thawing (s : State) (c : Colour) (g : ColourEntry → ColourEntry) : (s.setColour c g).thawing = s.thawing :=
  (s.modColour c g).poke_thawing (s.colourBase + 32 * c.toNat) (natBytes 32 ((s.modColour c g).colour c).toNat)
@[simp] theorem State.setColour_debugStops (s : State) (c : Colour) (g : ColourEntry → ColourEntry) : (s.setColour c g).debugStops = s.debugStops :=
  (s.modColour c g).poke_debugStops (s.colourBase + 32 * c.toNat) (natBytes 32 ((s.modColour c g).colour c).toNat)
@[simp] theorem State.setColour_snaps (s : State) (c : Colour) (g : ColourEntry → ColourEntry) : (s.setColour c g).snaps = s.snaps :=
  (s.modColour c g).poke_snaps (s.colourBase + 32 * c.toNat) (natBytes 32 ((s.modColour c g).colour c).toNat)
@[simp] theorem State.setColour_colour (s : State) (c : Colour) (g : ColourEntry → ColourEntry) (z : Colour) : (s.setColour c g).colour z = (s.modColour c g).colour z :=
  congrArg (fun m => Map.get m z.toNat ColourEntry.reset) ((s.modColour c g).poke_colours (s.colourBase + 32 * c.toNat) (natBytes 32 ((s.modColour c g).colour c).toNat))

/-! Updates of the acting context. -/
@[simp] theorem State.setReg_agenda (s : State) (r : Reg) (v : Word) : (s.setReg r v).agenda = s.agenda := rfl
@[simp] theorem State.setReg_actor (s : State) (r : Reg) (v : Word) : (s.setReg r v).actor = s.actor := rfl
@[simp] theorem State.setReg_free (s : State) (r : Reg) (v : Word) : (s.setReg r v).free = s.free := rfl
@[simp] theorem State.setReg_seq (s : State) (r : Reg) (v : Word) : (s.setReg r v).seq = s.seq := rfl
@[simp] theorem State.setReg_nextId (s : State) (r : Reg) (v : Word) : (s.setReg r v).nextId = s.nextId := rfl
@[simp] theorem State.setReg_timebase (s : State) (r : Reg) (v : Word) : (s.setReg r v).timebase = s.timebase := rfl
@[simp] theorem State.setReg_cycles (s : State) (r : Reg) (v : Word) : (s.setReg r v).cycles = s.cycles := rfl
@[simp] theorem State.setReg_dram (s : State) (r : Reg) (v : Word) : (s.setReg r v).dram = s.dram := rfl
@[simp] theorem State.setReg_dramKey (s : State) (r : Reg) (v : Word) : (s.setReg r v).dramKey = s.dramKey := rfl
@[simp] theorem State.setReg_dramPoison (s : State) (r : Reg) (v : Word) : (s.setReg r v).dramPoison = s.dramPoison := rfl
@[simp] theorem State.setReg_keySlots (s : State) (r : Reg) (v : Word) : (s.setReg r v).keySlots = s.keySlots := rfl
@[simp] theorem State.setReg_keyFresh (s : State) (r : Reg) (v : Word) : (s.setReg r v).keyFresh = s.keyFresh := rfl
@[simp] theorem State.setReg_colours (s : State) (r : Reg) (v : Word) : (s.setReg r v).colours = s.colours := rfl
@[simp] theorem State.setReg_colourBase (s : State) (r : Reg) (v : Word) : (s.setReg r v).colourBase = s.colourBase := rfl
@[simp] theorem State.setReg_ringBase (s : State) (r : Reg) (v : Word) : (s.setReg r v).ringBase = s.ringBase := rfl
@[simp] theorem State.setReg_rings (s : State) (r : Reg) (v : Word) : (s.setReg r v).rings = s.rings := rfl
@[simp] theorem State.setReg_records (s : State) (r : Reg) (v : Word) : (s.setReg r v).records = s.records := rfl
@[simp] theorem State.setReg_joins (s : State) (r : Reg) (v : Word) : (s.setReg r v).joins = s.joins := rfl
@[simp] theorem State.setReg_tiles (s : State) (r : Reg) (v : Word) : (s.setReg r v).tiles = s.tiles := rfl
@[simp] theorem State.setReg_slices (s : State) (r : Reg) (v : Word) : (s.setReg r v).slices = s.slices := rfl
@[simp] theorem State.setReg_stations (s : State) (r : Reg) (v : Word) : (s.setReg r v).stations = s.stations := rfl
@[simp] theorem State.setReg_dies (s : State) (r : Reg) (v : Word) : (s.setReg r v).dies = s.dies := rfl
@[simp] theorem State.setReg_requests (s : State) (r : Reg) (v : Word) : (s.setReg r v).requests = s.requests := rfl
@[simp] theorem State.setReg_net (s : State) (r : Reg) (v : Word) : (s.setReg r v).net = s.net := rfl
@[simp] theorem State.setReg_served (s : State) (r : Reg) (v : Word) : (s.setReg r v).served = s.served := rfl
@[simp] theorem State.setReg_releases (s : State) (r : Reg) (v : Word) : (s.setReg r v).releases = s.releases := rfl
@[simp] theorem State.setReg_faultTokens (s : State) (r : Reg) (v : Word) : (s.setReg r v).faultTokens = s.faultTokens := rfl
@[simp] theorem State.setReg_prefetches (s : State) (r : Reg) (v : Word) : (s.setReg r v).prefetches = s.prefetches := rfl
@[simp] theorem State.setReg_bootStage (s : State) (r : Reg) (v : Word) : (s.setReg r v).bootStage = s.bootStage := rfl
@[simp] theorem State.setReg_bootErr (s : State) (r : Reg) (v : Word) : (s.setReg r v).bootErr = s.bootErr := rfl
@[simp] theorem State.setReg_stkfail (s : State) (r : Reg) (v : Word) : (s.setReg r v).stkfail = s.stkfail := rfl
@[simp] theorem State.setReg_linksDown (s : State) (r : Reg) (v : Word) : (s.setReg r v).linksDown = s.linksDown := rfl
@[simp] theorem State.setReg_linkSecret (s : State) (r : Reg) (v : Word) : (s.setReg r v).linkSecret = s.linkSecret := rfl
@[simp] theorem State.setReg_hrefuseV (s : State) (r : Reg) (v : Word) : (s.setReg r v).hrefuseV = s.hrefuseV := rfl
@[simp] theorem State.setReg_hrefusePa (s : State) (r : Reg) (v : Word) : (s.setReg r v).hrefusePa = s.hrefusePa := rfl
@[simp] theorem State.setReg_hcxl (s : State) (r : Reg) (v : Word) : (s.setReg r v).hcxl = s.hcxl := rfl
@[simp] theorem State.setReg_wxbase (s : State) (r : Reg) (v : Word) : (s.setReg r v).wxbase = s.wxbase := rfl
@[simp] theorem State.setReg_hwcol (s : State) (r : Reg) (v : Word) : (s.setReg r v).hwcol = s.hwcol := rfl
@[simp] theorem State.setReg_ethUp (s : State) (r : Reg) (v : Word) : (s.setReg r v).ethUp = s.ethUp := rfl
@[simp] theorem State.setReg_pwrcap (s : State) (r : Reg) (v : Word) : (s.setReg r v).pwrcap = s.pwrcap := rfl
@[simp] theorem State.setReg_throttled (s : State) (r : Reg) (v : Word) : (s.setReg r v).throttled = s.throttled := rfl
@[simp] theorem State.setReg_thermtrip (s : State) (r : Reg) (v : Word) : (s.setReg r v).thermtrip = s.thermtrip := rfl
@[simp] theorem State.setReg_worldPages (s : State) (r : Reg) (v : Word) : (s.setReg r v).worldPages = s.worldPages := rfl
@[simp] theorem State.setReg_numVfs (s : State) (r : Reg) (v : Word) : (s.setReg r v).numVfs = s.numVfs := rfl
@[simp] theorem State.setReg_vfEnable (s : State) (r : Reg) (v : Word) : (s.setReg r v).vfEnable = s.vfEnable := rfl
@[simp] theorem State.setReg_vfHeld (s : State) (r : Reg) (v : Word) : (s.setReg r v).vfHeld = s.vfHeld := rfl
@[simp] theorem State.setReg_removals (s : State) (r : Reg) (v : Word) : (s.setReg r v).removals = s.removals := rfl
@[simp] theorem State.setReg_functions (s : State) (r : Reg) (v : Word) : (s.setReg r v).functions = s.functions := rfl
@[simp] theorem State.setReg_measures (s : State) (r : Reg) (v : Word) : (s.setReg r v).measures = s.measures := rfl
@[simp] theorem State.setReg_ideKeys (s : State) (r : Reg) (v : Word) : (s.setReg r v).ideKeys = s.ideKeys := rfl
@[simp] theorem State.setReg_macsec (s : State) (r : Reg) (v : Word) : (s.setReg r v).macsec = s.macsec := rfl
@[simp] theorem State.setReg_frames (s : State) (r : Reg) (v : Word) : (s.setReg r v).frames = s.frames := rfl
@[simp] theorem State.setReg_replies (s : State) (r : Reg) (v : Word) : (s.setReg r v).replies = s.replies := rfl
@[simp] theorem State.setReg_ceCounts (s : State) (r : Reg) (v : Word) : (s.setReg r v).ceCounts = s.ceCounts := rfl
@[simp] theorem State.setReg_cePages (s : State) (r : Reg) (v : Word) : (s.setReg r v).cePages = s.cePages := rfl
@[simp] theorem State.setReg_frozen (s : State) (r : Reg) (v : Word) : (s.setReg r v).frozen = s.frozen := rfl
@[simp] theorem State.setReg_thawing (s : State) (r : Reg) (v : Word) : (s.setReg r v).thawing = s.thawing := rfl
@[simp] theorem State.setReg_debugStops (s : State) (r : Reg) (v : Word) : (s.setReg r v).debugStops = s.debugStops := rfl
@[simp] theorem State.setReg_snaps (s : State) (r : Reg) (v : Word) : (s.setReg r v).snaps = s.snaps := rfl
@[simp] theorem State.advance_agenda (s : State)  : (s.advance).agenda = s.agenda := rfl
@[simp] theorem State.advance_actor (s : State)  : (s.advance).actor = s.actor := rfl
@[simp] theorem State.advance_free (s : State)  : (s.advance).free = s.free := rfl
@[simp] theorem State.advance_seq (s : State)  : (s.advance).seq = s.seq := rfl
@[simp] theorem State.advance_nextId (s : State)  : (s.advance).nextId = s.nextId := rfl
@[simp] theorem State.advance_timebase (s : State)  : (s.advance).timebase = s.timebase := rfl
@[simp] theorem State.advance_cycles (s : State)  : (s.advance).cycles = s.cycles := rfl
@[simp] theorem State.advance_dram (s : State)  : (s.advance).dram = s.dram := rfl
@[simp] theorem State.advance_dramKey (s : State)  : (s.advance).dramKey = s.dramKey := rfl
@[simp] theorem State.advance_dramPoison (s : State)  : (s.advance).dramPoison = s.dramPoison := rfl
@[simp] theorem State.advance_keySlots (s : State)  : (s.advance).keySlots = s.keySlots := rfl
@[simp] theorem State.advance_keyFresh (s : State)  : (s.advance).keyFresh = s.keyFresh := rfl
@[simp] theorem State.advance_colours (s : State)  : (s.advance).colours = s.colours := rfl
@[simp] theorem State.advance_colourBase (s : State)  : (s.advance).colourBase = s.colourBase := rfl
@[simp] theorem State.advance_ringBase (s : State)  : (s.advance).ringBase = s.ringBase := rfl
@[simp] theorem State.advance_rings (s : State)  : (s.advance).rings = s.rings := rfl
@[simp] theorem State.advance_records (s : State)  : (s.advance).records = s.records := rfl
@[simp] theorem State.advance_joins (s : State)  : (s.advance).joins = s.joins := rfl
@[simp] theorem State.advance_tiles (s : State)  : (s.advance).tiles = s.tiles := rfl
@[simp] theorem State.advance_slices (s : State)  : (s.advance).slices = s.slices := rfl
@[simp] theorem State.advance_stations (s : State)  : (s.advance).stations = s.stations := rfl
@[simp] theorem State.advance_dies (s : State)  : (s.advance).dies = s.dies := rfl
@[simp] theorem State.advance_requests (s : State)  : (s.advance).requests = s.requests := rfl
@[simp] theorem State.advance_net (s : State)  : (s.advance).net = s.net := rfl
@[simp] theorem State.advance_served (s : State)  : (s.advance).served = s.served := rfl
@[simp] theorem State.advance_releases (s : State)  : (s.advance).releases = s.releases := rfl
@[simp] theorem State.advance_faultTokens (s : State)  : (s.advance).faultTokens = s.faultTokens := rfl
@[simp] theorem State.advance_prefetches (s : State)  : (s.advance).prefetches = s.prefetches := rfl
@[simp] theorem State.advance_bootStage (s : State)  : (s.advance).bootStage = s.bootStage := rfl
@[simp] theorem State.advance_bootErr (s : State)  : (s.advance).bootErr = s.bootErr := rfl
@[simp] theorem State.advance_stkfail (s : State)  : (s.advance).stkfail = s.stkfail := rfl
@[simp] theorem State.advance_linksDown (s : State)  : (s.advance).linksDown = s.linksDown := rfl
@[simp] theorem State.advance_linkSecret (s : State)  : (s.advance).linkSecret = s.linkSecret := rfl
@[simp] theorem State.advance_hrefuseV (s : State)  : (s.advance).hrefuseV = s.hrefuseV := rfl
@[simp] theorem State.advance_hrefusePa (s : State)  : (s.advance).hrefusePa = s.hrefusePa := rfl
@[simp] theorem State.advance_hcxl (s : State)  : (s.advance).hcxl = s.hcxl := rfl
@[simp] theorem State.advance_wxbase (s : State)  : (s.advance).wxbase = s.wxbase := rfl
@[simp] theorem State.advance_hwcol (s : State)  : (s.advance).hwcol = s.hwcol := rfl
@[simp] theorem State.advance_ethUp (s : State)  : (s.advance).ethUp = s.ethUp := rfl
@[simp] theorem State.advance_pwrcap (s : State)  : (s.advance).pwrcap = s.pwrcap := rfl
@[simp] theorem State.advance_throttled (s : State)  : (s.advance).throttled = s.throttled := rfl
@[simp] theorem State.advance_thermtrip (s : State)  : (s.advance).thermtrip = s.thermtrip := rfl
@[simp] theorem State.advance_worldPages (s : State)  : (s.advance).worldPages = s.worldPages := rfl
@[simp] theorem State.advance_numVfs (s : State)  : (s.advance).numVfs = s.numVfs := rfl
@[simp] theorem State.advance_vfEnable (s : State)  : (s.advance).vfEnable = s.vfEnable := rfl
@[simp] theorem State.advance_vfHeld (s : State)  : (s.advance).vfHeld = s.vfHeld := rfl
@[simp] theorem State.advance_removals (s : State)  : (s.advance).removals = s.removals := rfl
@[simp] theorem State.advance_functions (s : State)  : (s.advance).functions = s.functions := rfl
@[simp] theorem State.advance_measures (s : State)  : (s.advance).measures = s.measures := rfl
@[simp] theorem State.advance_ideKeys (s : State)  : (s.advance).ideKeys = s.ideKeys := rfl
@[simp] theorem State.advance_macsec (s : State)  : (s.advance).macsec = s.macsec := rfl
@[simp] theorem State.advance_frames (s : State)  : (s.advance).frames = s.frames := rfl
@[simp] theorem State.advance_replies (s : State)  : (s.advance).replies = s.replies := rfl
@[simp] theorem State.advance_ceCounts (s : State)  : (s.advance).ceCounts = s.ceCounts := rfl
@[simp] theorem State.advance_cePages (s : State)  : (s.advance).cePages = s.cePages := rfl
@[simp] theorem State.advance_frozen (s : State)  : (s.advance).frozen = s.frozen := rfl
@[simp] theorem State.advance_thawing (s : State)  : (s.advance).thawing = s.thawing := rfl
@[simp] theorem State.advance_debugStops (s : State)  : (s.advance).debugStops = s.debugStops := rfl
@[simp] theorem State.advance_snaps (s : State)  : (s.advance).snaps = s.snaps := rfl
@[simp] theorem State.jump_agenda (s : State) (p : Word) : (s.jump p).agenda = s.agenda := rfl
@[simp] theorem State.jump_actor (s : State) (p : Word) : (s.jump p).actor = s.actor := rfl
@[simp] theorem State.jump_free (s : State) (p : Word) : (s.jump p).free = s.free := rfl
@[simp] theorem State.jump_seq (s : State) (p : Word) : (s.jump p).seq = s.seq := rfl
@[simp] theorem State.jump_nextId (s : State) (p : Word) : (s.jump p).nextId = s.nextId := rfl
@[simp] theorem State.jump_timebase (s : State) (p : Word) : (s.jump p).timebase = s.timebase := rfl
@[simp] theorem State.jump_cycles (s : State) (p : Word) : (s.jump p).cycles = s.cycles := rfl
@[simp] theorem State.jump_dram (s : State) (p : Word) : (s.jump p).dram = s.dram := rfl
@[simp] theorem State.jump_dramKey (s : State) (p : Word) : (s.jump p).dramKey = s.dramKey := rfl
@[simp] theorem State.jump_dramPoison (s : State) (p : Word) : (s.jump p).dramPoison = s.dramPoison := rfl
@[simp] theorem State.jump_keySlots (s : State) (p : Word) : (s.jump p).keySlots = s.keySlots := rfl
@[simp] theorem State.jump_keyFresh (s : State) (p : Word) : (s.jump p).keyFresh = s.keyFresh := rfl
@[simp] theorem State.jump_colours (s : State) (p : Word) : (s.jump p).colours = s.colours := rfl
@[simp] theorem State.jump_colourBase (s : State) (p : Word) : (s.jump p).colourBase = s.colourBase := rfl
@[simp] theorem State.jump_ringBase (s : State) (p : Word) : (s.jump p).ringBase = s.ringBase := rfl
@[simp] theorem State.jump_rings (s : State) (p : Word) : (s.jump p).rings = s.rings := rfl
@[simp] theorem State.jump_records (s : State) (p : Word) : (s.jump p).records = s.records := rfl
@[simp] theorem State.jump_joins (s : State) (p : Word) : (s.jump p).joins = s.joins := rfl
@[simp] theorem State.jump_tiles (s : State) (p : Word) : (s.jump p).tiles = s.tiles := rfl
@[simp] theorem State.jump_slices (s : State) (p : Word) : (s.jump p).slices = s.slices := rfl
@[simp] theorem State.jump_stations (s : State) (p : Word) : (s.jump p).stations = s.stations := rfl
@[simp] theorem State.jump_dies (s : State) (p : Word) : (s.jump p).dies = s.dies := rfl
@[simp] theorem State.jump_requests (s : State) (p : Word) : (s.jump p).requests = s.requests := rfl
@[simp] theorem State.jump_net (s : State) (p : Word) : (s.jump p).net = s.net := rfl
@[simp] theorem State.jump_served (s : State) (p : Word) : (s.jump p).served = s.served := rfl
@[simp] theorem State.jump_releases (s : State) (p : Word) : (s.jump p).releases = s.releases := rfl
@[simp] theorem State.jump_faultTokens (s : State) (p : Word) : (s.jump p).faultTokens = s.faultTokens := rfl
@[simp] theorem State.jump_prefetches (s : State) (p : Word) : (s.jump p).prefetches = s.prefetches := rfl
@[simp] theorem State.jump_bootStage (s : State) (p : Word) : (s.jump p).bootStage = s.bootStage := rfl
@[simp] theorem State.jump_bootErr (s : State) (p : Word) : (s.jump p).bootErr = s.bootErr := rfl
@[simp] theorem State.jump_stkfail (s : State) (p : Word) : (s.jump p).stkfail = s.stkfail := rfl
@[simp] theorem State.jump_linksDown (s : State) (p : Word) : (s.jump p).linksDown = s.linksDown := rfl
@[simp] theorem State.jump_linkSecret (s : State) (p : Word) : (s.jump p).linkSecret = s.linkSecret := rfl
@[simp] theorem State.jump_hrefuseV (s : State) (p : Word) : (s.jump p).hrefuseV = s.hrefuseV := rfl
@[simp] theorem State.jump_hrefusePa (s : State) (p : Word) : (s.jump p).hrefusePa = s.hrefusePa := rfl
@[simp] theorem State.jump_hcxl (s : State) (p : Word) : (s.jump p).hcxl = s.hcxl := rfl
@[simp] theorem State.jump_wxbase (s : State) (p : Word) : (s.jump p).wxbase = s.wxbase := rfl
@[simp] theorem State.jump_hwcol (s : State) (p : Word) : (s.jump p).hwcol = s.hwcol := rfl
@[simp] theorem State.jump_ethUp (s : State) (p : Word) : (s.jump p).ethUp = s.ethUp := rfl
@[simp] theorem State.jump_pwrcap (s : State) (p : Word) : (s.jump p).pwrcap = s.pwrcap := rfl
@[simp] theorem State.jump_throttled (s : State) (p : Word) : (s.jump p).throttled = s.throttled := rfl
@[simp] theorem State.jump_thermtrip (s : State) (p : Word) : (s.jump p).thermtrip = s.thermtrip := rfl
@[simp] theorem State.jump_worldPages (s : State) (p : Word) : (s.jump p).worldPages = s.worldPages := rfl
@[simp] theorem State.jump_numVfs (s : State) (p : Word) : (s.jump p).numVfs = s.numVfs := rfl
@[simp] theorem State.jump_vfEnable (s : State) (p : Word) : (s.jump p).vfEnable = s.vfEnable := rfl
@[simp] theorem State.jump_vfHeld (s : State) (p : Word) : (s.jump p).vfHeld = s.vfHeld := rfl
@[simp] theorem State.jump_removals (s : State) (p : Word) : (s.jump p).removals = s.removals := rfl
@[simp] theorem State.jump_functions (s : State) (p : Word) : (s.jump p).functions = s.functions := rfl
@[simp] theorem State.jump_measures (s : State) (p : Word) : (s.jump p).measures = s.measures := rfl
@[simp] theorem State.jump_ideKeys (s : State) (p : Word) : (s.jump p).ideKeys = s.ideKeys := rfl
@[simp] theorem State.jump_macsec (s : State) (p : Word) : (s.jump p).macsec = s.macsec := rfl
@[simp] theorem State.jump_frames (s : State) (p : Word) : (s.jump p).frames = s.frames := rfl
@[simp] theorem State.jump_replies (s : State) (p : Word) : (s.jump p).replies = s.replies := rfl
@[simp] theorem State.jump_ceCounts (s : State) (p : Word) : (s.jump p).ceCounts = s.ceCounts := rfl
@[simp] theorem State.jump_cePages (s : State) (p : Word) : (s.jump p).cePages = s.cePages := rfl
@[simp] theorem State.jump_frozen (s : State) (p : Word) : (s.jump p).frozen = s.frozen := rfl
@[simp] theorem State.jump_thawing (s : State) (p : Word) : (s.jump p).thawing = s.thawing := rfl
@[simp] theorem State.jump_debugStops (s : State) (p : Word) : (s.jump p).debugStops = s.debugStops := rfl
@[simp] theorem State.jump_snaps (s : State) (p : Word) : (s.jump p).snaps = s.snaps := rfl
@[simp] theorem State.finish_agenda (s : State) (r : Reg) (v : Word) : (s.finish r v).agenda = s.agenda := rfl
@[simp] theorem State.finish_actor (s : State) (r : Reg) (v : Word) : (s.finish r v).actor = s.actor := rfl
@[simp] theorem State.finish_free (s : State) (r : Reg) (v : Word) : (s.finish r v).free = s.free := rfl
@[simp] theorem State.finish_seq (s : State) (r : Reg) (v : Word) : (s.finish r v).seq = s.seq := rfl
@[simp] theorem State.finish_nextId (s : State) (r : Reg) (v : Word) : (s.finish r v).nextId = s.nextId := rfl
@[simp] theorem State.finish_timebase (s : State) (r : Reg) (v : Word) : (s.finish r v).timebase = s.timebase := rfl
@[simp] theorem State.finish_cycles (s : State) (r : Reg) (v : Word) : (s.finish r v).cycles = s.cycles := rfl
@[simp] theorem State.finish_dram (s : State) (r : Reg) (v : Word) : (s.finish r v).dram = s.dram := rfl
@[simp] theorem State.finish_dramKey (s : State) (r : Reg) (v : Word) : (s.finish r v).dramKey = s.dramKey := rfl
@[simp] theorem State.finish_dramPoison (s : State) (r : Reg) (v : Word) : (s.finish r v).dramPoison = s.dramPoison := rfl
@[simp] theorem State.finish_keySlots (s : State) (r : Reg) (v : Word) : (s.finish r v).keySlots = s.keySlots := rfl
@[simp] theorem State.finish_keyFresh (s : State) (r : Reg) (v : Word) : (s.finish r v).keyFresh = s.keyFresh := rfl
@[simp] theorem State.finish_colours (s : State) (r : Reg) (v : Word) : (s.finish r v).colours = s.colours := rfl
@[simp] theorem State.finish_colourBase (s : State) (r : Reg) (v : Word) : (s.finish r v).colourBase = s.colourBase := rfl
@[simp] theorem State.finish_ringBase (s : State) (r : Reg) (v : Word) : (s.finish r v).ringBase = s.ringBase := rfl
@[simp] theorem State.finish_rings (s : State) (r : Reg) (v : Word) : (s.finish r v).rings = s.rings := rfl
@[simp] theorem State.finish_records (s : State) (r : Reg) (v : Word) : (s.finish r v).records = s.records := rfl
@[simp] theorem State.finish_joins (s : State) (r : Reg) (v : Word) : (s.finish r v).joins = s.joins := rfl
@[simp] theorem State.finish_tiles (s : State) (r : Reg) (v : Word) : (s.finish r v).tiles = s.tiles := rfl
@[simp] theorem State.finish_slices (s : State) (r : Reg) (v : Word) : (s.finish r v).slices = s.slices := rfl
@[simp] theorem State.finish_stations (s : State) (r : Reg) (v : Word) : (s.finish r v).stations = s.stations := rfl
@[simp] theorem State.finish_dies (s : State) (r : Reg) (v : Word) : (s.finish r v).dies = s.dies := rfl
@[simp] theorem State.finish_requests (s : State) (r : Reg) (v : Word) : (s.finish r v).requests = s.requests := rfl
@[simp] theorem State.finish_net (s : State) (r : Reg) (v : Word) : (s.finish r v).net = s.net := rfl
@[simp] theorem State.finish_served (s : State) (r : Reg) (v : Word) : (s.finish r v).served = s.served := rfl
@[simp] theorem State.finish_releases (s : State) (r : Reg) (v : Word) : (s.finish r v).releases = s.releases := rfl
@[simp] theorem State.finish_faultTokens (s : State) (r : Reg) (v : Word) : (s.finish r v).faultTokens = s.faultTokens := rfl
@[simp] theorem State.finish_prefetches (s : State) (r : Reg) (v : Word) : (s.finish r v).prefetches = s.prefetches := rfl
@[simp] theorem State.finish_bootStage (s : State) (r : Reg) (v : Word) : (s.finish r v).bootStage = s.bootStage := rfl
@[simp] theorem State.finish_bootErr (s : State) (r : Reg) (v : Word) : (s.finish r v).bootErr = s.bootErr := rfl
@[simp] theorem State.finish_stkfail (s : State) (r : Reg) (v : Word) : (s.finish r v).stkfail = s.stkfail := rfl
@[simp] theorem State.finish_linksDown (s : State) (r : Reg) (v : Word) : (s.finish r v).linksDown = s.linksDown := rfl
@[simp] theorem State.finish_linkSecret (s : State) (r : Reg) (v : Word) : (s.finish r v).linkSecret = s.linkSecret := rfl
@[simp] theorem State.finish_hrefuseV (s : State) (r : Reg) (v : Word) : (s.finish r v).hrefuseV = s.hrefuseV := rfl
@[simp] theorem State.finish_hrefusePa (s : State) (r : Reg) (v : Word) : (s.finish r v).hrefusePa = s.hrefusePa := rfl
@[simp] theorem State.finish_hcxl (s : State) (r : Reg) (v : Word) : (s.finish r v).hcxl = s.hcxl := rfl
@[simp] theorem State.finish_wxbase (s : State) (r : Reg) (v : Word) : (s.finish r v).wxbase = s.wxbase := rfl
@[simp] theorem State.finish_hwcol (s : State) (r : Reg) (v : Word) : (s.finish r v).hwcol = s.hwcol := rfl
@[simp] theorem State.finish_ethUp (s : State) (r : Reg) (v : Word) : (s.finish r v).ethUp = s.ethUp := rfl
@[simp] theorem State.finish_pwrcap (s : State) (r : Reg) (v : Word) : (s.finish r v).pwrcap = s.pwrcap := rfl
@[simp] theorem State.finish_throttled (s : State) (r : Reg) (v : Word) : (s.finish r v).throttled = s.throttled := rfl
@[simp] theorem State.finish_thermtrip (s : State) (r : Reg) (v : Word) : (s.finish r v).thermtrip = s.thermtrip := rfl
@[simp] theorem State.finish_worldPages (s : State) (r : Reg) (v : Word) : (s.finish r v).worldPages = s.worldPages := rfl
@[simp] theorem State.finish_numVfs (s : State) (r : Reg) (v : Word) : (s.finish r v).numVfs = s.numVfs := rfl
@[simp] theorem State.finish_vfEnable (s : State) (r : Reg) (v : Word) : (s.finish r v).vfEnable = s.vfEnable := rfl
@[simp] theorem State.finish_vfHeld (s : State) (r : Reg) (v : Word) : (s.finish r v).vfHeld = s.vfHeld := rfl
@[simp] theorem State.finish_removals (s : State) (r : Reg) (v : Word) : (s.finish r v).removals = s.removals := rfl
@[simp] theorem State.finish_functions (s : State) (r : Reg) (v : Word) : (s.finish r v).functions = s.functions := rfl
@[simp] theorem State.finish_measures (s : State) (r : Reg) (v : Word) : (s.finish r v).measures = s.measures := rfl
@[simp] theorem State.finish_ideKeys (s : State) (r : Reg) (v : Word) : (s.finish r v).ideKeys = s.ideKeys := rfl
@[simp] theorem State.finish_macsec (s : State) (r : Reg) (v : Word) : (s.finish r v).macsec = s.macsec := rfl
@[simp] theorem State.finish_frames (s : State) (r : Reg) (v : Word) : (s.finish r v).frames = s.frames := rfl
@[simp] theorem State.finish_replies (s : State) (r : Reg) (v : Word) : (s.finish r v).replies = s.replies := rfl
@[simp] theorem State.finish_ceCounts (s : State) (r : Reg) (v : Word) : (s.finish r v).ceCounts = s.ceCounts := rfl
@[simp] theorem State.finish_cePages (s : State) (r : Reg) (v : Word) : (s.finish r v).cePages = s.cePages := rfl
@[simp] theorem State.finish_frozen (s : State) (r : Reg) (v : Word) : (s.finish r v).frozen = s.frozen := rfl
@[simp] theorem State.finish_thawing (s : State) (r : Reg) (v : Word) : (s.finish r v).thawing = s.thawing := rfl
@[simp] theorem State.finish_debugStops (s : State) (r : Reg) (v : Word) : (s.finish r v).debugStops = s.debugStops := rfl
@[simp] theorem State.finish_snaps (s : State) (r : Reg) (v : Word) : (s.finish r v).snaps = s.snaps := rfl
@[simp] theorem State.report_agenda (s : State) (a b : Nat) : (s.report a b).agenda = s.agenda := rfl
@[simp] theorem State.report_actor (s : State) (a b : Nat) : (s.report a b).actor = s.actor := rfl
@[simp] theorem State.report_free (s : State) (a b : Nat) : (s.report a b).free = s.free := rfl
@[simp] theorem State.report_seq (s : State) (a b : Nat) : (s.report a b).seq = s.seq := rfl
@[simp] theorem State.report_nextId (s : State) (a b : Nat) : (s.report a b).nextId = s.nextId := rfl
@[simp] theorem State.report_timebase (s : State) (a b : Nat) : (s.report a b).timebase = s.timebase := rfl
@[simp] theorem State.report_cycles (s : State) (a b : Nat) : (s.report a b).cycles = s.cycles := rfl
@[simp] theorem State.report_dram (s : State) (a b : Nat) : (s.report a b).dram = s.dram := rfl
@[simp] theorem State.report_dramKey (s : State) (a b : Nat) : (s.report a b).dramKey = s.dramKey := rfl
@[simp] theorem State.report_dramPoison (s : State) (a b : Nat) : (s.report a b).dramPoison = s.dramPoison := rfl
@[simp] theorem State.report_keySlots (s : State) (a b : Nat) : (s.report a b).keySlots = s.keySlots := rfl
@[simp] theorem State.report_keyFresh (s : State) (a b : Nat) : (s.report a b).keyFresh = s.keyFresh := rfl
@[simp] theorem State.report_colours (s : State) (a b : Nat) : (s.report a b).colours = s.colours := rfl
@[simp] theorem State.report_colourBase (s : State) (a b : Nat) : (s.report a b).colourBase = s.colourBase := rfl
@[simp] theorem State.report_ringBase (s : State) (a b : Nat) : (s.report a b).ringBase = s.ringBase := rfl
@[simp] theorem State.report_rings (s : State) (a b : Nat) : (s.report a b).rings = s.rings := rfl
@[simp] theorem State.report_records (s : State) (a b : Nat) : (s.report a b).records = s.records := rfl
@[simp] theorem State.report_joins (s : State) (a b : Nat) : (s.report a b).joins = s.joins := rfl
@[simp] theorem State.report_tiles (s : State) (a b : Nat) : (s.report a b).tiles = s.tiles := rfl
@[simp] theorem State.report_slices (s : State) (a b : Nat) : (s.report a b).slices = s.slices := rfl
@[simp] theorem State.report_stations (s : State) (a b : Nat) : (s.report a b).stations = s.stations := rfl
@[simp] theorem State.report_dies (s : State) (a b : Nat) : (s.report a b).dies = s.dies := rfl
@[simp] theorem State.report_requests (s : State) (a b : Nat) : (s.report a b).requests = s.requests := rfl
@[simp] theorem State.report_net (s : State) (a b : Nat) : (s.report a b).net = s.net := rfl
@[simp] theorem State.report_served (s : State) (a b : Nat) : (s.report a b).served = s.served := rfl
@[simp] theorem State.report_releases (s : State) (a b : Nat) : (s.report a b).releases = s.releases := rfl
@[simp] theorem State.report_faultTokens (s : State) (a b : Nat) : (s.report a b).faultTokens = s.faultTokens := rfl
@[simp] theorem State.report_prefetches (s : State) (a b : Nat) : (s.report a b).prefetches = s.prefetches := rfl
@[simp] theorem State.report_bootStage (s : State) (a b : Nat) : (s.report a b).bootStage = s.bootStage := rfl
@[simp] theorem State.report_bootErr (s : State) (a b : Nat) : (s.report a b).bootErr = s.bootErr := rfl
@[simp] theorem State.report_stkfail (s : State) (a b : Nat) : (s.report a b).stkfail = s.stkfail := rfl
@[simp] theorem State.report_linksDown (s : State) (a b : Nat) : (s.report a b).linksDown = s.linksDown := rfl
@[simp] theorem State.report_linkSecret (s : State) (a b : Nat) : (s.report a b).linkSecret = s.linkSecret := rfl
@[simp] theorem State.report_hrefuseV (s : State) (a b : Nat) : (s.report a b).hrefuseV = s.hrefuseV := rfl
@[simp] theorem State.report_hrefusePa (s : State) (a b : Nat) : (s.report a b).hrefusePa = s.hrefusePa := rfl
@[simp] theorem State.report_hcxl (s : State) (a b : Nat) : (s.report a b).hcxl = s.hcxl := rfl
@[simp] theorem State.report_wxbase (s : State) (a b : Nat) : (s.report a b).wxbase = s.wxbase := rfl
@[simp] theorem State.report_hwcol (s : State) (a b : Nat) : (s.report a b).hwcol = s.hwcol := rfl
@[simp] theorem State.report_ethUp (s : State) (a b : Nat) : (s.report a b).ethUp = s.ethUp := rfl
@[simp] theorem State.report_pwrcap (s : State) (a b : Nat) : (s.report a b).pwrcap = s.pwrcap := rfl
@[simp] theorem State.report_throttled (s : State) (a b : Nat) : (s.report a b).throttled = s.throttled := rfl
@[simp] theorem State.report_thermtrip (s : State) (a b : Nat) : (s.report a b).thermtrip = s.thermtrip := rfl
@[simp] theorem State.report_worldPages (s : State) (a b : Nat) : (s.report a b).worldPages = s.worldPages := rfl
@[simp] theorem State.report_numVfs (s : State) (a b : Nat) : (s.report a b).numVfs = s.numVfs := rfl
@[simp] theorem State.report_vfEnable (s : State) (a b : Nat) : (s.report a b).vfEnable = s.vfEnable := rfl
@[simp] theorem State.report_vfHeld (s : State) (a b : Nat) : (s.report a b).vfHeld = s.vfHeld := rfl
@[simp] theorem State.report_removals (s : State) (a b : Nat) : (s.report a b).removals = s.removals := rfl
@[simp] theorem State.report_functions (s : State) (a b : Nat) : (s.report a b).functions = s.functions := rfl
@[simp] theorem State.report_measures (s : State) (a b : Nat) : (s.report a b).measures = s.measures := rfl
@[simp] theorem State.report_ideKeys (s : State) (a b : Nat) : (s.report a b).ideKeys = s.ideKeys := rfl
@[simp] theorem State.report_macsec (s : State) (a b : Nat) : (s.report a b).macsec = s.macsec := rfl
@[simp] theorem State.report_frames (s : State) (a b : Nat) : (s.report a b).frames = s.frames := rfl
@[simp] theorem State.report_replies (s : State) (a b : Nat) : (s.report a b).replies = s.replies := rfl
@[simp] theorem State.report_ceCounts (s : State) (a b : Nat) : (s.report a b).ceCounts = s.ceCounts := rfl
@[simp] theorem State.report_cePages (s : State) (a b : Nat) : (s.report a b).cePages = s.cePages := rfl
@[simp] theorem State.report_frozen (s : State) (a b : Nat) : (s.report a b).frozen = s.frozen := rfl
@[simp] theorem State.report_thawing (s : State) (a b : Nat) : (s.report a b).thawing = s.thawing := rfl
@[simp] theorem State.report_debugStops (s : State) (a b : Nat) : (s.report a b).debugStops = s.debugStops := rfl
@[simp] theorem State.report_snaps (s : State) (a b : Nat) : (s.report a b).snaps = s.snaps := rfl
@[simp] theorem State.parkMe_agenda (s : State) (p : Park) : (s.parkMe p).agenda = s.agenda := rfl
@[simp] theorem State.parkMe_actor (s : State) (p : Park) : (s.parkMe p).actor = s.actor := rfl
@[simp] theorem State.parkMe_free (s : State) (p : Park) : (s.parkMe p).free = s.free := rfl
@[simp] theorem State.parkMe_seq (s : State) (p : Park) : (s.parkMe p).seq = s.seq := rfl
@[simp] theorem State.parkMe_nextId (s : State) (p : Park) : (s.parkMe p).nextId = s.nextId := rfl
@[simp] theorem State.parkMe_timebase (s : State) (p : Park) : (s.parkMe p).timebase = s.timebase := rfl
@[simp] theorem State.parkMe_cycles (s : State) (p : Park) : (s.parkMe p).cycles = s.cycles := rfl
@[simp] theorem State.parkMe_dram (s : State) (p : Park) : (s.parkMe p).dram = s.dram := rfl
@[simp] theorem State.parkMe_dramKey (s : State) (p : Park) : (s.parkMe p).dramKey = s.dramKey := rfl
@[simp] theorem State.parkMe_dramPoison (s : State) (p : Park) : (s.parkMe p).dramPoison = s.dramPoison := rfl
@[simp] theorem State.parkMe_keySlots (s : State) (p : Park) : (s.parkMe p).keySlots = s.keySlots := rfl
@[simp] theorem State.parkMe_keyFresh (s : State) (p : Park) : (s.parkMe p).keyFresh = s.keyFresh := rfl
@[simp] theorem State.parkMe_colours (s : State) (p : Park) : (s.parkMe p).colours = s.colours := rfl
@[simp] theorem State.parkMe_colourBase (s : State) (p : Park) : (s.parkMe p).colourBase = s.colourBase := rfl
@[simp] theorem State.parkMe_ringBase (s : State) (p : Park) : (s.parkMe p).ringBase = s.ringBase := rfl
@[simp] theorem State.parkMe_rings (s : State) (p : Park) : (s.parkMe p).rings = s.rings := rfl
@[simp] theorem State.parkMe_records (s : State) (p : Park) : (s.parkMe p).records = s.records := rfl
@[simp] theorem State.parkMe_joins (s : State) (p : Park) : (s.parkMe p).joins = s.joins := rfl
@[simp] theorem State.parkMe_tiles (s : State) (p : Park) : (s.parkMe p).tiles = s.tiles := rfl
@[simp] theorem State.parkMe_slices (s : State) (p : Park) : (s.parkMe p).slices = s.slices := rfl
@[simp] theorem State.parkMe_stations (s : State) (p : Park) : (s.parkMe p).stations = s.stations := rfl
@[simp] theorem State.parkMe_dies (s : State) (p : Park) : (s.parkMe p).dies = s.dies := rfl
@[simp] theorem State.parkMe_requests (s : State) (p : Park) : (s.parkMe p).requests = s.requests := rfl
@[simp] theorem State.parkMe_net (s : State) (p : Park) : (s.parkMe p).net = s.net := rfl
@[simp] theorem State.parkMe_served (s : State) (p : Park) : (s.parkMe p).served = s.served := rfl
@[simp] theorem State.parkMe_releases (s : State) (p : Park) : (s.parkMe p).releases = s.releases := rfl
@[simp] theorem State.parkMe_faultTokens (s : State) (p : Park) : (s.parkMe p).faultTokens = s.faultTokens := rfl
@[simp] theorem State.parkMe_prefetches (s : State) (p : Park) : (s.parkMe p).prefetches = s.prefetches := rfl
@[simp] theorem State.parkMe_bootStage (s : State) (p : Park) : (s.parkMe p).bootStage = s.bootStage := rfl
@[simp] theorem State.parkMe_bootErr (s : State) (p : Park) : (s.parkMe p).bootErr = s.bootErr := rfl
@[simp] theorem State.parkMe_stkfail (s : State) (p : Park) : (s.parkMe p).stkfail = s.stkfail := rfl
@[simp] theorem State.parkMe_linksDown (s : State) (p : Park) : (s.parkMe p).linksDown = s.linksDown := rfl
@[simp] theorem State.parkMe_linkSecret (s : State) (p : Park) : (s.parkMe p).linkSecret = s.linkSecret := rfl
@[simp] theorem State.parkMe_hrefuseV (s : State) (p : Park) : (s.parkMe p).hrefuseV = s.hrefuseV := rfl
@[simp] theorem State.parkMe_hrefusePa (s : State) (p : Park) : (s.parkMe p).hrefusePa = s.hrefusePa := rfl
@[simp] theorem State.parkMe_hcxl (s : State) (p : Park) : (s.parkMe p).hcxl = s.hcxl := rfl
@[simp] theorem State.parkMe_wxbase (s : State) (p : Park) : (s.parkMe p).wxbase = s.wxbase := rfl
@[simp] theorem State.parkMe_hwcol (s : State) (p : Park) : (s.parkMe p).hwcol = s.hwcol := rfl
@[simp] theorem State.parkMe_ethUp (s : State) (p : Park) : (s.parkMe p).ethUp = s.ethUp := rfl
@[simp] theorem State.parkMe_pwrcap (s : State) (p : Park) : (s.parkMe p).pwrcap = s.pwrcap := rfl
@[simp] theorem State.parkMe_throttled (s : State) (p : Park) : (s.parkMe p).throttled = s.throttled := rfl
@[simp] theorem State.parkMe_thermtrip (s : State) (p : Park) : (s.parkMe p).thermtrip = s.thermtrip := rfl
@[simp] theorem State.parkMe_worldPages (s : State) (p : Park) : (s.parkMe p).worldPages = s.worldPages := rfl
@[simp] theorem State.parkMe_numVfs (s : State) (p : Park) : (s.parkMe p).numVfs = s.numVfs := rfl
@[simp] theorem State.parkMe_vfEnable (s : State) (p : Park) : (s.parkMe p).vfEnable = s.vfEnable := rfl
@[simp] theorem State.parkMe_vfHeld (s : State) (p : Park) : (s.parkMe p).vfHeld = s.vfHeld := rfl
@[simp] theorem State.parkMe_removals (s : State) (p : Park) : (s.parkMe p).removals = s.removals := rfl
@[simp] theorem State.parkMe_functions (s : State) (p : Park) : (s.parkMe p).functions = s.functions := rfl
@[simp] theorem State.parkMe_measures (s : State) (p : Park) : (s.parkMe p).measures = s.measures := rfl
@[simp] theorem State.parkMe_ideKeys (s : State) (p : Park) : (s.parkMe p).ideKeys = s.ideKeys := rfl
@[simp] theorem State.parkMe_macsec (s : State) (p : Park) : (s.parkMe p).macsec = s.macsec := rfl
@[simp] theorem State.parkMe_frames (s : State) (p : Park) : (s.parkMe p).frames = s.frames := rfl
@[simp] theorem State.parkMe_replies (s : State) (p : Park) : (s.parkMe p).replies = s.replies := rfl
@[simp] theorem State.parkMe_ceCounts (s : State) (p : Park) : (s.parkMe p).ceCounts = s.ceCounts := rfl
@[simp] theorem State.parkMe_cePages (s : State) (p : Park) : (s.parkMe p).cePages = s.cePages := rfl
@[simp] theorem State.parkMe_frozen (s : State) (p : Park) : (s.parkMe p).frozen = s.frozen := rfl
@[simp] theorem State.parkMe_thawing (s : State) (p : Park) : (s.parkMe p).thawing = s.thawing := rfl
@[simp] theorem State.parkMe_debugStops (s : State) (p : Park) : (s.parkMe p).debugStops = s.debugStops := rfl
@[simp] theorem State.parkMe_snaps (s : State) (p : Park) : (s.parkMe p).snaps = s.snaps := rfl
@[simp] theorem State.endRecord_agenda (s : State)  : (s.endRecord).agenda = s.agenda := rfl
@[simp] theorem State.endRecord_actor (s : State)  : (s.endRecord).actor = s.actor := rfl
@[simp] theorem State.endRecord_free (s : State)  : (s.endRecord).free = s.free := rfl
@[simp] theorem State.endRecord_seq (s : State)  : (s.endRecord).seq = s.seq := rfl
@[simp] theorem State.endRecord_nextId (s : State)  : (s.endRecord).nextId = s.nextId := rfl
@[simp] theorem State.endRecord_timebase (s : State)  : (s.endRecord).timebase = s.timebase := rfl
@[simp] theorem State.endRecord_cycles (s : State)  : (s.endRecord).cycles = s.cycles := rfl
@[simp] theorem State.endRecord_dram (s : State)  : (s.endRecord).dram = s.dram := rfl
@[simp] theorem State.endRecord_dramKey (s : State)  : (s.endRecord).dramKey = s.dramKey := rfl
@[simp] theorem State.endRecord_dramPoison (s : State)  : (s.endRecord).dramPoison = s.dramPoison := rfl
@[simp] theorem State.endRecord_keySlots (s : State)  : (s.endRecord).keySlots = s.keySlots := rfl
@[simp] theorem State.endRecord_keyFresh (s : State)  : (s.endRecord).keyFresh = s.keyFresh := rfl
@[simp] theorem State.endRecord_colours (s : State)  : (s.endRecord).colours = s.colours := rfl
@[simp] theorem State.endRecord_colourBase (s : State)  : (s.endRecord).colourBase = s.colourBase := rfl
@[simp] theorem State.endRecord_ringBase (s : State)  : (s.endRecord).ringBase = s.ringBase := rfl
@[simp] theorem State.endRecord_rings (s : State)  : (s.endRecord).rings = s.rings := rfl
@[simp] theorem State.endRecord_records (s : State)  : (s.endRecord).records = s.records := rfl
@[simp] theorem State.endRecord_joins (s : State)  : (s.endRecord).joins = s.joins := rfl
@[simp] theorem State.endRecord_tiles (s : State)  : (s.endRecord).tiles = s.tiles := rfl
@[simp] theorem State.endRecord_slices (s : State)  : (s.endRecord).slices = s.slices := rfl
@[simp] theorem State.endRecord_stations (s : State)  : (s.endRecord).stations = s.stations := rfl
@[simp] theorem State.endRecord_dies (s : State)  : (s.endRecord).dies = s.dies := rfl
@[simp] theorem State.endRecord_requests (s : State)  : (s.endRecord).requests = s.requests := rfl
@[simp] theorem State.endRecord_net (s : State)  : (s.endRecord).net = s.net := rfl
@[simp] theorem State.endRecord_served (s : State)  : (s.endRecord).served = s.served := rfl
@[simp] theorem State.endRecord_releases (s : State)  : (s.endRecord).releases = s.releases := rfl
@[simp] theorem State.endRecord_faultTokens (s : State)  : (s.endRecord).faultTokens = s.faultTokens := rfl
@[simp] theorem State.endRecord_prefetches (s : State)  : (s.endRecord).prefetches = s.prefetches := rfl
@[simp] theorem State.endRecord_bootStage (s : State)  : (s.endRecord).bootStage = s.bootStage := rfl
@[simp] theorem State.endRecord_bootErr (s : State)  : (s.endRecord).bootErr = s.bootErr := rfl
@[simp] theorem State.endRecord_stkfail (s : State)  : (s.endRecord).stkfail = s.stkfail := rfl
@[simp] theorem State.endRecord_linksDown (s : State)  : (s.endRecord).linksDown = s.linksDown := rfl
@[simp] theorem State.endRecord_linkSecret (s : State)  : (s.endRecord).linkSecret = s.linkSecret := rfl
@[simp] theorem State.endRecord_hrefuseV (s : State)  : (s.endRecord).hrefuseV = s.hrefuseV := rfl
@[simp] theorem State.endRecord_hrefusePa (s : State)  : (s.endRecord).hrefusePa = s.hrefusePa := rfl
@[simp] theorem State.endRecord_hcxl (s : State)  : (s.endRecord).hcxl = s.hcxl := rfl
@[simp] theorem State.endRecord_wxbase (s : State)  : (s.endRecord).wxbase = s.wxbase := rfl
@[simp] theorem State.endRecord_hwcol (s : State)  : (s.endRecord).hwcol = s.hwcol := rfl
@[simp] theorem State.endRecord_ethUp (s : State)  : (s.endRecord).ethUp = s.ethUp := rfl
@[simp] theorem State.endRecord_pwrcap (s : State)  : (s.endRecord).pwrcap = s.pwrcap := rfl
@[simp] theorem State.endRecord_throttled (s : State)  : (s.endRecord).throttled = s.throttled := rfl
@[simp] theorem State.endRecord_thermtrip (s : State)  : (s.endRecord).thermtrip = s.thermtrip := rfl
@[simp] theorem State.endRecord_worldPages (s : State)  : (s.endRecord).worldPages = s.worldPages := rfl
@[simp] theorem State.endRecord_numVfs (s : State)  : (s.endRecord).numVfs = s.numVfs := rfl
@[simp] theorem State.endRecord_vfEnable (s : State)  : (s.endRecord).vfEnable = s.vfEnable := rfl
@[simp] theorem State.endRecord_vfHeld (s : State)  : (s.endRecord).vfHeld = s.vfHeld := rfl
@[simp] theorem State.endRecord_removals (s : State)  : (s.endRecord).removals = s.removals := rfl
@[simp] theorem State.endRecord_functions (s : State)  : (s.endRecord).functions = s.functions := rfl
@[simp] theorem State.endRecord_measures (s : State)  : (s.endRecord).measures = s.measures := rfl
@[simp] theorem State.endRecord_ideKeys (s : State)  : (s.endRecord).ideKeys = s.ideKeys := rfl
@[simp] theorem State.endRecord_macsec (s : State)  : (s.endRecord).macsec = s.macsec := rfl
@[simp] theorem State.endRecord_frames (s : State)  : (s.endRecord).frames = s.frames := rfl
@[simp] theorem State.endRecord_replies (s : State)  : (s.endRecord).replies = s.replies := rfl
@[simp] theorem State.endRecord_ceCounts (s : State)  : (s.endRecord).ceCounts = s.ceCounts := rfl
@[simp] theorem State.endRecord_cePages (s : State)  : (s.endRecord).cePages = s.cePages := rfl
@[simp] theorem State.endRecord_frozen (s : State)  : (s.endRecord).frozen = s.frozen := rfl
@[simp] theorem State.endRecord_thawing (s : State)  : (s.endRecord).thawing = s.thawing := rfl
@[simp] theorem State.endRecord_debugStops (s : State)  : (s.endRecord).debugStops = s.debugStops := rfl
@[simp] theorem State.endRecord_snaps (s : State)  : (s.endRecord).snaps = s.snaps := rfl

end Sys2Proof.Machine
end

