-- ==== Sys2Proof/Laws/Context.lean ====
section
/-!
SUPPORT. The laws of the accessors: what a table reads after an update of it, and what the operations on the acting
context's registers do.
-/
namespace Sys2Proof.Machine

/-! Tables -/

@[simp] theorem State.cluster_modCluster_self (s : State) (ck : Nat) (g : Cluster → Cluster) :
    (s.modCluster ck g).cluster ck = g (s.cluster ck) := Map.get_put_self _ _ _ _
theorem State.cluster_modCluster_other (s : State) {ck c : Nat} (g : Cluster → Cluster) (h : c ≠ ck) :
    (s.modCluster ck g).cluster c = s.cluster c := Map.get_put_other _ _ _ h
@[simp] theorem State.tile_modTile_self (s : State) (tk : Nat) (g : Tile → Tile) :
    (s.modTile tk g).tile tk = g (s.tile tk) := Map.get_put_self _ _ _ _
theorem State.tile_modTile_other (s : State) {tk c : Nat} (g : Tile → Tile) (h : c ≠ tk) :
    (s.modTile tk g).tile c = s.tile c := Map.get_put_other _ _ _ h
@[simp] theorem State.slice_modSlice_self (s : State) (sk : Nat) (g : Slice → Slice) :
    (s.modSlice sk g).slice sk = g (s.slice sk) := Map.get_put_self _ _ _ _
theorem State.slice_modSlice_other (s : State) {sk c : Nat} (g : Slice → Slice) (h : c ≠ sk) :
    (s.modSlice sk g).slice c = s.slice c := Map.get_put_other _ _ _ h
@[simp] theorem State.die_modDie_self (s : State) (d : Nat) (g : Die → Die) :
    (s.modDie d g).die d = g (s.die d) := Map.get_put_self _ _ _ _
theorem State.die_modDie_other (s : State) {d c : Nat} (g : Die → Die) (h : c ≠ d) :
    (s.modDie d g).die c = s.die c := Map.get_put_other _ _ _ h
@[simp] theorem State.colour_modColour_self (s : State) (c : Colour) (g : ColourEntry → ColourEntry) :
    (s.modColour c g).colour c = g (s.colour c) := Map.get_put_self _ _ _ _
theorem State.colour_modColour_other (s : State) {c d : Colour} (g : ColourEntry → ColourEntry) (h : d ≠ c) :
    (s.modColour c g).colour d = s.colour d :=
  Map.get_put_other _ _ _ fun e => h (BitVec.eq_of_toNat_eq e)
@[simp] theorem State.function_modFunction_self (s : State) (n : Nat) (g : Function → Function) :
    (s.modFunction n g).function n = g (s.function n) := Map.get_put_self _ _ _ _
@[simp] theorem State.worldPage_modWorldPage_self (s : State) (w : Nat) (g : WorldPage → WorldPage) :
    (s.modWorldPage w g).worldPage w = g (s.worldPage w) := Map.get_put_self _ _ _ _
@[simp] theorem Tile.slot_modSlot_self (t : Tile) (k : Nat) (g : Slot → Slot) :
    (t.modSlot k g).slot k = g (t.slot k) := Map.get_put_self _ _ _ _

/-! Contexts of a cluster -/

theorem vector_getD_set {α : Type} {n : Nat} (v : Vector α n) (i j : Nat) (x d : α) (hi : i < n) :
    (v.setIfInBounds i x).getD j d = if j = i then x else v.getD j d := by
  by_cases hj : j < n
  · by_cases h : j = i
    · subst h; simp [Vector.getD, hi]
    · have : ((v.toArray.setIfInBounds i x)[j]?) = v.toArray[j]? := by
        rw [Array.getElem?_setIfInBounds, if_neg (Ne.symm h)]
      simp [Vector.getD, h, this, -Array.getElem?_eq_getElem]
  · have h : j ≠ i := by omega
    simp [Vector.getD, hj, h]
theorem Cluster.context_modContext_self (c : Cluster) {x : Nat} (g : Context → Context) (h : x < 8) :
    (c.modContext x g).context x = g (c.context x) := by
  simp only [Cluster.context, Cluster.modContext, vector_getD_set _ _ _ _ _ h, if_pos]
theorem Cluster.context_modContext_other (c : Cluster) {x y : Nat} (g : Context → Context) (h : y ≠ x) :
    (c.modContext x g).context y = c.context y := by
  simp only [Cluster.context, Cluster.modContext]
  by_cases hx : x < 8
  · rw [vector_getD_set _ _ _ _ _ hx, if_neg h]
  · rw [Vector.setIfInBounds_eq_of_size_le (by omega)]

/-- The acting context after an update of it. -/
theorem State.me_modMe (s : State) (g : Context → Context) (h : s.actor.ctx < 8) : (s.modMe g).me = g s.me := by
  show ((s.modCluster s.actor.ck fun c => c.modContext s.actor.ctx g).cluster s.actor.ck).context s.actor.ctx = _
  rw [State.cluster_modCluster_self, Cluster.context_modContext_self _ _ h]
  rfl
/-- Every other context after an update of the acting one. -/
theorem State.context_modMe_other (s : State) (g : Context → Context) {ck x : Nat}
    (h : ck ≠ s.actor.ck ∨ x ≠ s.actor.ctx) : (s.modMe g).context ck x = s.context ck x := by
  show ((s.modCluster s.actor.ck fun c => c.modContext s.actor.ctx g).cluster ck).context x = (s.cluster ck).context x
  by_cases hc : ck = s.actor.ck
  · subst hc
    rw [State.cluster_modCluster_self, Cluster.context_modContext_other _ _ (h.resolve_left (by simp))]
  · rw [State.cluster_modCluster_other _ _ hc]

/-! Registers (14_control_core.md R272) -/

theorem Context.reg_setReg (c : Context) (r q : Reg) (v : Word) :
    (c.setReg r v).reg q = if q = 0 then 0 else if q = r then v else c.reg q := by
  unfold Context.reg Context.setReg
  by_cases hq : q = 0
  · rw [if_pos hq, if_pos hq]
  · rw [if_neg hq, if_neg hq, if_neg hq]
    by_cases hr : r = 0
    · rw [if_pos hr, if_neg (fun e : q = r => hq (e.trans hr))]
    · rw [if_neg hr, vector_getD_set _ _ _ _ _ (by have := r.isLt; omega)]
      by_cases h : q = r
      · rw [h, if_pos rfl, if_pos rfl]
      · rw [if_neg h, if_neg (fun e => h (BitVec.eq_of_toNat_eq e))]
@[simp] theorem Context.setReg_pc (c : Context) (r : Reg) (v : Word) : (c.setReg r v).pc = c.pc := by
  unfold Context.setReg; split <;> rfl

/-- The acting context after `finish`: the register, the next PC, no park. -/
theorem State.me_finish (s : State) (r : Reg) (v : Word) (h : s.actor.ctx < 8) :
    (s.finish r v).me =
      { s.me.setReg r v with pc := s.me.pc + 8, released := false, armed := false, park := .none } := by
  have h1 : (s.setReg r v).me = s.me.setReg r v := State.me_modMe s _ h
  have h2 : (s.finish r v).me = _ := State.me_modMe (s.setReg r v) _ (by simpa using h)
  rw [h2, h1]
  simp
theorem State.me_advance (s : State) (h : s.actor.ctx < 8) :
    s.advance.me = { s.me with pc := s.me.pc + 8, released := false, armed := false, park := .none } :=
  State.me_modMe s _ h
theorem State.me_jump (s : State) (p : Word) (h : s.actor.ctx < 8) :
    (s.jump p).me = { s.me with pc := p, released := false, armed := false, park := .none } :=
  State.me_modMe s _ h

/-! Two states that differ in the acting context alone -/

theorem OnlyMe.refl (s : State) : OnlyMe s s := ⟨rfl, fun _ _ _ => rfl, fun _ => rfl, fun _ => rfl⟩
theorem OnlyMe.actor {s t : State} (h : OnlyMe s t) : t.actor = s.actor := by rw [h.rest]
theorem OnlyMe.trans {s t u : State} (a : OnlyMe s t) (b : OnlyMe t u) : OnlyMe s u := by
  refine ⟨?_, fun ck x h => ?_, fun ck => ?_, fun p => (b.memory p).trans (a.memory p)⟩
  · rw [b.rest, a.rest]
  · rw [b.others ck x (by rwa [a.actor]), a.others ck x h]
  · rw [b.clusters ck, a.clusters ck]
theorem OnlyMe.modMe (s : State) (g : Context → Context) : OnlyMe s (s.modMe g) := by
  refine ⟨rfl, fun ck x h => State.context_modMe_other s g h, fun ck => ?_, fun _ => rfl⟩
  have e : (s.modMe g) = s.modCluster s.actor.ck fun c => c.modContext s.actor.ctx g := rfl
  rw [e]
  by_cases hc : ck = s.actor.ck
  · subst hc; rw [State.cluster_modCluster_self]; rfl
  · rw [State.cluster_modCluster_other _ _ hc]
theorem OnlyMe.finish (s : State) (r : Reg) (v : Word) : OnlyMe s (s.finish r v) :=
  (OnlyMe.modMe s _).trans (OnlyMe.modMe _ _)
theorem OnlyMe.advance (s : State) : OnlyMe s s.advance := OnlyMe.modMe _ _
theorem WritesReg.finish (s : State) (r : Reg) (v : Word) (h : s.actor.ctx < 8) :
    WritesReg s (s.finish r v) r v (s.me.pc + 8) where
  regs q := by
    show (s.finish r v).me.reg q = _
    rw [State.me_finish s r v h]
    exact Context.reg_setReg _ _ _ _
  me := by
    rw [State.me_finish s r v h]
    unfold Context.setReg; split <;> rfl
  only := OnlyMe.finish s r v
theorem GoesTo.advance (s : State) (h : s.actor.ctx < 8) : GoesTo s s.advance (s.me.pc + 8) :=
  ⟨State.me_advance s h, OnlyMe.modMe _ _⟩
theorem GoesTo.jump (s : State) (p : Word) (h : s.actor.ctx < 8) : GoesTo s (s.jump p) p :=
  ⟨State.me_jump s p h, OnlyMe.modMe _ _⟩
theorem OnlyMe.jump (s : State) (p : Word) : OnlyMe s (s.jump p) := OnlyMe.modMe _ _

end Sys2Proof.Machine
end

