-- ==== Sys2Proof/Laws/Home.lean ====
section
/-!
SUPPORT. What the operations at home slices, translations and traffic counts can change: everything else is as before.
-/
namespace Sys2Proof.Machine

/-- Nothing differs but slices, DRAM with its keys and poison, the arrival counter and the counter of free values. -/
def OnlyHome (s t : State) : Prop :=
  t = { s with slices := t.slices, dram := t.dram, dramKey := t.dramKey, dramPoison := t.dramPoison, seq := t.seq, free := t.free }
theorem OnlyHome.refl (s : State) : OnlyHome s s := rfl
theorem OnlyHome.trans {s t u : State} (a : OnlyHome s t) (b : OnlyHome t u) : OnlyHome s u := by
  unfold OnlyHome at *; rw [b, a]
theorem OnlyHome.clusters {s t : State} (h : OnlyHome s t) : t.clusters = s.clusters := by rw [h]
theorem OnlyHome.actor {s t : State} (h : OnlyHome s t) : t.actor = s.actor := by rw [h]
theorem OnlyHome.tiles {s t : State} (h : OnlyHome s t) : t.tiles = s.tiles := by rw [h]
theorem OnlyHome.requests {s t : State} (h : OnlyHome s t) : t.requests = s.requests := by rw [h]
theorem OnlyHome.me {s t : State} (h : OnlyHome s t) : t.me = s.me := by rw [h]; rfl

theorem OnlyHome.modSlice (s : State) (sk : Nat) (g : Slice → Slice) : OnlyHome s (s.modSlice sk g) := rfl
theorem OnlyHome.writeUnit (s : State) (u : Nat) (c : Colour) (d : BitVec 512) (p : Bool) :
    OnlyHome s (s.writeUnit u c d p) := by simp only [OnlyHome, State.writeUnit]
theorem OnlyHome.writeUnits (s : State) (pa : Nat) (c : Colour) (u p : BitVec 4) (d : BitVec 2048) :
    OnlyHome s (s.writeUnits pa c u p d) :=
  foldl_rel OnlyHome.refl (fun _ _ _ => OnlyHome.trans) _
    (fun s i => by
      by_cases h : u.getLsbD i = true
      · simp only [h, if_true]; exact OnlyHome.writeUnit ..
      · simp only [h]; exact OnlyHome.refl _) _ _
theorem OnlyHome.drainBacks (s : State) (sk pa : Nat) : OnlyHome s (s.drainBacks sk pa) := by
  unfold State.drainBacks
  exact (foldl_rel OnlyHome.refl (fun _ _ _ => OnlyHome.trans) _ (fun _ _ => OnlyHome.writeUnits ..) _ _).trans
    (OnlyHome.modSlice ..)
theorem OnlyHome.install (s : State) (sk pa : Nat) (k : Colour) (w : World) (d : BitVec 2048) (p : BitVec 4) :
    OnlyHome s (s.install sk pa k w d p).1 := by
  unfold State.install
  simp only
  split
  · exact OnlyHome.refl s
  · split
    · exact OnlyHome.refl s
    · rfl
theorem OnlyHome.installed {s t : State} {sk pa : Nat} {k : Colour} {w : World} {d : BitVec 2048} {p : BitVec 4}
    {l : Option Line} (h : s.install sk pa k w d p = (t, l)) : OnlyHome s t := by
  have := OnlyHome.install s sk pa k w d p
  rwa [h] at this
theorem OnlyHome.newFree (s : State) : OnlyHome s s.newFree.1 := rfl
theorem OnlyHome.readOrder (s : State) (sk pa : Nat) : OnlyHome s (s.readOrder sk pa) := by
  unfold State.readOrder
  simp only
  split
  · split
    · exact OnlyHome.newFree s
    · exact (OnlyHome.newFree s).trans (OnlyHome.drainBacks ..)
  · exact OnlyHome.drainBacks ..
theorem OnlyHome.filled (s : State) (sk pa : Nat) (k : Colour) (w : World) (d : BitVec 2048) (p : BitVec 4) :
    OnlyHome s (s.filled sk pa k w d p).1 := by
  unfold State.filled
  split
  · rename_i h; exact OnlyHome.installed h
  · rename_i h; exact OnlyHome.installed h
theorem OnlyHome.refill (s : State) (sk pa : Nat) (k : Colour) (w : World) : OnlyHome s (s.refill sk pa k w).1 :=
  (OnlyHome.readOrder s sk pa).trans (OnlyHome.filled ..)
theorem OnlyHome.obtain (s : State) (sk pa : Nat) (k : Colour) (w : World) : OnlyHome s (s.obtain sk pa k w).1 := by
  unfold State.obtain
  split
  · split
    · rfl
    · exact (OnlyHome.modSlice ..).trans (OnlyHome.refill ..)
  · exact OnlyHome.refill ..
theorem OnlyHome.serve (s : State) (sk pa : Nat) (k : Colour) (w : World) : OnlyHome s (s.serve sk pa k w).1 :=
  (OnlyHome.modSlice s sk _).trans (OnlyHome.obtain ..)
theorem OnlyHome.leaseOf (s : State) (t : State × Line × Bool) (h : OnlyHome s t.1) (sk : Nat) (p : Word) :
    OnlyHome s (State.leaseOf t sk p).1 := by
  obtain ⟨u, x, inst⟩ := t
  cases inst
  · exact h
  · exact h.trans (by dsimp only [State.leaseOf]; rw [if_pos rfl]; exact OnlyHome.modSlice u sk _)
theorem OnlyHome.leaseRead (s : State) (sk pa : Nat) (k : Colour) (w : World) (p : Word) :
    OnlyHome s (s.leaseRead sk pa k w p).1 := OnlyHome.leaseOf s _ (OnlyHome.serve ..) sk p
theorem OnlyHome.plainRead (s : State) (sk pa : Nat) (k : Colour) (w : World) :
    OnlyHome s (s.plainRead sk pa k w).1 := OnlyHome.serve ..
theorem OnlyHome.lineUpdate (s : State) (sk pa : Nat) (k : Colour) (w : World)
    (g : BitVec 2048 → BitVec 4 → List (Nat × Byte) × Bool) (p : Word) : OnlyHome s (s.lineUpdate sk pa k w g p).1 :=
  (OnlyHome.serve s sk pa k w).trans (by dsimp only [State.lineUpdate, State.updateOf]; exact OnlyHome.modSlice (s.serve sk pa k w).1 sk _)
theorem OnlyHome.lineWrite (s : State) (sk pa : Nat) (k : Colour) (w : World) (ps : List (Nat × Byte)) (b : Bool)
    (p : Word) : OnlyHome s (s.lineWrite sk pa k w ps b p).1 :=
  OnlyHome.lineUpdate s sk pa k w (fun _ _ => (ps, b)) p
theorem OnlyHome.poke (s : State) (pa : Nat) (bs : List Byte) : OnlyHome s (s.poke pa bs) := by
  unfold State.poke
  refine foldl_rel OnlyHome.refl (fun _ _ _ => OnlyHome.trans) _ (fun s p => ?_) _ _
  simp only
  split <;> rfl
theorem OnlyHome.walk (s : State) (c : Colour) (va : Nat) : OnlyHome s (s.walk c va).1 := by
  unfold State.walk
  split
  · exact OnlyHome.refl s
  · split
    · exact OnlyHome.refl s
    · exact OnlyHome.poke ..
theorem OnlyHome.xlate (s : State) (tlb : List TlbEntry) (c : Colour) (va : Nat) (rd wr : Bool) :
    OnlyHome s (s.xlate tlb c va rd wr).1 := by
  unfold State.xlate
  split
  · exact OnlyHome.refl s
  · split
    · exact OnlyHome.refl s
    · split
      · exact OnlyHome.refl s
      · split
        · exact OnlyHome.refl s
        · have := OnlyHome.walk s c va
          split <;> simp_all

/-- Nothing differs but what a translation may change: home slices and DRAM (the A bit of a leaf), and TLBs. -/
structure OnlyXlate (s t : State) : Prop where
  rest : t = { s with slices := t.slices, dram := t.dram, dramKey := t.dramKey, dramPoison := t.dramPoison, seq := t.seq,
                      free := t.free, clusters := t.clusters }
  clusters : ∀ ck, t.cluster ck = { s.cluster ck with tlb := (t.cluster ck).tlb, l2tlb := (t.cluster ck).l2tlb }
theorem OnlyXlate.me {s t : State} (h : OnlyXlate s t) : t.me = s.me := by
  have e : t.actor = s.actor := by rw [h.rest]
  show (t.cluster t.actor.ck).context t.actor.ctx = (s.cluster s.actor.ck).context s.actor.ctx
  rw [e, h.clusters]; rfl
theorem OnlyXlate.actor {s t : State} (h : OnlyXlate s t) : t.actor = s.actor := by rw [h.rest]
theorem OnlyXlate.ofHome {s t : State} (h : OnlyHome s t) : OnlyXlate s t := by
  refine ⟨?_, fun ck => ?_⟩
  · rw [h]
  · have e : t.cluster ck = s.cluster ck := by rw [h]; rfl
    rw [e]
theorem OnlyXlate.trans {s t u : State} (a : OnlyXlate s t) (b : OnlyXlate t u) : OnlyXlate s u := by
  refine ⟨?_, fun ck => ?_⟩
  · rw [b.rest, a.rest]
  · rw [b.clusters ck, a.clusters ck]
theorem OnlyXlate.modTlb (s : State) (ck : Nat) (g h : List TlbEntry → List TlbEntry) :
    OnlyXlate s (s.modCluster ck fun k => { k with tlb := g k.tlb, l2tlb := h k.l2tlb }) := by
  refine ⟨rfl, fun c => ?_⟩
  by_cases e : c = ck
  · subst e; rw [State.cluster_modCluster_self]
  · rw [State.cluster_modCluster_other _ _ e]
theorem OnlyXlate.xlateCore (s : State) (ck : Nat) (c : Colour) (va : Nat) (rd wr : Bool) :
    OnlyXlate s (s.xlateCore ck c va rd wr).1 := by
  have h := OnlyHome.xlate s ((s.cluster ck).tlb ++ (s.cluster ck).l2tlb) c va rd wr
  unfold State.xlateCore
  simp only
  split
  · rename_i t r e
    rw [e] at h
    split
    · exact (OnlyXlate.ofHome h).trans (OnlyXlate.modTlb _ ck (fun l => tlbInsert 32 l _) id)
    · exact OnlyXlate.ofHome h
  · rename_i t x r e
    rw [e] at h
    exact (OnlyXlate.ofHome h).trans
      (OnlyXlate.modTlb _ ck (fun l => tlbInsert 32 l x) (fun l => l2Insert l x))
theorem OnlyXlate.xlateEngine (s : State) (ck : Nat) (c : Colour) (va : Nat) (rd wr : Bool) :
    OnlyXlate s (s.xlateEngine ck c va rd wr).1 := by
  have h := OnlyHome.xlate s (s.cluster ck).l2tlb c va rd wr
  unfold State.xlateEngine
  split
  · rename_i t r e
    rw [e] at h
    exact OnlyXlate.ofHome h
  · rename_i t x r e
    rw [e] at h
    exact (OnlyXlate.ofHome h).trans (OnlyXlate.modTlb _ ck id (fun l => l2Insert l x))

/-- Counting a flit changes stations alone. -/
theorem State.countFlit_frame (s : State) (src goal : NetGoal) (n : Nat) (c : Colour) (w : World) :
    s.countFlit src goal n c w = { s with stations := (s.countFlit src goal n c w).stations } :=
  foldl_rel (R := fun a b : State => b = { a with stations := b.stations }) (fun _ => rfl)
    (fun a b c h k => by rw [k, h]) _ (fun _ _ => rfl) _ _
/-- Counting an access changes stations alone. -/
theorem State.countFrom_frame (s : State) (p : NetGoal) (sk a b : Nat) (c : Colour) (w : World) :
    s.countFrom p sk a b c w = { s with stations := (s.countFrom p sk a b c w).stations } := by
  unfold State.countFrom
  rw [State.countFlit_frame, State.countFlit_frame s]

end Sys2Proof.Machine
end

