-- ==== Sys2Proof/Laws/PerInstr.lean ====
section
/-!
SUPPORT. What holds of each instruction as syntax: an instruction that has a control-core word has no operator word, so that the
eight or sixteen bytes of `encode` come from one table only.
-/
namespace Sys2Proof.Laws.Words

/-- No instruction stands in both encoding tables (03_formats.md R59, R68). -/
def Statement (i : Instr) : Prop := (encodeCore i).isSome = true → fabricOf i = none

theorem add : ∀ a b c, Statement (.add a b c) := fun _ _ _ _ => rfl
theorem sub : ∀ a b c, Statement (.sub a b c) := fun _ _ _ _ => rfl
theorem mul : ∀ a b c, Statement (.mul a b c) := fun _ _ _ _ => rfl
theorem mulh : ∀ a b c, Statement (.mulh a b c) := fun _ _ _ _ => rfl
theorem mulhu : ∀ a b c, Statement (.mulhu a b c) := fun _ _ _ _ => rfl
theorem div : ∀ a b c, Statement (.div a b c) := fun _ _ _ _ => rfl
theorem divu : ∀ a b c, Statement (.divu a b c) := fun _ _ _ _ => rfl
theorem rem : ∀ a b c, Statement (.rem a b c) := fun _ _ _ _ => rfl
theorem remu : ∀ a b c, Statement (.remu a b c) := fun _ _ _ _ => rfl
theorem and : ∀ a b c, Statement (.and a b c) := fun _ _ _ _ => rfl
theorem or : ∀ a b c, Statement (.or a b c) := fun _ _ _ _ => rfl
theorem xor : ∀ a b c, Statement (.xor a b c) := fun _ _ _ _ => rfl
theorem sll : ∀ a b c, Statement (.sll a b c) := fun _ _ _ _ => rfl
theorem srl : ∀ a b c, Statement (.srl a b c) := fun _ _ _ _ => rfl
theorem sra : ∀ a b c, Statement (.sra a b c) := fun _ _ _ _ => rfl
theorem slt : ∀ a b c, Statement (.slt a b c) := fun _ _ _ _ => rfl
theorem sltu : ∀ a b c, Statement (.sltu a b c) := fun _ _ _ _ => rfl
theorem addi : ∀ a b c, Statement (.addi a b c) := fun _ _ _ _ => rfl
theorem andi : ∀ a b c, Statement (.andi a b c) := fun _ _ _ _ => rfl
theorem ori : ∀ a b c, Statement (.ori a b c) := fun _ _ _ _ => rfl
theorem xori : ∀ a b c, Statement (.xori a b c) := fun _ _ _ _ => rfl
theorem slli : ∀ a b c, Statement (.slli a b c) := fun _ _ _ _ => rfl
theorem srli : ∀ a b c, Statement (.srli a b c) := fun _ _ _ _ => rfl
theorem srai : ∀ a b c, Statement (.srai a b c) := fun _ _ _ _ => rfl
theorem slti : ∀ a b c, Statement (.slti a b c) := fun _ _ _ _ => rfl
theorem li : ∀ a b, Statement (.li a b) := fun _ _ _ => rfl
theorem lih : ∀ a b, Statement (.lih a b) := fun _ _ _ => rfl
theorem beq : ∀ a b c, Statement (.beq a b c) := fun _ _ _ _ => rfl
theorem bne : ∀ a b c, Statement (.bne a b c) := fun _ _ _ _ => rfl
theorem blt : ∀ a b c, Statement (.blt a b c) := fun _ _ _ _ => rfl
theorem bge : ∀ a b c, Statement (.bge a b c) := fun _ _ _ _ => rfl
theorem bltu : ∀ a b c, Statement (.bltu a b c) := fun _ _ _ _ => rfl
theorem bgeu : ∀ a b c, Statement (.bgeu a b c) := fun _ _ _ _ => rfl
theorem jal : ∀ a b, Statement (.jal a b) := fun _ _ _ => rfl
theorem jalr : ∀ a b c, Statement (.jalr a b c) := fun _ _ _ _ => rfl
theorem ldxB : ∀ a b c d, Statement (.ldxB a b c d) := fun _ _ _ _ _ => rfl
theorem ldxBu : ∀ a b c d, Statement (.ldxBu a b c d) := fun _ _ _ _ _ => rfl
theorem ldxH : ∀ a b c d, Statement (.ldxH a b c d) := fun _ _ _ _ _ => rfl
theorem ldxHu : ∀ a b c d, Statement (.ldxHu a b c d) := fun _ _ _ _ _ => rfl
theorem ldxW : ∀ a b c d, Statement (.ldxW a b c d) := fun _ _ _ _ _ => rfl
theorem ldxWu : ∀ a b c d, Statement (.ldxWu a b c d) := fun _ _ _ _ _ => rfl
theorem ldxD : ∀ a b c d, Statement (.ldxD a b c d) := fun _ _ _ _ _ => rfl
theorem stxB : ∀ a b c d, Statement (.stxB a b c d) := fun _ _ _ _ _ => rfl
theorem stxH : ∀ a b c d, Statement (.stxH a b c d) := fun _ _ _ _ _ => rfl
theorem stxW : ∀ a b c d, Statement (.stxW a b c d) := fun _ _ _ _ _ => rfl
theorem stxD : ∀ a b c d, Statement (.stxD a b c d) := fun _ _ _ _ _ => rfl
theorem amoAdd : ∀ a b c d, Statement (.amoAdd a b c d) := fun _ _ _ _ _ => rfl
theorem amoSwap : ∀ a b c d, Statement (.amoSwap a b c d) := fun _ _ _ _ _ => rfl
theorem amoCas : ∀ a b c d, Statement (.amoCas a b c d) := fun _ _ _ _ _ => rfl
theorem fence : ∀ a, Statement (.fence a) := fun _ _ => rfl
theorem rel : ∀ a, Statement (.rel a) := fun _ _ => rfl
theorem acq : ∀ a, Statement (.acq a) := fun _ _ => rfl
theorem cspawn : ∀ a b, Statement (.cspawn a b) := fun _ _ _ => rfl
theorem cjoin : ∀ a, Statement (.cjoin a) := fun _ _ => rfl
theorem cend : Statement (.cend) := fun _ => rfl
theorem cyield : Statement (.cyield) := fun _ => rfl
theorem sspec : ∀ a b, Statement (.sspec a b) := fun _ _ _ => rfl
theorem sbar : ∀ a, Statement (.sbar a) := fun _ _ => rfl
theorem scond : ∀ a b c, Statement (.scond a b c) := fun _ _ _ _ => rfl
theorem gload : ∀ a b c, Statement (.gload a b c) := fun _ _ _ _ => rfl
theorem gsplice : ∀ a b, Statement (.gsplice a b) := fun _ _ _ => rfl
theorem gfree : ∀ a, Statement (.gfree a) := fun _ _ => rfl
theorem jsub : ∀ a, Statement (.jsub a) := fun _ _ => rfl
theorem gjoin : ∀ a b, Statement (.gjoin a b) := fun _ _ _ => rfl
theorem gleave : ∀ a b, Statement (.gleave a b) := fun _ _ _ => rfl
theorem colq : ∀ a b c, Statement (.colq a b c) := fun _ _ _ _ => rfl
theorem colret : ∀ a, Statement (.colret a) := fun _ _ => rfl
theorem evwait : ∀ a b, Statement (.evwait a b) := fun _ _ _ => rfl
theorem evarm : ∀ a, Statement (.evarm a) := fun _ _ => rfl
theorem binit : ∀ a b, Statement (.binit a b) := fun _ _ _ => rfl
theorem barv : ∀ a b c, Statement (.barv a b c) := fun _ _ _ _ => rfl
theorem bwait : ∀ a b c d, Statement (.bwait a b c d) := fun _ _ _ _ _ => rfl
theorem onew : ∀ a b c, Statement (.onew a b c) := fun _ _ _ _ => rfl
theorem oname : ∀ a b, Statement (.oname a b) := fun _ _ _ => rfl
theorem ofind : ∀ a b, Statement (.ofind a b) := fun _ _ _ => rfl
theorem oup : ∀ a b, Statement (.oup a b) := fun _ _ _ => rfl
theorem orel : ∀ a, Statement (.orel a) := fun _ _ => rfl
theorem oweak : ∀ a b, Statement (.oweak a b) := fun _ _ _ => rfl
theorem oprio : ∀ a b, Statement (.oprio a b) := fun _ _ _ => rfl
theorem odisc : ∀ a, Statement (.odisc a) := fun _ _ => rfl
theorem trap : ∀ a, Statement (.trap a) := fun _ _ => rfl
theorem eret : Statement (.eret) := fun _ => rfl
theorem csrrd : ∀ a b, Statement (.csrrd a b) := fun _ _ _ => rfl
theorem csrwr : ∀ a b, Statement (.csrwr a b) := fun _ _ _ => rfl
theorem wfe : Statement (.wfe) := fun _ => rfl
theorem halt : Statement (.halt) := fun _ => rfl
theorem snap : ∀ a, Statement (.snap a) := fun _ _ => rfl
theorem freeze : ∀ a, Statement (.freeze a) := fun _ _ => rfl
theorem thaw : ∀ a, Statement (.thaw a) := fun _ _ => rfl
theorem const : ∀ a, Statement (.const a) := fun _ h => Bool.noConfusion h
theorem pass : ∀ a, Statement (.pass a) := fun _ h => Bool.noConfusion h
theorem repl : ∀ a, Statement (.repl a) := fun _ h => Bool.noConfusion h
theorem steer : ∀ a, Statement (.steer a) := fun _ h => Bool.noConfusion h
theorem merge : ∀ a, Statement (.merge a) := fun _ h => Bool.noConfusion h
theorem amerge : ∀ a, Statement (.amerge a) := fun _ h => Bool.noConfusion h
theorem lcarryEntry : ∀ a, Statement (.lcarryEntry a) := fun _ h => Bool.noConfusion h
theorem lcarryBackEdge : ∀ a, Statement (.lcarryBackEdge a) := fun _ h => Bool.noConfusion h
theorem lcarryEosRelease : ∀ a, Statement (.lcarryEosRelease a) := fun _ h => Bool.noConfusion h
theorem select : ∀ a, Statement (.select a) := fun _ h => Bool.noConfusion h
theorem tagset : ∀ a, Statement (.tagset a) := fun _ h => Bool.noConfusion h
theorem taginc : ∀ a, Statement (.taginc a) := fun _ h => Bool.noConfusion h
theorem tagcopy : ∀ a, Statement (.tagcopy a) := fun _ h => Bool.noConfusion h
theorem lvpush : ∀ a, Statement (.lvpush a) := fun _ h => Bool.noConfusion h
theorem lvpop : ∀ a, Statement (.lvpop a) := fun _ h => Bool.noConfusion h
theorem eosgen : ∀ a, Statement (.eosgen a) := fun _ h => Bool.noConfusion h
theorem eoswait : ∀ a, Statement (.eoswait a) := fun _ h => Bool.noConfusion h
theorem sink : ∀ a, Statement (.sink a) := fun _ h => Bool.noConfusion h
theorem drop : ∀ a, Statement (.drop a) := fun _ h => Bool.noConfusion h
theorem gate : ∀ a, Statement (.gate a) := fun _ h => Bool.noConfusion h
theorem ojoin : ∀ a, Statement (.ojoin a) := fun _ h => Bool.noConfusion h
theorem cfgreq : ∀ a, Statement (.cfgreq a) := fun _ h => Bool.noConfusion h
theorem gcoal : ∀ a, Statement (.gcoal a) := fun _ h => Bool.noConfusion h
theorem greord : ∀ a, Statement (.greord a) := fun _ h => Bool.noConfusion h
theorem nadd : ∀ a, Statement (.nadd a) := fun _ h => Bool.noConfusion h
theorem nsub : ∀ a, Statement (.nsub a) := fun _ h => Bool.noConfusion h
theorem nneg : ∀ a, Statement (.nneg a) := fun _ h => Bool.noConfusion h
theorem nabs : ∀ a, Statement (.nabs a) := fun _ h => Bool.noConfusion h
theorem nmin : ∀ a, Statement (.nmin a) := fun _ h => Bool.noConfusion h
theorem nmax : ∀ a, Statement (.nmax a) := fun _ h => Bool.noConfusion h
theorem nshl : ∀ a, Statement (.nshl a) := fun _ h => Bool.noConfusion h
theorem nmulk : ∀ a, Statement (.nmulk a) := fun _ h => Bool.noConfusion h
theorem nceq : ∀ a, Statement (.nceq a) := fun _ h => Bool.noConfusion h
theorem ncne : ∀ a, Statement (.ncne a) := fun _ h => Bool.noConfusion h
theorem nclt : ∀ a, Statement (.nclt a) := fun _ h => Bool.noConfusion h
theorem ncle : ∀ a, Statement (.ncle a) := fun _ h => Bool.noConfusion h
theorem ntobW : ∀ a, Statement (.ntobW a) := fun _ h => Bool.noConfusion h
theorem ntobS : ∀ a, Statement (.ntobS a) := fun _ h => Bool.noConfusion h
theorem bton : ∀ a, Statement (.bton a) := fun _ h => Bool.noConfusion h
theorem vaddI32 : ∀ a, Statement (.vaddI32 a) := fun _ h => Bool.noConfusion h
theorem vaddsatI32 : ∀ a, Statement (.vaddsatI32 a) := fun _ h => Bool.noConfusion h
theorem vsubI32 : ∀ a, Statement (.vsubI32 a) := fun _ h => Bool.noConfusion h
theorem vsubsatI32 : ∀ a, Statement (.vsubsatI32 a) := fun _ h => Bool.noConfusion h
theorem vmulI32 : ∀ a, Statement (.vmulI32 a) := fun _ h => Bool.noConfusion h
theorem vmulhI32 : ∀ a, Statement (.vmulhI32 a) := fun _ h => Bool.noConfusion h
theorem vmulhuI32 : ∀ a, Statement (.vmulhuI32 a) := fun _ h => Bool.noConfusion h
theorem vminI32 : ∀ a, Statement (.vminI32 a) := fun _ h => Bool.noConfusion h
theorem vmaxI32 : ∀ a, Statement (.vmaxI32 a) := fun _ h => Bool.noConfusion h
theorem vminuI32 : ∀ a, Statement (.vminuI32 a) := fun _ h => Bool.noConfusion h
theorem vmaxuI32 : ∀ a, Statement (.vmaxuI32 a) := fun _ h => Bool.noConfusion h
theorem vand : ∀ a, Statement (.vand a) := fun _ h => Bool.noConfusion h
theorem vor : ∀ a, Statement (.vor a) := fun _ h => Bool.noConfusion h
theorem vxor : ∀ a, Statement (.vxor a) := fun _ h => Bool.noConfusion h
theorem vnot : ∀ a, Statement (.vnot a) := fun _ h => Bool.noConfusion h
theorem vshl : ∀ a, Statement (.vshl a) := fun _ h => Bool.noConfusion h
theorem vshr : ∀ a, Statement (.vshr a) := fun _ h => Bool.noConfusion h
theorem vsra : ∀ a, Statement (.vsra a) := fun _ h => Bool.noConfusion h
theorem vceqI32 : ∀ a, Statement (.vceqI32 a) := fun _ h => Bool.noConfusion h
theorem vcneI32 : ∀ a, Statement (.vcneI32 a) := fun _ h => Bool.noConfusion h
theorem vcltI32 : ∀ a, Statement (.vcltI32 a) := fun _ h => Bool.noConfusion h
theorem vcleI32 : ∀ a, Statement (.vcleI32 a) := fun _ h => Bool.noConfusion h
theorem vcltuI32 : ∀ a, Statement (.vcltuI32 a) := fun _ h => Bool.noConfusion h
theorem vcleuI32 : ∀ a, Statement (.vcleuI32 a) := fun _ h => Bool.noConfusion h
theorem vfaddF32 : ∀ a, Statement (.vfaddF32 a) := fun _ h => Bool.noConfusion h
theorem vfsubF32 : ∀ a, Statement (.vfsubF32 a) := fun _ h => Bool.noConfusion h
theorem vfmulF32 : ∀ a, Statement (.vfmulF32 a) := fun _ h => Bool.noConfusion h
theorem vfmaF32 : ∀ a, Statement (.vfmaF32 a) := fun _ h => Bool.noConfusion h
theorem vfdivF32 : ∀ a, Statement (.vfdivF32 a) := fun _ h => Bool.noConfusion h
theorem vfrcpF32 : ∀ a, Statement (.vfrcpF32 a) := fun _ h => Bool.noConfusion h
theorem vfrsqF32 : ∀ a, Statement (.vfrsqF32 a) := fun _ h => Bool.noConfusion h
theorem vfsqrtF32 : ∀ a, Statement (.vfsqrtF32 a) := fun _ h => Bool.noConfusion h
theorem vfexp2F32 : ∀ a, Statement (.vfexp2F32 a) := fun _ h => Bool.noConfusion h
theorem vflog2F32 : ∀ a, Statement (.vflog2F32 a) := fun _ h => Bool.noConfusion h
theorem vfminF32 : ∀ a, Statement (.vfminF32 a) := fun _ h => Bool.noConfusion h
theorem vfmaxF32 : ∀ a, Statement (.vfmaxF32 a) := fun _ h => Bool.noConfusion h
theorem vfceqF32 : ∀ a, Statement (.vfceqF32 a) := fun _ h => Bool.noConfusion h
theorem vfcltF32 : ∀ a, Statement (.vfcltF32 a) := fun _ h => Bool.noConfusion h
theorem vfcleF32 : ∀ a, Statement (.vfcleF32 a) := fun _ h => Bool.noConfusion h
theorem vfcunF32 : ∀ a, Statement (.vfcunF32 a) := fun _ h => Bool.noConfusion h
theorem vcvtF32Bf16 : ∀ a, Statement (.vcvtF32Bf16 a) := fun _ h => Bool.noConfusion h
theorem vcvtBf16F32 : ∀ a, Statement (.vcvtBf16F32 a) := fun _ h => Bool.noConfusion h
theorem vcvtsrBf16F32 : ∀ a, Statement (.vcvtsrBf16F32 a) := fun _ h => Bool.noConfusion h
theorem vcvtF32F16 : ∀ a, Statement (.vcvtF32F16 a) := fun _ h => Bool.noConfusion h
theorem vcvtF16F32 : ∀ a, Statement (.vcvtF16F32 a) := fun _ h => Bool.noConfusion h
theorem vcvtF32E4m3 : ∀ a, Statement (.vcvtF32E4m3 a) := fun _ h => Bool.noConfusion h
theorem vcvtE4m3F32 : ∀ a, Statement (.vcvtE4m3F32 a) := fun _ h => Bool.noConfusion h
theorem vcvtF32E5m2 : ∀ a, Statement (.vcvtF32E5m2 a) := fun _ h => Bool.noConfusion h
theorem vcvtE5m2F32 : ∀ a, Statement (.vcvtE5m2F32 a) := fun _ h => Bool.noConfusion h
theorem vcvtI32F32 : ∀ a, Statement (.vcvtI32F32 a) := fun _ h => Bool.noConfusion h
theorem vcvtnI32F32 : ∀ a, Statement (.vcvtnI32F32 a) := fun _ h => Bool.noConfusion h
theorem vcvtF32I32 : ∀ a, Statement (.vcvtF32I32 a) := fun _ h => Bool.noConfusion h
theorem vcvtI8I32 : ∀ a, Statement (.vcvtI8I32 a) := fun _ h => Bool.noConfusion h
theorem vqdec : ∀ a, Statement (.vqdec a) := fun _ h => Bool.noConfusion h
theorem vqenc : ∀ a, Statement (.vqenc a) := fun _ h => Bool.noConfusion h
theorem vrsumF32 : ∀ a, Statement (.vrsumF32 a) := fun _ h => Bool.noConfusion h
theorem vrmaxF32 : ∀ a, Statement (.vrmaxF32 a) := fun _ h => Bool.noConfusion h
theorem vrminF32 : ∀ a, Statement (.vrminF32 a) := fun _ h => Bool.noConfusion h
theorem vrsumI32 : ∀ a, Statement (.vrsumI32 a) := fun _ h => Bool.noConfusion h
theorem vperm : ∀ a, Statement (.vperm a) := fun _ h => Bool.noConfusion h
theorem vrot : ∀ a, Statement (.vrot a) := fun _ h => Bool.noConfusion h
theorem vcx : ∀ a, Statement (.vcx a) := fun _ h => Bool.noConfusion h
theorem ldv : ∀ a, Statement (.ldv a) := fun _ h => Bool.noConfusion h
theorem stv : ∀ a, Statement (.stv a) := fun _ h => Bool.noConfusion h
theorem ld8 : ∀ a, Statement (.ld8 a) := fun _ h => Bool.noConfusion h
theorem ld16 : ∀ a, Statement (.ld16 a) := fun _ h => Bool.noConfusion h
theorem ld32 : ∀ a, Statement (.ld32 a) := fun _ h => Bool.noConfusion h
theorem ld64 : ∀ a, Statement (.ld64 a) := fun _ h => Bool.noConfusion h
theorem st8 : ∀ a, Statement (.st8 a) := fun _ h => Bool.noConfusion h
theorem st16 : ∀ a, Statement (.st16 a) := fun _ h => Bool.noConfusion h
theorem st32 : ∀ a, Statement (.st32 a) := fun _ h => Bool.noConfusion h
theorem st64 : ∀ a, Statement (.st64 a) := fun _ h => Bool.noConfusion h
theorem ldfeC : ∀ a, Statement (.ldfeC a) := fun _ h => Bool.noConfusion h
theorem ldfeK : ∀ a, Statement (.ldfeK a) := fun _ h => Bool.noConfusion h
theorem stf : ∀ a, Statement (.stf a) := fun _ h => Bool.noConfusion h
theorem ldg : ∀ a, Statement (.ldg a) := fun _ h => Bool.noConfusion h
theorem ldhV : ∀ a, Statement (.ldhV a) := fun _ h => Bool.noConfusion h
theorem sthV : ∀ a, Statement (.sthV a) := fun _ h => Bool.noConfusion h
theorem ldwV : ∀ a, Statement (.ldwV a) := fun _ h => Bool.noConfusion h
theorem aaddI32 : ∀ a, Statement (.aaddI32 a) := fun _ h => Bool.noConfusion h
theorem aaddF32 : ∀ a, Statement (.aaddF32 a) := fun _ h => Bool.noConfusion h
theorem aminI32 : ∀ a, Statement (.aminI32 a) := fun _ h => Bool.noConfusion h
theorem amaxI32 : ∀ a, Statement (.amaxI32 a) := fun _ h => Bool.noConfusion h
theorem aand : ∀ a, Statement (.aand a) := fun _ h => Bool.noConfusion h
theorem aor : ∀ a, Statement (.aor a) := fun _ h => Bool.noConfusion h
theorem axchg : ∀ a, Statement (.axchg a) := fun _ h => Bool.noConfusion h
theorem acas : ∀ a, Statement (.acas a) := fun _ h => Bool.noConfusion h
theorem hup : ∀ a, Statement (.hup a) := fun _ h => Bool.noConfusion h
theorem hrel : ∀ a, Statement (.hrel a) := fun _ h => Bool.noConfusion h
theorem fenceS : ∀ a, Statement (.fenceS a) := fun _ h => Bool.noConfusion h
theorem mmaE4m3 : ∀ a, Statement (.mmaE4m3 a) := fun _ h => Bool.noConfusion h
theorem mmaE5m2 : ∀ a, Statement (.mmaE5m2 a) := fun _ h => Bool.noConfusion h
theorem mmaE4e5 : ∀ a, Statement (.mmaE4e5 a) := fun _ h => Bool.noConfusion h
theorem mmaBf16 : ∀ a, Statement (.mmaBf16 a) := fun _ h => Bool.noConfusion h
theorem mmaI8 : ∀ a, Statement (.mmaI8 a) := fun _ h => Bool.noConfusion h
theorem mmaQ16n : ∀ a, Statement (.mmaQ16n a) := fun _ h => Bool.noConfusion h
theorem scalc : ∀ a, Statement (.scalc a) := fun _ h => Bool.noConfusion h
theorem accz : ∀ a, Statement (.accz a) := fun _ h => Bool.noConfusion h
theorem accrd : ∀ a, Statement (.accrd a) := fun _ h => Bool.noConfusion h
theorem accwr : ∀ a, Statement (.accwr a) := fun _ h => Bool.noConfusion h
theorem xsort : ∀ a, Statement (.xsort a) := fun _ h => Bool.noConfusion h
theorem ascan : ∀ a, Statement (.ascan a) := fun _ h => Bool.noConfusion h
theorem ared : ∀ a, Statement (.ared a) := fun _ h => Bool.noConfusion h
theorem anorm : ∀ a, Statement (.anorm a) := fun _ h => Bool.noConfusion h
theorem kvapp : ∀ a, Statement (.kvapp a) := fun _ h => Bool.noConfusion h
theorem kvseqRead : ∀ a, Statement (.kvseqRead a) := fun _ h => Bool.noConfusion h
theorem kvseqOpen : ∀ a, Statement (.kvseqOpen a) := fun _ h => Bool.noConfusion h
theorem kvseqAdvance : ∀ a, Statement (.kvseqAdvance a) := fun _ h => Bool.noConfusion h
theorem kvseqDraft : ∀ a, Statement (.kvseqDraft a) := fun _ h => Bool.noConfusion h
theorem kvtrim : ∀ a, Statement (.kvtrim a) := fun _ h => Bool.noConfusion h
theorem sbarRetire : ∀ a b, Statement (.sbarRetire a b) := fun _ _ h => Bool.noConfusion h
theorem scondRetire : ∀ a b, Statement (.scondRetire a b) := fun _ _ h => Bool.noConfusion h
theorem cardAccept : ∀ a b, Statement (.cardAccept a b) := fun _ _ h => Bool.noConfusion h
theorem narrowBeatEmit : ∀ a, Statement (.narrowBeatEmit a) := fun _ h => Bool.noConfusion h
theorem vectorResultEmit : ∀ a, Statement (.vectorResultEmit a) := fun _ h => Bool.noConfusion h
theorem memoryResultArrival : ∀ a b, Statement (.memoryResultArrival a b) := fun _ _ h => Bool.noConfusion h
theorem walkComplete : ∀ a b, Statement (.walkComplete a b) := fun _ _ h => Bool.noConfusion h
theorem feTimeout : ∀ a b, Statement (.feTimeout a b) := fun _ _ h => Bool.noConfusion h
theorem feResend : ∀ a b, Statement (.feResend a b) := fun _ _ h => Bool.noConfusion h
theorem arrayFiringEnd : ∀ a, Statement (.arrayFiringEnd a) := fun _ h => Bool.noConfusion h
theorem admitToken : ∀ a b, Statement (.admitToken a b) := fun _ _ h => Bool.noConfusion h
theorem creditReturn : ∀ a b, Statement (.creditReturn a b) := fun _ _ h => Bool.noConfusion h
theorem tokenArrival : ∀ a b, Statement (.tokenArrival a b) := fun _ _ h => Bool.noConfusion h
theorem exitDelivery : ∀ a b, Statement (.exitDelivery a b) := fun _ _ h => Bool.noConfusion h
theorem exitReorderAgeRelease : ∀ a b, Statement (.exitReorderAgeRelease a b) := fun _ _ h => Bool.noConfusion h
theorem stallAgeExpiry : ∀ a, Statement (.stallAgeExpiry a) := fun _ h => Bool.noConfusion h
theorem spillAck : ∀ a b, Statement (.spillAck a b) := fun _ _ h => Bool.noConfusion h
theorem spillReadback : ∀ a b, Statement (.spillReadback a b) := fun _ _ h => Bool.noConfusion h
theorem bindingActivate : ∀ a b, Statement (.bindingActivate a b) := fun _ _ h => Bool.noConfusion h
theorem streamElementRead : ∀ a b, Statement (.streamElementRead a b) := fun _ _ h => Bool.noConfusion h
theorem pushLineRead : ∀ a b, Statement (.pushLineRead a b) := fun _ _ h => Bool.noConfusion h
theorem pushElementDeliver : ∀ a b, Statement (.pushElementDeliver a b) := fun _ _ h => Bool.noConfusion h
theorem sliceRead : ∀ a, Statement (.sliceRead a) := fun _ h => Bool.noConfusion h
theorem sliceWrite : ∀ a, Statement (.sliceWrite a) := fun _ h => Bool.noConfusion h
theorem conflictQueueLock : ∀ a b, Statement (.conflictQueueLock a b) := fun _ _ h => Bool.noConfusion h
theorem ptsAdvance : ∀ a, Statement (.ptsAdvance a) := fun _ h => Bool.noConfusion h
theorem rdline : ∀ a b, Statement (.rdline a b) := fun _ _ h => Bool.noConfusion h
theorem wrline : ∀ a b, Statement (.wrline a b) := fun _ _ h => Bool.noConfusion h
theorem wrmask : ∀ a b, Statement (.wrmask a b) := fun _ _ h => Bool.noConfusion h
theorem keyset : ∀ a b, Statement (.keyset a b) := fun _ _ h => Bool.noConfusion h
theorem keykill : ∀ a b, Statement (.keykill a b) := fun _ _ h => Bool.noConfusion h
theorem lineFill : ∀ a b, Statement (.lineFill a b) := fun _ _ h => Bool.noConfusion h
theorem sliceEpochEnd : ∀ a, Statement (.sliceEpochEnd a) := fun _ h => Bool.noConfusion h
theorem slwayWrite : ∀ a b c d, Statement (.slwayWrite a b c d) := fun _ _ _ _ h => Bool.noConfusion h
theorem slwaycWrite : ∀ a b c, Statement (.slwaycWrite a b c) := fun _ _ _ h => Bool.noConfusion h
theorem groupRequest : ∀ a b, Statement (.groupRequest a b) := fun _ _ h => Bool.noConfusion h
theorem groupAsk : ∀ a b, Statement (.groupAsk a b) := fun _ _ h => Bool.noConfusion h
theorem groupQueueAdmit : ∀ a, Statement (.groupQueueAdmit a) := fun _ h => Bool.noConfusion h
theorem groupTimerExpiry : ∀ a b, Statement (.groupTimerExpiry a b) := fun _ _ h => Bool.noConfusion h
theorem groupFill : ∀ a b, Statement (.groupFill a b) := fun _ _ h => Bool.noConfusion h
theorem releaseProbe : ∀ a b, Statement (.releaseProbe a b) := fun _ _ h => Bool.noConfusion h
theorem hubProbeForward : ∀ a b, Statement (.hubProbeForward a b) := fun _ _ h => Bool.noConfusion h
theorem releaseComplete : ∀ a, Statement (.releaseComplete a) := fun _ h => Bool.noConfusion h
theorem flitPromotion : ∀ a b, Statement (.flitPromotion a b) := fun _ _ h => Bool.noConfusion h
theorem mshctlWrite : ∀ a b c, Statement (.mshctlWrite a b c) := fun _ _ _ h => Bool.noConfusion h
theorem stcselWrite : ∀ a b c d, Statement (.stcselWrite a b c d) := fun _ _ _ _ h => Bool.noConfusion h
theorem barrierArrival : ∀ a b, Statement (.barrierArrival a b) := fun _ _ h => Bool.noConfusion h
theorem cardIssue : ∀ a, Statement (.cardIssue a) := fun _ h => Bool.noConfusion h
theorem cardComplete : ∀ a b, Statement (.cardComplete a b) := fun _ _ h => Bool.noConfusion h
theorem eventRecordWrite : ∀ a, Statement (.eventRecordWrite a) := fun _ h => Bool.noConfusion h
theorem recordPop : ∀ a, Statement (.recordPop a) := fun _ h => Bool.noConfusion h
theorem joinReread : ∀ a b, Statement (.joinReread a b) := fun _ _ h => Bool.noConfusion h
theorem launchEnd : ∀ a b, Statement (.launchEnd a b) := fun _ _ h => Bool.noConfusion h
theorem spliceToken : ∀ a b, Statement (.spliceToken a b) := fun _ _ h => Bool.noConfusion h
theorem spliceInstall : ∀ a b, Statement (.spliceInstall a b) := fun _ _ h => Bool.noConfusion h
theorem spliceRegisterWrite : ∀ a, Statement (.spliceRegisterWrite a) := fun _ h => Bool.noConfusion h
theorem cfgreqServe : ∀ a b, Statement (.cfgreqServe a b) := fun _ _ h => Bool.noConfusion h
theorem cfgWaitRetry : ∀ a b, Statement (.cfgWaitRetry a b) := fun _ _ h => Bool.noConfusion h
theorem planeSwap : ∀ a, Statement (.planeSwap a) := fun _ h => Bool.noConfusion h
theorem swapDrainExpiry : ∀ a, Statement (.swapDrainExpiry a) := fun _ h => Bool.noConfusion h
theorem mminvRange : ∀ a b, Statement (.mminvRange a b) := fun _ _ h => Bool.noConfusion h
theorem mminvColour : ∀ a b, Statement (.mminvColour a b) := fun _ _ h => Bool.noConfusion h
theorem mminvWorld : ∀ a b, Statement (.mminvWorld a b) := fun _ _ h => Bool.noConfusion h
theorem mminvDiscard : ∀ a b, Statement (.mminvDiscard a b) := fun _ _ h => Bool.noConfusion h
theorem invalidationComplete : ∀ a b, Statement (.invalidationComplete a b) := fun _ _ h => Bool.noConfusion h
theorem colourRetireDrop : ∀ a, Statement (.colourRetireDrop a) := fun _ h => Bool.noConfusion h
theorem colourFree : ∀ a, Statement (.colourFree a) := fun _ h => Bool.noConfusion h
theorem pagerFaultToken : ∀ a, Statement (.pagerFaultToken a) := fun _ h => Bool.noConfusion h
theorem pagerService : ∀ a b, Statement (.pagerService a b) := fun _ _ h => Bool.noConfusion h
theorem pgretryWrite : ∀ a b c, Statement (.pgretryWrite a b c) := fun _ _ _ h => Bool.noConfusion h
theorem faultTimeExpiry : ∀ a b, Statement (.faultTimeExpiry a b) := fun _ _ h => Bool.noConfusion h
theorem lcabortWrite : ∀ a b c, Statement (.lcabortWrite a b c) := fun _ _ _ h => Bool.noConfusion h
theorem ccenWrite : ∀ a b c, Statement (.ccenWrite a b c) := fun _ _ _ h => Bool.noConfusion h
theorem markerArrival : ∀ a b, Statement (.markerArrival a b) := fun _ _ h => Bool.noConfusion h
theorem snapshotTileSave : ∀ a b, Statement (.snapshotTileSave a b) := fun _ _ h => Bool.noConfusion h
theorem snapshotComplete : ∀ a b, Statement (.snapshotComplete a b) := fun _ _ h => Bool.noConfusion h
theorem breakpointMatch : ∀ a b, Statement (.breakpointMatch a b) := fun _ _ h => Bool.noConfusion h
theorem debugResume : ∀ a, Statement (.debugResume a) := fun _ h => Bool.noConfusion h
theorem tbpfWrite : ∀ a b c d, Statement (.tbpfWrite a b c d) := fun _ _ _ _ h => Bool.noConfusion h
theorem objectReclaim : ∀ a b, Statement (.objectReclaim a b) := fun _ _ h => Bool.noConfusion h
theorem prefetchNotice : ∀ a, Statement (.prefetchNotice a) := fun _ h => Bool.noConfusion h
theorem colourAlloc : ∀ a b c, Statement (.colourAlloc a b c) := fun _ _ _ h => Bool.noConfusion h
theorem colourRetire : ∀ a b, Statement (.colourRetire a b) := fun _ _ h => Bool.noConfusion h
theorem ringCreate : ∀ a b c d, Statement (.ringCreate a b c d) := fun _ _ _ _ h => Bool.noConfusion h
theorem ringDestroy : ∀ a b, Statement (.ringDestroy a b) := fun _ _ h => Bool.noConfusion h
theorem macsecSa : ∀ a b c, Statement (.macsecSa a b c) := fun _ _ _ h => Bool.noConfusion h
theorem wevarmWrite : ∀ a b, Statement (.wevarmWrite a b) := fun _ _ h => Bool.noConfusion h
theorem vfEnableClear : Statement (.vfEnableClear) := fun h => Bool.noConfusion h
theorem vfEnableSet : ∀ a, Statement (.vfEnableSet a) := fun _ h => Bool.noConfusion h
theorem functionLevelReset : ∀ a, Statement (.functionLevelReset a) := fun _ h => Bool.noConfusion h
theorem tdispStateChange : ∀ a b, Statement (.tdispStateChange a b) := fun _ _ h => Bool.noConfusion h
theorem getVersion : ∀ a, Statement (.getVersion a) := fun _ h => Bool.noConfusion h
theorem getCapabilities : ∀ a, Statement (.getCapabilities a) := fun _ h => Bool.noConfusion h
theorem negotiateAlgorithms : ∀ a b c, Statement (.negotiateAlgorithms a b c) := fun _ _ _ h => Bool.noConfusion h
theorem getDigests : ∀ a, Statement (.getDigests a) := fun _ h => Bool.noConfusion h
theorem getCertificate : ∀ a b, Statement (.getCertificate a b) := fun _ _ h => Bool.noConfusion h
theorem challenge : ∀ a b c, Statement (.challenge a b c) := fun _ _ _ h => Bool.noConfusion h
theorem getMeasurements : ∀ a b c, Statement (.getMeasurements a b c) := fun _ _ _ h => Bool.noConfusion h
theorem keyExchange : ∀ a b, Statement (.keyExchange a b) := fun _ _ h => Bool.noConfusion h
theorem finish : ∀ a b, Statement (.finish a b) := fun _ _ h => Bool.noConfusion h
theorem endSession : ∀ a, Statement (.endSession a) := fun _ h => Bool.noConfusion h
theorem ideKm : ∀ a b c, Statement (.ideKm a b c) := fun _ _ _ h => Bool.noConfusion h
theorem d2dLinkTraining : ∀ a b, Statement (.d2dLinkTraining a b) := fun _ _ h => Bool.noConfusion h
theorem bar2Access : ∀ a b, Statement (.bar2Access a b) := fun _ _ h => Bool.noConfusion h
theorem registerWindowAccess : ∀ a b, Statement (.registerWindowAccess a b) := fun _ _ h => Bool.noConfusion h
theorem ethernetFrameRx : ∀ a b c, Statement (.ethernetFrameRx a b c) := fun _ _ _ h => Bool.noConfusion h
theorem boot : ∀ a, Statement (.boot a) := fun _ h => Bool.noConfusion h
theorem throttle : ∀ a, Statement (.throttle a) := fun _ h => Bool.noConfusion h
theorem thermtrip : Statement (.thermtrip) := fun h => Bool.noConfusion h
theorem correctedError : ∀ a, Statement (.correctedError a) := fun _ h => Bool.noConfusion h
theorem uncorrectedError : ∀ a, Statement (.uncorrectedError a) := fun _ h => Bool.noConfusion h
theorem ringCrcRetry : ∀ a, Statement (.ringCrcRetry a) := fun _ h => Bool.noConfusion h
theorem errorWindowBoundary : Statement (.errorWindowBoundary) := fun h => Bool.noConfusion h
theorem rlcfgWrite : ∀ a b c, Statement (.rlcfgWrite a b c) := fun _ _ _ h => Bool.noConfusion h
theorem registerWrite : ∀ a b c, Statement (.registerWrite a b c) := fun _ _ _ h => Bool.noConfusion h
theorem stallCount : ∀ a b, Statement (.stallCount a b) := fun _ _ h => Bool.noConfusion h
theorem wfeTimeout : ∀ a b, Statement (.wfeTimeout a b) := fun _ _ h => Bool.noConfusion h
theorem freezeScanComplete : ∀ a, Statement (.freezeScanComplete a) := fun _ h => Bool.noConfusion h
theorem removalComplete : ∀ a, Statement (.removalComplete a) := fun _ h => Bool.noConfusion h
theorem msiXTableWrite : ∀ a b c, Statement (.msiXTableWrite a b c) := fun _ _ _ h => Bool.noConfusion h

end Sys2Proof.Laws.Words
end

