-- ==== Sys2Proof/Tests/Slice0.lean ====
section
/-!
SUPPORT. Small checks: each well-formedness check refuses an ill-formed term, words written out from the manual's
encodings decode to their instructions, single steps give the values that the manual's rules give, and for the statements of
Certificates/Slice0/Obligations.lean concrete states and operands meet the hypotheses of each clause.
-/
namespace Sys2Proof.Tests
set_option Elab.async false
open Sys2Proof Sys2Proof.Machine

/-- After reset, colour 0 LIVE, context 0 of cluster 0 running, and one 64 GiB page mapped at colour-virtual address 0. -/
def mapped : State := ({ State.reset.place 64 0 with agenda := [] }).modCluster 0 fun k => { k with l2tlb := k.tlb }
/-- `mapped` with register 1 of context 0 of cluster 0 holding a value, and register 2 another. -/
def regs (a b : Word) : State := mapped.modMe fun c => (c.setReg 1 a).setReg 2 b
/-- What the acting context holds after a step. -/
def after (i : Instr) (s : State) : Option Context :=
  match exec i s with
  | .next t => some t.me
  | _ => none
/-- Some part of the state after a step. -/
def seen {α : Type} (g : State → α) (i : Instr) (s : State) : Option α :=
  match exec i s with
  | .next t => some (g t)
  | _ => none
/-- Fields of an operator word with up to three destinations and every other field at its default. -/
def fields (n : BitVec 2) (e : EType) (sub : BitVec 8) (imm : BitVec 32) (ds : List Dest) : OpFields :=
  ⟨n, false, .keep, e, sub, ds[0]?, ds[1]?, ds[2]?, imm, ⟨false, false, 0, false⟩⟩
/-- Bytes put into the mapped page. -/
def put (a : Nat) (bs : List Byte) (s : State) : State := s.poke (2 ^ 36 + a) bs
/-- A launch context with one entry port (physical 0) and one exit port (physical 1), in the two tiles of the north-west corner. -/
def launchOf (st : LaunchState) : Launch :=
  { state := st, world := 0, plane := 0, x := 0, y := 0, w := 2, h := 1, levels := [16, 16], words := []
    ports := [⟨0, false, .l, 0, 0, some 0⟩, ⟨1, true, .l, 0, 0, none⟩], ring := 0, join := 0, colour := 0
    predecessor := none, successor := none, spliceRegs := [], bound := true, colours := [], admitted := [], starts := []
    sinkEos := [], exitEos := [], outstanding := 0, requester := none, writtenBack := false, race := false, quiet := none }
/-- Launch 5 of cluster 0, in a state, with registers 1 and 2 of context 0. -/
def launched (st : LaunchState) (a b : Word) : State :=
  (regs a b).modCluster 0 fun k => { k with launches := [(5, launchOf st)], ports := [(0, ⟨0, 5, [], []⟩)] }
/-- The word of an operator. -/
def wordOf (opc : Nat) (f : OpFields) : BitVec 128 := BitVec.ofNat 128 (Encode.fabric opc f)
/-- A destination: input L of slot 0 of the tile to the east. -/
def east : Dest := ⟨1, 0, 0, .l, false⟩
/-- The same for a token of the narrow plane. -/
def eastNarrow : Dest := ⟨1, 0, 0, .l, true⟩
/-- A token of colour 0 and launch 5 at an input of slot 0. -/
def token (p : Port) (it : Nat) (x : Payload) : Token :=
  ⟨⟨0, 5, 0, portCode p, 0, BitVec.ofNat 32 it⟩, x, some ⟨0, 0⟩, false, false⟩
/-- A number of the narrow plane. -/
def num (v : Int) : Payload := .narrow 16 v .canonical
/-- Lanes that start with the given ones, sixteen active. -/
def lanes (xs : List Nat) : Payload := .wide ⟨BitVec.ofNat 512 (xs.foldr (fun x a => x + 2 ^ 32 * a) 0), 0xFFFF⟩
/-- Slot 0 of tile 0 with an operator of launch 5 and tokens waiting in the store, in a state. -/
def siteIn (s : State) (opc : Nat) (f : OpFields) (ts : List Token) : State :=
  { s.modTile 0 fun t => (t.modSlot 0 fun x => { x with word := wordOf opc f, ctx := some 5 }) with
      actor := { s.actor with tk := 0, slot := 0 } }.modTile 0 fun t =>
    { t with store := (List.range ts.length).filterMap fun i => (ts[i]?).map fun x => (i, ⟨x, i, List.replicate x.payload.beats 0, 0, i, 0, .wait, false⟩) }
/-- The same with launch 5 running. -/
def site (opc : Nat) (f : OpFields) (ts : List Token) : State := siteIn (launched .running 0 0) opc f ts
/-- The next state that a meaning answers. -/
def go (r : Result') : State := match r with | .next t => t | _ => mapped
/-- Cluster 0 once what its mesh carries of splices and markers has come to its tiles. -/
def landed (s : State) : State := s.modCluster 0 fun k => { k with
  flits := []
  splices := k.flits.filterMap fun f => match f.cargo with | .splice x true => some x | _ => none
  markers := k.flits.filterMap fun f => match f.cargo with | .marker m => some m | _ => none }
/-- The credit returns on the mesh of cluster 0. -/
def credits (t : State) : Nat := ((t.cluster 0).flits.filter fun f => match f.cargo with | .credit _ _ => true | _ => false).length
/-- The tiles to which beats of tokens go on the mesh of cluster 0. -/
def beatsOut (t : State) : List Nat := (t.cluster 0).flits.filterMap fun f => match f.cargo with | .token _ _ _ _ _ => some f.dst | _ => none
/-- The tokens that start on the mesh of cluster 0. -/
def tokensOut (t : State) : List Payload := (t.cluster 0).flits.filterMap fun f => match f.cargo with | .token _ _ _ 0 x => some x.payload | _ => none
/-- The requests on the mesh of cluster 0. -/
def requestsOut (t : State) : List Request := (t.cluster 0).flits.filterMap fun f => f.cargo.request?
/-- The requests on the rings. -/
def requestsSent (t : State) : List Request := t.net.filterMap fun f => match f.cargo with | .request r => some r | _ => none
/-- What tile 0's units hold after a step. -/
def inUnits (t : State) : List (Nat × Nat × Payload) :=
  let x := t.tile 0
  (x.vector.flatMap (·.out) ++ x.narrow.flatMap (fun n => n.out.map (·.2)) ++ (x.array.map (·.out)).getD []).map fun e => (e.index, e.token.tag.iter.toNat, e.token.payload)
/-- What a firing hands to the units of its tile. -/
def sent (i : Instr) (s : State) : Option (List (Nat × Nat × Payload)) := seen inUnits i s
/-- Whether slot 0 of tile 0 has a ready tag that may fire now: a data match, without a poisoned predicate, whose TAGOP has a result. -/
def ready (opc : Nat) (f : OpFields) (s : State) : Bool :=
  match s.best (s.site opc f) with
  | some m => !s.unitBusy (s.site opc f) && !s.outranked (s.site opc f) m && !poisonEnds opc m && !m.eos &&
      (match ((s.consume 0 m.operands).started (s.site opc f)).lValue m with | (u, v) => (u.tagOp 0 f.tagop m.tag v).isSome)
  | none => false
/-- The same for a match of EOS tokens. -/
def readyEos (opc : Nat) (f : OpFields) (s : State) : Bool :=
  match s.best (s.site opc f) with
  | some m => !s.unitBusy (s.site opc f) && !s.outranked (s.site opc f) m && m.eos
  | none => false

/-! The control core: the statements' hypotheses are met, and single steps give the rules' values. -/

theorem test_actor_in_range : mapped.actor.ctx < 8 ∧ mapped.canIssue = true ∧ mapped.me.pc = 0 := by decide +kernel
/-- R280: the sum wraps. -/
theorem test_add_wraps : (after (.add 3 1 2) (regs (-1) 2)).map (·.reg 3) = some 1 := by decide +kernel
/-- R272: x0 discards a write. -/
theorem test_write_x0 : (after (.add 0 1 2) (regs (-1) 2)).map (·.reg 0) = some 0 := by decide +kernel
/-- R79: a zero divisor gives quotient 0 and the dividend as remainder; the most negative value over -1 gives itself and 0. -/
theorem test_div_corner : (after (.div 3 1 2) (regs (2 ^ 63) (-1))).map (·.reg 3) = some (2 ^ 63) ∧
    (after (.div 3 1 2) (regs 7 0)).map (·.reg 3) = some 0 := by decide +kernel
theorem test_rem_corner : (after (.rem 3 1 2) (regs (2 ^ 63) (-1))).map (·.reg 3) = some 0 ∧
    (after (.rem 3 1 2) (regs 7 0)).map (·.reg 3) = some 7 := by decide +kernel
/-- R280: a shift count is taken modulo 64. -/
theorem test_sra_count : (after (.sra 3 1 2) (regs (2 ^ 63) 65)).map (·.reg 3) = some (3 * 2 ^ 62) := by decide +kernel
theorem test_mulh_sign : (after (.mulh 3 1 2) (regs (-1) 1)).map (·.reg 3) = some (-1) := by decide +kernel
theorem test_lih_keeps_low : (after (.lih 1 0xFFFFFFFF) (regs 5 0)).map (·.reg 1) = some 0xFFFFFFFF00000005 := by decide +kernel
/-- R281: both outcomes of each branch occur, and a branch backwards from 0 wraps. -/
theorem test_branches_meet : (1 : Word) = 1 ∧ (1 : Word) ≠ 2 ∧ (-1 : Word).toInt < (0 : Word).toInt ∧
    ¬ (-1 : Word).toNat < (0 : Word).toNat := by decide +kernel
theorem test_beq_back : (after (.beq 1 2 0xFFFFFFFE) (regs 1 1)).map (·.pc) = some (-16) := by decide +kernel
/-- R281: `jalr` to an aligned target links; a misaligned one traps, and without a handler the record ends. -/
theorem test_jalr_links : (after (.jalr 1 1 8) (regs 16 0)).map (fun c => (c.reg 1, c.pc)) = some (8, 24) := by decide +kernel
theorem test_jalr_misaligned : (after (.jalr 1 1 4) (regs 16 0)).map (fun c => (c.reg 1, c.trapCause, c.running)) =
    some (16, 2, false) := by decide +kernel
/-- A context whose PC lies outside colour-virtual space can issue, and its colour is not poisoned. -/
theorem test_far_target_meets : ((regs 0 0).modMe fun c => { c with pc := 2 ^ 47 }).canIssue = true ∧
    (mapped.colour mapped.me.colour).poisoned = false ∧ ((2 : Word) ^ 47).toNat % 8 = 0 := by decide +kernel

/-- An address in the scratchpad window that the acting context may access. -/
def windowed : State := (regs 0x7FFFFF000010 0x1122334455667788).modTile 0 fun t => { t with scratch := [(0x10, 0x80), (0x11, 0xFF)] }
theorem test_scratchpad_meets : windowed.spCheck 0 windowed.me.colour 0x10 8 = .ok (0, 0x10) ∧
    (0x7FFFFF000010 : Nat) / 2 ^ 24 = 0x7FFFFF ∧ (windowed.tile 0).scratch.wf = true ∧ (windowed.tile 0).poison = [] := by decide +kernel
/-- R283: a byte is sign-extended, and a half word zero-extended. -/
theorem test_ldx_b_signed : (after (.ldxB 3 1 0 none) windowed).map (·.reg 3) = some (-128) := by decide +kernel
theorem test_ldx_hu : (after (.ldxHu 3 1 0 none) windowed).map (·.reg 3) = some 0xFF80 := by decide +kernel
theorem test_stx_w_scratch : seen (fun t => Memory.readBytes (t.tile 0).scratch 0x10 5) (.stxW 2 1 0 none) windowed =
    some [0x88, 0x77, 0x66, 0x55, 0] := by decide +kernel
/-- R284: the compared value is xd's. -/
theorem test_amo_cas_scratch : (after (.amoCas 3 2 1 none) (windowed.modMe fun c => c.setReg 3 0xFF80)).map (·.reg 3) = some 0xFF80 ∧
    seen (fun t => Memory.readBytes (t.tile 0).scratch 0x10 2) (.amoCas 3 2 1 none) (windowed.modMe fun c => c.setReg 3 0xFF80) =
      some [0x88, 0x77] := by decide +kernel
/-- A colour-virtual address that is mapped, whose home is free and of which no copy is held; and the same with a copy. -/
theorem test_memory_meets : (match (regs 0x40 0).xlateCore 0 0 0x40 true true with
    | (s1, .ok x) => !x.device && !s1.ownEarlier (.context 0 0) x.sk && !s1.lineBusy 0 x.sk x.pa &&
        ((regs 0x40 0).me.leased x.pa x.key).isNone && decide ((s1.leaseRead x.sk x.pa x.key 0 0).2.2.1 = 0)
    | _ => false) = true := by decide +kernel
theorem test_leased_meets : (((regs 0x40 0).modMe fun c => { c with leases := [⟨2 ^ 36, 0, 0, 9, 0, 0xAB00⟩] }).me.leased (2 ^ 36 + 0x40) 0).map
    (·.poison) = some 0 := by decide +kernel
theorem test_ldx_d_memory : (after (.ldxD 3 1 0 none) (regs 0x40 0)).map (fun c => (c.reg 3, c.leases.length)) = some (0, 1) := by decide +kernel
theorem test_stx_d_memory : seen (fun t => (t.net.length, t.me.touched != 0)) (.stxD 2 1 0 none) (regs 0x40 7) = some (1, true) := by decide +kernel
/-- R282: the two kinds of address that fault. -/
theorem test_address_faults : (after (.ldxD 3 1 0 none) (regs (2 ^ 47) 0)).map (·.trapFcode) = some 0x14 ∧
    (after (.ldxD 3 1 0 none) (regs 4 0)).map (·.trapFcode) = some 0x1B := by decide +kernel
/-- R285: a fence with nothing released completes; one with a touched slice waits. -/
theorem test_fence_meets : mapped.me.released = false ∧ mapped.me.touched = 0 ∧
    (after (.fence .pkg) mapped).map (·.pc) = some 8 ∧
    (after (.fence .pkg) (mapped.modMe fun c => { c with touched := 1 })).map (fun c => (c.pc, c.park)) = some (0, .release) := by decide +kernel

/-- A context that runs a handler, and one with a handler installed. -/
def handling : State := (regs 0 0).modMe fun c => { c with tm := true, epc := 0x40 }
theorem test_trap_handled : (after (.trap 7) (mapped.modMe fun c => { c with tvec := 0x80 })).map
    (fun c => (c.pc, c.tm, c.trapCode, c.trapCause, c.epc)) = some (0x80, true, 7, 5, 0) := by decide +kernel
theorem test_trap_unhandled : seen (fun t => (t.me.running, t.records.map (fun r => (r.kind, r.status)))) (.trap 7) mapped =
    some (false, [(4, 5)]) := by decide +kernel
theorem test_eret : (after .eret handling).map (fun c => (c.pc, c.tm)) = some (0x40, false) ∧
    (after .eret (handling.modMe fun c => { c with epc := 0x44 })).map (·.trapCause) = some 2 ∧
    (after .eret mapped).map (·.trapCause) = some 1 := by decide +kernel
/-- R276: CCSTS, an unknown number, and CCEPC in and out of a handler. -/
theorem test_csr : (after (.csrrd 3 0x0000) handling).map (·.reg 3) = some (2 ^ 32) ∧
    (after (.csrrd 3 0x0007) handling).map (·.trapCause) = some 1 := by decide +kernel
theorem test_csrwr : (after (.csrwr 0x0004 1) (regs 0x87 0)).map (·.tvec) = some 0x80 ∧ (after (.csrwr 0x0002 1) handling).map (·.epc) = some 0 ∧
    (after (.csrwr 0x0002 1) mapped).map (·.trapCause) = some 1 ∧ (after (.csrwr 0x0010 1) mapped).map (·.trapCause) = some 1 := by decide +kernel
/-- R110: an invalidation that may start, one of no page, and one of another world's colour; MMINVC without BUSY. -/
theorem test_mminvc : mapped.mayInvalidate 0 0 = true ∧ (mapped.modMe fun c => { c with world := 3 }).mayInvalidate 3 0 = false ∧
    (after (.csrwr 0x0411 1) (regs (2 ^ 63 + 2 ^ 24) 0)).map (fun c => (c.mmBusy, c.mmStatus)) = some (true, 0) ∧
    (after (.csrwr 0x0411 1) (regs (2 ^ 63) 0)).map (fun c => (c.mmBusy, c.mmStatus)) = some (false, 2) ∧
    (after (.csrwr 0x0411 1) (regs (2 ^ 61) 0)).map (fun c => (c.mmBusy, c.mmMode)) = some (false, 1) := by decide +kernel
/-- R302, R303. -/
theorem test_wfe : (after .wfe mapped).map (·.park) = some (.timer 0) ∧
    (after (.wfeTimeout 0 0) ((mapped.modMe fun c => { c with park := .timer 0 }).modCluster 0 id)).map (·.pc) = some 0 ∧
    (after (.wfeTimeout 0 0) { (mapped.modMe fun c => { c with park := .timer 0 }) with cycles := 1024 }).map (·.pc) = some 8 := by decide +kernel
theorem test_halt : seen (fun t => (t.me.running, (t.cluster 0).ccen)) .halt mapped = some (false, 0xFE) := by decide +kernel

/-! Continuations and launches -/

/-- Queue 0 of cluster 0 has a page. -/
def queued (a b : Word) : State := (regs a b).modQueue 0 0 fun q => { q with pages := [(0x4000, 0)] }
theorem test_spawn_meets : (match (queued 0x100 0).coreRead 0x100 32 with
    | .done u bs => decide (u.actor.ctx < 8) && (recordOf (bytesNat bs)).2 && decide (u.me.touched = 0) &&
        decide ((recordOf (bytesNat bs)).1.world = u.me.world) && decide ((u.colour 0).state = .live)
    | _ => false) = true ∧ (queued 0 0).stalledBehind 0 0 0 = false := by decide +kernel
/-- R286: a record is appended; another world's gives OWNER, a join word off its alignment FORMAT. -/
theorem test_cspawn : seen (fun t => (t.me.stsStatus, (t.queue 0 0).records.length)) (.cspawn 1 0) (queued 0x100 0) = some (0, 1) ∧
    seen (fun t => (t.me.stsStatus, (t.queue 0 0).records.length)) (.cspawn 1 1) (queued 0x100 0) = some (1, 0) := by decide +kernel
theorem test_cspawn_owner : seen (fun t => t.me.stsStatus) (.cspawn 1 0) ((queued 0x100 0).modMe fun c => { c with world := 1 }) = some 2 := by decide +kernel
/-- R287: `cjoin` wraps the word at zero. -/
theorem test_cjoin : seen (fun t => (t.me.pc, t.peekNat (2 ^ 36 + 0x100) 4)) (.cjoin 1) (queued 0x100 0) = some (8, 2 ^ 32 - 1) := by decide +kernel
theorem test_cyield : seen (fun t => (t.me.running, (t.queue 0 0).records.map (·.record.code))) .cyield (queued 0 9) = some (false, [8]) := by decide +kernel
/-- A queue with one runnable record, and its pop. -/
def runnable : State := match exec (.cspawn 1 0) (put 0x100 [0x40] (queued 0x100 0)) with | .next t => t | _ => mapped
theorem test_pop_meets : (runnable.cluster 0).idle = some 1 ∧ (runnable.cluster 0).winner = some 0 ∧
    (runnable.queue 0 0).records.map (·.record.code.toNat % 8) = [0] := by decide +kernel
theorem test_record_pop : seen (fun t => (t.actor.ctx, t.me.running, (t.queue 0 0).records.length)) (.recordPop 0) runnable = some (1, true, 0) := by decide +kernel
/-- A record that waits for a join word which reads zero. -/
def joining : State := mapped.modQueue 0 0 fun q => { q with records := [⟨⟨0, 0, 0, 0x200, 0, 0⟩, .joining, 0x4000⟩] }
theorem test_join_meets : (joining.cluster 0).waitingRecords = [(0, 0)] ∧ joining.stalledBehind 0 0 0 = false ∧
    (match joining.engineRead 0 0 0x200 4 2 with | .done _ (bs, p) => decide (bytesNat bs = 0) && !p | _ => false) = true ∧
    seen (fun t => ((t.queue 0 0).records.map (·.state))) (.joinReread 0 0) joining = some [.runnable 0] := by decide +kernel

/-- A stream descriptor at 0x100: base 0x1000, four elements, colour 0, a port of the launch. -/
def streamed (port : Nat) : State :=
  put 0x100 (natBytes 64 (0x1000 + 2 ^ 64 * 0x0000010000100004 + 2 ^ 192 * (512 * port))) (launched .running 0x100 0)
theorem test_sspec_meets : (match (streamed 0).coreRead 0x100 64 with
    | .done u bs => streamSpecOk (bytesNat bs) && u.ownsColour 0 && !u.boundAt 0 5 0 0 && ((launchOf .running).elemFits ⟨0, false, .l, 0, 0, some 0⟩ 0)
    | _ => false) = true ∧ (streamed 0).worldOfCtx 0 5 = some 0 ∧ (streamed 0).worldOfCtx 0 6 = none := by decide +kernel
/-- R288, R289: a memory stream at an entry and at an exit; reserved bits; a context that is none. -/
theorem test_sspec : seen (fun t => (t.me.stsStatus, (t.cluster 0).bindings.map fun b => (b.base, b.count0))) (.sspec 1 5) (streamed 0) =
      some (0, [(0x1000, 4)]) ∧
    seen (fun t => ((t.cluster 0).bindings.map (·.active))) (.sspec 1 5) (streamed 1) = some [true] := by decide +kernel
theorem test_sspec_refused : (after (.sspec 1 0x2000) (streamed 0)).map (·.stsStatus) = some 1 ∧
    (after (.sspec 1 6) (streamed 0)).map (·.stsStatus) = some 2 := by decide +kernel
/-- A push descriptor of north port 0 and slice 0, and a link from the exit of another launch of the world. -/
def pushDesc : Nat := 0x1000 + 2 ^ 64 * 4 + 2 ^ 84 + 2 ^ 104 + 2 ^ 128 * 64 + 2 ^ 160 * 64 + 2 ^ 208
theorem test_push_meets : pushSpecOk pushDesc = true ∧ ((launched .running 0 0).slice (pushSlice 0 pushDesc)).pushes.length < 8 ∧
    (launchOf .running).ports.findIdx? (fun g => !g.isExit && g.phys = bits pushDesc 205 201) = some 0 ∧
    seen (fun t => ((t.cluster 0).bindings.map (·.kind))) (.sspec 1 (5 + 2048)) (put 0x100 (natBytes 64 pushDesc) (launched .running 0x100 0)) =
      some [.push (pushSlice 0 pushDesc) 1] := by decide +kernel
def linkDesc : Nat := 6 + 2 ^ 11 * 1
def linking : State := (put 0x100 (natBytes 64 linkDesc) (launched .running 0x100 0)).modCluster 0 fun k =>
  { k with launches := [(5, launchOf .running), (6, launchOf .running)] }
theorem test_link_meets : linkSpecOk linkDesc = true ∧ linking.boundAt 0 6 1 0 = false ∧
    seen (fun t => ((t.cluster 0).bindings.map (·.kind))) (.sspec 1 (5 + 4096)) linking = some [.link 6 1] := by decide +kernel
/-- A finished binding of launch 5, and one that has not finished. -/
def binding (fin : Bool) (exit : Bool) : Binding :=
  ⟨7, .memory, 5, 0, 0, 0, exit, false, 0, 0x1000, 0, 0, 4, 1, 1, 0, 0, [], exit, fin, 0, false, false, false, none, []⟩
theorem test_sbar_meets : (launched .running 0 0).worldOfCtx 0 5 = some (launched .running 0 0).me.world ∧
    ((launched .running 0 0).modCluster 0 fun k => { k with bindings := [binding true false] }).bindingDone 0 7 = true ∧
    ((launched .running 0 0).modCluster 0 fun k => { k with bindings := [binding false false] }).bindingDone 0 7 = false := by decide +kernel
theorem test_sbar : (after (.sbar 5) ((launched .running 0 0).modCluster 0 fun k => { k with bindings := [binding false false] })).map (·.park) =
      some (.streams [7]) ∧ (after (.sbar 2048) (launched .running 0 0)).map (·.stsStatus) = some 1 ∧
    (after (.sbar 6) (launched .running 0 0)).map (·.stsStatus) = some 2 ∧
    (after (.sbarRetire 0 0) ((launched .running 0 0).modMe fun c => { c with park := .streams [] })).map (·.pc) = some 8 := by decide +kernel
/-- A held launch behind launch 6, waiting for its streams, with a word in memory. -/
def conditional (st : LaunchState) (p : Park) : State := ((put 0x100 [1] (launched st 0x100 0)).modCluster 0 fun k =>
  { k with launches := [(5, launchOf st), (6, launchOf .running)] }).modMe fun c => { c with park := p }
theorem test_scond : (after (.scond 1 (6 + 2048 * 5) none) (conditional .held .none)).map (·.park) = some (.cond 5 0x100 []) ∧
    (after (.scond 1 (6 + 2048 * 5) none) (conditional .running .none)).map (·.stsStatus) = some 0x13 := by decide +kernel
theorem test_scond_retire : seen (fun t => (t.me.stsValue, (t.launch? 0 5).map (·.state))) (.scondRetire 0 0) (conditional .held (.cond 5 0x100 [])) =
      some (1, some .running) ∧
    seen (fun t => t.me.stsValue) (.scondRetire 0 0) (conditional .held (.cond 5 0x200 [])) = some 0 := by decide +kernel
/-- An image of one `sink` in slot 3 of the one tile of its region, at 0x1000, its descriptor at 0x100. -/
def sinkWord : BitVec 128 := BitVec.ofNat 128 (0x01C * 2 ^ 119 + 2 ^ 117 + 1 * 2 ^ 108)
def imageBytes : List Byte := natBytes 4 0x464F4C44 ++ [1, 0, 0, 1, 0, 0, 1, 1, 0, 1, 0, 0] ++ List.replicate 16 0 ++ natBytes 4 1 ++
  List.replicate 12 0 ++ natBytes 4 80 ++ List.replicate 12 0 ++ natBytes 16 sinkWord.toNat ++ natBytes 4 (3 * 2 ^ 8)
def imaged (st : LaunchState) (b : Word) : State := put 0x1000 imageBytes (put 0x100 (natBytes 32 0x1000) (launched st 0x100 b))
def theImage : Option Image := match (imaged .running 0).readImage 0 0 0x1000 with | .done _ g => g | _ => none
/-- The premises of the installation of an image, step by step, behind a predecessor or none. -/
def loads (s : State) (at' : Option Nat) : Bool :=
  match s.coreRead 0x100 32 with
  | .done u bs =>
    (match LaunchDesc.of (bytesNat bs) with
    | some d =>
      (match u.readImage 0 0 d.image with
      | .done v (some g) =>
        (match g.placeAt 0 0 with
        | some (p, ports) =>
          decide (g.world = 0) && !refused (p.failures g.warn) && decide (((g.placedWords p).map fun w => (w.ti, w.slot)).Nodup) &&
          (g.placedWords p).all (fun w => decide (w.slot < 64 ∧ w.ti < 192)) &&
          (match v.placeCheck 0 g p 0 ports at', v.createAll 0 0 [] [] (v.creationFuel 0) g.objects with
          | .ok _, .made o hs =>
            (match o.writeHandles 0 (g.objects.zip hs) with
            | .done q () => (q.setBounds 0 p 0 g.tiles).isSome && (q.launch? 0 5).isSome && decide (q.actor.ctx < 8)
            | _ => false)
          | _, _ => false)
        | none => false)
      | _ => false)
    | none => false)
  | _ => false
theorem test_gload_meets : loads (imaged .running 0) none = true ∧ loads (imaged .running 5) (some 5) = true ∧ loads (imaged .ended 5) (some 5) = true := by decide +kernel
theorem test_gload : seen (fun t => (t.me.reg 3, (t.launch? 0 0).map (·.state), ((t.tile 0).slot 3).ctx)) (.gload 3 1 0) (imaged .running 0) =
    some (0, some .running, some 0) := by decide +kernel
theorem test_gsplice : seen (fun t => (t.me.park, (t.launch? 0 5).map (·.successor), (landed t |>.cluster 0).splices.length)) (.gsplice 1 2) (imaged .running 5) =
      some (.splice 0, some (some 0), 1) ∧
    (after (.gsplice 1 2) (imaged .ended 5)).map (fun c => (c.stsStatus, c.stsValue)) = some (0, 0) := by decide +kernel
/-- A SPLICE token on its way, and a slot with a pending word. -/
def splicing : State := landed (match exec (.gsplice 1 2) (imaged .running 5) with | .next t => t | _ => mapped)
theorem test_splice_token : (splicing.cluster 0).splices.length = 1 ∧
    seen (fun t => ((t.tile 0).slot 3).pending.isSome) (.spliceToken 0 0) splicing = some true := by decide +kernel
def pending : State := match execSpliceToken 0 0 splicing with | .next t => t | _ => mapped
theorem test_splice_install : (((pending.tile 0).slot 3).ctx = none ∧ ((pending.tile 0).slot 3).pending.isSome) ∧ (pending.cluster 0).splices = [] ∧
    seen (fun t => (((t.tile 0).slot 3).word, ((t.tile 0).slot 3).ctx)) (.spliceInstall 0 3) pending = some (sinkWord, some 0) := by decide +kernel
/-- A successor that has still to write a tile's registers. -/
def registering : State := pending.modLaunch 0 0 fun l => { l with spliceRegs := [⟨0, 2, none, [7]⟩] }
theorem test_splice_registers : (registering.setBound 0 2 0).isSome ∧
    seen (fun t => ((t.launch? 0 0).map (·.spliceRegs.length), Memory.read (t.tile 0).scratch 0)) (.spliceRegisterWrite 0) registering = some (some 0, 7) := by decide +kernel
theorem test_gfree : (after (.gfree 1) (launched .ended 5 0)).map (·.stsStatus) = some 0 ∧ (after (.gfree 1) (launched .held 5 0)).map (·.stsStatus) = some 0 ∧
    (after (.gfree 1) (launched .running 5 0)).map (·.stsStatus) = some 7 ∧ (after (.gfree 1) (launched .splicing 5 0)).map (·.stsStatus) = some 7 := by decide +kernel
theorem test_gfree_refused : (after (.gfree 1) ((launched .ended 5 0).modMe fun c => { c with world := 1 })).map (·.stsStatus) = some 2 ∧
    (after (.gfree 1) (launched .ended 2048 0)).map (·.stsStatus) = some 1 := by decide +kernel
theorem test_launch_end : (launched .running 0 0).launchQuiet 0 5 (launchOf .running) = true ∧ (launched .running 0 0).anyToken 0 (goneCtx 0 5) = false ∧
    seen (fun t => ((t.launch? 0 5).map (·.state), t.records.map (·.kind))) (.launchEnd 0 5) (launched .running 0 0) = some (some .ended, [5]) := by decide +kernel
/-- A library instance for launch 6, with a request of slot 1 of tile 0 whose operand waits there. -/
def requesting (held : Bool) : State :=
  let e : Entry := ⟨⟨⟨0, 6, 1, 0, 0, 0⟩, .order, none, false, false⟩, 0, [0], 0, 0, 0, .cfgreq, false⟩
  ((launched .running 0 0).modTile 0 fun t => { t with store := [(0, e)] }).modDie 0 fun d =>
    { d with cfgreqs := [⟨0, 0, 1, 0, ⟨0, 6, 1, 0, 0, 0⟩, 0, 4, held⟩], libs := [⟨0, 6, 4, 0, 5, []⟩] }
theorem test_cfgreq_meets : ((requesting false).cfgOperand ⟨0, 0, 1, 0, ⟨0, 6, 1, 0, 0, 0⟩, 0, 4, false⟩).isSome ∧
    (requesting false).grants 0 0 5 = true := by decide +kernel
theorem test_cfgreq_serve : seen (fun t => ((t.die 0).cfgreqs.length, (t.cluster 0).flits.map (·.dst))) (.cfgreqServe 0 0) (requesting false) = some (0, [0]) ∧
    seen (fun t => ((t.die 0).cfgreqs.length, (t.cluster 0).flits.map (·.dst))) (.cfgWaitRetry 0 0) (requesting true) = some (0, [0]) := by decide +kernel

/-! Colours, rings, barriers, groups -/

/-- Colour 1 of world 0 LIVE beside colour 0, with registers 1 and 2. -/
def coloured (a b : Word) : State := (regs a b).modColour 1 fun _ => { ColourEntry.reset with state := .live, kshare := 1, spillBase := some 0x4000 }
theorem test_colq : (seen (fun t => ((t.colour 1).floor, t.me.stsStatus)) (.colq 1 2 0) (coloured 1 32) = some (32, 0)) ∧
    seen (fun t => ((t.colour 1).age, t.me.stsStatus)) (.colq 1 2 1) (coloured 1 64) = some (64, 0) ∧
    seen (fun t => ((t.colour 1).spill, t.me.stsStatus)) (.colq 1 2 2) (coloured 1 1) = some (true, 0) ∧
    seen (fun t => ((t.colour 1).spillBase, t.me.stsStatus)) (.colq 1 2 3) (coloured 1 0x8000) = some (some 0x8000, 0) ∧
    seen (fun t => ((t.colour 1).ring, t.me.stsStatus)) (.colq 1 2 4) (coloured 1 65535) = some (some 65535, 0) := by decide +kernel
theorem test_colq_refused : (after (.colq 1 2 0) (coloured 1 33)).map (·.stsStatus) = some 1 ∧ (after (.colq 1 2 1) (coloured 1 63)).map (·.stsStatus) = some 1 ∧
    (after (.colq 1 2 0) (coloured 2 1)).map (·.stsStatus) = some 2 ∧
    (after (.colq 1 2 0) ((List.range 6).foldl (fun s n => s.modColour (BitVec.ofNat 9 (n + 2)) fun _ => { ColourEntry.reset with state := .live, floor := 32 }) (coloured 1 1))).map (·.stsStatus) =
      some 0x0C := by decide +kernel
/-- R298, item 5: the quota of a port of the world's launch. -/
theorem test_colq_quota : seen (fun t => ((Map.get? (t.cluster 0).ports 0).map fun p => Map.get p.quota 1 32, t.me.stsStatus)) (.colq 1 2 5)
    ((launched .running 1 256).modColour 1 fun _ => { ColourEntry.reset with state := .live }) = some (some 256, 0) := by decide +kernel
theorem test_colret : seen (fun t => (t.me.stsStatus, decide ((t.colour 1).state = .retiring))) (.colret 1) (coloured 1 0) = some (0, true) ∧
    (after (.colret 1) (coloured 0 0)).map (·.stsStatus) = some 0x0E ∧ (after (.colret 1) (coloured 2 0)).map (·.stsStatus) = some 0x0A := by decide +kernel
theorem test_colret_refused : (after (.colret 1) ((coloured 1 0).modMe fun c => { c with world := 3 })).map (·.stsStatus) = some 2 ∧
    (after (.colret 1) ((coloured 1 0).modColour 2 fun _ => { ColourEntry.reset with state := .live, kshare := 1 })).map (·.stsStatus) = some 0x0D := by decide +kernel
/-- A colour that retires, before and after its lines are dropped. -/
def retiring (dropped : Bool) : State := (coloured 1 0).modColour 1 fun e => { e with state := .retiring, dropped := dropped }
theorem test_retirement_meets : (retiring false).accessesLeft (fun key d va => d = 1 || va.isNone && (retiring false).mayKey 1 key) = false ∧ (retiring false).storesHeld 1 = false ∧ (retiring true).lineLeft 1 = false := by decide +kernel
theorem test_colour_free : seen (fun t => (t.colour 1).dropped) (.colourRetireDrop 1) (retiring false) = some true ∧
    seen (fun t => (t.colour 1).state) (.colourFree 1) (retiring true) = some .free := by decide +kernel

/-- Ring 70 of world 0, enabled, of 16 records in colour 0 at 0x2000, its PROD counter at a value. -/
def armable (prod : BitVec 32) (notify : Bool) : State := (regs 70 0).modRing 70 fun g => { g with en := true, log2n := 4, base := 0x2000, prod := prod, notify := notify }
theorem test_ring_meets : (armable 3 true).ringUsable 70 0 = true ∧ (armable 3 true).ringUsable 71 0 = false := by decide +kernel
theorem test_evarm : seen (fun t => ((t.ring 70).notify, t.me.stsStatus)) (.evarm 1) (armable 3 false) = some (true, 0) ∧
    (after (.evarm 1) (regs 71 0)).map (·.stsStatus) = some 2 := by decide +kernel
theorem test_evwait : (after (.evwait 3 1) (armable 3 false)).map (fun c => (c.reg 3, c.pc)) = some (3, 8) ∧
    (after (.evwait 3 1) (armable 3 true)).map (·.park) = some (.ring 70) ∧ (after (.evwait 3 1) (regs 71 0)).map (·.reg 3) = some (-2) := by decide +kernel
/-- R189: the record stands at the slot that PROD names. -/
theorem test_record_write : seen (fun t => ((t.ring 70).prod, (t.ring 70).notify, t.records.length, (t.peekNat (2 ^ 36 + 0x2060) 32 == 0))) (.eventRecordWrite 0)
    ((armable 3 true).record 0 70 0 1 0 0 0 0 5) = some (4, false, 0, false) := by decide +kernel

/-- A barrier object that expects 8 bytes at SPA 0x40, with 6 arrived in phase 65,535. -/
def barriered (a b : Word) : State := (regs a b).modTile 0 fun t => t.setBarrier 0x40 ⟨false, 0, 65535, 6, 8⟩
theorem test_barrier_meets : (barriered 0x40 0).barrierAt 0x40 = .ok (0, 0x40) ∧ ((barriered 0 0).tile 0).barrier 0x40 = ⟨false, 0, 65535, 6, 8⟩ ∧
    (⟨false, 0, 65535, 6, 8⟩ : Barrier).passed 65535 = false ∧ (⟨false, 0, 65535, 6, 8⟩ : Barrier).passed 65534 = true := by decide +kernel
theorem test_binit : seen (fun t => ((t.tile 0).barrier 0x40, (t.tile 0).full)) (.binit 1 2) (barriered 0x40 9) = some (⟨false, 0, 65535, 0, 9⟩, [4]) := by decide +kernel
/-- R174: bytes beyond a phase's total are carried, and PHASE wraps. -/
theorem test_barv : seen (fun t => (t.tile 0).barrier 0x40) (.barv 1 2 none) (barriered 0x40 11) = some ⟨false, 0, 1, 1, 8⟩ ∧
    seen (fun t => (t.tile 0).barrier 0x40) (.barrierArrival 0 0) ((barriered 0x40 11).modCluster 0 fun k => { k with arrivals := [⟨0, 0x40, 2⟩] }) =
      some ⟨false, 0, 0, 0, 8⟩ := by decide +kernel
theorem test_barrier_err : (((mapped.tile 0).setBarrier 0x40 ((⟨false, 0, 0, 0, 0⟩ : Barrier).arrive 5)).barrier 0x40) = ⟨true, 0, 0, 0, 0⟩ := by decide +kernel
theorem test_bwait : (after (.bwait 3 1 2 none) (barriered 0x40 65534)).map (fun c => (c.reg 3, c.pc)) = some (65535, 8) ∧
    seen (fun t => (((t.tile 0).barrier 0x40).waiters, t.me.park)) (.bwait 3 1 2 none) (barriered 0x40 65535) = some (1, .barrier 0x40 65535) := by decide +kernel

/-- A group descriptor at 0x3000 with the tiles 0 and 17 as members 0 and 1 of colour 0, its destination at 0x400. -/
def groupBytes (enrolled : Nat) : List Byte := natBytes 8 (0x400 * 2 ^ 40 + 2 ^ 19) ++ natBytes 8 enrolled ++ List.replicate 48 0 ++
  (if enrolled = 0 then [] else natBytes 2 0x8000 ++ natBytes 2 0x8101)
def grouped (enrolled : Nat) : State := put 0x3000 (groupBytes enrolled) (regs 0x3000 0)
theorem test_group_meets : (match (grouped 3).coreGroup 0x3000 with
    | .done u pa => (u.groupDesc pa).formOk && decide ((u.groupDesc pa).memberOf 17 = some 1) && decide ((u.groupDesc pa).memberOf 18 = none) && decide (pa = 2 ^ 36 + 0x3000)
    | _ => false) = true := by decide +kernel
theorem test_gjoin : seen (fun t => (t.me.stsValue, (t.groupDesc (2 ^ 36 + 0x3000)).enrolled)) (.gjoin 1 18) (grouped 3) = some (2, 7) ∧
    seen (fun t => (t.me.stsValue, (t.groupDesc (2 ^ 36 + 0x3000)).enrolled)) (.gjoin 1 18) (grouped 0) = some (0, 1) ∧
    seen (fun t => (t.me.stsStatus, (t.groupDesc (2 ^ 36 + 0x3000)).enrolled)) (.gjoin 1 17) (grouped 3) = some (0, 3) := by decide +kernel
theorem test_gjoin_refused : (after (.gjoin 1 18) (put 0x3000 [1] (grouped 3))).map (·.stsStatus) = some 0x0A ∧
    (after (.gleave 1 18) (grouped 3)).map (·.stsStatus) = some 9 := by decide +kernel
theorem test_gleave : seen (fun t => (t.me.stsValue, (t.groupDesc (2 ^ 36 + 0x3000)).enrolled)) (.gleave 1 17) (grouped 3) = some (1, 1) := by decide +kernel
/-- A request of tile 17 for the line at 0x500, an ask at its slice, a hold entry and a fill. -/
def gkey : GroupKey := ⟨2 ^ 36 + 0x3000, 0x500, 0x100⟩
def asking : State := (grouped 3).modCluster 0 fun k => { k with asks := [⟨gkey, 17, 0, ⟨0, 0, 0, 0, 0, 0⟩, none, none, none⟩] }
def sliceAsk : SliceAsk := ⟨0, gkey, 1, 2 ^ 36 + 0x500, 0, 0, 0, 0, 0, 0⟩
theorem test_group_request : seen (fun t => ((t.cluster 0).pendingKeys.map (·.member))) (.groupRequest 0 0) asking = some [1] ∧
    (asking.groupDesc gkey.desc).enrolled.getLsbD 1 = true ∧ asking.peekPoison gkey.desc = false := by decide +kernel
theorem test_group_ask : seen (fun t => ((t.slice 3).holds.map (·.asked))) (.groupAsk 3 0) ((grouped 3).modSlice 3 fun l => { l with asks := [sliceAsk] }) = some [2] ∧
    seen (fun t => ((t.slice 3).groupQueue.length)) (.groupAsk 3 0) ((grouped 3).modSlice 3 fun l =>
      { l with asks := [sliceAsk], holds := List.replicate 32 ⟨{ sliceAsk with ck := 9 }, 0, 9, none⟩ }) = some 1 := by decide +kernel
theorem test_group_admit : seen (fun t => ((t.slice 3).holds.length, (t.slice 3).groupQueue.length)) (.groupQueueAdmit 3)
    ((grouped 3).modSlice 3 fun l => { l with groupQueue := [sliceAsk] }) = some (1, 0) := by decide +kernel
theorem test_group_fill : seen (fun t => (t.net.filterMap fun f => match f.cargo with | .fill _ g => some g.byTimer | _ => none)) (.groupTimerExpiry 3 0)
      ((grouped 3).modSlice 3 fun l => { l with holds := [⟨sliceAsk, 2, 0, some true⟩] }) = some [true] ∧
    seen (fun t => ((t.cluster 0).fills.length, Memory.read (t.tile 17).scratch 0x500)) (.groupFill 0 0)
      (asking.modCluster 0 fun k => { k with fills := [⟨gkey, [(1, 17)], 2, 0xAB, 0, false⟩] }) = some (0, 0xAB) := by decide +kernel

/-! Cards (R178 to R187) and objects (R353 to R365) -/

/-- The bits of a card: operation, flags RV, JV, MV, ring 0, tag 7, COUNT, RD0, WR, ARG. -/
def cardBits (op fl count rd0 wr arg : Nat) : BitVec 512 :=
  BitVec.ofNat 512 (op + 256 * fl + 2 ^ 32 * 7 + 2 ^ 64 * count + 2 ^ 128 * rd0 + 2 ^ 256 * wr + 2 ^ 448 * arg)
/-- A region of one unit of 64 bytes. -/
def region (base : Nat) : Nat := base + 2 ^ 47
/-- A context that waits for the window with a card. -/
def carded (b : BitVec 512) : State := mapped.modMe fun c => { c with park := .window b }
def aCopy : BitVec 512 := cardBits 1 0 64 (region 0x1000) (region 0x2000) 0
theorem test_jsub : (after (.jsub 1) (put 0x100 (natBytes 64 aCopy.toNat) (regs 0x100 0))).map (·.park) = some (.window aCopy) := by decide +kernel
/-- R74: an accepted copy; opcode 0x30; an unused ARG; `csrwalk` outside world 0. -/
def accepted (b : BitVec 512) (w : World) : Option (CardState × Nat × Nat) :=
  match exec (.cardAccept 0 0) ((carded b).modMe fun c => { c with world := w }) with
  | .next t => (t.cluster 0).cards[0]?.map fun c => (c.state, c.status, c.fault)
  | _ => none
theorem test_card_accept : accepted aCopy 0 = some (.waiting, 0, 0) ∧ accepted (cardBits 0x30 0 0 0 0 0) 0 = some (.done, 1, 1) ∧
    accepted (cardBits 7 0 0 0 0 1) 0 = some (.done, 1, 2) ∧ accepted (cardBits 6 4 64 (region 0) (region 0x2000) 0) 1 = some (.done, 2, 0) ∧
    (carded aCopy).cardRefusal (Card.submitted 0 aCopy 0 (carded aCopy).me) = none := by decide +kernel
/-- A window with one card. -/
def carding (b : BitVec 512) (st : CardState) : State :=
  (put 0x1000 [1, 2, 3] mapped).modCluster 0 fun k => { k with cards := [⟨3, b, 0, 0, 0, [], st, 0, 0, 0, false, [], 0, [], [], []⟩] }
/-- The same after the card's first turn, in the next cycle. -/
def begun (b : BitVec 512) : State := { go (execCardIssue 0 (carding b .waiting)) with cycles := 1 }
theorem test_card_issue_meets : (((carding aCopy .waiting).cluster 0).nextCard 0).isSome ∧
    (∀ op ∈ [1, 2, 3, 4, 5, 6, 7], (((carding (cardBits op 0 0 0 0 0) .waiting).cluster 0).nextCard 0).map (·.op) = some op) ∧
    (((carding (cardBits 3 0 0 0 0 (2 ^ 63)) .waiting).cluster 0).nextCard 0).map (·.fab) = some true ∧
    ((begun aCopy).cluster 0).cards.map (fun c => (c.begun, c.nextWork [] 0 c.work)) = [(true, some (0, .move (some (0x1000, false)) [] 0x2000 64))] := by decide +kernel
/-- R180, R184: a copy, and a fill by address; a copy from an unmapped page. -/
theorem test_card_issue : seen (fun t => ((t.cluster 0).cards.map (fun c => (c.status, c.bytes)), t.peek (2 ^ 36 + 0x2002))) (.cardIssue 0)
      (begun aCopy) = some ([(0, 64)], 3) ∧
    seen (fun t => t.peek (2 ^ 36 + 0x2009)) (.cardIssue 0) (begun (cardBits 5 0 64 0 (region 0x2000) 0xBBAA)) = some 0xBB := by decide +kernel
theorem test_card_complete : seen (fun t => ((t.cluster 0).cards.length, t.records.map fun r => (r.kind, r.tag))) (.cardComplete 0 0)
      (carding (cardBits 7 1 0 0 0 0) .done) = some (0, [(1, 7)]) ∧
    seen (fun t => ((t.cluster 0).cards.length, t.records.length)) (.cardComplete 0 0) (carding (cardBits 7 0 0 0 0 0) .done) = some (0, 0) := by decide +kernel
/-- A heap of eight granules at granule 4 of die 0 for world 0, with the named entry at index 1. -/
def heaped (e : ObjectEntry) (a b : Word) : State := ((regs a b).modColour 0 fun c => { c with root := 4 }).poke 65536 (natBytes 8 (2 ^ 36 + 31)) |>.modDie 0 fun d =>
  { d with otEn := true, otBase := 2, ktBase := 2 ^ 20, ohbase := [(0, 9)], ohsize := [(0, 8 + 2 ^ 24 * 8)], ktEn := true, objects := [(1, e)] }
/-- A live object of one granule with counts. -/
def live (strong weak : BitVec 16) : ObjectEntry := { ObjectEntry.reset with base := 0x10000, size := 1, state := .live, strong, weak }
def strong1 : Word := BitVec.ofNat 64 (2 ^ 63 + 2 ^ 40)
def weak1 : Word := BitVec.ofNat 64 (2 ^ 40)
theorem test_onew_meets : (heaped (live 1 0) 1 0).heapOn 0 0 = true ∧ freeObject ((heaped (live 1 0) 1 0).die 0).objects (2 ^ 21 - 1) 1 = some 2 ∧
    (heaped (live 1 0) 1 0).heapFit 0 0 2 = some 1 ∧ (heaped (live 0 1) 1 0).heapFit 0 0 8 = none ∧
    (heaped (live 0 1) 1 0).candidate 0 0 = some 1 ∧ (regs 1 0).heapOn 0 0 = false := by decide +kernel
theorem test_onew : (after (.onew 3 1 0) (heaped (live 1 0) 0x5000 0)).map (fun c => (c.stsStatus, c.reg 3)) = some (0, BitVec.ofNat 64 (2 ^ 63 + 2 ^ 41)) ∧
    (after (.onew 3 1 0) (heaped (live 1 0) 0 0)).map (·.stsStatus) = some 1 ∧ (after (.onew 3 1 0) (regs 1 0)).map (·.stsStatus) = some 0x14 ∧
    seen (fun t => ((t.object 0 1).state, (t.object 0 1).gen)) (.onew 3 1 0) (heaped (live 0 1) (8 * 2 ^ 14) 0) = some (.free, 1) := by decide +kernel
theorem test_references_meet : ((heaped (live 1 1) strong1 0).liveObject 0 (Handle.ofNat strong1.toNat)).isSome ∧
    ((heaped (live 1 1) weak1 0).liveObject 0 (Handle.ofNat weak1.toNat)).isSome ∧
    (heaped (live 1 1) 0 0).liveObject 0 (Handle.ofNat (2 ^ 41)) = none ∧ (Handle.ofNat strong1.toNat).formOk = true ∧ (Handle.ofNat 1).formOk = false := by decide +kernel
/-- R358: each instruction on a live object. -/
theorem test_oup : seen (fun t => ((t.object 0 1).strong, t.reg 3)) (.oup 3 1) (heaped (live 1 1) weak1 0) = some (2, strong1) ∧
    (after (.oup 3 1) (heaped (live 1 1) (BitVec.ofNat 64 (2 ^ 41)) 0)).map (·.stsStatus) = some 0x15 := by decide +kernel
theorem test_oweak : seen (fun t => ((t.object 0 1).weak, t.reg 3)) (.oweak 3 1) (heaped (live 1 1) strong1 0) = some (2, weak1) ∧
    (after (.oweak 3 1) (heaped (live 1 65535) strong1 0)).map (·.stsStatus) = some 0x19 := by decide +kernel
theorem test_orel : seen (fun t => ((t.object 0 1).state, (t.object 0 1).gen)) (.orel 1) (heaped (live 1 0) strong1 0) = some (.free, 1) ∧
    (after (.orel 1) (heaped (live 1 0) weak1 0)).map (·.stsStatus) = some 0x19 := by decide +kernel
theorem test_oprio : seen (fun t => ((t.object 0 1).prio, (t.object 0 1).strong)) (.oprio 1 5) (heaped (live 1 0) strong1 0) = some (5, 1) ∧
    (after (.oprio 1 5) (heaped (live 1 0) 1 0)).map (·.stsStatus) = some 1 := by decide +kernel
/-- Naming the object by 32 zero bytes at 0x100, and finding it. -/
def named : State := match exec (.oname 1 2) (heaped (live 1 0) strong1 0x100) with | .next t => t | _ => mapped
theorem test_oname_meets : ((heaped (live 1 0) strong1 0x100).keyMatch 0 0 0 0) = none ∧ ((heaped (live 1 0) strong1 0x100).keyFree 0 0) = some 0 ∧
    ((heaped (live 1 0) strong1 0x100).keyBucket 0) = (0, 0) ∧ (named.keyMatch 0 0 0 0).isSome = true ∧
    (match (heaped (live 1 0) strong1 0x100).coreRead 0x100 32 with | .done u bs => decide (bytesNat bs = 0 ∧ u.actor.ctx < 8) | _ => false) = true := by decide +kernel
theorem test_oname : named.me.stsStatus = 0 ∧ (named.object 0 1).keyp = 2 ^ 29 ∧
    (after (.oname 1 2) named).map (·.stsStatus) = some 0x17 := by decide +kernel
theorem test_ofind : seen (fun t => (t.reg 3, (t.object 0 1).weak)) (.ofind 3 2) named = some (weak1, 1) ∧
    (after (.ofind 3 2) (heaped (live 1 0) strong1 0x100)).map (·.stsStatus) = some 0x16 := by decide +kernel
theorem test_odisc : ((heaped (live 1 0) strong1 0).liveObject 0 (Handle.ofNat strong1.toNat)).isSome ∧ (heaped (live 1 0) strong1 0).rangeFault 0 0x10000 1 = none ∧
    (after (.odisc 1) (heaped (live 1 0) strong1 0)).map (fun c => (c.stsStatus, c.pc)) = some (0, 8) := by decide +kernel
theorem test_object_reclaim : (heaped (live 0 1) 0 0).heapFree 0 0 < (heaped (live 0 1) 0 0).heapLow 0 0 ∧
    seen (fun t => (t.object 0 1).state) (.objectReclaim 0 0) (heaped (live 0 1) 0 0) = some .free := by decide +kernel
theorem test_prefetch_notice : seen (fun t => (t.prefetches, (t.object 0 1).touch)) (.prefetchNotice 0)
    { heaped { live 1 0 with pfen := true, touch := 9 } 0 0 with prefetches := [(0, 0)] } = some ([], 0) := by decide +kernel

/-! Freeze, snapshots, debug stops, plane swaps (R304, R327 to R329, R377 to R385) -/

/-- Launch 5 belongs to world 1, whose snapshot area is enabled, and a token waits in tile 0. -/
def guest (a : Word) : State := ((site 2 (fields 1 .n32 0 0 [eastNarrow]) [token .l 0 (num 3)]).modCluster 0 fun k =>
  { k with launches := [(5, { launchOf .running with world := 1 })] }).modMe fun c => c.setReg 1 a
def freezing : State := go (execFreeze 1 (guest 1))
def frozen1 : State := go (execFreezeScanComplete 1 { freezing with cycles := 2600 })
def owned : State := ((frozen1.modTile 0 fun t => { t with tsWorld := 1 }).modTile 1 fun t => { t with tsWorld := 1 }).modMe fun c => { (c.setReg 1 257) with armed := false, park := .none }
def thawing1 : State := go (execThaw 1 owned)
theorem test_freeze : (freezing.isFrozen 1 = true ∧ freezing.me.park = .scan ∧ freezing.scanning 0 = true) ∧
    (after (.freeze 1) (guest 2)).map (·.stsStatus) = some 0 ∧ (after (.freeze 1) (guest 0)).map (·.stsStatus) = some 2 ∧
    (after (.freeze 1) (guest 512)).map (·.stsStatus) = some 1 ∧ (after (.freeze 1) ((guest 1).modMe fun c => { c with world := 1 })).map (·.trapCause) = some 3 := by decide +kernel
/-- R377: the tile's store is empty afterwards and another plane active; the instruction reports one cluster. -/
theorem test_freeze_scan : frozen1.scanning 0 = false ∧ (frozen1.tile 0).store = [] ∧ (frozen1.tile 0).plane = 1 ∧
    ((Map.get? frozen1.frozen 1).map fun x => (x.tiles.head?.map fun t => (t.tk, t.store.length))) = some (some (0, 1)) ∧
    (after (.freeze 1) frozen1).map (fun c => (c.stsStatus, c.stsValue)) = some (0, 1) ∧
    ((guest 1).tile 0).restored = [] ∧ (guest 1).thawing = [] := by decide +kernel
theorem test_thaw : thawing1.scanning 0 = true ∧ (after (.thaw 1) (guest 257)).map (·.stsStatus) = some 0x13 ∧
    (after (.thaw 1) (frozen1.modMe fun c => { (c.setReg 1 257) with armed := false, park := .none })).map (·.stsStatus) = some 0x10 ∧
    seen (fun t => (t.isFrozen 1, ((t.tile 0).store.length, (t.tile 0).plane))) (.freezeScanComplete 1) { thawing1 with cycles := 5200 } = some (false, (1, 0)) := by decide +kernel

/-- A snapshot of launch 5 with STOP, its markers under way. -/
def snapArea (s : State) : State := s.modDie 0 fun d => { d with snap := [(0, 1 + 2 * 14 + 0x10000)] }
def shot (w : BitVec 16) : State := landed (go (execSnap w (snapArea (site 2 (fields 1 .n32 0 0 [eastNarrow]) [token .l 0 (num 3)]))))
theorem test_snap : (((shot 0x8007).cluster 0).snapshots.map fun n => (n.ctx, n.number, n.stop)) = [(5, 7, true)] ∧ (shot 0x8007).me.stsStatus = 0 ∧
    ((shot 7).cluster 0).markers.length = 1 ∧ (after (.snap 7) (shot 7)).map (·.stsStatus) = some 7 ∧ (after (.snap 7) (launched .running 0 0)).map (·.stsStatus) = some 1 := by decide +kernel
/-- The marker arrives at tile 0, the tiles save, and the image is written. -/
def marked : State := go (execMarkerArrival 0 0 (shot 0x8007))
def saved0 : State := go (execSnapshotTileSave 0 5 marked)
def saved1 : State := go (execSnapshotTileSave 1 5 saved0)
theorem test_marker : (marked.tile 0).markers.length = 1 ∧ (marked.cluster 0).markers = [] ∧ (shot 0x8007).scanning 0 = false := by decide +kernel
theorem test_tile_save : (marked.saveDue 0 5 = true ∧ (marked.tile 0).quietPlane 0 = true ∧ (marked.savedTogether 0 5).map (·.1) = [5]) ∧
    (saved0.tile 0).savedFor = [5] ∧ (saved0.tile 0).epochs = 1 := by decide +kernel
theorem test_snapshot_complete : (match saved1.snapshotOf 0 5, saved1.launch? 0 5 with | some n, some l => saved1.snapshotReady 0 n l | _, _ => false) = true ∧
    seen (fun t => ((t.launch? 0 5).map (·.state), t.snaps.length, t.records.map (·.status), t.peekNat (2 ^ 36 + 0x10000 + 5 * 2 ^ 14) 4)) (.snapshotComplete 0 5)
      saved1 = some (some .ended, 1, [4], 0x464F4C44) := by decide +kernel
/-- R383: a word with BRK and no filter stops at its ready tag. -/
def broken : State := site 2 { fields 1 .n32 0 0 [eastNarrow] with flags := ⟨true, false, 0, false⟩ } [token .l 0 (num 3)]
def stopped : State := go (execBreakpointMatch 0 0 broken)
theorem test_breakpoint_match : (stopped.tile 0).latch.isSome = true ∧ stopped.debugStops = [0] ∧
    (∀ k < 64, k ≠ 0 → broken.slotOp 0 0 k = none) := by decide +kernel
theorem test_debug_resume : seen (fun t => (t.debugStops, (t.tile 0).resume)) (.debugResume 0) stopped = some ([], true) := by decide +kernel
/-- Launch 5 on plane 1 with a token that waits at its port, while plane 0 is active. -/
def demanding : State := (launched .running 0 0).modCluster 0 fun k => { k with
  launches := [(5, { launchOf .running with plane := 1 }), (6, { launchOf .ended with world := 2 })]
  bindings := [{ binding false false with active := true, ready := [(token .l 0 (num 1))] }] }
def swapping : State := go (execPlaneSwap 0 demanding)
theorem test_plane_swap : (swapping.tile 0).swap = some ⟨1, 0, none⟩ ∧ demanding.planeDemand 0 = some 1 ∧ (swapping.tile 0).drained = true ∧
    swapping.planeWorld 0 0 = some 2 ∧ swapping.planeWorld 0 1 = some 0 ∧
    seen (fun t => (t.tile 0).plane) (.planeSwap 0) { go (execPlaneSwap 0 swapping) with cycles := 64 } = some 1 := by decide +kernel
theorem test_swap_expiry : seen (fun t => ((t.tile 0).store.length, t.records.map (·.status))) (.swapDrainExpiry 0)
    ({ site 2 (fields 1 .n32 0 0 [eastNarrow]) [token .l 0 (num 3)] with cycles := 4096 }.modTile 0 fun t => { t with swap := some ⟨1, 0, none⟩ }) = some (0, [4]) := by decide +kernel

/-! The fabric: the firing rule, routing, tags, requests, the narrow plane (R34, R43, R44, R191 to R210) -/

def one : OpFields := fields 1 .n32 0 5 [eastNarrow]
def two : OpFields := fields 2 .n32 0 5 [eastNarrow, eastNarrow, eastNarrow]
def three : OpFields := fields 3 .n32 0 5 [eastNarrow, eastNarrow, eastNarrow]
/-- Numbers at L, R and C of one tag. -/
def lrc (xs : List Int) : List Token := (List.range xs.length).filterMap fun i => (xs[i]?).map fun v => token ([Port.l, .r, .c].getD i .l) 7 (num v)
def eosAt (p : Port) : Token := token p 0 (.eos 0)
theorem test_firing_meets : ready 2 one (site 2 one (lrc [3])) = true ∧ readyEos 2 one (site 2 one [eosAt .l]) = true ∧
    ((site 2 one []).best ((site 2 one []).site 2 one)).isNone = true ∧
    ({ site 2 one (lrc [3]) with cycles := 0 }.started ((site 2 one []).site 2 one)).unitBusy ((site 2 one []).site 2 one) = true ∧
    (match (site 4 two [token .l 7 (num 3), { token .r 7 (num 1) with poison := true }]).best ((site 4 two []).site 4 two) with
      | some m => poisonEnds 4 m | none => false) = true := by decide +kernel
/-- R44: nothing fires twice in a unit in one cycle; R34: an EOS goes to every destination; R410: a poisoned predicate ends the firing. -/
theorem test_fire : sent (.pass one) (site 2 one [eosAt .l]) = some [(0, 0, .eos 0)] ∧
    sent (.pass one) ((site 2 one (lrc [3])).started ((site 2 one []).site 2 one)) = some [] ∧
    seen (fun t => (t.records.map (·.fault), credits t)) (.steer two)
      (site 4 two [token .l 7 (num 3), { token .r 7 (num 1) with poison := true }]) = some ([0x2A], 2) := by decide +kernel
/-- R39, R47: a result has a reservation at the tile it goes to and carries L's credit; R's is returned. -/
theorem test_results_leave : seen (fun t => ((t.tile 1).reserved.length, credits t, (t.tile 0).store.length)) (.nadd { two with dest1 := none, dest2 := none })
    (site 0x40 { two with dest1 := none, dest2 := none } (lrc [3, 4])) = some (1, 1, 0) := by decide +kernel
theorem test_const : sent (.const one) (site 1 one (lrc [3])) = some [(0, 7, num 5)] ∧
    sent (.const { one with etype := .i32 }) (site 1 { one with etype := .i32 } [token .l 7 (.wide ⟨0, 1⟩)]) = some [(0, 7, .wide ⟨5, 1⟩)] := by decide +kernel
theorem test_pass : sent (.pass { one with tagop := .inc }) (site 2 { one with tagop := .inc } (lrc [3])) = some [(0, 8, num 3)] ∧
    seen (fun t => t.records.map (·.fault)) (.pass { one with tagop := .pop }) (site 2 { one with tagop := .pop } (lrc [3])) = some [2] := by decide +kernel
theorem test_repl : sent (.repl { one with etype := .f32 }) (site 3 { one with etype := .f32 } (lrc [-1])) = some [(0, 7, lanes (List.replicate 16 0xBF800000))] := by decide +kernel
theorem test_steer : sent (.steer two) (site 4 two (lrc [3, 0])) = some [(1, 7, num 3), (2, 7, num 3)] ∧
    sent (.steer two) (site 4 two (lrc [3, 1])) = some [(0, 7, num 3), (2, 7, num 3)] := by decide +kernel
/-- R197: `merge` waits only for the input that its predicate names. -/
theorem test_merge : sent (.merge { three with dest1 := none, dest2 := none }) (site 5 { three with dest1 := none, dest2 := none } [token .r 7 (num 4), token .c 7 (num 0)]) = some [(0, 7, num 4)] ∧
    sent (.merge three) (site 5 three [token .r 7 (num 4), token .c 7 (num 1)]) = some [] := by decide +kernel
theorem test_amerge : sent (.amerge { two with dest1 := none, dest2 := none }) (site 6 { two with dest1 := none, dest2 := none } [token .r 7 (num 4)]) = some [(0, 7, num 4)] := by decide +kernel
theorem test_select : sent (.select { three with dest1 := none, dest2 := none }) (site 8 { three with dest1 := none, dest2 := none } (lrc [3, 4, 0])) = some [(0, 7, num 4)] ∧
    sent (.select three) (site 8 three [token .r 7 (num 4), token .c 7 (num 0)]) = some [] := by decide +kernel
theorem test_eosgen : sent (.eosgen { one with imm := 8 }) (site 0x18 { one with imm := 8 } (lrc [3])) = some [(0, 7, num 3), (0, 0, .eos 0)] ∧
    sent (.eosgen { one with imm := 9 }) (site 0x18 { one with imm := 9 } (lrc [3])) = some [(0, 7, num 3)] := by decide +kernel
/-- R201: data at R ends; data at L goes on; EOS waits for both. -/
theorem test_eoswait : seen (fun t => (inUnits t, (t.tile 0).store.length)) (.eoswait two) (site 0x19 two [token .r 7 (num 4)]) = some ([], 0) ∧
    sent (.eoswait { two with dest1 := none, dest2 := none }) (site 0x19 { two with dest1 := none, dest2 := none } [token .l 7 (num 4)]) = some [(0, 7, num 4)] := by decide +kernel
theorem test_sink : seen (fun t => ((t.tile 0).store.length, credits t)) (.sink one) (site 0x1C one (lrc [3])) = some (0, 1) ∧
    seen (fun t => (t.launch? 0 5).map (·.sinkEos)) (.sink one) (site 0x1C one [eosAt .l]) = some (some [(0, 0, 0)]) := by decide +kernel
theorem test_drop : seen (fun t => (inUnits t, (t.tile 0).store.length, credits t)) (.drop one) (site 0x1D one (lrc [3])) = some ([], 0, 1) := by decide +kernel
def guarded : OpFields := { one with arityG := true }
theorem test_gate : sent (.gate guarded) (site 0x1E guarded (lrc [3] ++ [token .g 7 (.guard true)])) = some [(0, 7, num 3)] ∧
    sent (.gate guarded) (site 0x1E guarded (lrc [3] ++ [token .g 7 (.guard false)])) = some [] := by decide +kernel
theorem test_ojoin : sent (.ojoin { one with arityN := 2, etype := .ord }) (site 0x1F { one with arityN := 2, etype := .ord } [token .l 7 .order, token .r 7 .order]) = some [(0, 7, .order)] ∧
    sent (.ojoin { one with arityN := 2, etype := .ord }) (site 0x1F { one with arityN := 2, etype := .ord } [token .l 7 .order, token .r 7 (.guard false)]) = some [(0, 7, .guard false)] := by decide +kernel

theorem test_tagset : sent (.tagset one) (site 0x10 one (lrc [3])) = some [(0, 5, num 3)] := by decide +kernel
theorem test_taginc : sent (.taginc { one with imm := 65535 }) (site 0x11 { one with imm := 65535 } (lrc [3])) = some [(0, 6, num 3)] := by decide +kernel
theorem test_tagcopy : sent (.tagcopy { two with dest1 := none, dest2 := none }) (site 0x12 { two with dest1 := none, dest2 := none } (lrc [9, 4])) = some [(0, 9, num 4)] ∧
    sent (.tagcopy one) (site 0x12 one (lrc [9])) = some [(0, 9, num 9)] := by decide +kernel
theorem test_lvpush : sent (.lvpush one) (site 0x13 one (lrc [3])) = some [(0, 7 + 5 * 2 ^ 16, num 3)] ∧
    seen (fun t => t.records.map (·.fault)) (.lvpush one) (site 0x13 one [{ token .l 7 (num 3) with tag := ⟨0, 5, 0, 0, 1, 7⟩ }]) = some [2] := by decide +kernel
/-- R199: `lvpop` clears the field of the level it leaves, and ends the EOS of level PL. -/
theorem test_lvpop : sent (.lvpop one) (site 0x14 one [{ token .l 7 (num 3) with tag := ⟨0, 5, 0, 0, 1, 0x30007⟩ }]) = some [(0, 7, num 3)] ∧
    seen (fun t => (inUnits t, (t.tile 0).store.length)) (.lvpop { one with imm := 1 })
      (site 0x14 { one with imm := 1 } [{ token .l 7 (.eos 1) with tag := ⟨0, 5, 0, 0, 1, 7⟩ }]) = some ([], 0) := by decide +kernel
/-- R198: an initial value, a carried value that goes round, one that leaves, and the EOS that waits for the loops. -/
def inner (p : Port) (x : Payload) : Token := { token p 0 x with tag := ⟨0, 5, 0, portCode p, 1, 0x30007⟩ }
def turning (n : BitVec 16) (ts : List Token) : State := (site 7 three ts).modTile 0 fun t => t.modSlot 0 fun x => { x with active := [(5, n)] }
theorem test_lcarry_entry : seen (fun t => (inUnits t, ((t.tile 0).slot 0).active)) (.lcarryEntry three) (site 7 three (lrc [3])) =
    some ([(0, 7, num 3), (1, 7, num 3)], [(5, 1)]) := by decide +kernel
theorem test_lcarry_back : sent (.lcarryBackEdge three) (turning 1 [inner .r (num 3), inner .c (num 1)]) = some [(0, 0x40007, num 3), (1, 0x40007, num 3)] ∧
    seen (fun t => (inUnits t, Map.get ((t.tile 0).slot 0).active 5 0)) (.lcarryBackEdge three) (turning 1 [inner .r (num 3), inner .c (num 0)]) = some ([(2, 7, num 3)], 0) := by decide +kernel
theorem test_lcarry_eos : sent (.lcarryEosRelease three) (turning 0 [eosAt .l]) = some [(2, 0, .eos 0)] ∧
    sent (.lcarryEosRelease three) (turning 1 [eosAt .l]) = some [] := by decide +kernel
def greordF : OpFields := fields 1 .bits 0 0 [east]
theorem test_greord : seen (fun t => ((t.tile 0).store.map fun e => e.2.token.tag.iter, Map.get ((t.tile 0).slot 0).next 5 0)) (.greord greordF)
    (site 0x22 greordF [token .l 1 (lanes [2]), token .l 0 (lanes [1])]) = some ([1], 1) := by decide +kernel

theorem test_cfgreq : ready 0x20 guarded (site 0x20 guarded (lrc [3] ++ [token .g 7 (.guard true)])) = true ∧
    seen (fun t => ((t.cluster 0).flits.filterMap (fun f => match f.cargo with | .config r => some r.index | _ => none), (t.tile 0).store.map fun e => e.2.state)) (.cfgreq guarded)
      (site 0x20 guarded (lrc [3] ++ [token .g 7 (.guard true)])) = some ([5], [.cfgreq]) ∧
    seen (fun t => ((t.die 0).cfgreqs.length, (t.tile 0).store.length)) (.cfgreq guarded) (site 0x20 guarded (lrc [3] ++ [token .g 7 (.guard false)])) = some (0, 0) := by decide +kernel
def gcoalF : OpFields := fields 1 .n32 0 (2 * 16) [east]
theorem test_gcoal : ready 0x21 gcoalF (site 0x21 gcoalF (lrc [3])) = true ∧
    seen (fun t => ((t.tile 0).accesses.map fun a => a.out.iter, (t.tile 0).store.length)) (.gcoal gcoalF) (site 0x21 gcoalF (lrc [3])) = some ([14, 15], 0) := by decide +kernel

/-! The narrow plane -/

def nsum : OpFields := fields 2 .n8 0 0 [eastNarrow]
def nfun (k : BitVec 32) : OpFields := fields 1 .n8 3 k [eastNarrow]
def wrapped (v : Int) : List (Nat × Nat × Payload) := [(0, 7, .narrow 4 v (.chosen 0))]
theorem test_nadd : sent (.nadd nsum) (site 0x40 nsum (lrc [127, 1])) = some (wrapped (-128)) := by decide +kernel
theorem test_nsub : sent (.nsub nsum) (site 0x41 nsum (lrc [-128, 1])) = some (wrapped 127) := by decide +kernel
theorem test_nneg : sent (.nneg (nfun 0)) (site 0x42 (nfun 0) (lrc [-128])) = some (wrapped (-128)) := by decide +kernel
theorem test_nabs : sent (.nabs (nfun 0)) (site 0x43 (nfun 0) (lrc [-5])) = some (wrapped 5) := by decide +kernel
theorem test_nshl : sent (.nshl (nfun 0)) (site 0x46 (nfun 0) (lrc [3])) = some (wrapped (-64)) := by decide +kernel
theorem test_nmulk : sent (.nmulk (nfun 0xFFFFFFFF)) (site 0x47 (nfun 0xFFFFFFFF) (lrc [3])) = some (wrapped (-3)) := by decide +kernel
theorem test_nmin : sent (.nmin nsum) (site 0x44 nsum (lrc [3, -4])) = some [(0, 7, num (-4))] := by decide +kernel
theorem test_nmax : sent (.nmax nsum) (site 0x45 nsum (lrc [3, -4])) = some [(0, 7, num 3)] := by decide +kernel
/-- R208: a GUARD to a G port, a number elsewhere. -/
def comparing : OpFields := { nsum with dest0 := some { eastNarrow with port := .g }, dest1 := some eastNarrow }
def compared (b : Bool) (v : Int) : List (Nat × Nat × Payload) := [(0, 7, .guard b), (1, 7, .narrow 4 v .canonical)]
theorem test_nceq : sent (.nceq comparing) (site 0x48 comparing (lrc [3, 3])) = some (compared true 1) := by decide +kernel
theorem test_ncne : sent (.ncne comparing) (site 0x49 comparing (lrc [3, 3])) = some (compared false 0) := by decide +kernel
theorem test_nclt : sent (.nclt comparing) (site 0x4A comparing (lrc [-3, 3])) = some (compared true 1) := by decide +kernel
theorem test_ncle : sent (.ncle comparing) (site 0x4B comparing (lrc [4, 3])) = some (compared false 0) := by decide +kernel
theorem test_ntob_w : sent (.ntobW (nfun 0)) (site 0x50 (nfun 0) (lrc [200])) = some [(0, 7, .narrow 4 (-56) .canonical)] := by decide +kernel
theorem test_ntob_s : sent (.ntobS (nfun 0)) (site 0x51 (nfun 0) (lrc [200])) = some [(0, 7, .narrow 4 127 .canonical)] := by decide +kernel
def bton64 : OpFields := fields 1 .i32 14 0 [eastNarrow]
theorem test_bton : sent (.bton bton64) (site 0x52 bton64 [token .l 7 (lanes [0xFFFFFFFE, 0xFFFFFFFF])]) = some [(0, 7, .narrow 32 (-2) .canonical)] ∧
    sent (.bton { bton64 with sub := 11 }) (site 0x52 { bton64 with sub := 11 } [token .l 7 (lanes [0xFE])]) = some [(0, 7, .narrow 4 (-2) .canonical)] := by decide +kernel
/-- R210: two beats of an n32 result, then the token goes on the mesh. -/
def beating : State := go (execPass one (site 2 one (lrc [3])))
theorem test_narrow_beat : ((beating.tile 0).narrow.map (·.beats)) = [2] ∧
    seen (fun t => ((t.tile 0).narrow.map (·.sent), beatsOut t)) (.narrowBeatEmit 0) { beating with cycles := 1 } = some ([1], [1]) ∧
    seen (fun t => (t.tile 0).narrow.map (·.sent)) (.narrowBeatEmit 0) beating = some [0] ∧
    seen (fun t => ((t.tile 0).narrow.length, beatsOut t)) (.narrowBeatEmit 0) { go (execNarrowBeatEmit 0 { beating with cycles := 1 }) with cycles := 2 } = some (0, [1, 1]) := by decide +kernel

/-! The vector unit (R213 to R229) -/

/-- The first lanes of the WIDE token that goes to destination 0, and its mask. -/
def laneRes (n : Nat) (i : Instr) (s : State) : Option (List Nat × Nat) :=
  match sent i s with
  | some ((0, _, .wide w) :: _) => some ((List.range n).map fun k => (Lanes.lane w.data k).toNat, w.mask.toNat)
  | _ => none
theorem test_vadd : laneRes 2 (.vaddI32 (fields 2 .i32 0 0 [east])) (site 0x080 (fields 2 .i32 0 0 [east]) [token .l 7 (lanes [4294967295, 2147483647]), token .r 7 (lanes [3, 1])]) = some ([2, 2147483648], 0xFFFF) := by decide +kernel
theorem test_vaddsat : laneRes 3 (.vaddsatI32 (fields 2 .i32 0 0 [east])) (site 0x081 (fields 2 .i32 0 0 [east]) [token .l 7 (lanes [4294967295, 2147483647, 2147483648]), token .r 7 (lanes [3, 1, 4294967295])]) = some ([2, 2147483647, 2147483648], 0xFFFF) := by decide +kernel
theorem test_vsub : laneRes 2 (.vsubI32 (fields 2 .i32 0 0 [east])) (site 0x082 (fields 2 .i32 0 0 [east]) [token .l 7 (lanes [1, 2147483648]), token .r 7 (lanes [3, 1])]) = some ([4294967294, 2147483647], 0xFFFF) := by decide +kernel
theorem test_vsubsat : laneRes 2 (.vsubsatI32 (fields 2 .i32 0 0 [east])) (site 0x083 (fields 2 .i32 0 0 [east]) [token .l 7 (lanes [1, 2147483648]), token .r 7 (lanes [3, 1])]) = some ([4294967294, 2147483648], 0xFFFF) := by decide +kernel
theorem test_vmul : laneRes 2 (.vmulI32 (fields 2 .i32 0 0 [east])) (site 0x084 (fields 2 .i32 0 0 [east]) [token .l 7 (lanes [4294967293, 65536]), token .r 7 (lanes [5, 65536])]) = some ([4294967281, 0], 0xFFFF) := by decide +kernel
theorem test_vmulh : laneRes 2 (.vmulhI32 (fields 2 .i32 0 0 [east])) (site 0x085 (fields 2 .i32 0 0 [east]) [token .l 7 (lanes [4294967295, 65536]), token .r 7 (lanes [5, 65536])]) = some ([4294967295, 1], 0xFFFF) := by decide +kernel
theorem test_vmulhu : laneRes 1 (.vmulhuI32 (fields 2 .i32 0 0 [east])) (site 0x086 (fields 2 .i32 0 0 [east]) [token .l 7 (lanes [4294967295]), token .r 7 (lanes [5])]) = some ([4], 0xFFFF) := by decide +kernel
theorem test_vmin : laneRes 1 (.vminI32 (fields 2 .i32 0 0 [east])) (site 0x088 (fields 2 .i32 0 0 [east]) [token .l 7 (lanes [4294967295]), token .r 7 (lanes [5])]) = some ([4294967295], 0xFFFF) := by decide +kernel
theorem test_vmax : laneRes 1 (.vmaxI32 (fields 2 .i32 0 0 [east])) (site 0x089 (fields 2 .i32 0 0 [east]) [token .l 7 (lanes [4294967295]), token .r 7 (lanes [5])]) = some ([5], 0xFFFF) := by decide +kernel
theorem test_vminu : laneRes 1 (.vminuI32 (fields 2 .i32 0 0 [east])) (site 0x08A (fields 2 .i32 0 0 [east]) [token .l 7 (lanes [4294967295]), token .r 7 (lanes [5])]) = some ([5], 0xFFFF) := by decide +kernel
theorem test_vmaxu : laneRes 1 (.vmaxuI32 (fields 2 .i32 0 0 [east])) (site 0x08B (fields 2 .i32 0 0 [east]) [token .l 7 (lanes [4294967295]), token .r 7 (lanes [5])]) = some ([4294967295], 0xFFFF) := by decide +kernel
theorem test_vand : laneRes 1 (.vand (fields 2 .bits 0 0 [east])) (site 0x090 (fields 2 .bits 0 0 [east]) [token .l 7 (lanes [12]), token .r 7 (lanes [10])]) = some ([8], 0xFFFF) := by decide +kernel
theorem test_vor : laneRes 1 (.vor (fields 2 .bits 0 0 [east])) (site 0x091 (fields 2 .bits 0 0 [east]) [token .l 7 (lanes [12]), token .r 7 (lanes [10])]) = some ([14], 0xFFFF) := by decide +kernel
theorem test_vxor : laneRes 1 (.vxor (fields 2 .bits 0 0 [east])) (site 0x092 (fields 2 .bits 0 0 [east]) [token .l 7 (lanes [12]), token .r 7 (lanes [10])]) = some ([6], 0xFFFF) := by decide +kernel
theorem test_vnot : laneRes 1 (.vnot (fields 1 .bits 0 0 [east])) (site 0x093 (fields 1 .bits 0 0 [east]) [token .l 7 (lanes [12])]) = some ([4294967283], 0xFFFF) := by decide +kernel
theorem test_vshl : laneRes 2 (.vshl (fields 2 .i32 0 0 [east])) (site 0x094 (fields 2 .i32 0 0 [east]) [token .l 7 (lanes [3, 3]), token .r 7 (lanes [4, 35])]) = some ([48, 24], 0xFFFF) := by decide +kernel
theorem test_vshl_by_sub : laneRes 1 (.vshl (fields 1 .i32 2 0 [east])) (site 0x094 (fields 1 .i32 2 0 [east]) [token .l 7 (lanes [3])]) = some ([12], 0xFFFF) := by decide +kernel
theorem test_vshr : laneRes 1 (.vshr (fields 2 .i32 0 0 [east])) (site 0x095 (fields 2 .i32 0 0 [east]) [token .l 7 (lanes [4294967280]), token .r 7 (lanes [4])]) = some ([268435455], 0xFFFF) := by decide +kernel
theorem test_vsra : laneRes 1 (.vsra (fields 2 .i32 0 0 [east])) (site 0x096 (fields 2 .i32 0 0 [east]) [token .l 7 (lanes [4294967280]), token .r 7 (lanes [36])]) = some ([4294967295], 0xFFFF) := by decide +kernel
theorem test_vceq : laneRes 2 (.vceqI32 (fields 2 .i32 0 0 [east])) (site 0x098 (fields 2 .i32 0 0 [east]) [token .l 7 (lanes [3, 3]), token .r 7 (lanes [3, 4])]) = some ([4294967295, 0], 0xFFFF) := by decide +kernel
theorem test_vcne : laneRes 2 (.vcneI32 (fields 2 .i32 0 0 [east])) (site 0x099 (fields 2 .i32 0 0 [east]) [token .l 7 (lanes [3, 3]), token .r 7 (lanes [3, 4])]) = some ([0, 4294967295], 0xFFFF) := by decide +kernel
theorem test_vclt : laneRes 2 (.vcltI32 (fields 2 .i32 0 0 [east])) (site 0x09A (fields 2 .i32 0 0 [east]) [token .l 7 (lanes [4294967293, 4]), token .r 7 (lanes [3, 4])]) = some ([4294967295, 0], 0xFFFF) := by decide +kernel
theorem test_vcle : laneRes 2 (.vcleI32 (fields 2 .i32 0 0 [east])) (site 0x09B (fields 2 .i32 0 0 [east]) [token .l 7 (lanes [4294967293, 4]), token .r 7 (lanes [3, 4])]) = some ([4294967295, 4294967295], 0xFFFF) := by decide +kernel
theorem test_vcltu : laneRes 2 (.vcltuI32 (fields 2 .i32 0 0 [east])) (site 0x09C (fields 2 .i32 0 0 [east]) [token .l 7 (lanes [4294967293, 3]), token .r 7 (lanes [3, 4])]) = some ([0, 4294967295], 0xFFFF) := by decide +kernel
theorem test_vcleu : laneRes 2 (.vcleuI32 (fields 2 .i32 0 0 [east])) (site 0x09D (fields 2 .i32 0 0 [east]) [token .l 7 (lanes [4294967293, 4]), token .r 7 (lanes [3, 4])]) = some ([0, 4294967295], 0xFFFF) := by decide +kernel
theorem test_vfadd : laneRes 2 (.vfaddF32 (fields 2 .f32 0 0 [east])) (site 0x0C0 (fields 2 .f32 0 0 [east]) [token .l 7 (lanes [1065353216, 2139095040]), token .r 7 (lanes [1073741824, 4286578688])]) = some ([1077936128, 2143289344], 0xFFFF) := by decide +kernel
theorem test_vfsub : laneRes 2 (.vfsubF32 (fields 2 .f32 0 0 [east])) (site 0x0C1 (fields 2 .f32 0 0 [east]) [token .l 7 (lanes [1077936128, 1065353216]), token .r 7 (lanes [1065353216, 1065353216])]) = some ([1073741824, 0], 0xFFFF) := by decide +kernel
theorem test_vfmul : laneRes 2 (.vfmulF32 (fields 2 .f32 0 0 [east])) (site 0x0C2 (fields 2 .f32 0 0 [east]) [token .l 7 (lanes [1069547520, 2147483648]), token .r 7 (lanes [1073741824, 1073741824])]) = some ([1077936128, 2147483648], 0xFFFF) := by decide +kernel
theorem test_vfma : laneRes 1 (.vfmaF32 (fields 3 .f32 0 0 [east])) (site 0x0C3 (fields 3 .f32 0 0 [east]) [token .l 7 (lanes [1073741824]), token .r 7 (lanes [1077936128]), token .c 7 (lanes [1065353216])]) = some ([1088421888], 0xFFFF) := by decide +kernel
theorem test_vfdiv : laneRes 3 (.vfdivF32 (fields 2 .f32 0 0 [east])) (site 0x0C4 (fields 2 .f32 0 0 [east]) [token .l 7 (lanes [1065353216, 1065353216, 0]), token .r 7 (lanes [1073741824, 2147483648, 0])]) = some ([1056964608, 4286578688, 2143289344], 0xFFFF) := by decide +kernel
theorem test_vfrcp : laneRes 2 (.vfrcpF32 (fields 1 .f32 0 0 [east])) (site 0x0C8 (fields 1 .f32 0 0 [east]) [token .l 7 (lanes [1073741824, 2147483648])]) = some ([1056964608, 4286578688], 0xFFFF) := by decide +kernel
theorem test_vfrsq : laneRes 2 (.vfrsqF32 (fields 1 .f32 0 0 [east])) (site 0x0C9 (fields 1 .f32 0 0 [east]) [token .l 7 (lanes [1082130432, 4286578688])]) = some ([1056964608, 2143289344], 0xFFFF) := by decide +kernel
theorem test_vfsqrt : laneRes 2 (.vfsqrtF32 (fields 1 .f32 0 0 [east])) (site 0x0CA (fields 1 .f32 0 0 [east]) [token .l 7 (lanes [1082130432, 2147483648])]) = some ([1073741824, 2147483648], 0xFFFF) := by decide +kernel
theorem test_vfexp2 : laneRes 2 (.vfexp2F32 (fields 1 .f32 0 0 [east])) (site 0x0CB (fields 1 .f32 0 0 [east]) [token .l 7 (lanes [1077936128, 4286578688])]) = some ([1090519040, 0], 0xFFFF) := by decide +kernel
theorem test_vflog2 : laneRes 2 (.vflog2F32 (fields 1 .f32 0 0 [east])) (site 0x0CC (fields 1 .f32 0 0 [east]) [token .l 7 (lanes [1090519040, 0])]) = some ([1077936128, 4286578688], 0xFFFF) := by decide +kernel
theorem test_vfmin : laneRes 3 (.vfminF32 (fields 2 .f32 0 0 [east])) (site 0x0CD (fields 2 .f32 0 0 [east]) [token .l 7 (lanes [0, 1065353216, 1065353216]), token .r 7 (lanes [2147483648, 1073741824, 2143289344])]) = some ([2147483648, 1065353216, 2143289344], 0xFFFF) := by decide +kernel
theorem test_vfmax : laneRes 2 (.vfmaxF32 (fields 2 .f32 0 0 [east])) (site 0x0CE (fields 2 .f32 0 0 [east]) [token .l 7 (lanes [2147483648, 1065353216]), token .r 7 (lanes [0, 1073741824])]) = some ([0, 1073741824], 0xFFFF) := by decide +kernel
theorem test_vfceq : laneRes 2 (.vfceqF32 (fields 2 .f32 0 0 [east])) (site 0x0D0 (fields 2 .f32 0 0 [east]) [token .l 7 (lanes [0, 2143289344]), token .r 7 (lanes [2147483648, 2143289344])]) = some ([4294967295, 0], 0xFFFF) := by decide +kernel
theorem test_vfclt : laneRes 2 (.vfcltF32 (fields 2 .f32 0 0 [east])) (site 0x0D1 (fields 2 .f32 0 0 [east]) [token .l 7 (lanes [1065353216, 0]), token .r 7 (lanes [1073741824, 2147483648])]) = some ([4294967295, 0], 0xFFFF) := by decide +kernel
theorem test_vfcle : laneRes 2 (.vfcleF32 (fields 2 .f32 0 0 [east])) (site 0x0D2 (fields 2 .f32 0 0 [east]) [token .l 7 (lanes [1065353216, 0]), token .r 7 (lanes [1056964608, 2147483648])]) = some ([0, 4294967295], 0xFFFF) := by decide +kernel
theorem test_vfcun : laneRes 2 (.vfcunF32 (fields 2 .f32 0 0 [east])) (site 0x0D3 (fields 2 .f32 0 0 [east]) [token .l 7 (lanes [1065353216, 2143289344]), token .r 7 (lanes [1073741824, 1073741824])]) = some ([0, 4294967295], 0xFFFF) := by decide +kernel
theorem test_vcvt_f32_bf16 : laneRes 2 (.vcvtF32Bf16 (fields 1 .bf16 0 0 [east])) (site 0x100 (fields 1 .bf16 0 0 [east]) [token .l 7 (lanes [1073758080])]) = some ([1065353216, 1073741824], 0xFFFF) := by decide +kernel
theorem test_vcvt_bf16_f32 : laneRes 2 (.vcvtBf16F32 (fields 1 .f32 0 0 [east])) (site 0x101 (fields 1 .f32 0 0 [east]) [token .l 7 (lanes [1065353216, 1073741824])]) = some ([1073758080, 0], 0xFFFF) := by decide +kernel
theorem test_vcvtsr_bf16_f32 : laneRes 1 (.vcvtsrBf16F32 (fields 1 .f32 0 0 [east])) (site 0x102 (fields 1 .f32 0 0 [east]) [token .l 7 (lanes [1065353216, 1073741824])]) = some ([1073758080], 0xFFFF) := by decide +kernel
theorem test_vcvt_f32_f16 : laneRes 2 (.vcvtF32F16 (fields 1 .f16 0 0 [east])) (site 0x103 (fields 1 .f16 0 0 [east]) [token .l 7 (lanes [1073757184])]) = some ([1065353216, 1073741824], 0xFFFF) := by decide +kernel
theorem test_vcvt_f16_f32 : laneRes 1 (.vcvtF16F32 (fields 1 .f32 0 0 [east])) (site 0x104 (fields 1 .f32 0 0 [east]) [token .l 7 (lanes [1065353216, 1073741824])]) = some ([1073757184], 0xFFFF) := by decide +kernel
theorem test_vcvt_f32_e4m3 : laneRes 2 (.vcvtF32E4m3 (fields 1 .e4m3 0 0 [east])) (site 0x105 (fields 1 .e4m3 0 0 [east]) [token .l 7 (lanes [16440])]) = some ([1065353216, 1073741824], 0xFFFF) := by decide +kernel
theorem test_vcvt_e4m3_f32 : laneRes 1 (.vcvtE4m3F32 (fields 1 .f32 0 0 [east])) (site 0x106 (fields 1 .f32 0 0 [east]) [token .l 7 (lanes [1065353216, 1073741824])]) = some ([16440], 0xFFFF) := by decide +kernel
theorem test_vcvt_f32_e5m2 : laneRes 2 (.vcvtF32E5m2 (fields 1 .e5m2 0 0 [east])) (site 0x107 (fields 1 .e5m2 0 0 [east]) [token .l 7 (lanes [16444])]) = some ([1065353216, 1073741824], 0xFFFF) := by decide +kernel
theorem test_vcvt_e5m2_f32 : laneRes 1 (.vcvtE5m2F32 (fields 1 .f32 0 0 [east])) (site 0x108 (fields 1 .f32 0 0 [east]) [token .l 7 (lanes [1065353216, 1073741824])]) = some ([16444], 0xFFFF) := by decide +kernel
theorem test_vcvt_i32_f32 : laneRes 2 (.vcvtI32F32 (fields 1 .f32 0 0 [east])) (site 0x109 (fields 1 .f32 0 0 [east]) [token .l 7 (lanes [3217031168, 2143289344])]) = some ([4294967295, 0], 0xFFFF) := by decide +kernel
theorem test_vcvtn_i32_f32 : laneRes 2 (.vcvtnI32F32 (fields 1 .f32 0 0 [east])) (site 0x10A (fields 1 .f32 0 0 [east]) [token .l 7 (lanes [3217031168, 1075838976])]) = some ([4294967294, 2], 0xFFFF) := by decide +kernel
theorem test_vcvt_f32_i32 : laneRes 2 (.vcvtF32I32 (fields 1 .i32 0 0 [east])) (site 0x10B (fields 1 .i32 0 0 [east]) [token .l 7 (lanes [4294967295, 16777217])]) = some ([3212836864, 1266679808], 0xFFFF) := by decide +kernel
theorem test_vcvt_i8_i32 : laneRes 1 (.vcvtI8I32 (fields 1 .i32 0 0 [east])) (site 0x10C (fields 1 .i32 0 0 [east]) [token .l 7 (lanes [200, 4294967096, 3, 4294967295])]) = some ([4278419583], 0xFFFF) := by decide +kernel
theorem test_vqdec : laneRes 2 (.vqdec (fields 1 .q16n 0 0 [east])) (site 0x110 (fields 1 .q16n 0 0 [east]) [token .l 7 (lanes [210])]) = some ([3204841472, 1058406400], 0xFFFF) := by decide +kernel
theorem test_vqenc : laneRes 1 (.vqenc (fields 1 .f32 0 0 [east])) (site 0x111 (fields 1 .f32 0 0 [east]) [token .l 7 (lanes [3204841472, 1058406400])]) = some ([2004318162], 0xFFFF) := by decide +kernel
theorem test_vrsum_f32 : laneRes 3 (.vrsumF32 (fields 1 .f32 0 0 [east])) (site 0x118 (fields 1 .f32 0 0 [east]) [token .l 7 (lanes [1065353216, 1073741824])]) = some ([1077936128, 1077936128, 1077936128], 0xFFFF) := by decide +kernel
theorem test_vrmax_f32 : laneRes 2 (.vrmaxF32 (fields 1 .f32 0 0 [east])) (site 0x119 (fields 1 .f32 0 0 [east]) [token .l 7 (lanes [1065353216, 1073741824])]) = some ([1073741824, 1073741824], 0xFFFF) := by decide +kernel
theorem test_vrmin_f32 : laneRes 2 (.vrminF32 (fields 1 .f32 0 0 [east])) (site 0x11A (fields 1 .f32 0 0 [east]) [token .l 7 (lanes [1065353216, 3221225472])]) = some ([3221225472, 3221225472], 0xFFFF) := by decide +kernel
theorem test_vrsum_i32 : laneRes 2 (.vrsumI32 (fields 1 .i32 0 0 [east])) (site 0x11B (fields 1 .i32 0 0 [east]) [token .l 7 (lanes [5, 4294967289])]) = some ([4294967294, 4294967294], 0xFFFF) := by decide +kernel
theorem test_vperm : laneRes 3 (.vperm (fields 2 .bits 0 0 [east])) (site 0x120 (fields 2 .bits 0 0 [east]) [token .l 7 (lanes [10, 11, 12]), token .r 7 (lanes [2, 2147483648, 1])]) = some ([12, 0, 11], 0xFFFF) := by decide +kernel
theorem test_vperm_bytes : laneRes 1 (.vperm (fields 2 .bits 1 0 [east])) (site 0x120 (fields 2 .bits 1 0 [east]) [token .l 7 (lanes [67305985]), token .r 7 (lanes [66176])]) = some ([16909056], 0xFFFF) := by decide +kernel
theorem test_vrot : laneRes 1 (.vrot (fields 1 .bits 2 0 [east])) (site 0x121 (fields 1 .bits 2 0 [east]) [token .l 7 (lanes [10, 11, 12])]) = some ([12], 0xFFFF) := by decide +kernel
/-- R32: a lane is active where both operands' are. -/
def masked : State := site 0x080 (fields 2 .i32 0 0 [east]) [token .l 7 (.wide ⟨5, 5⟩), token .r 7 (.wide ⟨2, 3⟩)]
theorem test_vector_mask : ready 0x080 (fields 2 .i32 0 0 [east]) masked = true ∧ laneRes 1 (.vaddI32 (fields 2 .i32 0 0 [east])) masked = some ([7], 1) := by decide +kernel
/-- R228: keys out of order are exchanged, and the companions with them. -/
def vcxF : OpFields := fields 2 .i32 4 0 [east, east]
theorem test_vcx : sent (.vcx vcxF) (site 0x122 vcxF [token .l 7 (lanes [9, 4]), token .r 7 (lanes [1, 2])]) = some [(0, 7, lanes [4, 9]), (1, 7, lanes [2, 1])] := by decide +kernel
theorem test_vcx_alone : laneRes 2 (.vcx { vcxF with arityN := 1, dest1 := none }) (site 0x122 { vcxF with arityN := 1, dest1 := none } [token .l 7 (lanes [4, 9])]) = some ([4, 9], 0xFFFF) := by decide +kernel
/-- R214: a result leaves when its latency is over. -/
def emitting (n : Nat) : State := { go (execVaddI32 (fields 2 .i32 0 0 [east]) masked) with cycles := n }
theorem test_vector_emit : ((emitting 0).tile 0).vector.map (·.due) = [1] ∧
    seen (fun t => ((t.tile 0).vector.length, (beatsOut t).length)) (.vectorResultEmit 0) (emitting 1) = some (0, 1) ∧
    seen (fun t => ((t.tile 0).vector.length, (beatsOut t).length)) (.vectorResultEmit 0) (emitting 0) = some (1, 0) := by decide +kernel

/-! The memory unit (R161 to R170, R231 to R248) -/

/-- Slot 0 of tile 0, whose scratchpad has eight bytes at offset 64, and whose TLB holds the mapped page. -/
def scratchy (opc : Nat) (f : OpFields) (ts : List Token) : State := (site opc f ts).modTile 0 fun t =>
  { t with spk := 4, scratch := [(64, 0xF0), (65, 0xFF), (66, 2), (68, 3), (71, 0x80)], tlb := ((site opc f ts).cluster 0).tlb }
/-- An address in the scratchpad window, and one in the mapped page, at L. -/
def addr (off : Nat) : Token := token .l 7 (.narrow 32 (windowBase + off : Nat) .canonical)
def vaddr (a : Int) : Token := token .l 7 (.narrow 32 a .canonical)
/-- The reply that goes to the east once the access has been performed at its bank, and the eight bytes. -/
def atBank (i : Instr) (s : State) : Option (List Payload × List Nat) :=
  match exec i s with
  | .next t => seen (fun u => (tokensOut u, (Memory.readBytes (u.tile 0).scratch 64 8).map (·.toNat))) (.memoryResultArrival 0 0) { go (execMemoryResultArrival 0 0 t) with cycles := 1 }
  | _ => none
/-- The same with the FULL granules. -/
def atBankFull (i : Instr) (s : State) : Option (List Payload × List Nat × List Nat) :=
  match exec i s with
  | .next t => seen (fun u => (tokensOut u, (Memory.readBytes (u.tile 0).scratch 64 8).map (·.toNat), (u.tile 0).full)) (.memoryResultArrival 0 0) { go (execMemoryResultArrival 0 0 t) with cycles := 1 }
  | _ => none
theorem test_ldv : atBank (.ldv (fields 1 .i32 0 0 [eastNarrow])) (scratchy 0x140 (fields 1 .i32 0 0 [eastNarrow]) [addr 64]) =
    some ([lanes [0x0002FFF0, 0x80000003]], [240, 255, 2, 0, 3, 0, 0, 128]) := by decide +kernel
theorem test_ld8 : atBank (.ld8 (fields 1 .n32 0 0 [eastNarrow])) (scratchy 0x142 (fields 1 .n32 0 0 [eastNarrow]) [addr 64]) =
    some ([num (-16)], [240, 255, 2, 0, 3, 0, 0, 128]) := by decide +kernel
theorem test_ld16 : atBank (.ld16 (fields 1 .n32 0 0 [eastNarrow])) (scratchy 0x143 (fields 1 .n32 0 0 [eastNarrow]) [addr 64]) =
    some ([num (-16)], [240, 255, 2, 0, 3, 0, 0, 128]) := by decide +kernel
theorem test_ld32 : atBank (.ld32 (fields 1 .n32 0 0 [eastNarrow])) (scratchy 0x144 (fields 1 .n32 0 0 [eastNarrow]) [addr 64]) =
    some ([num 0x2FFF0], [240, 255, 2, 0, 3, 0, 0, 128]) := by decide +kernel
theorem test_ld64 : atBank (.ld64 (fields 1 .n64 0 0 [eastNarrow])) (scratchy 0x145 (fields 1 .n64 0 0 [eastNarrow]) [addr 64]) =
    some ([.narrow 32 (-9223372023969677328) .canonical], [240, 255, 2, 0, 3, 0, 0, 128]) := by decide +kernel
theorem test_stv : atBank (.stv (fields 2 .i32 0 0 [eastNarrow])) (scratchy 0x141 (fields 2 .i32 0 0 [eastNarrow]) [addr 64, token .r 7 (.wide ⟨0x11111111222222223333333344444444, 2⟩)]) =
    some ([.narrow 4 0 .canonical], [240, 255, 2, 0, 51, 51, 51, 51]) := by decide +kernel
theorem test_st8 : atBank (.st8 (fields 2 .n32 0 0 [eastNarrow])) (scratchy 0x146 (fields 2 .n32 0 0 [eastNarrow]) [addr 64, token .r 7 (num 0x1234)]) =
    some ([.narrow 4 0 .canonical], [52, 255, 2, 0, 3, 0, 0, 128]) := by decide +kernel
theorem test_st16 : atBank (.st16 (fields 2 .n32 0 0 [eastNarrow])) (scratchy 0x147 (fields 2 .n32 0 0 [eastNarrow]) [addr 64, token .r 7 (num (-2))]) =
    some ([.narrow 4 0 .canonical], [254, 255, 2, 0, 3, 0, 0, 128]) := by decide +kernel
theorem test_st32 : atBank (.st32 (fields 2 .n32 0 0 [eastNarrow])) (scratchy 0x148 (fields 2 .n32 0 0 [eastNarrow]) [addr 64, token .r 7 (num 0x1234)]) =
    some ([.narrow 4 0 .canonical], [52, 18, 0, 0, 3, 0, 0, 128]) := by decide +kernel
theorem test_st64 : atBank (.st64 (fields 2 .n32 0 0 [eastNarrow])) (scratchy 0x149 (fields 2 .n32 0 0 [eastNarrow]) [addr 64, token .r 7 (num (-2))]) =
    some ([.narrow 4 0 .canonical], [254, 255, 255, 255, 255, 255, 255, 255]) := by decide +kernel
theorem test_aadd_i32 : atBank (.aaddI32 (fields 2 .i32 0 0 [eastNarrow])) (scratchy 0x160 (fields 2 .i32 0 0 [eastNarrow]) [addr 64, token .r 7 (lanes [1, 2])]) =
    some ([lanes [0x0002FFF0, 0x80000003]], [241, 255, 2, 0, 5, 0, 0, 128]) := by decide +kernel
theorem test_aadd_f32 : atBank (.aaddF32 (fields 2 .i32 0 0 [eastNarrow])) (scratchy 0x161 (fields 2 .i32 0 0 [eastNarrow]) [addr 64, token .r 7 (lanes [1, 2])]) =
    some ([lanes [0x0002FFF0, 0x80000003]], [241, 255, 2, 0, 1, 0, 0, 128]) := by decide +kernel
theorem test_amin : atBank (.aminI32 (fields 2 .i32 0 0 [eastNarrow])) (scratchy 0x162 (fields 2 .i32 0 0 [eastNarrow]) [addr 64, token .r 7 (lanes [1, 2])]) =
    some ([lanes [0x0002FFF0, 0x80000003]], [1, 0, 0, 0, 3, 0, 0, 128]) := by decide +kernel
theorem test_amax : atBank (.amaxI32 (fields 2 .i32 0 0 [eastNarrow])) (scratchy 0x163 (fields 2 .i32 0 0 [eastNarrow]) [addr 64, token .r 7 (lanes [1, 2])]) =
    some ([lanes [0x0002FFF0, 0x80000003]], [240, 255, 2, 0, 2, 0, 0, 0]) := by decide +kernel
theorem test_aand : atBank (.aand (fields 2 .i32 0 0 [eastNarrow])) (scratchy 0x164 (fields 2 .i32 0 0 [eastNarrow]) [addr 64, token .r 7 (lanes [1, 2])]) =
    some ([lanes [0x0002FFF0, 0x80000003]], [0, 0, 0, 0, 2, 0, 0, 0]) := by decide +kernel
theorem test_aor : atBank (.aor (fields 2 .i32 0 0 [eastNarrow])) (scratchy 0x165 (fields 2 .i32 0 0 [eastNarrow]) [addr 64, token .r 7 (lanes [1, 2])]) =
    some ([lanes [0x0002FFF0, 0x80000003]], [241, 255, 2, 0, 3, 0, 0, 128]) := by decide +kernel
theorem test_axchg : atBank (.axchg (fields 2 .i32 0 0 [eastNarrow])) (scratchy 0x166 (fields 2 .i32 0 0 [eastNarrow]) [addr 64, token .r 7 (lanes [1, 2])]) =
    some ([lanes [0x0002FFF0, 0x80000003]], [1, 0, 0, 0, 2, 0, 0, 0]) := by decide +kernel
theorem test_acas : atBank (.acas (fields 3 .i32 0 0 [eastNarrow])) (scratchy 0x167 (fields 3 .i32 0 0 [eastNarrow]) [addr 64, token .r 7 (lanes [1, 2]), token .c 7 (lanes [0x2FFF0, 0])]) =
    some ([lanes [0x0002FFF0, 0x80000003]], [1, 0, 0, 0, 3, 0, 0, 128]) := by decide +kernel
theorem test_ldfe_c : atBankFull (.ldfeC (fields 1 .i32 0 0 [eastNarrow])) ((scratchy 0x150 (fields 1 .i32 0 0 [eastNarrow]) [addr 64]).modTile 0 fun t => { t with full := [4, 5, 6, 7, 8] }) =
    some ([lanes [0x0002FFF0, 0x80000003]], [240, 255, 2, 0, 3, 0, 0, 128], [8]) := by decide +kernel
theorem test_ldfe_k : atBankFull (.ldfeK (fields 1 .i32 0 0 [eastNarrow])) ((scratchy 0x151 (fields 1 .i32 0 0 [eastNarrow]) [addr 64]).modTile 0 fun t => { t with full := [4, 5, 6, 7, 8] }) =
    some ([lanes [0x0002FFF0, 0x80000003]], [240, 255, 2, 0, 3, 0, 0, 128], [4, 5, 6, 7, 8]) := by decide +kernel
theorem test_stf : atBankFull (.stf (fields 2 .i32 0 0 [eastNarrow])) ((scratchy 0x152 (fields 2 .i32 0 0 [eastNarrow]) [addr 64, token .r 7 (.wide ⟨0x11111111222222223333333344444444, 2⟩)]).modTile 0 fun t => { t with full := [8] }) =
    some ([.narrow 4 0 .canonical], [240, 255, 2, 0, 51, 51, 51, 51], [4, 5, 6, 7, 8]) := by decide +kernel

/-- What an address operator does with an address: records, walks, and phases of accesses. -/
def issued (i : Instr) (s : State) : Option (List (BitVec 8) × Nat × List AccessPhase) :=
  seen (fun t => (t.records.map (·.fault), (t.tile 0).walks.length, (t.tile 0).accesses.map (·.phase))) i s
def ldvF : OpFields := fields 1 .i32 0 0 [east]
theorem test_issue_meets : ready 0x140 ldvF (scratchy 0x140 ldvF [addr 64]) = true ∧ ready 0x140 ldvF (scratchy 0x140 ldvF [vaddr 0x1000]) = true ∧
    (match (scratchy 0x140 ldvF [vaddr 0x1000]).best ((site 0x140 ldvF []).site 0x140 ldvF) with
      | some m => !(scratchy 0x140 ldvF [vaddr 0x1000]).needsWalk ((site 0x140 ldvF []).site 0x140 ldvF) m && !suppressed 0x140 m | none => false) = true ∧
    (match (scratchy 0x140 ldvF []).xlateTile 0 0 0x1000 true false with | .ok x => x.pa = 2 ^ 36 + 0x1000 && !x.device | .error _ => false) = true ∧
    (match (scratchy 0x140 ldvF []).xlateTile 0 0 0x1000 false true with | .ok _ => true | .error _ => false) = true := by decide +kernel
/-- R233, R234: faults of the address; a walk; a request. -/
theorem test_issue_faults : issued (.ldv ldvF) (scratchy 0x140 ldvF [vaddr (-64)]) = some ([0x14], 0, []) ∧
    issued (.ldfeC ldvF) (scratchy 0x150 ldvF [vaddr 0x1000]) = some ([0x1C], 0, []) ∧
    issued (.ldv ldvF) (scratchy 0x140 ldvF [vaddr 0x1004]) = some ([0x1B], 0, []) := by decide +kernel
theorem test_issue :
    issued (.ldv ldvF) (site 0x140 ldvF [vaddr 0x1000]) = some ([], 1, []) ∧
    issued (.ldv ldvF) (scratchy 0x140 ldvF [vaddr 0x1000]) = some ([], 0, [.sent]) ∧
    issued (.ldv ldvF) ((scratchy 0x140 ldvF [vaddr 0x1000]).modColour 0 fun c => { c with poisoned := true }) = some ([0x28], 0, []) := by decide +kernel
/-- R236: a false guard suppresses the store; with FLAGS.ORDER an ORDER token goes out. -/
def quietStore (order : Bool) : OpFields := { fields 2 .n32 0 0 [eastNarrow] with arityG := true, flags := ⟨false, order, 0, false⟩ }
theorem test_suppressed : seen tokensOut (.st8 (quietStore true)) (scratchy 0x146 (quietStore true) [addr 64, token .r 7 (num 1), token .g 7 (.guard false)]) = some [.order] ∧
    issued (.st8 (quietStore false)) (scratchy 0x146 (quietStore false) [addr 64, token .r 7 (num 1), token .g 7 (.guard false)]) = some ([], 0, []) := by decide +kernel
/-- R165: a load and a write-through store ask the home slice. -/
theorem test_goes_home : seen (fun t => (requestsOut t).map fun r => (r.pa, r.answer.isSome)) (.ldv ldvF) (scratchy 0x140 ldvF [vaddr 0x1040]) = some [(2 ^ 36 + 0x1040, true)] ∧
    seen (fun t => ((requestsOut t).map fun r => r.kind, (t.tile 0).accesses.map (·.phase))) (.st8 (fields 2 .n32 0x90 0 []))
      (scratchy 0x146 (fields 2 .n32 0x90 0 []) [vaddr 0x1040, token .r 7 (num 5)]) = some ([.write [(0x40, 5)] false], [.answered]) ∧
    seen (fun t => (requestsOut t).map fun r => r.answer) (.aaddI32 (fields 2 .i32 0 0 [])) (scratchy 0x160 (fields 2 .i32 0 0 []) [vaddr 0x1040, token .r 7 (lanes [1])]) = some [some 0] := by decide +kernel
/-- R166: a live copy in the stash answers a load and takes a store at SELF scope. -/
def stashed (opc : Nat) (f : OpFields) (ts : List Token) : State := (scratchy opc f ts).modTile 0 fun t =>
  { t with stash := [⟨2 ^ 36 + 0x1000, 0, 0, 0, 0, 100, 0, 0, 7, 0⟩] }
theorem test_stash : seen (fun t => ((requestsOut t).length, (t.tile 0).accesses.map fun a => a.data.data)) (.ldv ldvF) (stashed 0x140 ldvF [vaddr 0x1000]) = some (0, [7]) ∧
    seen (fun t => ((requestsOut t).length, (t.tile 0).stash.map (·.data))) (.st8 (fields 2 .n32 0 0 [])) (stashed 0x146 (fields 2 .n32 0 0 []) [vaddr 0x1000, token .r 7 (num 5)]) =
      some (0, [5]) := by decide +kernel
/-- R247: a fence at TILE is answered at once; at DIE it writes back, and waits for the slices that the tile wrote to. -/
def fenceF (sub : BitVec 8) : OpFields := fields 1 .ord sub 0 [eastNarrow]
def fencing (sub : BitVec 8) (touched : BitVec 68) : State := (scratchy 0x170 (fenceF sub) [token .l 7 .order]).modTile 0 fun t => { t with touched }
theorem test_fence_s : ready 0x170 (fenceF 0x88) (fencing 0x88 0) = true ∧
    seen (fun t => ((t.tile 0).accesses.map (·.phase), t.releases.length)) (.fenceS (fenceF 0x88)) (fencing 0x88 1) = some ([.answered], 0) ∧
    seen (fun t => ((t.tile 0).accesses.map (·.phase), t.releases.length)) (.fenceS (fenceF 0x98)) (fencing 0x98 0) = some ([.answered], 0) ∧
    seen (fun t => ((t.tile 0).accesses.map (·.phase), t.releases.length, (t.tile 0).touched)) (.fenceS (fenceF 0x98)) (fencing 0x98 1) = some ([.fence], 1, 0) := by decide +kernel
/-- R242: a group load asks the cluster's agent. -/
def ldgF : OpFields := fields 1 .i32 0 0x100 [eastNarrow]
def asking2 : State := (scratchy 0x158 ldgF [vaddr 0x400]).modTile 0 fun t => { t with regs := { t.regs with s := t.regs.s.set 0 0x3000 } }
theorem test_ldg : seen (fun t => ((t.tile 0).accesses.map (·.phase), ((t.cluster 0).flits.filterMap fun f => match f.cargo with | .ask a => some a | _ => none).map fun a => (a.key.desc, a.key.line, a.key.disp))) (.ldg ldgF) asking2 =
    some ([.group], [(2 ^ 36 + 0x3000, 0x400, 0x100)]) := by decide +kernel

/-- Handle operators on the object of the heap test: one granule at 0x10000. -/
def handled (opc : Nat) (f : OpFields) (e : ObjectEntry) (ts : List Token) : State := (scratchy opc f ts).modDie 0 fun d =>
  { d with otEn := true, otBase := 2, objects := [(1, e)] }
def hL (w : Word) : Token := token .l 7 (.narrow 32 w.toInt .canonical)
def ldhF : OpFields := fields 2 .i32 0 0 [east]
theorem test_ldh : seen (fun t => ((requestsOut t).map (·.pa), t.records.length)) (.ldhV ldhF) (handled 0x159 ldhF (live 1 0) [hL strong1, token .r 7 (num 64)]) = some ([2 ^ 36 + 0x10040], 0) ∧
    seen (fun t => t.records.map (·.fault)) (.ldhV ldhF) (handled 0x159 ldhF (live 1 0) [hL strong1, token .r 7 (num 0x4000)]) = some [0x1F] := by decide +kernel
theorem test_ldh_faults : seen (fun t => t.records.map (·.fault)) (.ldhV ldhF) (handled 0x159 ldhF (live 1 0) [hL strong1, token .r 7 (num 4)]) = some [0x1B] ∧
    seen (fun t => t.records.map (·.fault)) (.ldhV ldhF) (handled 0x159 ldhF (live 1 0) [hL weak1, token .r 7 (num 0)]) = some [0x1D] ∧
    seen (fun t => t.records.map (·.fault)) (.ldhV ldhF) (handled 0x159 ldhF { live 1 0 with gen := 1 } [hL strong1, token .r 7 (num 0)]) = some [0x1E] := by decide +kernel
def sthF : OpFields := fields 3 .i32 0x90 0 [eastNarrow]
theorem test_sth : seen (fun t => ((requestsOut t).map (·.pa), t.records.length)) (.sthV sthF)
    (handled 0x15A sthF (live 1 0) [hL strong1, token .r 7 (lanes [1]), token .c 7 (num 64)]) = some ([2 ^ 36 + 0x10040], 0) := by decide +kernel
/-- R245: the object is pinned while its data is read; one that is gone is answered at once. -/
theorem test_ldw : seen (fun t => ((requestsOut t).map (·.pa), (t.object 0 1).pin)) (.ldwV ldhF) (handled 0x15B ldhF (live 1 1) [hL weak1, token .r 7 (num 64)]) = some ([2 ^ 36 + 0x10040], 1) ∧
    seen (fun t => (t.tile 0).accesses.map fun a => (a.phase, a.ok)) (.ldwV ldhF) (handled 0x15B ldhF { live 1 1 with gen := 1 } [hL weak1, token .r 7 (num 64)]) =
      some [(.answered, false)] := by decide +kernel
def hupF : OpFields := fields 1 .n64 0 0 [eastNarrow, eastNarrow]
theorem test_hup : seen (fun t => ((t.tile 0).accesses.map fun a => (a.value, a.ok), (t.object 0 1).strong)) (.hup hupF) (handled 0x168 hupF (live 1 1) [hL weak1]) =
      some ([(strong1.toInt, true)], 2) ∧
    seen (fun t => t.records.map (·.fault)) (.hup hupF) (handled 0x168 hupF (live 65535 1) [hL weak1]) = some [0x20] := by decide +kernel
theorem test_hrel : seen (fun t => ((t.object 0 1).strong, (t.object 0 1).state)) (.hrel { hupF with dest1 := none }) (handled 0x169 { hupF with dest1 := none } (live 1 0) [hL strong1]) =
      some (0, .free) ∧
    seen (fun t => t.records.map (·.fault)) (.hrel { hupF with dest1 := none }) (handled 0x169 { hupF with dest1 := none } (live 1 0) [hL weak1]) = some [0x20] := by decide +kernel

/-- Accesses in each phase go on (R237, R248), and walks end (R235). -/
def phased (p : AccessPhase) : State := (go (execLdv ldvF (scratchy 0x140 ldvF [vaddr 0x1000]))).modTile 0 fun t =>
  { t with accesses := t.accesses.map fun a => { a with phase := p } }
theorem test_access_ends : seen (fun t => ((t.tile 0).accesses.length, (tokensOut t).length)) (.memoryResultArrival 0 0) (phased .answered) = some (0, 1) ∧
    seen (fun t => ((t.tile 0).accesses.length, t.records.map (·.fault), (t.tile 1).reserved.length)) (.memoryResultArrival 0 0) (phased (.faulted 0x15)) = some (0, [0x15], 0) ∧
    seen (fun t => (requestsOut t).length) (.memoryResultArrival 0 0) (phased .reissue) = some 2 := by decide +kernel
theorem test_walk_complete : seen (fun t => ((t.tile 0).walks.length, (t.tile 0).store.map fun e => e.2.state)) (.walkComplete 0 0)
      (go (execLdv ldvF (site 0x140 ldvF [vaddr 0x1000]))) = some (0, [.wait]) ∧
    seen (fun t => ((t.tile 0).store.map (fun e => e.2.state), ((t.cluster 0).flits.filter fun f => match f.cargo with | .fault _ => true | _ => false).length)) (.walkComplete 0 0)
      (go (execLdv ldvF (site 0x140 ldvF [vaddr (2 ^ 37)]))) = some ([.page 0 (2 ^ 23)], 1) := by decide +kernel
/-- R170: a parked access waits for its granules, ends by age, or is refused and resent. -/
def parkedOne (age : Nat) : FeWait := ⟨0, 0, 64, .consume, ⟨0, 0⟩, false, ⟨0, 5, 0, 0, 0, 7⟩, age, 16⟩
theorem test_fe_timeout : seen (fun t => ((t.tile 0).parked.length, t.records.map (·.status))) (.feTimeout 0 0)
      (((scratchy 2 one []).modTile 0 fun t => { t with parked := [parkedOne 100] }).modColour 0 fun c => { c with age := 100 }) = some (0, [3]) ∧
    seen (fun t => (t.tile 0).parked.length) (.feTimeout 0 0)
      (((scratchy 2 one []).modTile 0 fun t => { t with parked := [parkedOne 99] }).modColour 0 fun c => { c with age := 100 }) = some 1 := by decide +kernel
theorem test_fe_resend : seen (fun t => ((t.tile 0).refused.length, (t.tile 0).parked.length)) (.feResend 0 0)
      ({ (scratchy 2 one []).modTile 0 fun t => { t with refused := [parkedOne 0] } with cycles := 16 }) = some (0, 1) ∧
    ((((((scratchy 2 one []).modTile 0 fun t => { t with parked := List.replicate 16 (parkedOne 0) }).feArrive 0 (parkedOne 0)).tile 0).refused).map (·.resendAt)) = [16] := by decide +kernel

/-! The cell array, attention, KV state (R252 to R270) -/

/-- Bytes as a vector register. -/
def vreg (bs : List Nat) : BitVec 512 := BitVec.ofNat 512 (bytesNat (bs.map (BitVec.ofNat 8)))
/-- A site whose tile has scratchpad, vector registers 0 to 3 and accumulators as given. -/
def celled (opc : Nat) (f : OpFields) (vs : List (BitVec 512)) (acc : Map Lane) (ts : List Token) : State := (scratchy opc f ts).modTile 0 fun t =>
  { t with regs := { t.regs with v := vs.zipIdx.foldl (fun v x => v.setIfInBounds x.2 x.1) t.regs.v, acc := acc } }
/-- An element of an accumulator after a step, and what goes east. -/
def cellRes (n i j : Nat) (x : Instr) (s : State) : Option (Nat × List (Nat × Nat × Payload)) :=
  seen (fun t => (((t.tile 0).regs.cell n i j).toNat, inUnits t)) x s
/-- A into register 0, B into register 2, accumulator 1 zeroed first. -/
def mmaF : OpFields := fields 1 .f32 0 (2 * 64 + 2 ^ 21 + 2 ^ 22) [east]
def go1 : List Token := [token .l 7 (lanes [5])]
def went : List (Nat × Nat × Payload) := [(0, 7, lanes [5])]
def ones (b : Nat) : BitVec 512 := vreg (List.replicate 64 b)
def bfOnes : BitVec 512 := vreg ((List.replicate 32 [0x80, 0x3F]).flatten)
theorem test_mma_e4m3 : cellRes 1 0 15 (.mmaE4m3 mmaF) (celled 0x180 mmaF [vreg (List.replicate 4 0x38), 0, ones 0x38] [] go1) = some (0x40800000, went) := by decide +kernel
theorem test_mma_e5m2 : cellRes 1 0 15 (.mmaE5m2 mmaF) (celled 0x181 mmaF [ones 0x3C, 0, ones 0x3C] [] go1) = some (0x42800000, went) := by decide +kernel
theorem test_mma_e4e5 : cellRes 1 0 0 (.mmaE4e5 mmaF) (celled 0x182 mmaF [ones 0x38, 0, ones 0x3C] [] go1) = some (0x42800000, went) := by decide +kernel
theorem test_mma_bf16 : cellRes 1 0 0 (.mmaBf16 mmaF) (celled 0x183 mmaF [bfOnes, bfOnes, bfOnes, bfOnes] [] go1) = some (0x42800000, went) := by decide +kernel
theorem test_mma_i8 : cellRes 1 0 0 (.mmaI8 { mmaF with imm := 2 * 64 + 2 ^ 22 }) (celled 0x184 { mmaF with imm := 2 * 64 + 2 ^ 22 } [ones 0xFF, 0, ones 2] [(256, 0x3F800000)] go1) =
    some (0xC2FE0000, went) := by decide +kernel
/-- R92's worked block: code 13 against 2.0, code 2 against 1.0, code 7 elsewhere; and its `scalc`. -/
theorem test_mma_q16n : cellRes 1 0 0 (.mmaQ16n mmaF) (celled 0x185 mmaF [vreg (0x2D :: List.replicate 31 0x77), 0, vreg [0x40, 0x38]] [] go1) = some (0x3F260000, went) := by decide +kernel
def scalcF : OpFields := fields 2 .i32 0 9 [east]
theorem test_scalc : cellRes 2 0 0 (.scalc scalcF) (celled 0x188 scalcF [] [(256, 0x3F260000), (512, 0x3F800000)] [token .l 7 (lanes [0x3F000000]), token .r 7 (lanes [95])]) =
    some (0x3F8F9000, [(0, 7, lanes [0x3F000000])]) := by decide +kernel
/-- R256: a pair that breaks its rules, and an extent without scratchpad. -/
def regionF : OpFields := { mmaF with imm := 2 * 64 + 2 ^ 21 + 2 ^ 22 + 2 ^ 16 }
def regional (lo : Word) : State := (celled 0x180 regionF [0, 0, ones 0x38] [] go1).modTile 0 fun t => { t with regs := { t.regs with s := (t.regs.s.set 0 lo).set 1 64 } }
theorem test_mma_faults : seen (fun t => t.records.map (·.fault)) (.mmaE4m3 regionF) (regional 1) = some [0x21] ∧
    seen (fun t => t.records.map (·.fault)) (.mmaE4m3 regionF) (regional 0x4000) = some [0x18] ∧
    cellRes 1 0 0 (.mmaE4m3 regionF) (regional 0) = some (0, went) := by decide +kernel
theorem test_accz : cellRes 1 0 0 (.accz (fields 1 .i32 0 1 [east])) (celled 0x189 (fields 1 .i32 0 1 [east]) [] [(256, 9), (512, 8)] go1) = some (0, went) := by decide +kernel
theorem test_accwr : cellRes 1 3 0 (.accwr (fields 1 .i32 0 0x31 [east])) (celled 0x18B (fields 1 .i32 0 0x31 [east]) [] [] go1) = some (5, went) := by decide +kernel
theorem test_accrd : cellRes 1 3 0 (.accrd (fields 1 .i32 0 0x31 [east])) (celled 0x18A (fields 1 .i32 0 0x31 [east]) [] [(256 + 48, 9)] go1) = some (9, [(0, 7, lanes [9])]) := by decide +kernel
/-- A circular buffer at offset 0: entries of 1,024 bytes, two of them, and its pair in registers 0 and 1. -/
def bufferF : OpFields := fields 1 .i32 0 (1 + 2 * 256) [east]
def buffered : State := (celled 0x18A bufferF [] [(256, 9)] go1).modTile 0 fun t => { t with scratch := [(9, 1), (12, 64)] }
theorem test_accrd_buffer : (match buffered.bufferCheck (buffered.site 0x18A bufferF) 0 ((buffered.tile 0).regs.pair 0) with | .ok h => h = 0 && (buffered.tile 0).bufferEntry h = (1024, 16) | _ => false) = true ∧
    seen (fun t => (t.tile 0).array.map fun a => (a.prod, a.rows.head?)) (.accrd bufferF) buffered = some (some (some 0, some (16, 9))) := by decide +kernel
def ending : State := { go (execAccrd bufferF buffered) with cycles := 16 }
theorem test_array_end : seen (fun t => ((t.tile 0).array.isNone, (Memory.readBytes (t.tile 0).scratch 0 1).map (·.toNat), (Memory.readBytes (t.tile 0).scratch 16 1).map (·.toNat), (tokensOut t).length))
    (.arrayFiringEnd 0) ending = some (true, [1], [9], 1) := by decide +kernel
def sortF : OpFields := fields 1 .i32 0 0 [east, east]
def sorted (xs is : List Nat) : List (Nat × Nat × Payload) := [(0, 7, .wide ⟨BitVec.ofNat 512 (xs.foldr (fun x a => x + 2 ^ 32 * a) 0), 7⟩), (1, 7, .wide ⟨BitVec.ofNat 512 (is.foldr (fun x a => x + 2 ^ 32 * a) 0), 7⟩)]
theorem test_xsort : sent (.xsort sortF) (site 0x190 sortF [token .l 7 (.wide ⟨3 + 2 ^ 32 * 0xFFFFFFFF + 2 ^ 64 * 3, 7⟩)]) = some (sorted [0xFFFFFFFF, 3, 3] [1, 0, 2]) := by decide +kernel

/-- KV state of one tile: configuration in register 0 (T = 1, table at 0x400), sequence 0 with its slots at 0x800 and one position, whose scales are 1.0. -/
def kv (opc : Nat) (f : OpFields) (ts : List Token) : State := (scratchy opc f ts).modTile 0 fun t =>
  { t with
    regs := { t.regs with s := t.regs.s.set 0 0x10400 }
    scratch := Memory.writePairs [] 0 (pairsAt 0x400 (natBytes 16 (0x800 + 2 ^ 16 * 4 + 2 ^ 32)) ++ pairsAt 0x410 (natBytes 16 (0x3F800000 + 2 ^ 32 * 0x3F800000 + 2 ^ 80 * 3)) ++
      [(0x800, 0x38), (0x880, 0x40)]) }
def scanF : OpFields := fields 3 .i32 0 0 [east]
def scanTokens (seq : Nat) : List Token := [token .l 7 (lanes [0x38]), token .r 7 (lanes []), token .c 7 (lanes [0, 0, 1, seq, 0x3F800000])]
def tripleOf (m l o : Nat) : Triple := ⟨m, l, o :: List.replicate 127 0⟩
/-- R269: one key with the score 1.0, whose first value element is 2.0. -/
theorem test_ascan : (sent (.ascan scanF) (kv 0x198 scanF (scanTokens 0))).map (fun xs => xs.map fun x => x.2.2) =
      some ((tripleOf 0x3F800000 0x3F800000 0x40000000).group.map Payload.wide) := by decide +kernel
theorem test_ascan_faults : seen (fun t => t.records.map (·.fault)) (.ascan scanF) (kv 0x198 scanF (scanTokens 64)) = some [0x22] ∧
    seen (fun t => t.records.map (·.fault)) (.ascan scanF) ((kv 0x198 scanF (scanTokens 0)).modTile 0 fun t => { t with spk := 0 }) = some [0x18] := by decide +kernel
def nine (p : Port) (x : Triple) : List Token := x.group.map fun w => token p 7 (.wide w)
def aredF : OpFields := fields 2 .f32 0 0 [east]
theorem test_ared : (sent (.ared aredF) (site 0x199 aredF (nine .l (tripleOf 0x3F800000 0x3F800000 0x40000000) ++ nine .r (tripleOf 0x3F800000 0x3F800000 0x40000000)))).map
    (fun xs => (xs.length, xs.head?.map fun x => x.2.2, (xs[1]?).map fun x => x.2.2)) =
      some (9, some (lanes [0x3F800000, 0x40000000]), some (lanes [0x40800000])) := by decide +kernel
theorem test_anorm : (sent (.anorm { aredF with arityN := 1 }) (site 0x19A { aredF with arityN := 1 } (nine .l (tripleOf 0x3F800000 0x40000000 0x40000000)))).map
    (fun xs => (xs.map (fun x => x.2.1), xs.head?.map fun x => x.2.2)) =
      some ((List.range 8).map fun c => 7 + 2 ^ 16 * c, some (lanes [0x3F800000])) := by decide +kernel
def kvF (n : BitVec 2) : OpFields := fields n .n64 0 0 [eastNarrow]
def word (w : Int) : Token := token .l 7 (.narrow 32 w .canonical)
/-- R265: the position 1, part 0, with the scale 1.0: its bytes and its header. -/
theorem test_kvapp : ready 0x1A0 (kvF 2) (kv 0x1A0 (kvF 2) [word (1 + 2 ^ 32 * 0x3F800000), token .r 7 (lanes [0x40])]) = true ∧
    seen (fun t => ((Memory.readBytes (t.tile 0).scratch 0x900 1).map (·.toNat), (t.tile 0).accesses.map (·.phase))) (.kvapp (kvF 2))
      (kv 0x1A0 (kvF 2) [word (1 + 2 ^ 32 * 0x3F800000), token .r 7 (lanes [0x40])]) = some ([0x40], [.answered]) := by decide +kernel
theorem test_kvapp_faults : seen (fun t => t.records.map (·.fault)) (.kvapp (kvF 2)) (kv 0x1A0 (kvF 2) [word (4 + 2 ^ 32 * 0x3F800000), token .r 7 (lanes [0x40])]) = some [0x24] ∧
    seen (fun t => t.records.map (·.fault)) (.kvapp (kvF 2)) ((kv 0x1A0 (kvF 2) [word 1, token .r 7 (lanes [0x40])]).modTile 0 fun t =>
      { t with regs := { t.regs with s := t.regs.s.set 0 0x20400 } }) = some [0x23] := by decide +kernel
/-- The answer of a KV operator, and LEN and ND after it. -/
def kvRes (i : Instr) (s : State) : Option (List Int × Nat × Nat) :=
  seen (fun t => ((t.tile 0).accesses.map (·.value), ((t.tile 0).kvSeq 0x400).len, ((t.tile 0).kvSeq 0x400).nd)) i s
theorem test_kvseq_read : kvRes (.kvseqRead (kvF 1)) (kv 0x1A1 (kvF 1) [word 0]) = some ([1], 1, 0) := by decide +kernel
theorem test_kvseq_open : kvRes (.kvseqOpen (kvF 1)) (kv 0x1A1 (kvF 1) [word (2 ^ 62 + 2 ^ 40 * 0x800 + 2 ^ 32 * 8)]) = some ([0], 0, 0) := by decide +kernel
theorem test_kvseq_advance : kvRes (.kvseqAdvance (kvF 1)) (kv 0x1A1 (kvF 1) [word (-(2 ^ 63) + 2)]) = some ([3], 3, 0) ∧
    seen (fun t => t.records.map (·.fault)) (.kvseqAdvance (kvF 1)) (kv 0x1A1 (kvF 1) [word (-(2 ^ 63) + 4)]) = some [0x24] := by decide +kernel
theorem test_kvseq_draft : kvRes (.kvseqDraft (kvF 1)) (kv 0x1A1 (kvF 1) [word (-(2 ^ 62) + 2)]) = some ([1 + 2 ^ 33], 1, 2) := by decide +kernel
theorem test_kvtrim : kvRes (.kvtrim (kvF 1)) (kv 0x1A2 (kvF 1) [word (2 ^ 54)]) = some ([0], 0, 0) ∧
    seen (fun t => t.records.map (·.fault)) (.kvtrim (kvF 1)) (kv 0x1A2 (kvF 1) [word 1]) = some [0x22] := by decide +kernel

/-! Tokens, ages, streams, exits (R36 to R57, R131, R146, R249, R250, R290, R315) -/

/-- A token on its way to slot 0 of tile 1, which holds `pass` of n32. -/
def flying (p : Payload) : State := ((site 2 one []).modTile 1 fun t =>
  { t.modSlot 0 (fun x => { x with word := wordOf 2 one, ctx := some 5 }) with reserved := [⟨0, 5, 0, 0⟩] }).modCluster 0 fun k =>
  { k with flits := [⟨1, 3, 1, 4, true, 0, 0, 32, false, .token ⟨0, 0, 0⟩ 0 9 0 (token .l 7 p)⟩], promo := 32 }
theorem test_token_arrival : seen (fun t => ((t.cluster 0).flits.length, (t.tile 1).reserved.length, (t.tile 1).store.map fun e => e.2.token.payload)) (.tokenArrival 0 0) (flying (num 3)) =
      some (0, 0, [num 3]) ∧
    seen (fun t => ((t.tile 1).store.length, t.records.map (·.fault), credits t)) (.tokenArrival 0 0) (flying (lanes [1])) = some (0, [1], 1) := by decide +kernel
theorem test_token_meets : (flying (num 3)).accepted 1 0 (token .l 7 (num 3)) = true ∧ (flying (num 3)).accepted 1 0 (token .l 7 (lanes [1])) = false ∧
    ((flying (num 3)).tile 1).freeEntry = some 0 ∧ ((flying (num 3)).meshGrant 0 1 4 true).map (·.1) = some 0 ∧ (flying (num 3)).scanning 0 = false ∧ (flying (num 3)).snapshotOf 0 5 = none := by decide +kernel
theorem test_credit_return : seen (fun t => ((t.cluster 0).credits.length, (Map.get? (t.cluster 0).ports 0).map (·.inFlight))) (.creditReturn 0 0)
    ((launched .running 0 0).modCluster 0 fun k => { k with credits := [(0, 0)], ports := [(0, ⟨0, 5, [], [(0, 2)]⟩)] }) = some (0, some [(0, 2)]) ∧
    (Map.get? ({ (State.reset.cluster 0) with returned := [(0, 0)], ports := [(0, ⟨0, 5, [], [(0, 2)]⟩)] }.creditsTaken).ports 0).map (·.inFlight) = some [(0, 1)] := by decide +kernel
theorem test_flit_promotion : seen (fun t => (t.cluster 0).flits.map (·.promoted)) (.flitPromotion 0 0) (flying (num 3)) = some [true] ∧
    seen (fun t => (t.cluster 0).flits.map (·.promoted)) (.flitPromotion 0 0) ((flying (num 3)).modCluster 0 fun k => { k with promo := 33 }) = some [false] := by decide +kernel
theorem test_stall_count : (site 4 two (lrc [3])).stallCause 0 0 = some 5 ∧ (site 2 one (lrc [3])).stallCause 0 0 = some 4 ∧
    seen (fun t => (((t.tile 0).slot 0).waitOperand, ((t.tile 0).slot 0).waitPlane)) (.stallCount 0 0) (site 4 two (lrc [3])) = some (1, 0) ∧
    seen (fun t => ((t.tile 0).slot 0).waitPlane) (.stallCount 0 0) ((site 4 two (lrc [3])).modTile 0 fun t => { t with plane := 1 }) = some 1 := by decide +kernel
/-- An operand as old as its colour's limit, under POLICY PURGE and SPILL. -/
def aged (spill : Bool) : State := ((site 4 two [{ token .l 7 (num 3) with credit := none }]).modColour 0 fun c => { c with age := 64, spill := spill, spillBase := some 0x100000 }).modTile 0 fun t =>
  { t with store := t.store.map fun e => (e.1, { e.2 with age := 64 }) }
theorem test_stall_age : seen (fun t => ((t.tile 0).store.length, t.records.map fun r => (r.kind, r.status))) (.stallAgeExpiry 0) (aged false) = some (0, [(2, 1)]) ∧
    seen (fun t => ((t.tile 0).store.map (fun e => e.2.spilling), t.records.length)) (.stallAgeExpiry 0) (aged true) = some ([true], 0) := by decide +kernel
def spilled : State := go (execSpillAck 0 0 (go (execStallAgeExpiry 0 (aged true))))
/-- R55: the record's tag and payload stand in the frame, and come back from there. -/
theorem test_spill_ack : (spilled.tile 0).store = [] ∧ (spilled.tile 0).spills.length = 1 := by decide +kernel
theorem test_spill_readback : seen (fun t => ((t.tile 0).spills.length, (t.tile 0).store.map fun e => e.2.token.payload.value)) (.spillReadback 0 0)
    (spilled.modTile 0 fun t => { t with spills := t.spills.map fun x => { x with reading := true } }) = some (0, [3]) := by decide +kernel

/-- A stream of four WIDE elements at 0x1000, whose first two bytes are 5 and 0. -/
def streaming (b : Binding) : State := (put 0x1000 [5] (launched .running 0 0)).modCluster 0 fun k => { k with bindings := [b] }
def live0 (n : Nat) (xs : List Token) : Binding := { binding false false with active := true, nextRead := n, ready := xs }
theorem test_binding_activate : seen (fun t => (t.cluster 0).bindings.map (·.active)) (.bindingActivate 0 0) (streaming (binding false false)) = some [true] ∧
    (streaming (binding false false)).bindingDone 0 7 = false := by decide +kernel
theorem test_stream_read : seen (fun t => (t.cluster 0).bindings.map fun b => (b.nextRead, b.ready.map (·.payload))) (.streamElementRead 0 0) (streaming (live0 0 [])) = some [(1, [lanes [5]])] ∧
    seen (fun t => (t.cluster 0).bindings.map fun b => (b.nextRead, b.ready.map (·.payload))) (.streamElementRead 0 0) (streaming (live0 4 [])) = some [(5, [.eos 0])] := by decide +kernel
/-- The manual's example of R89: 100 stored as 0x00588000 for an n8 node, and the refusal of an invalid code. -/
def n8Stream (top : Byte) : State := ((put 0x1000 [0x00, 0x80, 0x58, top] (launched .running 0 0)).modCluster 0 fun k =>
  { k with bindings := [{ live0 0 [] with elem := 1 }], launches := [(5, { launchOf .running with words := [⟨0, 0, wordOf 2 (fields 1 .n8 0 0 [eastNarrow]), 0⟩] })] })
theorem test_stream_narrow : seen (fun t => (t.cluster 0).bindings.map fun b => b.ready.map (·.payload.value)) (.streamElementRead 0 0) (n8Stream 0) = some [[100]] ∧
    seen (fun t => (t.records.map (·.fault), (t.cluster 0).bindings.map fun b => b.ready.length)) (.streamElementRead 0 0) (n8Stream 1) = some ([3], [0]) := by decide +kernel
theorem test_admit : seen (fun t => ((t.cluster 0).flits.map fun f => (f.dst, f.vc), (t.tile 0).reserved.length, (Map.get? (t.cluster 0).ports 0).map (·.inFlight)))
      (.admitToken 0 0) (streaming (live0 1 [token .l 9 (lanes [5])])) = some ([(0, 1)], 1, some [(0, 1)]) ∧
    seen tokensOut (.admitToken 0 0) (streaming (live0 1 [token .l 9 (lanes [5])])) = some [lanes [5]] ∧
    ((streaming (live0 1 [token .l 9 (lanes [5])])).portTurn 0 0).isSome = true := by decide +kernel
/-- R131: a generator at slice 3, and its window. -/
def pushing (window n : Nat) (xs : List Token) : State := (streaming { live0 n xs with kind := .push 3 window }).modSlice 3 fun l => { l with pushes := [⟨0, 7⟩] }
theorem test_push_read : seen (fun t => (t.cluster 0).bindings.map (·.nextRead)) (.pushLineRead 3 0) (pushing 1 0 []) = some [4] ∧
    seen (fun t => (t.cluster 0).bindings.map (·.nextRead)) (.pushLineRead 3 0) ((pushing 1 1 []).modCluster 0 fun k => { k with bindings := k.bindings.map fun b => { b with stride1 := 64 } }) = some [1] ∧
    seen (fun t => (t.cluster 0).bindings.map (·.nextRead)) (.pushLineRead 3 0) (pushing 1 4 []) = some [5] := by decide +kernel
theorem test_push_deliver : seen (fun t => (t.cluster 0).flits.length) (.pushElementDeliver 3 0) (pushing 1 1 [token .l 0 (lanes [5])]) = some 1 := by decide +kernel

/-- A token at exit port 1 of launch 5, and what takes it: nothing, a stream, or ordered delivery. -/
def leaving (it : Nat) (bs : List Binding) : State := (launched .running 0 0).modCluster 0 fun k =>
  { k with exits := [⟨1, ⟨0, 0, 0⟩, token .l it (lanes [5])⟩], bindings := bs }
def outBinding (ord : Bool) : Binding := { binding false true with gport := 1, phys := 1, ordered := ord }
theorem test_exit : seen (fun t => ((t.cluster 0).exits.length, t.records.map (·.kind), credits t)) (.exitDelivery 0 0) (leaving 1 []) = some (0, [6], 1) ∧
    seen (fun t => ((t.cluster 0).exits.length, (requestsSent t).map fun r => (r.pa, r.kind)) ) (.exitDelivery 0 0) (leaving 1 [{ outBinding false with elem := 0, base := 0x1000 }]) =
      some (0, [(2 ^ 36 + 0x1040, .write (pairsAt 0x40 (natBytes 64 5)) false)]) := by decide +kernel
theorem test_exit_ordered : ((leaving 2 [outBinding true]).cluster 0).orderedExit 1 5 0 = some (outBinding true) ∧
    seen (fun t => ((t.cluster 0).exits.length, (t.reorder 0 5 1 0).held.length, (requestsSent t).length)) (.exitDelivery 0 0) (leaving 2 [outBinding true]) = some (0, 1, 0) ∧
    seen (fun t => ((t.cluster 0).exits.length, (t.reorder 0 5 1 0).next, (requestsSent t).length)) (.exitDelivery 0 0) (leaving 0 [outBinding true]) = some (0, 1, 1) ∧
    seen (fun t => (t.cluster 0).exits.length) (.exitDelivery 0 0) (leaving 64 [outBinding true]) = some 1 := by decide +kernel
def heldBack (age : Nat) : State := ((leaving 2 [outBinding true]).modCluster 0 fun k =>
  { k with exits := [], reorders := [⟨5, 0, 1, 0, [(token .l 2 (lanes [5]), age)]⟩] }).modColour 0 fun c => { c with age := 64 }
theorem test_exit_age : seen (fun t => ((t.reorder 0 5 1 0).next, (t.reorder 0 5 1 0).held.length, (requestsSent t).length)) (.exitReorderAgeRelease 0 0) (heldBack 64) = some (2, 1, 0) ∧
    seen (fun t => (t.reorder 0 5 1 0).held.length) (.exitReorderAgeRelease 0 0) (heldBack 63) = some 1 := by decide +kernel

/-! Slices, base dies, keys, releases (R100, R115, R116, R121 to R129, R155, R394) -/

/-- The load of 64 bytes of test_issue, as a request of slice 3 for the line at 0x1000. -/
def request (k : ReqKind) : Request := ⟨.tile 0, 3, 0x1040, 0x40, 0, 0, 0, k, 5, 2, some 0, none, 0, none⟩
def cached : Line := ⟨0x1000, 0, 0, 0, 0, 10, 20, 0, 0, 7 * 2 ^ 512⟩
/-- The state once the answers on the rings have come to their tiles. -/
def settled (t : State) : State := (t.net.filterMap fun f => match f.cargo with | .answer a => some a | _ => none).foldl State.takeAnswer { t with net := [] }
/-- The request at its stop, of slice 3 with some lines; the load's access waits in its tile. -/
def served (k : ReqKind) (ls : List Line) : State := { phased .sent with requests := [request k] }.modSlice 3 fun l => { l with lines := ls }
theorem test_served_meets : (served .read [cached]).cut 0 3 = false ∧ ((served .read [cached]).slice 3).waits 0x1040 = false ∧
    ((served .read [cached]).slice 3).line? 0x1040 = some cached ∧ ((served .read []).slice 3).line? 0x1040 = none := by decide +kernel
/-- R124: the lease ends 256 after the later of the reader's clock and WTS. -/
theorem test_slice_read : seen (fun t => (((t.slice 3).line? 0x1000).map fun x => (x.wts, x.rts), ((settled t).tile 0).pts, ((settled t).tile 0).accesses.map fun a => (a.phase, a.data.data))) (.sliceRead 0) (served .read [cached]) =
      some (some (10, 266), 10, [(.answered, 7)]) ∧
    seen (fun t => ((t.slice 3).misses.length, t.requests.length)) (.sliceRead 0) (served .read []) = some (1, 0) := by decide +kernel
/-- R125: a write, and an atomic add of one lane. -/
theorem test_slice_write : seen (fun t => ((t.slice 3).line? 0x1000).map fun x => (x.wts, x.rts, x.dirty, x.data)) (.sliceWrite 0) (served (.write [(0x40, 9)] false) [cached]) =
      some (some (21, 21, 2, 9 * 2 ^ 512)) ∧
    seen (fun t => (((t.slice 3).line? 0x1000).map (·.data), ((settled t).tile 0).accesses.map fun a => a.data.data)) (.sliceWrite 0) (served (.atomic 0x160 ⟨1, 1⟩ none false) [cached]) =
      some (some (8 * 2 ^ 512), [7]) := by decide +kernel
/-- A queued request, a miss with and without its data, and queued write-backs. -/
def slice3 (g : Slice → Slice) : State := ((phased .sent).poke 0x1040 [3]).modSlice 3 g
theorem test_conflict_lock : seen (fun t => ((t.slice 3).conflicts.length, (t.slice 3).misses.length)) (.conflictQueueLock 3 0) (slice3 fun l => { l with conflicts := [request .read] }) = some (0, 1) := by decide +kernel
theorem test_rdline : seen (fun t => (t.slice 3).misses.map fun m => m.data) (.rdline 3 0) (slice3 fun l => { l with misses := [⟨request .read, true, none, false⟩] }) = some [some (3 * 2 ^ 512, 0)] := by decide +kernel
theorem test_line_fill : seen (fun t => ((t.slice 3).misses.length, ((t.slice 3).line? 0x1000).map (·.data), ((settled t).tile 0).accesses.map (·.phase))) (.lineFill 3 0)
    (slice3 fun l => { l with misses := [⟨request .read, true, some (3 * 2 ^ 512, 0), true⟩] }) = some (0, some (3 * 2 ^ 512), [.answered]) := by decide +kernel
def backed (units : BitVec 4) : State := slice3 fun l => { l with writeBacks := [⟨0x1000, 0, units, 0, 5 + 6 * 2 ^ 512, false, true, true, false⟩] }
theorem test_wrline : seen (fun t => ((t.slice 3).writeBacks.length, Memory.read t.dram 0x1000, Memory.read t.dram 0x1040)) (.wrline 3 0) (backed 15) = some (0, 5, 6) := by decide +kernel
theorem test_wrmask : seen (fun t => ((t.slice 3).writeBacks.length, Memory.read t.dram 0x1000, Memory.read t.dram 0x1040)) (.wrmask 3 0) (backed 1) = some (0, 5, 3) := by decide +kernel
/-- R116: what is written under a key reads back under it; other units stay. -/
theorem test_write_unit : ((State.reset.writeUnit 65 1 7 false).readUnit 65 1, (State.reset.writeUnit 65 1 7 false).dramUnit 64) = (7, 0) ∧ State.reset.dram.wf = true := by decide +kernel
theorem test_pts_advance : seen (fun t => (t.tile 0).pts) (.ptsAdvance (.tile 0)) (phased .sent) = some 1 ∧ seen (fun t => (t.context 0 2).pts) (.ptsAdvance (.context 0 2)) mapped = some 1 := by decide +kernel
theorem test_keyset : seen (fun t => (t.keyIn 8 3, t.keyFresh)) (.keyset 8 3) { mapped with keyFresh := 44 } = some (44, 45) ∧ (mapped.colour 3).state = .free := by decide +kernel
theorem test_keykill : seen (fun t => Map.get? t.keySlots (512 * 8 + 3)) (.keykill 8 3) { mapped with keySlots := [(512 * 8 + 3, 44)] } = some none ∧ (mapped.colour 3).state ≠ .live := by decide +kernel
/-- Slice 3 in its first epoch, with nine misses of world 2, at an FCLK cycle (five of SCLK for four). -/
def epoch (frozen : Bool) (n : Nat) : State := { slice3 fun l => { l with shadowMiss := [(2, 9)], wayFreeze := frozen } with cycles := n }
set_option maxRecDepth 100000 in
theorem test_epoch_end : seen (fun t => (((t.slice 3).way 2).shmiss, (t.slice 3).shadowMiss)) (.sliceEpochEnd 3) (epoch false 838861) = some (9, []) ∧
    seen (fun t => (t.slice 3).shadowMiss) (.sliceEpochEnd 3) (epoch true 838861) = some [(2, 9)] ∧
    seen (fun t => (t.slice 3).shadowMiss) (.sliceEpochEnd 3) (epoch false 838860) = some [(2, 9)] := by decide +kernel
/-- R155: probes of a release, with a request of the source still under way or not. -/
def releasing (src : Source) (ps : List ProbeTarget) (rs : List Request) : State :=
  { (phased .fence).modMe fun c => { c with park := .release } with releases := [⟨99, 99, src, some 0, ps⟩], requests := rs }
theorem test_release_probe : seen (fun t => t.releases.map (·.probes)) (.releaseProbe 0 3) (releasing (.tile 0) [.slice 3, .hub 1] []) = some [[.hub 1]] ∧
    seen (fun t => t.releases.map (·.probes)) (.releaseProbe 0 3) (releasing (.tile 0) [.slice 3, .hub 1] [request .read]) = some [[.slice 3, .hub 1]] := by decide +kernel
theorem test_hub_probe : seen (fun t => t.releases.map fun r => r.probes.map fun p => match p with | .forwarded l => l.length | _ => 0) (.hubProbeForward 0 1) (releasing (.tile 0) [.hub 1] []) = some [[64]] ∧
    (mapped.cut 0 64) = false := by decide +kernel
theorem test_release_complete : seen (fun t => (t.releases.length, (t.context 0 0).park, (t.context 0 0).released)) (.releaseComplete 0) (releasing (.context 0 0) [] []) = some (0, .none, true) ∧
    seen (fun t => (t.releases.length, (t.tile 0).accesses.map (·.phase))) (.releaseComplete 0) (releasing (.tile 0) [] []) = some (0, [.answered]) ∧
    seen (fun t => t.releases.length) (.releaseComplete 0) (releasing (.tile 0) [.slice 3] []) = some 1 := by decide +kernel

/-! Invalidations, paging, device registers (R110 to R112, R117, R371 to R376, R415) -/

/-- Context 0 with an invalidation of one page of colour 0 under way; a stale and a fresh translation; a line of the page. -/
def stale : State := ((mapped.modMe fun c => { c with mmBusy := true, mmMode := 0, mmColour := 0, mminva := 0, mmPages := 1 }).modTile 0 fun t =>
  { t with tlb := [⟨0, 3, 0, 0⟩, ⟨0, 3, 1, 0⟩, ⟨1, 3, 0, 0⟩] }).modSlice 3 fun l => { l with lines := [{ cached with pa := 2 ^ 36 }, cached] }
def staleMode (m : BitVec 2) : State := stale.modMe fun c => { c with mmMode := m }
def sweptDone (m : BitVec 2) : State := stale.modMe fun c => { c with mmMode := m, mmDone := true }
def tlbLeft (t : State) : List (Nat × Nat) × Bool := ((t.tile 0).tlb.map fun x => (x.colour.toNat, x.vpage), (t.context 0 0).mmDone)
theorem test_mminv_range : seen tlbLeft (.mminvRange 0 0) stale = some ([(0, 1), (1, 0)], true) := by decide +kernel
theorem test_mminv_colour : seen tlbLeft (.mminvColour 0 0) (staleMode 1) = some ([(1, 0)], true) := by decide +kernel
theorem test_mminv_world : seen tlbLeft (.mminvWorld 0 0) ((staleMode 2).modColour 1 fun e => { e with world := 2 }) = some ([(1, 0)], true) := by decide +kernel
/-- R117: the page's lines are dropped, others stay. -/
theorem test_mminv_discard : seen (fun t => ((t.slice 3).lines.map (·.pa), (t.context 0 0).mmDone)) (.mminvDiscard 0 0) (((staleMode 3).modColour 0 fun e => { e with root := 16 }).poke (16 * 2 ^ 14) (natBytes 8 (2 ^ 36 + 31))) = some ([0x1000], true) := by decide +kernel
/-- R112: BUSY falls when no access of the colour is left, at once for a discard. -/
theorem test_invalidation_complete : (sweptDone 1).accessesLeft (fun _ d _ => decide (d = 0)) = false ∧
    seen (fun t => (t.context 0 0).mmBusy) (.invalidationComplete 0 0) (sweptDone 1) = some false ∧
    seen (fun t => (t.context 0 0).mmBusy) (.invalidationComplete 0 0) (sweptDone 3) = some false := by decide +kernel
theorem test_invalidation_waits : seen (fun t => (t.context 0 0).mmBusy) (.invalidationComplete 0 0)
    ({ sweptDone 1 with requests := [⟨.context 0 0, 3, 0x1040, 0x40, 0, 0, 0, .read, 5, 2, some 0, none, 0, some 0⟩] }) = some true := by decide +kernel

/-- A pool of die 0 with pages at 0x40000, of which n are free: 8-byte zero-filled writable leaves and a fault time of 1,024 cycles. -/
def pool (n : Nat) : State := (((mapped.modDie 0 fun d => { d with pgBase := 8, pgEn := true }).poke 131072
  (natBytes 32 (n * 2 ^ 160 + 0x30000 * 2 ^ 192 + 2 ^ 128 + 2 ^ 112 + 2 ^ 111 + 2 ^ 110))).poke 0x30000
    ((List.range 3).flatMap fun i => natBytes 8 (0x40000 + 0x4000 * i))).modMe fun c => { c with park := .page 0 (2 ^ 22) }
def pageToken : FaultToken := ⟨0, 0, .page (2 ^ 22)⟩
def pageEntry : PagerEntry := ⟨0, .page (2 ^ 22), 0, false⟩
def paging (n : Nat) : State := (pool n).modDie 0 fun d => { d with pager := [pageEntry] }
/-- R371: a first fault makes an entry, a second one joins it. -/
theorem test_pager_token : seen (fun t => ((t.die 0).pager.length, t.faultTokens.length)) (.pagerFaultToken 0) { pool 3 with faultTokens := [pageToken] } = some (1, 0) ∧
    seen (fun t => ((t.die 0).pager.length, t.faultTokens.length)) (.pagerFaultToken 0) { paging 3 with faultTokens := [pageToken] } = some (1, 0) := by decide +kernel
theorem test_pager_poison : seen (fun t => (t.colour 0).poisoned) (.pagerFaultToken 0) { pool 3 with faultTokens := [⟨0, 0, .poison 0x2A 0⟩] } = some true := by decide +kernel
/-- R371: three pages give two tables and the leaf, and the waiter goes on. -/
theorem test_pager_service : seen (fun t => ((t.die 0).pager.length, t.poolFree 0 0, t.peekNat 8 8, t.peekNat 0x48000 8 % 2 ^ 36)) (.pagerService 0 0) (paging 3) = some (0, 0, 0x48001, 0x44001) ∧
    seen (fun t => ((t.context 0 0).park, t.records.map fun r => (r.kind, r.status))) (.pagerService 0 0) (paging 3) = some (.none, [(7, 0)]) := by decide +kernel
/-- R373: without pages the entry is held. -/
theorem test_pager_empty : seen (fun t => ((t.die 0).pager.map (·.held), (t.die 0).emptied, t.records.map fun r => (r.kind, r.status))) (.pagerService 0 0) (paging 0) =
    some ([true], [0], [(7, 1)]) := by decide +kernel
/-- R374. -/
theorem test_fault_time : seen (fun t => (t.colour 0).poisoned) (.faultTimeExpiry 0 0) { paging 0 with cycles := 1024 } = some true ∧
    seen (fun t => (t.colour 0).poisoned) (.faultTimeExpiry 0 0) { paging 0 with cycles := 1023 } = some false := by decide +kernel
theorem test_fault_time_off : seen (fun t => (t.colour 0).poisoned) (.faultTimeExpiry 0 0) { (paging 0).modDie 0 (fun d => { d with pgBase := 9 }) with cycles := 9999 } = some false := by decide +kernel

/-! Register writes -/

theorem test_slway : seen (fun t => (((t.slice 3).way 2).ceil, ((t.slice 3).way 2).floor, (t.slice 3).wayErr)) (.slwayWrite 0 3 2 0x0802) mapped = some (8, 2, false) ∧
    seen (fun t => (((t.slice 3).way 2).ceil, (t.slice 3).wayErr)) (.slwayWrite 0 3 2 0x0809) mapped = some (16, true) := by decide +kernel
theorem test_slwayc : seen (fun t => ((t.slice 3).wayErr, (t.slice 3).wayFreeze)) (.slwaycWrite 0 3 3) (mapped.modSlice 3 fun l => { l with wayErr := true }) = some (false, true) := by decide +kernel
theorem test_mshctl : seen (fun t => ((t.cluster 5).promo, (t.cluster 5).wgt1, (t.cluster 5).wgt0, (t.cluster 5).mshErr)) (.mshctlWrite 0 5 0x80302) mapped = some (8, 3, 2, false) ∧
    seen (fun t => (t.cluster 5).mshErr) (.mshctlWrite 0 5 0x70302) mapped = some true := by decide +kernel
theorem test_stcsel : seen (fun t => (Map.get? (t.station 4).sel 1, Map.get? (t.station 4).cloc 1)) (.stcselWrite 0 4 1 0x207) mapped = some (some 0x207, some 0) := by decide +kernel
theorem test_pgretry : seen (fun t => (t.die 0).pager.map (·.held)) (.pgretryWrite 0 0 0) ((paging 0).modDie 0 fun d => { d with pager := [{ pageEntry with held := true }, ⟨1, .page 0, 0, true⟩] }) =
    some [false, true] := by decide +kernel
theorem test_lcabort : (mapped.cluster 0).lcBusy = false ∧ seen (fun t => (t.cluster 0).lcCtx) (.lcabortWrite 0 0 5) (launched .running 0 0) = some 5 ∧
    seen (fun t => (t.cluster 0).lcBusy || ((t.launch? 0 5).map (·.state)) != some .running) (.lcabortWrite 0 0 (2 ^ 63 + 5)) (launched .running 0 0) = some true := by decide +kernel
theorem test_ccen : seen (fun t => (t.cluster 0).ccen) (.ccenWrite 0 0 0x1F0) mapped = some 0xF0 := by decide +kernel
theorem test_tbpf : seen (fun t => (t.tile 7).tbpf.toList) (.tbpfWrite 0 7 1 0xFFFFFFFFFFFFFFFF) mapped = some [0, 0xFFFFF000FFFFFFFF, 0, 0] := by decide +kernel
theorem test_rlcfg : seen (fun t => ((t.die 2).rlN, (t.die 2).rlWexp, (t.die 2).rlErr)) (.rlcfgWrite 0 2 0x0A07) mapped = some (7, 10, false) ∧
    seen (fun t => ((t.die 2).rlN, (t.die 2).rlErr)) (.rlcfgWrite 0 2 0x2907) mapped = some (4, true) := by decide +kernel
/-- PWRCAP (R424), a place without a register, and a refused write. -/
theorem test_register_write : regAt (deviceBase + 0x408) = .pwrcap ∧ regAt (deviceBase + 0x18) = .none ∧ mapped.mayWrite 1 (regAt (deviceBase + 0x408)) 600 = false ∧
    seen (fun t => t.pwrcap) (.registerWrite 0 (deviceBase + 0x408) 600) mapped = some 600 ∧
    seen (fun t => (t.hrefuseV, t.hrefusePa, t.pwrcap)) (.registerWrite 1 (deviceBase + 0x408) 600) mapped = some (true, BitVec.ofNat 52 (deviceBase + 0x408), 1800) := by decide +kernel

/-! World pages and functions (R394 to R400, R405, R406) -/

/-- The host link is enabled, world 1 has a window and an extent that holds every address, colours 0 to 2 are LIVE and the third world 1's. -/
def booted : State := (({ mapped with bootStage := 7, hwcol := [(1, BitVec.ofNat 64 (2 ^ 63 + 2 * 2 ^ 47))] }.modColour 1 fun e => { e with state := .live }).modColour 2 fun e =>
  { e with state := .live, world := 1 }).poke (mapped.wxbase.toNat + 128) (natBytes 16 ((2 ^ 38 - 1) * 2 ^ 78 + 1))
def answered (t : State) : Bool × Nat × Nat := ((t.worldPage 1).busy, (t.worldPage 1).status.toNat, (t.worldPage 1).result.toNat)
theorem test_world_page_meets : (booted.worldPage 1).busy = false ∧ booted.hostReach 1 = true ∧ booted.inExtent 1 (2 ^ 14) = true ∧ booted.liveIn 2 1 = true ∧
    booted.disabledRing (2 ^ 16 - 64) 64 = some 64 := by decide +kernel
theorem test_colour_alloc : seen (fun t => (((t.colour 3).state, (t.colour 3).root), ((t.colour 3).kshare, decide (t.keyIn 8 3 = t.keyIn 0 3)), answered t)) (.colourAlloc 1 (BitVec.ofNat 64 (2 ^ 14)) 0) booted =
    some ((ColourState.live, 1), (3, true), (false, 0, 3)) ∧
    seen (fun t => (t.colour 3).kshare) (.colourAlloc 1 (BitVec.ofNat 64 (2 ^ 14)) 0x202) booted = some 2 := by decide +kernel
/-- Every colour LIVE. -/
def full : State := { booted with colours := (List.range' 0 512).map fun c => (c, { ColourEntry.reset with state := .live }) }
theorem get_range (e : ColourEntry) (k : Nat) : ∀ n s, s ≤ k → k < s + n → Map.get? ((List.range' s n).map fun c => (c, e)) k = some e
  | 0, s, h, h' => by omega
  | n + 1, s, h, h' => by
    rw [List.range'_succ, List.map_cons, Map.get?]
    by_cases hk : s = k
    · rw [if_pos hk]
    · rw [if_neg hk]; exact get_range e k n (s + 1) (by omega) (by omega)
theorem test_no_colour_free (m : Nat) (h : m < 512) : (full.colour (BitVec.ofNat 9 m)).state ≠ .free := by
  have e : (BitVec.ofNat 9 m).toNat = m := by simp; omega
  simp only [full, State.colour, Map.get, e, get_range _ m 512 0 (Nat.zero_le m) (by omega), Option.getD_some]
  decide
theorem test_colour_retire : seen (fun t => ((t.colour 2).state, answered t)) (.colourRetire 1 2) booted = some (.retiring, (false, 0, 0)) ∧
    seen (fun t => ((t.colour 3).state, answered t)) (.colourRetire 1 3) booted = some (.free, (false, 0x0A, 0)) := by decide +kernel
theorem test_ring_create : seen (fun t => (((t.ring 64).en, (t.ring 64).base), ((t.ring 64).log2n, (t.ring 64).world), answered t)) (.ringCreate 1 0x200 4 2) booted =
    some ((true, 0x200), (4, 1), (false, 0, 64)) := by decide +kernel
def ringed : State := booted.modRing 64 fun g => { g with en := true, world := 1 }
theorem test_ring_destroy : seen (fun t => ((t.ring 64).en, answered t)) (.ringDestroy 1 64) ringed = some (false, (false, 0, 0)) ∧
    seen (fun t => answered t) (.ringDestroy 1 63) ringed = some (false, 2, 0) := by decide +kernel
theorem test_wevarm : seen (fun t => (t.ring 64).notify) (.wevarmWrite 1 64) ringed = some true := by decide +kernel
/-- A transmit association of port 1 in memory that colour 2 maps. -/
def saBytes : List Byte := (List.range 64).map fun i => if i = 52 then 1 else if i = 54 then 1 else if i < 32 then 7 else 0
def secured : State := ({ booted with clusters := booted.clusters.map fun k => (k.1, { k.2 with tlb := [⟨2, 1, 0, BitVec.ofNat 64 (2 ^ 36 + 31)⟩] }) } : State).poke (2 ^ 36) saBytes
def walked : State := ((secured.modColour 2 fun e => { e with root := 16 }).poke (16 * 2 ^ 14) (natBytes 8 (2 ^ 36 + 31)))
theorem test_macsec : seen (fun t => (t.macsec.map (·.port), t.ethUp, answered t)) (.macsecSa 1 0 2) walked = some ([1], 2, (false, 0, 0)) ∧
    seen (fun t => (t.macsec.length, (t.worldPage 2).status)) (.macsecSa 2 0 2) { walked with vfEnable := true, numVfs := 1 } = some (0, 2) := by decide +kernel
theorem test_msix : seen (fun t => ((t.function 0).masked, t.replies)) (.msiXTableWrite 0 3 true) booted = some ([3], []) ∧
    seen (fun t => ((t.function 0).pending, t.replies)) (.msiXTableWrite 0 3 false) (booted.modFunction 0 fun f => { f with masked := [3], pending := [3] }) =
      some ([], [.message 0 3]) := by decide +kernel

/-- Two virtual functions, with an event record of the first's world queued. -/
def virtual : State := { booted with vfEnable := true, numVfs := 2, records := [⟨0, 70, 2, none, 0, 0, 0, 0, 0, 0, 1⟩] }
theorem test_vf_enable : seen (fun t => (t.vfEnable, t.removals, t.records.length)) .vfEnableClear virtual = some (false, [2, 3], 0) ∧
    seen (fun t => (t.vfEnable, t.numVfs)) (.vfEnableSet 4) booted = some (true, 4) ∧
    seen (fun t => (t.vfEnable, t.vfHeld)) (.vfEnableSet 4) { booted with removals := [2] } = some (false, some 4) := by decide +kernel
theorem test_function_level_reset : virtual.hostReach 2 = true ∧ seen (fun t => (t.removals, t.hostReach 2, t.records.length)) (.functionLevelReset 1) virtual = some ([2], false, 0) := by decide +kernel
def removing : State := go (execFunctionLevelReset 1 (virtual.modColour 1 fun e => { e with world := 2 }))
theorem test_removal_complete : removing.removalReady 2 = true ∧ (removing.removed 2).isSome = true ∧
    seen (fun t => (t.removals, (t.colour 1).state)) (.removalComplete 2) removing = some ([], .free) ∧ virtual.removalReady 2 = false := by decide +kernel
def interface (x : Tdisp) : State := (virtual.modFunction 1 fun f => { f with tdisp := x }).modFunction 0 fun f => { f with finished := true, session := true, negotiated := true }
def tdisp (t : State) : Tdisp × List Nat := ((t.function 1).tdisp, t.removals)
/-- R400: the three transitions of a session, the refusal without one, and the two that remove the world. -/
theorem test_tdisp : seen tdisp (.tdispStateChange 1 .configLocked) (interface .configUnlocked) = some (.configLocked, []) ∧
    seen tdisp (.tdispStateChange 1 .run) (interface .configLocked) = some (.run, []) ∧
    seen tdisp (.tdispStateChange 1 .configUnlocked) (interface .error) = some (.configUnlocked, []) := by decide +kernel
theorem test_tdisp_removes : seen tdisp (.tdispStateChange 1 .error) virtual = some (.error, [2]) ∧ seen tdisp (.tdispStateChange 1 .configLocked) virtual = some (.configUnlocked, []) ∧
    seen tdisp (.tdispStateChange 1 .configUnlocked) (interface .run) = some (.run, [2]) := by decide +kernel

/-! Attestation, the host's accesses, errors, boot (R401 to R424) -/

/-- The last answer of the host link: its kind, function, code. -/
def answer (t : State) : Nat × Nat × Nat :=
  match t.replies.getLast? with
  | some (.retry f) => (1, f, 0)
  | some (.unsupported f) => (2, f, 0)
  | some (.completed f) => (3, f, 0)
  | some (.bytes f bs) => (4, f, bytesNat bs)
  | some (.poisoned f) => (5, f, 0)
  | some (.spdm f code _) => (6, f, code)
  | some (.message f v) => (7, f, v)
  | _ => (0, 0, 0)
def talk (n s f : Bool) : State := booted.modFunction 0 fun x => { x with negotiated := n, session := s, finished := f }
def phase (t : State) : Bool × Bool × Bool := ((t.function 0).negotiated, (t.function 0).session, (t.function 0).finished)
theorem test_get_version : seen (fun t => (answer t, phase t)) (.getVersion 0) (talk true true true) = some ((6, 0, 4), (false, false, false)) ∧
    seen answer (.getVersion 0) { talk true true true with bootStage := 6 } = some (1, 0, 0) ∧ seen answer (.getVersion 7) booted = some (2, 7, 0) := by decide +kernel
theorem test_get_capabilities : seen answer (.getCapabilities 0) (talk false false false) = some (6, 0, 0x61) := by decide +kernel
theorem test_negotiate : seen (fun t => (answer t, phase t)) (.negotiateAlgorithms 0 0x10 1) (talk false false false) = some ((6, 0, 0x63), (true, false, false)) ∧
    seen (fun t => (answer t, phase t)) (.negotiateAlgorithms 0 0x20 1) (talk false false false) = some ((6, 0, 0x7F), (false, false, false)) := by decide +kernel
theorem test_get_digests : seen answer (.getDigests 0) (talk true false false) = some (6, 0, 1) := by decide +kernel
theorem test_get_certificate : seen answer (.getCertificate 0 0) (talk true false false) = some (6, 0, 2) ∧ seen answer (.getCertificate 0 1) (talk true false false) = some (6, 0, 0x7F) := by decide +kernel
theorem test_challenge : seen answer (.challenge 0 0 9) (talk true false false) = some (6, 0, 3) ∧ seen answer (.challenge 0 0 9) (talk false false false) = some (6, 0, 0x7F) := by decide +kernel
/-- The measurement of world 1: no code, EMPTY, count 0. -/
theorem test_get_measurements : seen (fun t => match t.replies.getLast? with | some (.spdm _ c bs) => (c, bs.take 40) | _ => (0, [])) (.getMeasurements 0 4 9) (talk true false false) =
      some (0x60, List.replicate 32 0 ++ [3, 0, 0, 0, 0, 0, 0, 0]) ∧
    seen answer (.getMeasurements 1 0x12 9) { virtual with functions := [(1, { Function.reset with negotiated := true })] } = some (6, 1, 0x7F) := by decide +kernel
theorem test_key_exchange : seen (fun t => (answer t, phase t)) (.keyExchange 0 9) (talk true false false) = some ((6, 0, 0x64), (true, true, false)) ∧
    seen answer (.keyExchange 0 9) (talk false false false) = some (6, 0, 0x7F) := by decide +kernel
theorem test_finish : seen answer (.finish 0 9) (talk true false false) = some (6, 0, 0x7F) ∧ seen answer (.finish 0 9) (talk true true true) = some (6, 0, 0x7F) := by decide +kernel
theorem test_end_session : seen (fun t => (answer t, phase t)) (.endSession 0) (talk true true true) = some ((6, 0, 0x6C), (true, false, false)) := by decide +kernel
theorem test_ide_km : seen (fun t => (answer t, (t.function 0).stream, t.ideKeys)) (.ideKm 0 2 77) (talk true true true) = some ((6, 0, 0x7E), some 2, [(2, 77)]) ∧
    seen answer (.ideKm 0 9 77) (talk true true true) = some (6, 0, 0x7F) := by decide +kernel
theorem test_link_training : seen (fun t => t.linksDown) (.d2dLinkTraining 3 0) { booted with linksDown := [3] } = some [3] ∧ 2 ∉ booted.linksDown := by decide +kernel

def host (o n : Nat) (w : Option (List Byte)) : HostAccess := ⟨0, o, n, w⟩
theorem test_bar2 : seen answer (.bar2Access 1 (host 0 1 none)) (walked.poke (2 ^ 36) [9]) = some (4, 0, 9) ∧
    seen (fun t => (answer t, t.peek (2 ^ 36 + 5))) (.bar2Access 1 (host 5 1 (some [7]))) walked = some ((3, 0, 0), 7) := by decide +kernel
theorem test_bar2_turned_away : seen answer (.bar2Access 1 (host (2 ^ 36 - 1) 2 none)) walked = some (2, 0, 0) ∧
    seen answer (.bar2Access 1 (host 0 1 none)) { walked with bootStage := 6 } = some (1, 0, 0) ∧
    seen (fun t => (answer t, t.records.length)) (.bar2Access 1 (host 0 1 none)) (walked.modColour 2 fun e => { e with root := 17 }) = some ((5, 0, 0), 1) := by decide +kernel
theorem test_register_window : seen answer (.registerWindowAccess 1 (host 0x4000000 8 none)) booted = some (4, 0, booted.regValue .bootsts) ∧
    seen (fun t => (answer t, t.hrefuseV)) (.registerWindowAccess 1 (host 0x4000408 8 none)) booted = some ((4, 0, 0), true) ∧
    seen answer (.registerWindowAccess 2 (host 0x4000 1 none)) virtual = some (2, 1, 0) := by decide +kernel
/-- R395: WEVARM at 0x20, COLOUR_RETIRE by WMCMD at 0x18, which is ignored while BUSY is 1. -/
theorem test_page_write : seen (fun t => ((t.ring 64).notify, answer t)) (.registerWindowAccess 1 (host 0x20 8 (some (natBytes 8 64)))) ringed = some (true, (3, 0, 0)) ∧
    (let retire : State → Option (ColourState × Bool × Nat × Nat) := seen (fun t => ((t.colour 2).state, answered t)) (.registerWindowAccess 1 (host 0x18 8 (some (natBytes 8 (2 ^ 63 + 2)))))
    retire (booted.modWorldPage 1 fun p => { p with arg0 := 2 }) = some (.retiring, (false, 0, 0)) ∧
    retire (booted.modWorldPage 1 fun p => { p with arg0 := 2, busy := true }) = some (.live, (true, 0, 0))) ∧
    seen (fun t => (t.function 0).masked) (.registerWindowAccess 1 (host 0x103C 4 (some [1, 0, 0, 0]))) booted = some [3] := by decide +kernel
/-- R400: world 0 leaves the world-extent entries of a running function alone, world 1 nothing of world 0's; R422: a failed stack. -/
theorem test_locks : (let s : State := booted.modFunction 1 fun f => { f with tdisp := .run }
    s.unlocked 0 0x100 [(0, 1), (200, 2)] = [(200, 2)] ∧ s.unlocked 1 0x100 [(0, 1)] = [(0, 1)] ∧ booted.unlocked 0 0x100 [(0, 1)] = [(0, 1)]) ∧
    ({ booted with stkfail := 1 } : State).inExtent 1 (2 ^ 14) = false := by decide +kernel
theorem test_ethernet : seen (fun t => t.frames) (.ethernetFrameRx 1 0x88B5 true) { booted with ethUp := 2 } = some [(1, 1)] ∧
    seen (fun t => t.frames) (.ethernetFrameRx 1 0x88B5 false) { booted with ethUp := 2 } = some [] := by decide +kernel

def place (code unit item : Nat) (h : Bool) : ErrorPlace := ⟨code, unit, 0, item, h⟩
/-- A tile with scratchpad and an entry in its matching store, and a flit in its cluster. -/
def damaged : State := ((launched .running 0 0).modTile 0 fun t => { t with spk := 16, store := [(4, ⟨token .l 0 (num 1), 0, [0, 0], 0, 0, 0, .wait, false⟩)] }).modSlice 3 fun l => { l with lines := [cached] }
def crossing : State := damaged.modCluster 0 fun k => { k with flits := [⟨1, 3, 1, 4, true, 0, 0, 0, false, .token ⟨0, 0, 0⟩ 0 9 0 (token .l 0 (num 1))⟩] }
theorem test_uncorrected_scratch : seen (fun t => ((t.tile 0).poison, t.records.map fun r => (r.kind, r.status, r.fault))) (.uncorrectedError (place 1 0 5 false)) damaged =
    some ([5], [(8, 2, 0x2A)]) ∧ 5 < 256 * (damaged.tile 0).spk.toNat := by decide +kernel
theorem test_uncorrected_entry : seen (fun t => ((t.tile 0).store.length, t.records.map fun r => (r.kind, r.status))) (.uncorrectedError (place 2 0 0 false)) damaged =
    some (0, [(2, 0x40), (8, 2)]) := by decide +kernel
theorem test_uncorrected_flit : seen (fun t => ((t.cluster 0).flits.map (fun f => match f.cargo with | .token _ _ _ _ x => x.poison | _ => false), t.records.length)) (.uncorrectedError (place 3 0 0 false))
      crossing = some ([true], 1) ∧
    seen (fun t => ((t.cluster 0).flits.length, t.records.length)) (.uncorrectedError (place 3 0 0 true))
      crossing = some (0, 1) := by decide +kernel
theorem test_uncorrected_dram : seen (fun t => (t.dramPoison, t.records.length)) (.uncorrectedError (place 7 1 2 false)) booted = some ([2 ^ 30 + 2], 1) := by decide +kernel
theorem test_corrected : seen (fun t => t.ceCounts) (.correctedError (place 4 3 0 false)) damaged = some [(errorKey (place 4 3 0 false), 1)] ∧
    seen (fun t => ((t.slice 3).bankOff, (t.slice 3).lines.length, t.records.map fun r => r.status)) (.correctedError (place 4 3 0 false))
      { damaged with ceCounts := [(errorKey (place 4 3 0 false), 3)] } = some (1, 0, [3]) := by decide +kernel
theorem test_ring_retry : seen (fun t => t.ceCounts) (.ringCrcRetry 3) booted = seen (fun t => t.ceCounts) (.correctedError ⟨5, 3, 0, 0, false⟩) booted := by decide +kernel
theorem test_error_window : seen (fun t => ((t.tile 0).cecnt, t.ceCounts)) .errorWindowBoundary
      { damaged.modTile 0 (fun t => { t with cecnt := 3 }) with timebase := 2 ^ 24, ceCounts := [(errorKey (place 4 3 0 false), 3)] } = some (0, []) ∧
    seen (fun t => ((t.tile 0).cecnt, t.ceCounts.length)) .errorWindowBoundary { damaged.modTile 0 (fun t => { t with cecnt := 3 }) with timebase := 1, ceCounts := [(7, 3)] } = some (3, 1) := by decide +kernel
theorem test_boot : seen (fun t => (t.bootStage, t.bootErr)) (.boot (.pll true)) { booted with bootStage := 1 } = some (2, 0) ∧
    seen (fun t => (t.bootStage, t.bootErr)) (.boot (.pll false)) { booted with bootStage := 1 } = some (1, 2) ∧
    seen (fun t => (t.bootStage, t.stkfail)) (.boot (.stacks 4)) { booted with bootStage := 3 } = some (4, 4) ∧
    seen (fun t => (t.bootStage, t.bootErr)) (.boot (.firmware none)) { booted with bootStage := 4 } = some (4, 5) := by decide +kernel
theorem test_boot_image : bootBody [] = none ∧ seen (fun t => t.bootErr) (.boot (.image [] [])) { booted with bootStage := 0 } = some 1 ∧
    seen (fun t => t.bootStage) (.boot (.tables true)) { booted with bootStage := 5 } = some 6 ∧ seen (fun t => t.bootStage) (.boot .hostLink) { booted with bootStage := 6 } = some 7 ∧
    seen (fun t => (t.linksDown, t.bootErr)) (.boot (.links 0 [])) { booted with bootStage := 2 } = some ([0, 1, 2, 3, 4, 5], 3) := by decide +kernel
theorem test_perst : seen (fun t => (t.bootStage, decide (t.dram = booted.dram), (t.colour 2).state)) (.boot .perst) booted = some (0, true, .free) := by decide +kernel
theorem test_throttle : seen (fun t => t.throttled) (.throttle true) booted = some true ∧ seen (fun t => t.thermtrip) .thermtrip booted = some true := by decide +kernel

/-! The whole machine (R14, R59 to R71, R275) -/

/-- What a step gives. -/
def stepped {α : Type} (g : State → α) (s : State) : Option α := match step s with | .next t => some (g t) | _ => none
/-- An instruction stored where the next step fetches it, right after reset. -/
def fetching (w : Nat) : State := State.reset.withFetchWord 64 w
/-- `li x11, 3145728` runs as the first instruction after reset; an empty agenda ends a cycle; a word that is none traps ILLEGAL. -/
theorem test_step_core : stepped (fun t => ((t.context 0 0).reg 11, (t.context 0 0).pc)) (fetching 0x2058000000300000) = some (3145728, 8) ∧
    stepped (fun t => t.timebase) State.reset = some 1 ∧ stepped (fun t => ((t.context 0 0).running, (t.context 0 0).trapCause)) (fetching 0) = some (false, 1) := by decide +kernel
theorem test_step_misaligned : stepped (fun t => (t.context 0 0).trapCause) (mapped.modMe fun c => { c with pc := 4 }) = some 0 ∧
    stepped (fun t => (t.context 0 0).trapCause) { (mapped.modMe fun c => { c with pc := 4 }) with agenda := [.issue 0 0] } = some 2 ∧
    stepped (fun t => (t.context 0 0).trapCause) { (mapped.modMe fun c => { c with pc := 4, park := .release }) with agenda := [.issue 0 0] } = some 0 := by decide +kernel
/-- A page that is not there parks the context. -/
theorem test_step_page : stepped (fun t => (t.context 0 0).park) { (mapped.modMe fun c => { c with pc := 2 ^ 36 }) with agenda := [.issue 0 0] } = some (.page 0 (2 ^ 22)) := by decide +kernel
/-- An operator in a slot, an event of the device, and an instruction that is no event. -/
theorem test_step_fabric : stepped inUnits { site 0x001 (fields 1 .i32 0 7 [east]) [token .l 0 (lanes [0])] with agenda := [.fire 0 0] } =
      sent (.const (fields 1 .i32 0 7 [east])) (site 0x001 (fields 1 .i32 0 7 [east]) [token .l 0 (lanes [0])]) ∧
    stepped (fun t => t.throttled) { mapped with agenda := [.event (.throttle true)] } = some true ∧
    stepped (fun t => (t.context 0 0).running) { mapped with agenda := [.event .cend] } = some true := by decide +kernel

/-- Encoding and decoding, for instructions of each shape. -/
theorem test_encode_core : encode (.ldxD 7 3 0x18 (some .die)) = some (natBytes 8 0x3638C09000000018) ∧ encode (.beq 5 6 0xFFFFFFFE) = some (natBytes 8 0x28014C00FFFFFFFE) ∧
    encode (.throttle true) = none ∧ decodeBytes (natBytes 8 0x4A00000000000000) = .ok .cend := by decide +kernel
theorem test_encode_fabric : encode (.nadd (fields 2 .n32 0 0 [⟨1, 0, 9, .l, true⟩])) = some (natBytes 16 0x2040D008404900000000000000000000) := by decide +kernel

/-! Words of each family, bit by bit from the manual's encodings (R59, R60, R68 to R71) -/

/-- Core words (R68): opcode [63:56], xd [55:51], xa [50:46], xb [45:41], SCOPE [40:37], SO [36], immediate [31:0]. -/
theorem test_word_integer : decodeCore 0x2058000000300000 = .ok (.li 11 0x300000) := by decide +kernel
theorem test_word_branch : decodeCore 0x28014C00FFFFFFFE = .ok (.beq 5 6 0xFFFFFFFE) ∧ decodeCore 0x2F0A400000000040 = .ok (.jalr 1 9 0x40) := by decide +kernel
theorem test_word_memory : decodeCore 0x3638C09000000018 = .ok (.ldxD 7 3 0x18 (some .die)) ∧ decodeCore 0x3E2A8CB000000000 = .ok (.amoCas 5 6 10 (some .pkg)) := by decide +kernel
theorem test_word_scheduling : decodeCore 0x4A00000000000000 = .ok .cend ∧ decodeCore 0x5005000000000000 = .ok (.sspec 20 0) ∧ decodeCore 0x5100000000000000 = .ok (.sbar 0) := by decide +kernel
theorem test_word_system : decodeCore 0x5F02800000000000 = .ok (.evarm 10) ∧ decodeCore 0x545A800000000000 = .ok (.gload 11 10 0) := by decide +kernel
theorem test_word_narrow : decodeFabric 0x2040D008404900000000000000000000 = .ok (.nadd ⟨2, false, .keep, .n32, 0, some ⟨1, 0, 9, .l, true⟩, none, none, 0, ⟨false, false, 0, false⟩⟩) := by decide +kernel
theorem test_word_vector : decodeFabric 0x4A201038025000000000000000000000 = .ok (.vshl ⟨1, false, .keep, .i32, 3, some ⟨0, 1, 10, .l, false⟩, none, none, 0, ⟨false, false, 0, false⟩⟩) := by decide +kernel
theorem test_word_matrix : decodeFabric 0xC2A09008002880030000000041048000 = .ok (.mmaQ16n ⟨1, false, .keep, .q16n, 0, some ⟨0, 0, 5, .l, false⟩, some ⟨0, 0, 6, .l, false⟩, none, 0x410480, ⟨false, false, 0, false⟩⟩) := by decide +kernel
/-- The host's interface to the decoder. -/
theorem test_table_word : decodeTableWord 64 0x4A00000000000000 = some .cend ∧ decodeTableWord 128 0x4A201038025000000000000000000000 ≠ none ∧ decodeTableWord 64 0 = none := by decide +kernel

/-! Reset -/

theorem test_reset : State.reset.dram = [] ∧ State.reset.regValue (.slway 3 2) = 0x1000 ∧ State.reset.regValue (.rlcfg 1) = 0x1804 ∧ State.reset.regValue .pwrcap = 1800 ∧
    (State.reset.context 0 7).mmBusy = false := by decide +kernel

/-! Well-formedness: each check refuses a term that names nothing -/

/-- An operator word with ENTRIES of an operand that the opcode does not take, or a field that it leaves zero (R66). -/
theorem test_ill_formed_op : (Instr.const (fields 2 .i32 0 7 [east])).wellFormed = false ∧ (Instr.const (fields 1 .i32 0 7 [east])).wellFormed = true ∧
    (Instr.nadd (fields 2 .i32 0 0 [eastNarrow])).wellFormed = false := by decide +kernel
theorem test_ill_formed_places : (Instr.tokenArrival 64 0).wellFormed = false ∧ (Instr.launchEnd 0 2048).wellFormed = false ∧ (Instr.sbarRetire 0 8).wellFormed = false ∧
    (Instr.planeSwap 12288).wellFormed = false ∧ (Instr.lineFill 256 0).wellFormed = false ∧ (Instr.stcselWrite 0 64 0 0).wellFormed = false ∧ (Instr.pagerService 4 0).wellFormed = false := by decide +kernel
theorem test_ill_formed_names : (Instr.colourFree 512).wellFormed = false ∧ (Instr.debugResume 64).wellFormed = false ∧ (Instr.colourAlloc 64 0 0).wellFormed = false ∧
    (Instr.stallCount 0 256).wellFormed = false ∧ (Instr.getVersion 63).wellFormed = false ∧ (Instr.functionLevelReset 0).wellFormed = false ∧ (Instr.msiXTableWrite 0 64 true).wellFormed = false := by decide +kernel
theorem test_ill_formed_host : (Instr.ethernetFrameRx 8 0 true).wellFormed = false ∧ (Instr.ethernetFrameRx 0 65536 true).wellFormed = false ∧ (Instr.registerWrite 0 (2 ^ 52) 0).wellFormed = false ∧
    (Instr.keyset 9 0).wellFormed = false ∧ (Instr.d2dLinkTraining 6 0).wellFormed = false ∧ (Instr.ptsAdvance (.context 0 8)).wellFormed = false := by decide +kernel
theorem test_ill_formed_errors : (Instr.correctedError ⟨8, 0, 0, 0, false⟩).wellFormed = false ∧ (Instr.bar2Access 1 ⟨0, 0, 65, none⟩).wellFormed = false ∧
    (Instr.bar2Access 1 ⟨0, 0, 2, some [1]⟩).wellFormed = false ∧ (Instr.vfEnableSet 63).wellFormed = false := by decide +kernel

/-! Witnesses of further clauses: what a router grants, releases with a scratchpad write or an `ldg`, fetches that fault or wait, a host access to a
locked line, poison of CXL.mem, a held exit token, a context in `wfe` -/

/-- Flits at the west input of router 1 towards tile 3, each with its virtual channel and age. -/
def routed (xs : List (Nat × Nat)) : State := { (mapped.modCluster 0 fun k =>
  { k with flits := xs.map fun x => ⟨1, 3, 3, 4, true, x.1, 0, x.2, false, .credit ⟨0, 0⟩ 0⟩ }) with cycles := 5 }
theorem test_mesh_grant : ((routed [(0, 9), (2, 0), (3, 0)]).meshGrant 0 1 1 true).map (·.1) = some 2 ∧ ((routed [(0, 9), (2, 0)]).meshGrant 0 1 1 true).map (·.1) = some 1 ∧
    ((routed [(1, 9), (0, 3)]).meshGrant 0 1 1 true).map (·.1) = some 1 ∧ (routed []).meshGrant 0 1 1 true = none ∧
    ((routed []).cluster 0).outPort 1 1 true = OutPort.reset := by decide +kernel
theorem test_mesh_hop : ((((routed [(0, 9)]).meshHop 0 0 ⟨1, 3, 3, 4, true, 0, 0, 9, false, .credit ⟨0, 0⟩ 0⟩).cluster 0).flits.map fun f => (f.router, f.inp, f.age)) = [(2, 3, 0)] ∧
    (((routed []).cluster 0).grantedOut OutPort.reset 0 ⟨1, 3, 3, 4, true, 0, 0, 9, false, .credit ⟨0, 0⟩ 0⟩).turn = 1 := by decide +kernel
/-- The load of test_issue as the access of an `ldg`, or of a store to its tile's scratchpad, with a release that has every answer. -/
def releasingFor (opc addr : Nat) (id : Nat) : State := { (phased .fence).modTile 0 fun t => { t with accesses := t.accesses.map fun a => { a with opc := opc, addr := addr } } with
  releases := [⟨99, 99, .tile 0, some id, []⟩] }
theorem test_release_asks : seen (fun t => ((t.tile 0).accesses.map (·.phase), (t.cluster 0).flits.map (·.vc))) (.releaseComplete 0) (releasingFor 0x158 0x1000 0) = some ([.group], [0, 2]) ∧
    (releasingFor 0x158 0x1000 0).banksDone ⟨99, 99, .tile 0, some 0, []⟩ = true := by decide +kernel
def bankWriting : State := (releasingFor 0x141 windowBase 1).modTile 0 fun t => { t with accesses := t.accesses.map fun a => { a with phase := .bank } }
theorem test_release_waits : seen (fun t => t.releases.length) (.releaseComplete 0) bankWriting = some 1 := by decide +kernel

/-- The next step fetches for context 0; the line at its PC is poisoned, or its home waits for it. -/
def fetched (s : State) : State := { s with agenda := [.issue 0 0] }
theorem test_step_break : stepped (fun t => ((t.tile 0).slot 0).word) { site 2 one [] with agenda := [.setBreak 0 0 0 true] } = some (wordOf 2 one ||| 0x80) ∧
    stepped (fun t => ((t.tile 0).slot 1).word) { site 2 one [] with agenda := [.setBreak 0 0 1 true] } = some 0 := by decide +kernel
theorem test_step_poison : stepped (fun t => ((t.context 0 0).trapCause, (t.context 0 0).trapFcode)) (fetched { mapped with dramPoison := [2 ^ 30] }) = some (4, 0x2A) := by decide +kernel
theorem test_step_busy : stepped (fun t => ((t.context 0 0).trapCause, (t.context 0 0).pc, t.agenda.length)) (fetched (mapped.modSlice 4 fun l =>
    { l with misses := [⟨{ request .read with sk := 4, pa := 2 ^ 36 }, false, none, false⟩] })) = some (0, 0, 0) := by decide +kernel
theorem test_step_device : stepped (fun t => ((t.context 0 0).trapCause, (t.context 0 0).trapFcode)) (fetched (mapped.modCluster 0 fun k => { k with tlb := [⟨0, 3, 0, BitVec.ofNat 64 (deviceBase + 31)⟩] })) =
    some (4, 0x13) := by decide +kernel
theorem test_bar2_busy : seen (fun t => t.replies.length) (.bar2Access 1 (host 0 1 none)) (walked.modSlice 4 fun l =>
    { l with misses := [⟨{ request .read with sk := 4, pa := 2 ^ 36 }, false, none, false⟩] }) = some 0 := by decide +kernel
theorem test_uncorrected_cxl : seen (fun t => t.dramPoison) (.uncorrectedError (place 7 8 2 false)) booted = some [2 ^ 42 + 2] := by decide +kernel
/-- The token that equals NEXT passes, one in a cycle (R249). -/
theorem test_exit_held : seen (fun t => ((t.reorder 0 5 1 0).next, (t.reorder 0 5 1 0).held.length)) (.exitDelivery 0 0)
    ((heldBack 0).modCluster 0 fun k => { k with reorders := k.reorders.map fun r => { r with next := 2 } }) = some (3, 0) := by decide +kernel
theorem test_invalidation_wakes : seen (fun t => ((t.context 0 0).mmBusy, (t.context 0 0).park, (t.context 0 0).pc)) (.invalidationComplete 0 0)
    ((sweptDone 1).modMe fun c => { c with park := .timer 9 }) = some (false, .none, 8) := by decide +kernel

end Sys2Proof.Tests
end

section
/-!
PROOFS. The decoders said once (03_formats.md R59 to R71): when a word decodes, and the breaches of R68 to R70 that make a
control-core word ILLEGAL whatever its other fields hold; and with them the manual's worked encodings.
-/
namespace Sys2Proof

/-! When a word decodes -/

/-- A control-core word decodes when its opcode has a row, its fields keep to the row, and the row names the instruction. -/
theorem decodeCore_eq_ok_iff {w : Nat} {i : Instr} :
    decodeCore w = .ok i ↔ ∃ r, Decode.coreRow (Decode.field w 63 56) = some r ∧ Decode.coreFieldsOk r w = true ∧ Decode.coreInstr w = some i := by
  unfold decodeCore
  cases hr : Decode.coreRow (Decode.field w 63 56) with
  | none => simp
  | some r =>
    cases hf : Decode.coreFieldsOk r w with
    | false => simp [hf]
    | true => cases hi : Decode.coreInstr w <;> simp [hf]

/-- An operator word decodes when its fields have a meaning and its OPC is assigned. -/
theorem decodeFabric_eq_ok_iff {w : Nat} {i : Instr} :
    decodeFabric w = .ok i ↔ ∃ f, Decode.fabricFields w = .ok f ∧ Decode.fabricInstr (Decode.opcField w) f = some i := by
  unfold decodeFabric
  cases hf : Decode.fabricFields w with
  | error e => by_cases ho : OpTable.row (Decode.opcField w) = none <;> simp [ho]
  | ok f => cases hi : Decode.fabricInstr (Decode.opcField w) f <;> simp [hi]

/-- Every breach of a row's fields is ILLEGAL (R71), as an opcode without a row is. -/
theorem decodeCore_eq_illegal {w : Nat}
    (h : ∀ r, Decode.coreRow (Decode.field w 63 56) = some r → Decode.coreFieldsOk r w = false) : decodeCore w = .error .illegal := by
  unfold decodeCore
  cases hr : Decode.coreRow (Decode.field w 63 56) with
  | none => rfl
  | some r => simp [h r hr]

/-! The breaches of R68 to R70 -/

/-- SO is the lowest bit of the five that stay zero in an instruction without a scope (R68, R69). -/
theorem Decode.scope_eq_zero_of_field_40_36 {w : Nat} (h : Decode.field w 40 36 = 0) : Decode.field w 40 37 = 0 := by
  simp only [Decode.field] at h ⊢
  omega

/-- What a word whose fields keep to a row holds in SCOPE: a scope that SO selects, or zero (R69). -/
theorem Decode.scope_of_coreFieldsOk {r : Decode.CoreRow} {w : Nat} (h : Decode.coreFieldsOk r w = true) :
    if Decode.field w 36 36 = 1 then Decode.field w 40 37 ≤ 11 else Decode.field w 40 37 = 0 := by
  simp only [Decode.coreFieldsOk, Bool.and_eq_true] at h
  obtain ⟨-, hscope⟩ := h
  cases hr : r.scope with
  | false =>
    have hzero : Decode.field w 40 37 = 0 := Decode.scope_eq_zero_of_field_40_36 (by simpa [hr] using hscope)
    simp [hzero]
  | true =>
    by_cases hso : Decode.field w 36 36 = 1
    · simpa [hr, hso] using hscope
    · simpa [hr, hso] using (show Decode.field w 40 37 = 0 ∧ r.needsSo = false by simpa [hr, hso] using hscope).1

/-- An xb field that the row does not name is zero (R68, R70). -/
theorem Decode.xb_of_coreFieldsOk {r : Decode.CoreRow} {w : Nat} (h : Decode.coreFieldsOk r w = true) (hxb : r.xb = false) :
    Decode.field w 45 41 = 0 := by
  simp_all [Decode.coreFieldsOk]

/-- SCOPE without SO is ILLEGAL in every instruction (R69, R71). -/
theorem decodeCore_scope_without_so {w : Nat} (hso : Decode.field w 36 36 = 0) (hscope : Decode.field w 40 37 ≠ 0) :
    decodeCore w = .error .illegal :=
  decodeCore_eq_illegal fun _ _ => Bool.eq_false_iff.mpr fun hok => hscope (by simpa [hso] using Decode.scope_of_coreFieldsOk hok)

/-- SCOPE 0xC to 0xF is ILLEGAL in every instruction (R69, R71). -/
theorem decodeCore_reserved_scope {w : Nat} (hscope : 11 < Decode.field w 40 37) : decodeCore w = .error .illegal :=
  decodeCore_eq_illegal fun _ _ => Bool.eq_false_iff.mpr fun hok => by
    have := Decode.scope_of_coreFieldsOk hok
    split at this <;> omega

/-- A nonzero xb that the operand list does not name is ILLEGAL (R68, R71). -/
theorem decodeCore_unnamed_xb {w : Nat} {r : Decode.CoreRow} (hr : Decode.coreRow (Decode.field w 63 56) = some r) (hxb : r.xb = false)
    (hw : Decode.field w 45 41 ≠ 0) : decodeCore w = .error .illegal :=
  decodeCore_eq_illegal fun r' hr' => Bool.eq_false_iff.mpr fun hok => by
    obtain rfl : r = r' := Option.some.inj (hr.symm.trans hr')
    exact hw (Decode.xb_of_coreFieldsOk hok hxb)

/-! The manual's words -/

theorem decodeCore_of_row {w : Nat} {r : Decode.CoreRow} {i : Instr} (hr : Decode.coreRow (Decode.field w 63 56) = some r)
    (hf : Decode.coreFieldsOk r w = true) (hi : Decode.coreInstr w = some i) : decodeCore w = .ok i :=
  decodeCore_eq_ok_iff.mpr ⟨r, hr, hf, hi⟩

theorem decodeFabric_of_fields {w : Nat} {f : OpFields} {i : Instr} (hf : Decode.fabricFields w = .ok f)
    (hi : Decode.fabricInstr (Decode.opcField w) f = some i) : decodeFabric w = .ok i :=
  decodeFabric_eq_ok_iff.mpr ⟨f, hf, hi⟩

/-- The outcomes that 03_formats.md forbids under R71: the worked load with SCOPE 4 and SO 0, with SCOPE 0xF, and with 4 in xb. -/
theorem decodeCore_forbidden_words :
    ∀ w ∈ [0x3638C08000000018, 0x3638C1F000000018, 0x3638C89000000018], decodeCore w = .error .illegal := by
  have hscope : decodeCore 0x3638C08000000018 = .error .illegal := decodeCore_scope_without_so (by decide) (by decide)
  have hreserved : decodeCore 0x3638C1F000000018 = .error .illegal := decodeCore_reserved_scope (by decide)
  have hxb : decodeCore 0x3638C89000000018 = .error .illegal := decodeCore_unnamed_xb rfl rfl (by decide)
  simp [hscope, hreserved, hxb]

/-- Settles O56: each worked word keeps to the row or the fields that name its instruction, and each forbidden word breaches R68 or R69. -/
theorem manualWordsDecode : Obligations.ManualWordsDecode := by
  refine ⟨?ldxDie, ?ldxPage, ?beq, ?amoCas, ?jalr, ?cend, decodeCore_forbidden_words, ?vadd, ?nadd, ?vshl, ?mma⟩
  case ldxDie | ldxPage | beq | amoCas | jalr | cend => exact decodeCore_of_row rfl rfl rfl
  case vadd | nadd | vshl | mma => exact decodeFabric_of_fields rfl rfl

end Sys2Proof
end

section
/-!
PROOFS. Credits and records of the fabric (02_tokens.md R47, R48, R52): what returning a credit, recording an event and purging a
token change, and what they leave as it was.
-/
namespace Sys2Proof.Machine

/-! A flit enters a mesh -/

@[simp] theorem State.tile_inject (s : State) (ck : Nat) (src : MeshSource) (goal : Nat × Nat) (n : Bool) (vc : Nat) (x : Cargo) (k : Nat) :
    (s.inject ck src goal n vc x).tile k = s.tile k := rfl
@[simp] theorem State.flits_inject (s : State) (ck : Nat) (src : MeshSource) (goal : Nat × Nat) (n : Bool) (vc : Nat) (x : Cargo) :
    ((s.inject ck src goal n vc x).cluster ck).flits = (s.cluster ck).flits ++ [src.flit s.cycles goal n vc x] := by
  simp [State.inject]

/-! A credit returns to its port -/

/-- Returning a credit puts a flit into a mesh and does nothing else. -/
theorem State.returnCredit_frame (s : State) (tk : Nat) (c : Option Credit) (d : Colour) :
    s.returnCredit tk c d = { s with clusters := (s.returnCredit tk c d).clusters } := by
  cases c <;> rfl
@[simp] theorem State.tile_returnCredit (s : State) (tk : Nat) (c : Option Credit) (d : Colour) (k : Nat) :
    (s.returnCredit tk c d).tile k = s.tile k := by
  cases c <;> rfl

/-! A token is purged -/

/-- The record of a purge (R52). -/
theorem State.records_purge (s : State) (tk : Nat) (t : Token) (status fault : Nat) :
    (s.purge tk t status fault).records = s.records ++ [s.mkRecord (ckOf tk) (s.ringOfColour t.tag.colour) (s.colour t.tag.colour).world 0x02
      status fault t.tag.colour t.payload.bytes t.tag.toWord] := by
  unfold State.purge State.recordColour State.record
  rw [State.returnCredit_frame]; rfl
/-- A purge changes no tile and no memory: it returns a credit and writes a record (R52). -/
@[simp] theorem State.tile_purge (s : State) (tk : Nat) (t : Token) (status fault k : Nat) : (s.purge tk t status fault).tile k = s.tile k :=
  State.tile_returnCredit ..
@[simp] theorem State.dram_purge (s : State) (tk : Nat) (t : Token) (status fault : Nat) : (s.purge tk t status fault).dram = s.dram := by
  show (s.returnCredit tk t.credit t.tag.colour).dram = s.dram
  rw [State.returnCredit_frame]

end Sys2Proof.Machine
end

section
/-!
PROOFS. Old entries of a matching store (02_tokens.md R50 to R57): which entry a tile acts on, what its colour's policy does to it, the
acknowledgement of a spilled record, and its read-back.
-/
namespace Sys2Proof.Machine

/-! An entry as old as its colour's limit -/

/-- The entry that a tile acts on is the first that waits, is not spilling, and is as old as its colour's limit (R50). -/
def State.isOld (s : State) (x : Nat × Entry) : Bool :=
  x.2.state = .wait && !x.2.spilling && (s.colour x.2.token.tag.colour).age != 0 && (s.colour x.2.token.tag.colour).age ≤ x.2.age

theorem execStallAgeExpiry_eq (s : State) {tk i : Nat} {e : Entry} (hfree : (s.tile tk).lastFired.getD 4 0 ≠ s.cycles + 1)
    (hold : (s.tile tk).store.find? s.isOld = some (i, e)) :
    exec (.stallAgeExpiry tk) s = .next ((s.acted tk).actOn tk i e 0x01) := by
  have hold' := hold
  unfold State.isOld at hold'
  simp only [exec, execStallAgeExpiry, if_neg hfree, hold']

@[simp] theorem State.colour_acted (s : State) (tk : Nat) (c : Colour) : (s.acted tk).colour c = s.colour c := rfl
@[simp] theorem State.store_acted (s : State) (tk : Nat) : ((s.acted tk).tile tk).store = (s.tile tk).store := by
  simp [State.acted]
@[simp] theorem State.spills_acted (s : State) (tk : Nat) : ((s.acted tk).tile tk).spills = (s.tile tk).spills := by
  simp [State.acted]
theorem State.spillFull_acted (s : State) (tk i : Nat) (t : Tag) : ((s.acted tk).tile tk).spillFull i t = (s.tile tk).spillFull i t := by
  simp [Tile.spillFull]

/-! What the policy does (R52, R56) -/

theorem State.actOn_purges (s : State) (tk i : Nat) (e : Entry) (status : Nat) (h : (s.colour e.token.tag.colour).spill = false) :
    s.actOn tk i e status = s.purgeEntry tk i e status := by
  simp [State.actOn, h]
/-- Whether the credit of an operand is another cluster's. -/
def Entry.foreign (e : Entry) (ck : Nat) : Bool := match e.token.credit with | some c => c.ck != ck | none => false
theorem Entry.foreign_iff {e : Entry} {ck : Nat} : e.foreign ck = true ↔ ∃ c, e.token.credit = some c ∧ c.ck ≠ ck := by
  unfold Entry.foreign
  cases e.token.credit <;> simp
theorem State.actOn_spills (s : State) (tk i : Nat) (e : Entry) (status : Nat) (h : (s.colour e.token.tag.colour).spill = true)
    (hb : (s.colour e.token.tag.colour).spillBase ≠ none) : s.actOn tk i e status =
      if e.foreign (ckOf tk) || (s.tile tk).spillFull i e.token.tag then s.purgeEntry tk i e 0x02
      else s.spillStep tk i e (s.present tk e.token.tag) fun s set =>
        if set then s.purgeEntry tk i e 0x02
        else s.spillStep tk i e (s.tileWrite tk e.token.tag.colour (s.spillAt tk e.token.tag) e.token.spillRecord e.token.poison 3) fun s _ =>
          s.setEntry tk i { e with spilling := true } := by
  have hb' : (s.colour e.token.tag.colour).spillBase.isNone = false := by
    cases hs : (s.colour e.token.tag.colour).spillBase <;> simp_all
  simp only [State.actOn, h, hb', Bool.not_true, Bool.or_self]
  rfl

theorem State.store_purgeEntry (s : State) (tk i : Nat) (e : Entry) (status : Nat) :
    ((s.purgeEntry tk i e status).tile tk).store = Map.del (s.tile tk).store i := by
  simp [State.purgeEntry]
theorem State.tile_purgeEntry_other (s : State) {tk j : Nat} (i : Nat) (e : Entry) (status : Nat) (h : j ≠ tk) :
    (s.purgeEntry tk i e status).tile j = s.tile j :=
  (State.tile_purge ..).trans (State.tile_modTile_other s _ h)
theorem State.dram_purgeEntry (s : State) (tk i : Nat) (e : Entry) (status : Nat) : (s.purgeEntry tk i e status).dram = s.dram :=
  State.dram_purge ..

/-! A written record, and a record that is read back (R56, R57) -/

theorem Tile.hasPartner_iff {t : Tile} {i : Nat} {e : Entry} : t.hasPartner i e = true ↔
    ∃ y ∈ t.store, y.1 ≠ i ∧ y.2.token.tag.slot = e.token.tag.slot ∧ y.2.token.tag.same e.token.tag = true := by
  simp [Tile.hasPartner, and_assoc]
theorem Tile.hasPartner_eq_false_iff {t : Tile} {i : Nat} {e : Entry} : t.hasPartner i e = false ↔
    ∀ y ∈ t.store, y.1 = i ∨ y.2.token.tag.slot ≠ e.token.tag.slot ∨ y.2.token.tag.same e.token.tag = false := by
  rw [Bool.eq_false_iff, ne_eq, Tile.hasPartner_iff]
  push Not
  simp [or_iff_not_imp_left]

theorem execSpillAck_eq (s : State) {tk k i : Nat} {e : Entry} (h : ((s.tile tk).store.filter fun x => x.2.spilling)[k]? = some (i, e)) :
    exec (.spillAck tk k) s = if (s.tile tk).hasPartner i e then .next (s.setEntry tk i { e with spilling := false })
      else .next (s.spillStep tk i e (s.presence tk e.token.tag true) fun s _ =>
        s.modTile tk fun x => { x with store := Map.del x.store i, spills := x.spills ++ [⟨e.token, false⟩] }) := by
  simp only [exec, execSpillAck, h]

/-- The state once a read-back has cleared the presence bit and the directory entry (R57). -/
def State.unspilled (u : State) (tk : Nat) (x : SpillEntry) : State :=
  ((u.presence tk x.token.tag false).stateOr u).modTile tk fun y => { y with spills := y.spills.erase x }
theorem execSpillReadback_eq (s : State) {tk k i : Nat} {x : SpillEntry} {l : Launch} {u : State} {bs : List Byte} {bad : Bool}
    (hx : ((s.tile tk).spills.filter fun x => x.reading)[k]? = some x) (hi : (s.tile tk).freeEntry = some i)
    (hroom : s.colourRoom tk x.token.tag.colour = true) (hl : s.launch? (ckOf tk) x.token.tag.ctx.toNat = some l)
    (hplane : l.plane = (s.tile tk).plane.toNat) (hfrozen : s.isFrozen l.world = false)
    (hread : s.tileRead tk x.token.tag.colour (s.spillAt tk x.token.tag) 80 3 = .done u (bs, bad)) :
    exec (.spillReadback tk k) s = match readPayload x.token.payload (bs.drop 16) with
      | none => .next ((u.unspilled tk x).purge tk x.token 0x05 0x03)
      | some p => .next ((u.unspilled tk x).fillWhole tk i { x.token with payload := p, poison := x.token.poison || bad }) := by
  simp only [exec, execSpillReadback, hx, hi, hl, hroom, hplane, hfrozen, hread, decide_true, Bool.not_false, Bool.and_self]
  rfl

end Sys2Proof.Machine

namespace Sys2Proof
open Machine

/-- Settles O42: the policy's cases (`actOn_purges`, `actOn_spills`), then the two steps of a spilled record. -/
theorem entriesAge : Obligations.EntriesAge := by
  intro s tk k
  refine ⟨fun i e z hfree hold hz => ?expiry, fun i e hk => ?ack, fun x i l u bs bad p hx hi hroom hl hplane hfrozen hread => ?readback⟩
  case expiry =>
    subst hz
    rw [execStallAgeExpiry_eq s hfree hold]
    refine ⟨fun hpol => ?purge, fun hpol hbase => ?spill⟩
    case purge =>
      rw [State.actOn_purges (s.acted tk) tk i e 0x01 hpol]
      refine ⟨_, _, rfl, ?_, State.records_purge _ _ _ _ _, rfl, rfl, fun j hj => ?_, State.dram_purgeEntry ..⟩
      · rw [State.store_purgeEntry, State.store_acted]
      · rw [State.tile_purgeEntry_other _ _ _ _ hj]; exact State.tile_modTile_other s _ hj
    case spill =>
      rw [State.actOn_spills (s.acted tk) tk i e 0x01 hpol hbase, State.spillFull_acted]
      refine ⟨fun hrefuse => ?_, fun hown hroom => ?_⟩
      · rw [if_pos (by simpa [Entry.foreign_iff] using hrefuse)]
      · have hown' : e.foreign (ckOf tk) = false := by
          rw [Bool.eq_false_iff, ne_eq, Entry.foreign_iff]
          exact fun ⟨c, hc, hne⟩ => hne (hown c hc)
        simp only [hown', hroom, Bool.or_self]
        refine ⟨fun u hset => ?_, fun u v hclear hwrite => ?_⟩
        · simp [State.spillStep, hset]
        · simp [State.spillStep, hclear, hwrite]
  case ack =>
    rw [execSpillAck_eq s hk]
    refine ⟨fun hpartner => ?_, fun halone v hset => ?_⟩
    · rw [if_pos (Tile.hasPartner_iff.mpr hpartner)]
    · simp [Tile.hasPartner_eq_false_iff.mpr halone, State.spillStep, hset]
  case readback =>
    rw [execSpillReadback_eq s hx hi hroom hl hplane hfrozen hread]
    exact ⟨_, rfl, fun h => by rw [h]; rfl, fun h => by rw [h]; rfl⟩

end Sys2Proof
end

section
/-!
PROOFS. What a table keeps under an update that leaves one of its fields alone, and the readings of the state that follow from it.
-/
namespace Sys2Proof.Machine

/-- A reading of every cluster that an update of one of them keeps. -/
theorem State.cluster_modCluster_keeps {α : Type} (π : Cluster → α) (s : State) (ck : Nat) {g : Cluster → Cluster}
    (h : ∀ k, π (g k) = π k) (c : Nat) : π ((s.modCluster ck g).cluster c) = π (s.cluster c) := by
  by_cases hc : c = ck
  · subst hc; rw [State.cluster_modCluster_self, h]
  · rw [State.cluster_modCluster_other _ _ hc]
/-- A reading of every tile that an update of one of them keeps. -/
theorem State.tile_modTile_keeps {α : Type} (π : Tile → α) (s : State) (tk : Nat) {g : Tile → Tile}
    (h : ∀ t, π (g t) = π t) (k : Nat) : π ((s.modTile tk g).tile k) = π (s.tile k) := by
  by_cases hk : k = tk
  · subst hk; rw [State.tile_modTile_self, h]
  · rw [State.tile_modTile_other _ _ hk]

/-- Whether a port accepts a token is read from the slots of its tile and the launches of its cluster alone (R36). -/
theorem State.accepted_congr {s t : State} {tk : Nat} (plane : Nat) (x : Token) (hs : (t.tile tk).slots = (s.tile tk).slots)
    (hl : (t.cluster (ckOf tk)).launches = (s.cluster (ckOf tk)).launches) : t.accepted tk plane x = s.accepted tk plane x := by
  have hword : t.wordFor tk plane x.tag.slot.toNat x.tag.ctx.toNat = s.wordFor tk plane x.tag.slot.toNat x.tag.ctx.toNat := by
    simp only [State.wordFor, State.launch?, Tile.slot, hs, hl]
    rfl
  unfold State.accepted
  rw [hword]
/-- Where a credit goes is read from the port tables and the launches alone (R48). -/
theorem State.creditGoal_congr {s t : State} (hp : ∀ c, (t.cluster c).ports = (s.cluster c).ports)
    (hl : ∀ c, (t.cluster c).launches = (s.cluster c).launches) (ck : Nat) (c : Credit) : t.creditGoal ck c = s.creditGoal ck c := by
  simp only [State.creditGoal, State.launch?, hp, hl]

end Sys2Proof.Machine
end

section
/-!
PROOFS. A token reaches its tile (02_tokens.md R33, R36 to R39): what its first beat and a further one change there.
-/
namespace Sys2Proof.Machine

/-- Between two states a token is dealt with at tile `tk`: neither memory nor another tile nor a reservation changes. -/
structure AtTile (tk : Nat) (s t : State) : Prop where
  dram : t.dram = s.dram
  others : ∀ j, j ≠ tk → t.tile j = s.tile j
  reserved : (t.tile tk).reserved = (s.tile tk).reserved

theorem AtTile.refl (tk : Nat) (s : State) : AtTile tk s s := ⟨rfl, fun _ _ => rfl, rfl⟩
theorem AtTile.trans {tk : Nat} {s t u : State} (a : AtTile tk s t) (b : AtTile tk t u) : AtTile tk s u :=
  ⟨b.dram.trans a.dram, fun j h => (b.others j h).trans (a.others j h), b.reserved.trans a.reserved⟩
theorem AtTile.modTile (s : State) (tk : Nat) {g : Tile → Tile} (h : ∀ t, (g t).reserved = t.reserved) : AtTile tk s (s.modTile tk g) :=
  ⟨rfl, fun _ hj => State.tile_modTile_other s g hj, State.tile_modTile_keeps (·.reserved) s tk h tk⟩
theorem AtTile.modCluster (s : State) (tk ck : Nat) (g : Cluster → Cluster) : AtTile tk s (s.modCluster ck g) := ⟨rfl, fun _ _ => rfl, rfl⟩

/-! An operand fills an entry (R38) -/

theorem State.fillEntry_eq (s : State) (tk i id : Nat) (beats : List Nat) (t : Token) : s.fillEntry tk i id beats t =
    ({ s with seq := s.seq + 1 } : State).modTile tk fun x =>
      { x with
        store := Map.put x.store i ⟨t, id, beats, s.cycles, s.seq, 0, .wait, false⟩
        spills := x.spills.map fun y =>
          if y.token.tag.slot = t.tag.slot && y.token.tag.same t.tag then { y with reading := true } else y } := rfl
theorem AtTile.fillEntry (s : State) (tk i id : Nat) (beats : List Nat) (t : Token) : AtTile tk s (s.fillEntry tk i id beats t) := by
  have hseq : AtTile tk s { s with seq := s.seq + 1 } := ⟨rfl, fun _ _ => rfl, rfl⟩
  rw [State.fillEntry_eq]
  refine hseq.trans (AtTile.modTile _ tk ?_)
  exact fun _ => rfl
@[simp] theorem State.store_fillEntry (s : State) (tk i id : Nat) (beats : List Nat) (t : Token) :
    ((s.fillEntry tk i id beats t).tile tk).store = Map.put (s.tile tk).store i ⟨t, id, beats, s.cycles, s.seq, 0, .wait, false⟩ := by
  rw [State.fillEntry_eq, State.tile_modTile_self]; rfl
@[simp] theorem State.clusters_fillEntry (s : State) (tk i id : Nat) (beats : List Nat) (t : Token) (c : Nat) :
    (s.fillEntry tk i id beats t).cluster c = s.cluster c := rfl

/-! A token that is caught on its link, and one that is discarded (R36; 21_faults_preemption.md R380) -/

theorem AtTile.catchToken (s : State) (tk : Nat) (e : Edge) (t : Token) {fill : State → State} (h : ∀ u, AtTile tk u (fill u)) :
    AtTile tk s (s.catchToken tk e t fill) := by
  unfold State.catchToken
  simp only
  split
  · exact AtTile.modCluster ..
  · exact (AtTile.modCluster ..).trans (h _)

theorem AtTile.discardToken (s : State) (tk : Nat) (t : Token) : AtTile tk s (s.discardToken tk t) := by
  have hdram : (s.discardToken tk t).dram = (s.returnCredit tk t.credit t.tag.colour).dram := rfl
  exact ⟨by rw [hdram, State.returnCredit_frame], fun _ _ => State.tile_returnCredit .., congrArg _ (State.tile_returnCredit ..)⟩
@[simp] theorem State.tile_discardToken (s : State) (tk : Nat) (t : Token) (k : Nat) : (s.discardToken tk t).tile k = s.tile k :=
  State.tile_returnCredit ..
theorem State.records_discardToken (s : State) (tk : Nat) (t : Token) :
    ∃ r : EventRecord, (s.discardToken tk t).records = s.records ++ [r] := by
  have hrecords : (s.returnCredit tk t.credit t.tag.colour).records = s.records := by rw [State.returnCredit_frame]
  exact ⟨_, congrArg (· ++ _) hrecords⟩
theorem State.flits_discardToken (s : State) (tk : Nat) (t : Token) : ((s.discardToken tk t).cluster (ckOf tk)).flits =
    (s.cluster (ckOf tk)).flits ++ (t.credit.toList.map fun c =>
      (MeshSource.tile (tiOf tk)).flit s.cycles (s.creditGoal (ckOf tk) c) true 3 (.credit c t.tag.colour)) := by
  show ((s.returnCredit tk t.credit t.tag.colour).cluster (ckOf tk)).flits = _
  cases t.credit <;> simp [State.returnCredit]

/-! The first beat -/

/-- The state once the reservation of a token is free and its arrival on its edge is counted (R39). -/
def State.arrived (s : State) (tk plane : Nat) (edge : Edge) (t : Token) : State :=
  (s.unhold tk ⟨t.tag.colour, t.tag.ctx, t.tag.slot.toNat, plane⟩).countArrival tk plane edge t
theorem State.firstBeat_eq (s : State) (tk i plane id : Nat) (edge : Edge) (t : Token) : s.firstBeat tk i plane id edge t =
    if (s.arrived tk plane edge t).accepted tk plane t = false then (s.arrived tk plane edge t).discardToken tk t
    else if (s.arrived tk plane edge t).isCaught tk plane edge t then
      (s.arrived tk plane edge t).catchToken tk edge t fun u => u.fillEntry tk i id [u.cycles] t
    else (s.arrived tk plane edge t).fillEntry tk i id [(s.arrived tk plane edge t).cycles] t := by
  unfold State.firstBeat
  simp only [Bool.not_eq_true']
  rfl

/-- Counting an arrival leaves a tile's store, slots and reservations as they are. -/
theorem State.tile_countArrival_keeps {α : Type} (π : Tile → α) (h : ∀ t a b, π { t with received := a, receivedNew := b } = π t)
    (s : State) (tk plane : Nat) (e : Edge) (t : Token) (k : Nat) : π ((s.countArrival tk plane e t).tile k) = π (s.tile k) := by
  refine State.tile_modTile_keeps π s tk (fun x => ?_) k
  split
  · exact h x x.received _
  · exact h x _ x.receivedNew
theorem State.arrived_frame (s : State) (tk plane : Nat) (e : Edge) (t : Token) :
    s.arrived tk plane e t = { s with tiles := (s.arrived tk plane e t).tiles } := rfl
theorem State.tile_arrived_other (s : State) {tk j : Nat} (plane : Nat) (e : Edge) (t : Token) (h : j ≠ tk) :
    (s.arrived tk plane e t).tile j = s.tile j :=
  (State.tile_modTile_other _ _ h).trans (State.tile_modTile_other _ _ h)
theorem State.reserved_arrived (s : State) (tk plane : Nat) (e : Edge) (t : Token) : ((s.arrived tk plane e t).tile tk).reserved =
    (s.tile tk).reserved.erase ⟨t.tag.colour, t.tag.ctx, t.tag.slot.toNat, plane⟩ := by
  unfold State.arrived
  rw [State.tile_countArrival_keeps (·.reserved) (fun _ _ _ => rfl)]
  simp [State.unhold]
theorem State.store_arrived (s : State) (tk plane : Nat) (e : Edge) (t : Token) :
    ((s.arrived tk plane e t).tile tk).store = (s.tile tk).store := by
  unfold State.arrived
  rw [State.tile_countArrival_keeps (·.store) (fun _ _ _ => rfl)]
  simp [State.unhold]
theorem State.accepted_arrived (s : State) (tk plane : Nat) (e : Edge) (t x : Token) :
    (s.arrived tk plane e t).accepted tk plane x = s.accepted tk plane x := by
  refine State.accepted_congr plane x ?_ rfl
  unfold State.arrived
  rw [State.tile_countArrival_keeps (·.slots) (fun _ _ _ => rfl)]
  simp [State.unhold]
/-- No token is caught where its context has no snapshot (21_faults_preemption.md R380). -/
theorem State.isCaught_eq_false {s : State} {tk plane : Nat} {e : Edge} {t : Token} (h : s.snapshotOf (ckOf tk) t.tag.ctx.toNat = none) :
    s.isCaught tk plane e t = false := by
  simp [State.isCaught, h]

/-- Whatever becomes of the token, its first beat frees its reservation and changes no memory and no other tile. -/
theorem State.firstBeat_atTile (s : State) (tk i plane id : Nat) (e : Edge) (t : Token) :
    AtTile tk (s.arrived tk plane e t) (s.firstBeat tk i plane id e t) := by
  rw [State.firstBeat_eq]
  split
  · exact AtTile.discardToken ..
  · split
    · exact AtTile.catchToken _ _ _ _ fun u => AtTile.fillEntry ..
    · exact AtTile.fillEntry ..

/-! A flit leaves its buffer -/

@[simp] theorem State.flits_meshTake (s : State) (ck i : Nat) (f : Flit) :
    ((s.meshTake ck i f).cluster ck).flits = (s.cluster ck).flits.eraseIdx i := by simp [State.meshTake]
theorem State.launches_meshTake (s : State) (ck i : Nat) (f : Flit) (c : Nat) :
    ((s.meshTake ck i f).cluster c).launches = (s.cluster c).launches :=
  State.cluster_modCluster_keeps (·.launches) s ck (by intro k; rfl) c
theorem State.ports_meshTake (s : State) (ck i : Nat) (f : Flit) (c : Nat) :
    ((s.meshTake ck i f).cluster c).ports = (s.cluster c).ports :=
  State.cluster_modCluster_keeps (·.ports) s ck (by intro k; rfl) c
theorem State.snapshotOf_meshTake (s : State) (ck i : Nat) (f : Flit) (c ctx : Nat) :
    (s.meshTake ck i f).snapshotOf c ctx = s.snapshotOf c ctx := by
  have h : ((s.meshTake ck i f).cluster c).snapshots = (s.cluster c).snapshots :=
    State.cluster_modCluster_keeps (·.snapshots) s ck (by intro k; rfl) c
  simp only [State.snapshotOf, h]

/-! TOKEN_ARRIVAL -/

theorem execTokenArrival_waits (s : State) {ck k id plane beat : Nat} {f : Flit} {e : Edge} {x : Token} (hf : (s.cluster ck).flits[k]? = some f)
    (hc : f.cargo = .token e plane id beat x) (hg : s.meshGrant ck f.router f.out f.narrow ≠ some (k, f)) :
    exec (.tokenArrival ck k) s = .next s := by
  simp only [exec, execTokenArrival, hf, hc]
  split
  · simp [hg]
  · rfl
theorem execTokenArrival_takes (s : State) {ck k i id plane beat : Nat} {f : Flit} {e : Edge} {x : Token}
    (hf : (s.cluster ck).flits[k]? = some f) (hc : f.cargo = .token e plane id beat x) (hgoal : f.atGoal = true)
    (hi : (s.tile (192 * ck + f.dst)).freeEntry = some i) (hg : s.meshGrant ck f.router f.out f.narrow = some (k, f)) :
    exec (.tokenArrival ck k) s = .next (if beat = 0 then (s.meshTake ck k f).firstBeat (192 * ck + f.dst) i plane id e x
      else (s.meshTake ck k f).modTile (192 * ck + f.dst) fun t => t.holdBeat id s.cycles) := by
  simp only [exec, execTokenArrival, hf, hc, hi, hgoal, hg]
  simp
  rfl

/-- The first beat of a token that its port accepts, where no snapshot is under way, fills the entry (R38). -/
theorem State.firstBeat_accepts (s : State) {tk plane : Nat} {t : Token} (i id : Nat) (e : Edge) (ha : s.accepted tk plane t = true)
    (hs : s.snapshotOf (ckOf tk) t.tag.ctx.toNat = none) :
    s.firstBeat tk i plane id e t = (s.arrived tk plane e t).fillEntry tk i id [s.cycles] t := by
  have hcaught : (s.arrived tk plane e t).isCaught tk plane e t = false := State.isCaught_eq_false hs
  rw [State.firstBeat_eq, State.accepted_arrived, if_neg (by simp [ha]), if_neg (by simp [hcaught])]
  rfl
/-- The first beat of a token that its port does not accept is dropped (R36). -/
theorem State.firstBeat_drops (s : State) {tk plane : Nat} {t : Token} (i id : Nat) (e : Edge) (ha : s.accepted tk plane t = false) :
    s.firstBeat tk i plane id e t = (s.arrived tk plane e t).discardToken tk t := by
  rw [State.firstBeat_eq, State.accepted_arrived, if_pos ha]

/-- What TOKEN_ARRIVAL says of the state `t` that a first beat leaves (R36 to R39). -/
theorem State.firstBeat_arrives (s : State) {ck tk : Nat} (k i plane id : Nat) (f : Flit) (e : Edge) (x : Token) (hck : ckOf tk = ck)
    {t : State} (ht : t = (s.meshTake ck k f).firstBeat tk i plane id e x) : t.dram = s.dram ∧ (∀ j, j ≠ tk → t.tile j = s.tile j) ∧
    (t.tile tk).reserved = (s.tile tk).reserved.erase ⟨x.tag.colour, x.tag.ctx, x.tag.slot.toNat, plane⟩ ∧
    (s.accepted tk plane x = true → s.snapshotOf ck x.tag.ctx.toNat = none → (t.cluster ck).flits = (s.cluster ck).flits.eraseIdx k ∧
      (t.tile tk).store = Map.put (s.tile tk).store i ⟨x, id, [s.cycles], s.cycles, s.seq, 0, .wait, false⟩) ∧
    (s.accepted tk plane x = false → (t.tile tk).store = (s.tile tk).store ∧ (∃ r : EventRecord, t.records = s.records ++ [r]) ∧
      (t.cluster ck).flits = (s.cluster ck).flits.eraseIdx k ++ (x.credit.toList.map fun c =>
        (MeshSource.tile (tiOf tk)).flit s.cycles (s.creditGoal ck c) true 3 (.credit c x.tag.colour))) := by
  subst hck ht
  have htaken : (s.meshTake (ckOf tk) k f).accepted tk plane x = s.accepted tk plane x :=
    State.accepted_congr plane x rfl (State.launches_meshTake ..)
  have hat := (s.meshTake (ckOf tk) k f).firstBeat_atTile tk i plane id e x
  refine ⟨hat.dram, fun j hj => ?_, ?_, fun ha hs => ?_, fun ha => ?_⟩
  · exact (hat.others j hj).trans (State.tile_arrived_other _ _ _ _ hj)
  · exact hat.reserved.trans (State.reserved_arrived ..)
  · rw [State.firstBeat_accepts _ i id e (htaken.trans ha) ((State.snapshotOf_meshTake ..).trans hs)]
    refine ⟨(State.flits_meshTake ..), ?_⟩
    rw [State.store_fillEntry, State.store_arrived]
    rfl
  · rw [State.firstBeat_drops _ i id e (htaken.trans ha)]
    refine ⟨?_, State.records_discardToken .., ?_⟩
    · rw [State.tile_discardToken, State.store_arrived]
      rfl
    · have hgoal : ∀ c, ((s.meshTake (ckOf tk) k f).arrived tk plane e x).creditGoal (ckOf tk) c = s.creditGoal (ckOf tk) c :=
        State.creditGoal_congr (State.ports_meshTake s (ckOf tk) k f) (State.launches_meshTake s (ckOf tk) k f) (ckOf tk)
      have hflits : (((s.meshTake (ckOf tk) k f).arrived tk plane e x).cluster (ckOf tk)).flits = (s.cluster (ckOf tk)).flits.eraseIdx k :=
        State.flits_meshTake ..
      rw [State.flits_discardToken, hflits]
      simp only [hgoal]
      rfl

end Sys2Proof.Machine
end

section
/-!
PROOFS. Credits that come to their ports (02_tokens.md R48), the promotion of a buffer's head (07_network.md R146), and the counting of
stalls (02_tokens.md R45).
-/
namespace Sys2Proof.Machine

/-! Credits -/

theorem execCreditReturn_eq (s : State) {ck k : Nat} {c : Nat × Colour} (h : (s.cluster ck).credits[k]? = some c) :
    exec (.creditReturn ck k) s =
      .next (s.modCluster ck fun x => { x with credits := x.credits.eraseIdx k, returned := x.returned ++ [c] }) := by
  simp only [exec, execCreditReturn, h]
theorem Cluster.creditsTaken_one {x : Cluster} {p : Nat} {c : Colour} {e : PortEntry} (hr : x.returned = [(p, c)])
    (he : Map.get? x.ports p = some e) : x.creditsTaken = { x with
      returned := []
      ports := Map.put x.ports p { e with inFlight := Map.put e.inFlight c.toNat (Map.get e.inFlight c.toNat 0 - 1) } } := by
  simp [Cluster.creditsTaken, hr, Cluster.creditTaken, he]

/-! Promotion -/

theorem Flit.sameBuffer_iff {f g : Flit} :
    f.sameBuffer g = true ↔ g.router = f.router ∧ g.inp = f.inp ∧ g.narrow = f.narrow ∧ g.vc = f.vc := by
  simp only [Flit.sameBuffer, Bool.and_eq_true, decide_eq_true_eq, and_assoc]
  exact ⟨fun ⟨a, b, c, d⟩ => ⟨a.symm, b.symm, c.symm, d.symm⟩, fun ⟨a, b, c, d⟩ => ⟨a.symm, b.symm, c.symm, d.symm⟩⟩
/-- A flit is the head of its buffer where none of the buffer stands before it (R145). -/
theorem Cluster.isHead_iff {k : Cluster} {i : Nat} {f : Flit} : k.isHead i f = true ↔
    ∀ g ∈ k.flits.take i, ¬ (g.router = f.router ∧ g.inp = f.inp ∧ g.narrow = f.narrow ∧ g.vc = f.vc) := by
  simp only [Cluster.isHead, Cluster.ahead, decide_eq_true_eq, List.length_eq_zero_iff, List.filter_eq_nil_iff, Flit.sameBuffer_iff]

/-- FLIT_PROMOTION promotes the flit, or finds it promoted (R146). -/
theorem execFlitPromotion_eq (s : State) {ck k : Nat} {f : Flit} (hf : (s.cluster ck).flits[k]? = some f) (hon : (s.cluster ck).promo ≠ 0)
    (hage : (s.cluster ck).promo.toNat ≤ f.age) (hvc : f.vc ≤ 1) (hhead : (s.cluster ck).isHead k f = true) :
    exec (.flitPromotion ck k) s = if f.promoted then .next s
      else .next (s.modCluster ck fun x => { x with flits := x.flits.set k { f with promoted := true } }) := by
  have hpromotes : (s.cluster ck).promotes k f = !f.promoted := by
    simp only [Cluster.promotes, bne_iff_ne.mpr hon, decide_eq_true hage, decide_eq_true hvc, hhead, Bool.true_and, Bool.and_true]
  simp only [exec, execFlitPromotion, hf, hpromotes]
  cases f.promoted <;> rfl

/-! Stalls -/

theorem execStallCount_waits (s : State) {tk slot : Nat} (h : ((s.tile tk).slot slot).countedAt = s.cycles + 1 ∨
    ((s.tile tk).slot slot).firedAt = s.cycles + 1 ∨ s.slotStarts tk slot = true) : exec (.stallCount tk slot) s = .next s := by
  have h' : ((s.tile tk).slot slot).countedAt = s.cycles + 1 ∨ ((s.tile tk).slot slot).firedAt = s.cycles + 1 ∨
      s.slotStarts tk slot = true ∨ s.isFrozen ((s.planeWorld tk (slot / 64)).getD 0) = true := by
    rcases h with h | h | h <;> simp [h]
  simp only [exec, execStallCount, if_pos h']
/-- The STALL field of a slot's word, which selects an aggregate counter (03_formats.md R60). -/
def State.stallSel (s : State) (tk slot : Nat) : Nat :=
  match s.slotOp tk (slot / 64) (slot % 64) with | some (_, f) => f.flags.stall.toNat | none => 0
theorem execStallCount_counts (s : State) {tk slot c : Nat} (hf : s.isFrozen ((s.planeWorld tk (slot / 64)).getD 0) = false)
    (hc : s.stallCause tk slot = some c) (h1 : ((s.tile tk).slot slot).countedAt ≠ s.cycles + 1)
    (h2 : ((s.tile tk).slot slot).firedAt ≠ s.cycles + 1) (h3 : s.slotStarts tk slot = false) : exec (.stallCount tk slot) s =
      .next (s.modTile tk fun t => (t.modSlot slot fun x => x.stalled c s.cycles).stalled (s.stallSel tk slot)) := by
  have h' : ¬ (((s.tile tk).slot slot).countedAt = s.cycles + 1 ∨ ((s.tile tk).slot slot).firedAt = s.cycles + 1 ∨
      s.slotStarts tk slot = true ∨ s.isFrozen ((s.planeWorld tk (slot / 64)).getD 0) = true) := by
    rintro (h | h | h | h)
    exacts [h1 h, h2 h, Bool.false_ne_true (h3.symm.trans h), Bool.false_ne_true (hf.symm.trans h)]
  simp only [exec, execStallCount, if_neg h', hc]
  rfl
/-- One counter of a slot grows, the one of its cause. -/
theorem Slot.stalled_eq (a : Slot) (c now : Nat) : a.stalled c now = { (match c with
      | 1 => { a with waitPlane := satInc a.waitPlane } | 2 => { a with waitFault := satInc a.waitFault }
      | 3 => { a with waitQuota := satInc a.waitQuota } | 4 => { a with waitOutput := satInc a.waitOutput }
      | 5 => { a with waitOperand := satInc a.waitOperand } | _ => a) with countedAt := now + 1 } := by
  match c with
  | 0 | 1 | 2 | 3 | 4 | 5 => rfl
  | n + 6 => simp [Slot.stalled]
@[simp] theorem Tile.slot_stalled (t : Tile) (sel j : Nat) : (t.stalled sel).slot j = t.slot j := rfl
theorem Tile.slot_modSlot_other (t : Tile) {k j : Nat} (g : Slot → Slot) (h : j ≠ k) : (t.modSlot k g).slot j = t.slot j :=
  Map.get_put_other _ _ _ h

end Sys2Proof.Machine

namespace Sys2Proof
open Machine

theorem tokenSteps : Claims.TokenSteps := by
  intro s ck k
  refine ⟨fun f tk i edge plane id beat x hf hc htk hgoal hck hi => ⟨fun hg => ?waits, fun hg => ?arrives⟩, fun p c hcr => ?credit,
    fun x p c e hr he => ?taken, fun f hf hon hage hvc hhead => ?promotion, fun tk slot c a hfrozen hc ha => ⟨fun h => ?idle, fun h1 h2 h3 => ?counts⟩⟩
  case waits => exact execTokenArrival_waits s hf hc hg
  case arrives =>
    subst htk
    refine ⟨_, execTokenArrival_takes s hf hc hgoal hi hg, ?_⟩
    split
    case isTrue hb =>
      obtain ⟨hdram, hothers, hreserved, haccepts, hdrops⟩ := s.firstBeat_arrives k i plane id f edge x hck rfl
      exact ⟨hdram, hothers, fun _ => ⟨hreserved, haccepts, hdrops⟩, fun h => absurd hb h⟩
    case isFalse hb =>
      refine ⟨rfl, fun j hj => State.tile_modTile_other _ _ hj, fun h => absurd h hb, fun _ => ⟨State.flits_meshTake .., ?_, ?_⟩⟩
      · rw [State.tile_modTile_self]; rfl
      · rw [State.tile_modTile_self]; rfl
  case credit => exact ⟨_, execCreditReturn_eq s hcr, by simp, by simp, by simp, rfl⟩
  case taken =>
    rw [Cluster.creditsTaken_one hr he]
    exact ⟨rfl, Map.get?_put_self ..⟩
  case promotion =>
    rw [execFlitPromotion_eq s hf hon hage hvc (Cluster.isHead_iff.mpr hhead)]
    cases hp : f.promoted with
    | true => exact ⟨s, rfl, by rw [hf, ← hp], fun _ _ => rfl, rfl⟩
    | false =>
      refine ⟨_, rfl, ?_, fun j hj => ?_, rfl⟩
      · simp [(List.getElem?_eq_some_iff.mp hf).1]
      · simp [List.getElem?_set_ne (Ne.symm hj)]
  case idle =>
    subst ha
    exact execStallCount_waits s h
  case counts =>
    subst ha
    refine ⟨_, execStallCount_counts s hfrozen hc h1 h2 h3, rfl, ?_, fun j hj => ?_, fun j hj => State.tile_modTile_other _ _ hj⟩
    · rw [State.tile_modTile_self, Tile.slot_stalled, Tile.slot_modSlot_self]
      exact Slot.stalled_eq ..
    · rw [State.tile_modTile_self, Tile.slot_stalled, Tile.slot_modSlot_other _ _ hj]

end Sys2Proof
end

section
/-!
PROOFS. What an output of a router grants (07_network.md R143 to R147): the order of the levels and of one level, the way of a granted
flit, and the turns of the channels.
-/
namespace Sys2Proof.Machine

/-! The first of some flits in the order of an output -/

/-- The first flit of a list is one of them, and none of the list or of those before is older. -/
theorem OutPort.foldl_prefers (p : OutPort) (xs : List (Nat × Flit)) (b : Nat × Flit) :
    ∃ y, xs.foldl (fun b x => match b with | none => some x | some y => if p.prefers x.2 y.2 then some x else b) (some b) = some y ∧
      y ∈ b :: xs ∧ ∀ x ∈ b :: xs, x.2.age ≤ y.2.age := by
  induction xs generalizing b with
  | nil => exact ⟨b, rfl, List.mem_cons_self, by simp⟩
  | cons x xs ih =>
    by_cases h : p.prefers x.2 b.2 = true
    · obtain ⟨y, hy, hmem, hage⟩ := ih x
      have hb : b.2.age ≤ x.2.age := by
        simp only [OutPort.prefers, Bool.or_eq_true, Bool.and_eq_true, decide_eq_true_eq] at h
        omega
      refine ⟨y, by simpa [h] using hy, List.mem_cons_of_mem _ hmem, fun z hz => ?_⟩
      rcases List.mem_cons.mp hz with rfl | hz
      · exact hb.trans (hage x List.mem_cons_self)
      · exact hage z hz
    · obtain ⟨y, hy, hmem, hage⟩ := ih b
      have hx : x.2.age ≤ b.2.age := by
        simp only [OutPort.prefers, Bool.or_eq_true, decide_eq_true_eq, not_or] at h
        omega
      refine ⟨y, by simpa [h] using hy, ?_, fun z hz => ?_⟩
      · rcases List.mem_cons.mp hmem with rfl | hm
        · exact List.mem_cons_self
        · exact List.mem_cons_of_mem _ (List.mem_cons_of_mem _ hm)
      · rcases List.mem_cons.mp hz with rfl | hz
        · exact hage z List.mem_cons_self
        · rcases List.mem_cons.mp hz with rfl | hz
          · exact hx.trans (hage b List.mem_cons_self)
          · exact hage z (List.mem_cons_of_mem _ hz)
/-- The flit that an output chooses is one of those offered, and none of them is older (R145). -/
theorem OutPort.choose_oldest {p : OutPort} {xs : List (Nat × Flit)} {y : Nat × Flit} (h : p.choose xs = some y) :
    y ∈ xs ∧ ∀ x ∈ xs, x.2.age ≤ y.2.age := by
  cases xs with
  | nil => simp [OutPort.choose] at h
  | cons b xs =>
    obtain ⟨z, hz, hmem, hage⟩ := p.foldl_prefers xs b
    obtain rfl : z = y := Option.some.inj (hz.symm.trans h)
    exact ⟨hmem, hage⟩
theorem OutPort.choose_eq_none {p : OutPort} {xs : List (Nat × Flit)} (h : p.choose xs = none) : xs = [] := by
  cases xs with
  | nil => rfl
  | cons b xs =>
    obtain ⟨z, hz, -, -⟩ := p.foldl_prefers xs b
    exact absurd (hz.symm.trans h) (by simp)

/-! Levels (R145, R146) -/

theorem Flit.level_bounds (f : Flit) : 1 ≤ f.level ∧ f.level ≤ 3 := by
  unfold Flit.level
  split
  · omega
  · split <;> omega
/-- At level 3 stand the flits of VC0 and VC1 that are not promoted. -/
theorem Flit.vc_le_one {f : Flit} (h : f.level = 3) (hvc : f.vc ≤ 3) : f.vc ≤ 1 := by
  unfold Flit.level at h
  simp only [Bool.or_eq_true, decide_eq_true_eq] at h
  split at h
  · omega
  · split at h <;> omega

/-! The heads of the buffers -/

theorem State.mem_meshHeads {s : State} {ck r o i : Nat} {n : Bool} {f : Flit} (h : (i, f) ∈ s.meshHeads ck r o n) :
    (s.cluster ck).flits[i]? = some f ∧ f.router = r ∧ f.narrow = n ∧ f.output = o ∧ (s.cluster ck).isHead i f = true ∧
      (f.atGoal = false → (s.cluster ck).bufferRoom f = true) := by
  unfold State.meshHeads at h
  simp only at h
  split at h
  · exact absurd h List.not_mem_nil
  · obtain ⟨j, -, hj⟩ := List.mem_filterMap.mp h
    obtain ⟨g, hg, hif⟩ := Option.bind_eq_some_iff.mp hj
    obtain ⟨hc, hif⟩ := Option.ite_none_right_eq_some.mp hif
    obtain ⟨rfl, rfl⟩ := Prod.mk.inj (Option.some.inj hif)
    simp only [Bool.and_eq_true, decide_eq_true_eq] at hc
    obtain ⟨⟨⟨⟨⟨⟨hr, hn⟩, ho⟩, hh⟩, -⟩, -⟩, hroom⟩ := hc
    exact ⟨hg, hr, hn, ho, hh, fun hgoal => by simpa [hgoal] using hroom⟩
/-- Room at the next hop: fewer than four flits stand in the buffer there (R142). -/
theorem Cluster.bufferRoom_iff {k : Cluster} {f : Flit} : k.bufferRoom f = true ↔
    (k.flits.filter fun g => g.router = (nextRouter f.router f.output).1 ∧ g.inp = (nextRouter f.router f.output).2 ∧
      g.narrow = f.narrow ∧ g.vc = f.vc).length < 4 := by
  have hsame : ({ f with router := (nextRouter f.router f.output).1, inp := (nextRouter f.router f.output).2 } : Flit).sameBuffer =
      fun g => decide (g.router = (nextRouter f.router f.output).1 ∧ g.inp = (nextRouter f.router f.output).2 ∧
        g.narrow = f.narrow ∧ g.vc = f.vc) :=
    funext fun g => Bool.eq_iff_iff.mpr (Flit.sameBuffer_iff.trans (decide_eq_true_iff).symm)
  simp only [Cluster.bufferRoom, hsame, decide_eq_true_eq]

/-! The grant -/

/-- An output grants by level (R145): the oldest of the heads at the lowest level, at level 3 of the channel whose turn it is. -/
theorem State.meshGrant_cases (s : State) (ck r o : Nat) (n : Bool) :
    ∃ (l : Nat) (xs : List (Nat × Flit)), s.meshGrant ck r o n = ((s.cluster ck).outPort r o n).choose xs ∧
      (∀ x ∈ s.meshHeads ck r o n, l ≤ x.2.level) ∧
      (l < 3 ∧ xs ≠ [] ∧ xs = (s.meshHeads ck r o n).filter (fun x => x.2.level = l) ∨
        l = 3 ∧ xs = (s.meshHeads ck r o n).filter fun x => x.2.vc = ((s.cluster ck).outPort r o n).turnOf (s.meshHeads ck r o n)) := by
  unfold State.meshGrant
  simp only [bne_iff_ne]
  by_cases h1 : (s.meshHeads ck r o n).filter (fun x => x.2.level = 1) = []
  · have hnot1 : ∀ x ∈ s.meshHeads ck r o n, x.2.level ≠ 1 := by simpa [List.filter_eq_nil_iff] using h1
    by_cases h2 : (s.meshHeads ck r o n).filter (fun x => x.2.level = 2) = []
    · have hnot2 : ∀ x ∈ s.meshHeads ck r o n, x.2.level ≠ 2 := by simpa [List.filter_eq_nil_iff] using h2
      refine ⟨3, _, by rw [if_neg (by simpa using h1), if_neg (by simpa using h2)], fun x hx => ?_, .inr ⟨rfl, rfl⟩⟩
      have := x.2.level_bounds
      have := hnot1 x hx
      have := hnot2 x hx
      omega
    · refine ⟨2, _, by rw [if_neg (by simpa using h1), if_pos h2], fun x hx => ?_, .inl ⟨by omega, h2, rfl⟩⟩
      have := x.2.level_bounds
      have := hnot1 x hx
      omega
  · exact ⟨1, _, by rw [if_pos h1], fun x _ => x.2.level_bounds.1, .inl ⟨by omega, h1, rfl⟩⟩

/-- What a granted flit is (R142 to R146): a head that has room at its next hop, of the lowest level, and the oldest there. -/
theorem State.meshGrant_some {s : State} {ck r o i : Nat} {n : Bool} {f : Flit} (h : s.meshGrant ck r o n = some (i, f)) :
    (i, f) ∈ s.meshHeads ck r o n ∧ ∀ x ∈ s.meshHeads ck r o n, f.level ≤ x.2.level ∧
      (x.2.level = f.level → f.level < 3 ∨ x.2.vc = f.vc → x.2.age ≤ f.age) ∧
      (f.level = 3 → f.vc ≠ ((s.cluster ck).outPort r o n).turn → x.2.vc ≠ ((s.cluster ck).outPort r o n).turn) := by
  obtain ⟨l, xs, hgrant, hlow, hcases⟩ := s.meshGrant_cases ck r o n
  obtain ⟨hmem, hold⟩ := OutPort.choose_oldest (hgrant.symm.trans h)
  rcases hcases with ⟨hl, -, rfl⟩ | ⟨rfl, rfl⟩
  · obtain ⟨hhead, hlevel⟩ := List.mem_filter.mp hmem
    obtain rfl : f.level = l := by simpa using hlevel
    refine ⟨hhead, fun x hx => ⟨hlow x hx, fun hx' _ => hold x (List.mem_filter.mpr ⟨hx, by simpa using hx'⟩), fun h3 => by omega⟩⟩
  · obtain ⟨hhead, hvc⟩ := List.mem_filter.mp hmem
    have hvc : f.vc = ((s.cluster ck).outPort r o n).turnOf (s.meshHeads ck r o n) := by simpa using hvc
    have h3 : f.level = 3 := le_antisymm f.level_bounds.2 (hlow _ hhead)
    refine ⟨hhead, fun x hx => ⟨h3 ▸ hlow x hx, fun _ hx' => hold x (List.mem_filter.mpr ⟨hx, ?_⟩), fun _ hturn hx' => hturn ?_⟩⟩
    · have : x.2.vc = f.vc := hx'.resolve_left (by omega)
      simp [this, hvc]
    · have hany : (s.meshHeads ck r o n).any (fun x => x.2.vc = ((s.cluster ck).outPort r o n).turn) = true :=
        List.any_eq_true.mpr ⟨x, hx, by simpa using hx'⟩
      rw [hvc, OutPort.turnOf, if_pos hany]
/-- An output that grants nothing has no head to grant. -/
theorem State.meshGrant_none {s : State} {ck r o : Nat} {n : Bool} (hvc : ∀ g ∈ (s.cluster ck).flits, g.vc ≤ 3)
    (hturn : ((s.cluster ck).outPort r o n).turn ≤ 1) (h : s.meshGrant ck r o n = none) : s.meshHeads ck r o n = [] := by
  obtain ⟨l, xs, hgrant, hlow, hcases⟩ := s.meshGrant_cases ck r o n
  have hxs : xs = [] := OutPort.choose_eq_none (hgrant.symm.trans h)
  rcases hcases with ⟨-, hne, -⟩ | ⟨rfl, hfilter⟩
  · exact absurd hxs hne
  · have hnone : ∀ x ∈ s.meshHeads ck r o n, x.2.vc ≠ ((s.cluster ck).outPort r o n).turnOf (s.meshHeads ck r o n) := by
      have := hfilter.symm.trans hxs
      simpa [List.filter_eq_nil_iff] using this
    refine List.eq_nil_iff_forall_not_mem.mpr fun x hx => ?_
    have hone : x.2.vc ≤ 1 := by
      have hmem := List.mem_of_getElem? (State.mem_meshHeads (i := x.1) (f := x.2) hx).1
      exact Flit.vc_le_one (le_antisymm x.2.level_bounds.2 (hlow x hx)) (hvc _ hmem)
    have hx' := hnone x hx
    unfold OutPort.turnOf at hnone hx'
    split at hx'
    case isTrue hany =>
      obtain ⟨y, hy, hyv⟩ := List.any_eq_true.mp hany
      have := hnone y hy
      rw [if_pos hany] at this
      exact this (by simpa using hyv)
    case isFalse hany =>
      have : x.2.vc ≠ ((s.cluster ck).outPort r o n).turn := fun he => hany (List.any_eq_true.mpr ⟨x, hx, by simpa using he⟩)
      omega

/-! The way of a flit (R143), and the turns of the channels (R145, R147) -/

theorem State.flits_meshHop (s : State) (ck i : Nat) (f : Flit) : ((s.meshHop ck i f).cluster ck).flits =
    (s.cluster ck).flits.eraseIdx i ++
      [{ f with router := (nextRouter f.router f.output).1, inp := (nextRouter f.router f.output).2, enters := s.cycles + 1, age := 0,
                promoted := false }] := by
  unfold State.meshHop
  simp only [State.cluster_modCluster_self, State.flits_meshTake]
/-- A flit goes along x first and then along y, to its goal's router, and leaves it by its goal's output. -/
theorem Flit.output_cases (f : Flit) :
    (f.router % 16 < f.dst % 16 → f.output = 1) ∧ (f.dst % 16 < f.router % 16 → f.output = 3) ∧
    (f.router % 16 = f.dst % 16 → f.router / 16 < f.dst / 16 → f.output = 2) ∧
    (f.router % 16 = f.dst % 16 → f.dst / 16 < f.router / 16 → f.output = 0) ∧ (f.router = f.dst → f.output = f.out) := by
  unfold Flit.output
  refine ⟨fun h => if_pos h, fun h => ?_, fun h h' => ?_, fun h h' => ?_, fun h => ?_⟩
  · rw [if_neg (by omega), if_pos h]
  · rw [if_neg (by omega), if_neg (by omega), if_pos h']
  · rw [if_neg (by omega), if_neg (by omega), if_neg (by omega), if_pos h']
  · rw [h, if_neg (by omega), if_neg (by omega), if_neg (by omega), if_neg (by omega)]
/-- The weight of a channel: the grants of its turn (R147). -/
def Cluster.weight (k : Cluster) (vc : Nat) : Nat := (if vc = 0 then k.wgt0 else k.wgt1).toNat
theorem Cluster.turnLeft_eq (k : Cluster) (p : OutPort) (vc : Nat) :
    k.turnLeft p vc = if p.turn = vc ∧ p.left ≠ 0 then p.left else k.weight vc := by
  unfold Cluster.turnLeft Cluster.weight
  simp only [bne_iff_ne]
  split
  · rfl
  · split <;> rfl
/-- The turn of an output after a grant at level 3 (R145): the channel goes on while it has grants left. -/
theorem Cluster.turn_grantedOut (k : Cluster) (p : OutPort) (now : Nat) {f : Flit} (h : f.level = 3) :
    (k.turnLeft p f.vc ≤ 1 → (k.grantedOut p now f).turn = 1 - f.vc) ∧
    (1 < k.turnLeft p f.vc → (k.grantedOut p now f).turn = f.vc ∧ (k.grantedOut p now f).left = k.turnLeft p f.vc - 1) := by
  have hleft : ∀ a b c, k.turnLeft { p with last := a, stamp := b, granted := c } f.vc = k.turnLeft p f.vc := fun _ _ _ => rfl
  simp only [Cluster.grantedOut, h, hleft]
  refine ⟨fun hl => ?_, fun hl => ?_⟩
  · rw [if_neg (by simp), if_pos (by omega)]
  · rw [if_neg (by simp), if_neg (by omega)]
    exact ⟨rfl, rfl⟩

end Sys2Proof.Machine

namespace Sys2Proof
open Machine

theorem meshGrants : Claims.MeshGrants := by
  intro s ck r o n i f hvc hturn
  refine ⟨fun h => ?granted, State.meshGrant_none hvc hturn, fun hf => ?hop, fun p now w hw hlevel hvc1 hw1 => ?turns⟩
  case granted =>
    obtain ⟨hmem, hbest⟩ := State.meshGrant_some h
    obtain ⟨hf, rfl, rfl, rfl, hhead, hroom⟩ := State.mem_meshHeads hmem
    refine ⟨hf, rfl, rfl, rfl, Cluster.isHead_iff.mp hhead, fun hgoal => ?_, fun j g hg => hbest (j, g) hg⟩
    exact Cluster.bufferRoom_iff.mp (hroom (by simpa [Flit.atGoal] using hgoal))
  case hop =>
    obtain ⟨heast, hwest, hsouth, hnorth, hgoal⟩ := f.output_cases
    refine ⟨s.flits_meshHop ck i f, fun h => ?_, fun h => ?_, fun h h' => ?_, fun h h' => ?_, hgoal⟩
    · rw [heast h]; rfl
    · rw [hwest h]; rfl
    · rw [hsouth h h']; rfl
    · rw [hnorth h h']; rfl
  case turns =>
    have hw' : w = (s.cluster ck).weight f.vc := hw
    obtain ⟨hends, hgoes⟩ := (s.cluster ck).turn_grantedOut p now hlevel
    rw [Cluster.turnLeft_eq] at hends hgoes
    refine ⟨fun hnew => ?_, fun hp hl => ?_⟩
    · rw [if_neg (by tauto), ← hw'] at hgoes
      exact hgoes hw1
    · exact hends (by rw [if_pos ⟨hp, by omega⟩, hl])

/-- Settles O41: the four steps of tokens, credits, flits and stalls, and what a router's output grants. -/
theorem tokensArrive : Obligations.TokensArrive := ⟨tokenSteps, meshGrants⟩

end Sys2Proof
end

section
/-!
PROOFS. Sparse tables and tiles: updates of different keys commute, and the second update of a key alone stands.
-/
namespace Sys2Proof.Machine

theorem Map.put_put {α : Type} (m : Map α) (n : Nat) (x y : α) : Map.put (Map.put m n x) n y = Map.put m n y := by
  induction m with
  | nil => simp [Map.put]
  | cons e r ih =>
    obtain ⟨k, v⟩ := e
    by_cases hlt : n < k
    · simp [Map.put, hlt]
    · by_cases heq : n = k
      · simp [Map.put, heq]
      · simp [Map.put, hlt, heq, ih]
theorem Map.put_comm_of_lt {α : Type} (m : Map α) {a b : Nat} (x y : α) (h : a < b) :
    Map.put (Map.put m a x) b y = Map.put (Map.put m b y) a x := by
  have hba : ¬ b < a := by omega
  have hne : b ≠ a := by omega
  induction m with
  | nil => simp [Map.put, h, hba, hne]
  | cons e r ih =>
    obtain ⟨k, v⟩ := e
    by_cases hak : a < k
    · by_cases hbk : b < k
      · simp [Map.put, hak, hbk, h, hba, hne]
      · by_cases hbe : b = k
        · subst hbe; simp [Map.put, h, hba, hne]
        · simp [Map.put, hak, hbk, hbe, hba, hne]
    · have hbk : ¬ b < k := by omega
      have hbe : b ≠ k := by omega
      by_cases hae : a = k
      · subst hae; simp [Map.put, hbk, hbe]
      · simp [Map.put, hak, hae, hbk, hbe, ih]
theorem Map.put_comm {α : Type} (m : Map α) {a b : Nat} (x y : α) (h : a ≠ b) :
    Map.put (Map.put m a x) b y = Map.put (Map.put m b y) a x := by
  rcases Nat.lt_or_gt_of_ne h with hlt | hgt
  · exact Map.put_comm_of_lt m x y hlt
  · exact (Map.put_comm_of_lt m y x hgt).symm

theorem State.modTile_modTile (s : State) (tk : Nat) (g h : Tile → Tile) :
    (s.modTile tk g).modTile tk h = s.modTile tk fun t => h (g t) := by
  show { s with tiles := Map.put (Map.put s.tiles tk (g (s.tile tk))) tk (h ((s.modTile tk g).tile tk)) } = _
  rw [State.tile_modTile_self, Map.put_put]
  rfl
theorem State.modTile_comm (s : State) {a b : Nat} (g h : Tile → Tile) (hab : a ≠ b) :
    (s.modTile a g).modTile b h = (s.modTile b h).modTile a g := by
  show { s with tiles := Map.put (Map.put s.tiles a (g (s.tile a))) b (h ((s.modTile a g).tile b)) } =
    { s with tiles := Map.put (Map.put s.tiles b (h (s.tile b))) a (g ((s.modTile b h).tile a)) }
  rw [State.tile_modTile_other _ _ hab.symm, State.tile_modTile_other _ _ hab, Map.put_comm _ _ _ hab]

end Sys2Proof.Machine
end

section
/-!
PROOFS. The firing rule (02_tokens.md R42 to R45, R34; 25_reliability.md R410), once for the firings of `State.fire` and once for those of
the memory unit, and which of the two each operator is.
-/
namespace Sys2Proof.Machine

/-! Taking the operands -/

theorem State.pointGrants_modTile (s : State) (q : Site) (m : Match) (g : Tile → Tile) :
    (s.modTile q.tk g).pointGrants q m = (s.pointGrants q m).modTile q.tk g := by
  unfold State.pointGrants
  rw [show (s.modTile q.tk g).wants q m = s.wants q m from rfl]
  induction s.wants q m generalizing s with
  | nil => rfl
  | cons dst ds ih =>
    simp only [List.foldl_cons]
    by_cases h : dst = q.tk
    · simp only [if_pos h, ih]
    · simp only [if_neg h]
      rw [State.modTile_comm _ _ _ (Ne.symm h), ih]
/-- The memory unit takes the operands once the grants are known, the other units before: it is the same state. -/
theorem State.consume_after_grants (s : State) (opc : Nat) (f : OpFields) (m : Match) :
    ((s.started (s.site opc f)).pointGrants (s.site opc f) m).consume (s.site opc f).tk m.operands = Claims.taken s opc f m := by
  have hcomm : ((s.consume (s.site opc f).tk m.operands).started (s.site opc f)) =
      (s.started (s.site opc f)).consume (s.site opc f).tk m.operands := by
    unfold State.consume State.started
    rw [State.modTile_modTile, State.modTile_modTile]
    rfl
  unfold Claims.taken
  rw [hcomm]
  exact (State.pointGrants_modTile ..).symm

/-! Firings -/

theorem State.canStart_iff {s : State} {q : Site} {m : Match} : s.canStart q m = true ↔ s.unitBusy q = false ∧ s.outranked q m = false ∧
    s.yields q m = false ∧ ((s.tile q.tk).slot q.key).countedAt ≠ s.cycles + 1 := by
  simp [State.canStart, and_assoc]
theorem State.noteClosed_data (s : State) (q : Site) {m : Match} (h : m.eos = false) : s.noteClosed q m = s := by
  simp [State.noteClosed, h]
theorem eos_eq_false_of_poisonEnds {opc : Nat} {m : Match} (h : poisonEnds opc m = true) : m.eos = false := by
  simp only [poisonEnds, Bool.and_eq_true, Bool.not_eq_true'] at h
  obtain ⟨⟨hdata, -⟩, -⟩ := h
  exact hdata

/-- What the firing rule does at the acting slot, whatever its operator: nothing where no tag is ready or it does not start; otherwise
it ends the firing for poison, or sends the EOS on. -/
structure State.Obeys (s : State) (opc : Nat) (f : OpFields) (r : State) : Prop where
  idle : s.best (s.site opc f) = none → r = s
  waits : ∀ m, s.best (s.site opc f) = some m → s.canStart (s.site opc f) m = false → r = s
  poison : ∀ m, s.best (s.site opc f) = some m → s.canStart (s.site opc f) m = true → poisonEnds opc m = true →
    r = (Claims.taken s opc f m).faultFiring (s.site opc f) m codePoison 0
  eos : ∀ m, s.best (s.site opc f) = some m → s.canStart (s.site opc f) m = true → poisonEnds opc m = false → m.eos = true →
    opc ∉ Claims.ownEos → r = if (s.site opc f).unit = .cells then
        ((Claims.taken s opc f m).noteClosed (s.site opc f) m).arrayStart (s.site opc f) m
          ((s.site opc f).eosAll m.tag.level m.tag) false 1 id
      else ((Claims.taken s opc f m).noteClosed (s.site opc f) m).forwardEos (s.site opc f) m

/-- A firing that starts is the effect of its operator, once the operands are taken and the EOS that it closes is noted. -/
theorem State.fire_starts {s : State} {opc : Nat} {f : OpFields} {m : Match} (act : State → Site → Match → State)
    (hb : s.best (s.site opc f) = some m) (hs : s.canStart (s.site opc f) m = true) : s.fire opc f act =
      if poisonEnds opc m then ((Claims.taken s opc f m).noteClosed (s.site opc f) m).faultFiring (s.site opc f) m codePoison 0
      else act ((Claims.taken s opc f m).noteClosed (s.site opc f) m) (s.site opc f) m := by
  simp only [State.fire, hb, hs]
  rfl
theorem State.fire_obeys (s : State) {opc : Nat} {f : OpFields} {act : State → Site → Match → State}
    (h : ∀ u m, m.eos = true → opc ∉ Claims.ownEos → act u (s.site opc f) m = if (s.site opc f).unit = .cells then
        u.arrayStart (s.site opc f) m ((s.site opc f).eosAll m.tag.level m.tag) false 1 id else u.forwardEos (s.site opc f) m) :
    s.Obeys opc f (s.fire opc f act) where
  idle hb := by simp only [State.fire, hb]
  waits m hb hs := by simp only [State.fire, hb, hs, Bool.not_false, if_true]
  poison m hb hs hp := by
    rw [State.fire_starts act hb hs, if_pos hp, State.noteClosed_data _ _ (eos_eq_false_of_poisonEnds hp)]
  eos m hb hs hp he hopc := by
    rw [State.fire_starts act hb hs, if_neg (by simp [hp])]
    exact h _ m he hopc
theorem State.fireMem_obeys (s : State) {opc : Nat} {f : OpFields} (act : State → Site → Match → Tag → State)
    (hunit : (s.site opc f).unit ≠ .cells) : s.Obeys opc f (s.fireMem opc f act) where
  idle hb := by simp only [State.fireMem, hb]
  waits m hb hs := by simp only [State.fireMem, hb, hs, Bool.not_false, if_true]
  poison m hb hs hp := by
    have he := eos_eq_false_of_poisonEnds hp
    simp only [State.fireMem, hb, hs, he, hp, State.consume_after_grants, State.noteClosed_data _ _ he]
    rfl
  eos m hb hs hp he hopc := by
    simp only [State.fireMem, hb, hs, he, State.consume_after_grants, if_neg hunit]
    rfl

/-! The operators, by the way in which they fire -/

/-- The unit of an opcode that the map gives to the cell array, and of one that it gives to another unit (03_formats.md R64). -/
theorem OpTable.unitOf_eq_cells {opc : Nat} (e : EType) (h : (OpTable.row opc).bind (·.unit) = some .cells) : OpTable.unitOf opc e = .cells := by
  simp only [OpTable.unitOf, h]
theorem OpTable.unitOf_ne_cells {opc : Nat} (e : EType) (h : (OpTable.row opc).bind (·.unit) ≠ some .cells) : OpTable.unitOf opc e ≠ .cells := by
  unfold OpTable.unitOf
  split
  next u hu => exact fun hc => h (hu.trans (congrArg some hc))
  next => split <;> exact nofun

/-- An instruction fires at the acting slot under the opcode and fields of a word, as the firing rule says. -/
def FiresAs (i : Instr) (opc : Nat) (f : OpFields) : Prop := ∀ s : State, ∃ r, exec i s = .next r ∧ s.Obeys opc f r

/-- An operator whose EOS goes its own way. -/
theorem firesAs_ownEos {i : Instr} {opc : Nat} {f : OpFields} {act : State → Site → Match → State}
    (h : ∀ s, exec i s = .next (s.fire opc f act)) (hopc : opc ∈ Claims.ownEos := by decide) : FiresAs i opc f := fun s =>
  ⟨_, h s, s.fire_obeys fun _ _ _ hn => absurd hopc hn⟩
/-- An operator of the vector or narrow unit, whose EOS takes the default of R34. -/
theorem firesAs_data {i : Instr} {opc : Nat} {f : OpFields} {act : State → Site → Match → State}
    (h : ∀ s, exec i s = .next (s.fireData opc f act)) (hunit : (OpTable.row opc).bind (·.unit) ≠ some .cells := by decide) :
    FiresAs i opc f := fun s =>
  ⟨_, h s, s.fire_obeys fun _ _ he _ => (if_pos he).trans (if_neg (OpTable.unitOf_ne_cells f.etype hunit)).symm⟩
/-- An operator of the cell array: its EOS takes one busy cycle (R253). -/
theorem firesAs_cells {i : Instr} {opc : Nat} {f : OpFields} {act : State → Site → Match → Tag → State}
    (h : ∀ s, exec i s = .next (s.fireCells opc f act)) (hunit : (OpTable.row opc).bind (·.unit) = some .cells := by decide) :
    FiresAs i opc f := fun s =>
  ⟨_, h s, s.fire_obeys fun _ _ he _ => (if_pos he).trans (if_pos (OpTable.unitOf_eq_cells f.etype hunit)).symm⟩
/-- An operator of the memory unit. -/
theorem firesAs_memory {i : Instr} {opc : Nat} {f : OpFields} {act : State → Site → Match → Tag → State}
    (h : ∀ s, exec i s = .next (s.fireMem opc f act)) (hunit : (OpTable.row opc).bind (·.unit) ≠ some .cells := by decide) :
    FiresAs i opc f := fun s =>
  ⟨_, h s, s.fireMem_obeys act (OpTable.unitOf_ne_cells f.etype hunit)⟩
/-- A KV operator. -/
theorem firesAs_kv {i : Instr} {opc : Nat} {f : OpFields}
    {act : State → Site → Match → KvCfg → Nat → Except Nat (State × (Access → Access))} (h : ∀ s, exec i s = .next (s.fireKv opc f act)) (hunit : (OpTable.row opc).bind (·.unit) ≠ some .cells := by decide) :
    FiresAs i opc f := firesAs_memory h hunit

/-! The operators that hold no state of their own (`Claims.pure`) -/

/-- What a data firing of state `s` may come to, where TAGOP has read L in `u`: nothing, its credits, or results with them. -/
inductive Sends (s u : State) (q : Site) (m : Match) : State → Prop
  | nothing : Sends s u q m s
  | credits : Sends s u q m (s.returnCredits q.tk m.operands)
  | results (n : Nat) (rs : List Result) (carry : Option Operand) : Sends s u q m (State.output { u with free := n } q m rs carry)
/-- A data firing whose TAGOP gives a tag does no more than `Sends`. -/
def Quiet (act : State → Site → Match → State) : Prop := ∀ s q m u v t, s.lValue m = (u, v) →
  u.tagOp q.ck q.f.tagop m.tag v = some t → Sends s u q m (act s q m)

theorem State.withTag_eq {s u : State} {q : Site} {m : Match} {v : Int} {t₀ t : Tag} (k : State → Tag → State) (hl : s.lValue m = (u, v))
    (ht : u.tagOp q.ck q.f.tagop t₀ v = some t) : s.withTag q m t₀ k = k u t := by
  simp only [State.withTag, hl, ht]
theorem quiet_results (rs : State → Site → Match → Tag → List Result) :
    Quiet fun s q m => s.withTag q m m.tag fun u t => u.output q m (rs s q m t) (m.at? .l) := by
  intro s q m u v t hl ht
  simp only [State.withTag_eq _ hl ht]
  exact .results u.free ..
/-- A narrow result in a string that the unit chooses (R207). -/
theorem quiet_string (digits : Nat) (g : Match → Int) : Quiet fun s q m => s.withTag q m m.tag fun s t =>
    ({ s with free := s.free + 1 } : State).output q m (q.toAll (.narrow digits (g m) (.chosen s.free)) t) (m.at? .l) := by
  intro s q m u v t hl ht
  simp only [State.withTag_eq _ hl ht]
  exact .results (u.free + 1) ..
theorem sends_forward {s u : State} {q : Site} {m : Match} {v : Int} {t : Tag} (is : List Nat) (o : Operand) (hl : s.lValue m = (u, v))
    (ht : u.tagOp q.ck q.f.tagop m.tag v = some t) : Sends s u q m (s.forward q m is o m.tag) := by
  rw [State.forward, State.withTag_eq _ hl ht]
  exact .results u.free ..
theorem quiet_forwardPort (p : Match → Port) : Quiet fun s q m => s.forwardPort q m (p m) m.tag := by
  intro s q m u v t hl ht
  dsimp only [State.forwardPort]
  split
  · exact sends_forward _ _ hl ht
  · exact .credits
theorem quiet_steer : Quiet fun s q m =>
    match m.at? .l with
    | some o => s.forward q m [if m.pred .r then 0 else 1, 2] o m.tag
    | none => s := by
  intro s q m u v t hl ht
  dsimp only
  split
  · exact sends_forward _ _ hl ht
  · exact .nothing
theorem quiet_drop : Quiet fun s q m => s.returnCredits q.tk m.operands := fun _ _ _ _ _ _ _ _ => .credits
theorem quiet_gate : Quiet fun s q m =>
    if ((m.payload? .g).getD .order).guardTrue then s.forwardPort q m .l m.tag else s.returnCredits q.tk m.operands := by
  intro s q m u v t hl ht
  dsimp only
  split
  · exact quiet_forwardPort (fun _ => .l) _ _ _ _ _ _ hl ht
  · exact .credits

/-- An operator without state of its own: it is one of the vector or the narrow unit, and its data firings are quiet. -/
structure FiresQuietly (i : Instr) (opc : Nat) (f : OpFields) (act : State → Site → Match → State) : Prop where
  fires : ∀ s, exec i s = .next (s.fireData opc f act)
  quiet : Quiet act
  unit : (OpTable.row opc).bind (·.unit) ∈ [none, some .vector, some .narrow] := by decide

theorem firesQuietly_of_pure {i : Instr} {opc : Nat} {f : OpFields} (h : fabricOf i = some (opc, f)) (hp : Claims.pure opc = true) :
    ∃ act, FiresQuietly i opc f act := by
  cases i
  case pass | eoswait => cases h; exact ⟨_, { fires := fun _ => rfl, quiet := quiet_forwardPort fun _ => .l }⟩
  case steer => cases h; exact ⟨_, { fires := fun _ => rfl, quiet := quiet_steer }⟩
  case merge | select => cases h; exact ⟨_, { fires := fun _ => rfl, quiet := quiet_forwardPort fun m => if m.pred .c then .l else .r }⟩
  case amerge => cases h; exact ⟨_, { fires := fun _ => rfl, quiet := quiet_forwardPort fun m => if (m.at? .l).isSome then .l else .r }⟩
  case drop => cases h; exact ⟨_, { fires := fun _ => rfl, quiet := quiet_drop }⟩
  case gate => cases h; exact ⟨_, { fires := fun _ => rfl, quiet := quiet_gate }⟩
  case nadd | nsub | nneg | nabs | nshl | nmulk => cases h; exact ⟨_, { fires := fun _ => rfl, quiet := quiet_string _ _ }⟩
  case const | repl | eosgen | ojoin | nmin | nmax | ntobW | ntobS | bton | nceq | ncne | nclt | ncle | vaddI32 | vaddsatI32 | vsubI32 |
      vsubsatI32 | vmulI32 | vmulhI32 | vmulhuI32 | vminI32 | vmaxI32 | vminuI32 | vmaxuI32 | vand | vor | vxor | vnot | vshl | vshr |
      vsra | vceqI32 | vcneI32 | vcltI32 | vcleI32 | vcltuI32 | vcleuI32 | vfaddF32 | vfsubF32 | vfmulF32 | vfmaF32 | vfdivF32 | vfrcpF32 |
      vfrsqF32 | vfsqrtF32 | vfexp2F32 | vflog2F32 | vfminF32 | vfmaxF32 | vfceqF32 | vfcltF32 | vfcleF32 | vfcunF32 | vcvtF32Bf16 |
      vcvtBf16F32 | vcvtsrBf16F32 | vcvtF32F16 | vcvtF16F32 | vcvtF32E4m3 | vcvtE4m3F32 | vcvtF32E5m2 | vcvtE5m2F32 | vcvtI32F32 |
      vcvtnI32F32 | vcvtF32I32 | vcvtI8I32 | vqdec | vqenc | vrsumF32 | vrmaxF32 | vrminF32 | vrsumI32 | vperm | vrot | vcx =>
    cases h; exact ⟨_, { fires := fun _ => rfl, quiet := quiet_results _ }⟩
  all_goals cases h <;> exact absurd hp (by decide)

/-- Every operator fires as the firing rule says, at its unit. -/
theorem firesAs_of_fabricOf {i : Instr} {opc : Nat} {f : OpFields} (h : fabricOf i = some (opc, f)) : FiresAs i opc f := by
  by_cases hp : Claims.pure opc = true
  · obtain ⟨act, hact⟩ := firesQuietly_of_pure h hp
    exact firesAs_data hact.fires fun hc => absurd (hc ▸ hact.unit) (by decide)
  cases i
  case lcarryEntry | lcarryBackEdge | lcarryEosRelease | lvpop | sink | greord => cases h; exact firesAs_ownEos fun _ => rfl
  case tagset | taginc | tagcopy | lvpush | cfgreq | gcoal | ared | anorm => cases h; exact firesAs_data fun _ => rfl
  case ldv | stv | ld8 | ld16 | ld32 | ld64 | st8 | st16 | st32 | st64 | ldfeC | ldfeK | stf | ldg | ldhV | sthV | ldwV | aaddI32 | aaddF32 |
      aminI32 | amaxI32 | aand | aor | axchg | acas | hup | hrel | fenceS =>
    cases h; exact firesAs_memory fun _ => rfl
  case kvapp | kvseqRead | kvseqOpen | kvseqAdvance | kvseqDraft | kvtrim => cases h; exact firesAs_kv fun _ => rfl
  case mmaE4m3 | mmaE5m2 | mmaE4e5 | mmaBf16 | mmaI8 | mmaQ16n | scalc | accz | accrd | accwr | xsort | ascan =>
    cases h; exact firesAs_cells fun _ => rfl
  all_goals cases h <;> exact absurd rfl hp

end Sys2Proof.Machine

namespace Sys2Proof
open Machine

/-- Settles O28: the outcomes that `Obeys` names, for the operator at hand. -/
theorem firingRule : Obligations.FiringRule := by
  intro i opc f s q hi hq
  subst hq
  obtain ⟨r, hr, hobeys⟩ := firesAs_of_fabricOf hi s
  rw [hr]
  have hstart : ∀ m, s.canStart (s.site opc f) m = false ↔ s.unitBusy (s.site opc f) = true ∨ s.outranked (s.site opc f) m = true ∨
      s.yields (s.site opc f) m = true ∨ ((s.tile s.actor.tk).slot (s.site opc f).key).countedAt = s.cycles + 1 := fun m => by
    rw [Bool.eq_false_iff, ne_eq, State.canStart_iff]
    simp only [← Bool.not_eq_true]
    tauto
  refine ⟨fun hb => congrArg _ (hobeys.idle hb), fun m hb => ⟨fun hw => congrArg _ (hobeys.waits m hb ((hstart m).mpr hw)),
    fun h1 h2 h3 h4 hp => congrArg _ (hobeys.poison m hb (State.canStart_iff.mpr ⟨h1, h2, h3, h4⟩) hp), fun hfires he hopc => ?_⟩⟩
  obtain ⟨-, h1, h2, h3, h4, hp⟩ := hfires
  have hres := hobeys.eos m hb (State.canStart_iff.mpr ⟨h1, h2, h3, h4⟩) hp he hopc
  exact ⟨fun hu => congrArg _ (hres.trans (if_neg hu)), fun hu => congrArg _ (hres.trans (if_pos hu))⟩

end Sys2Proof
end

section
/-!
PROOFS. How results leave a firing (02_tokens.md R29, R43, R47; 10_ops_routing.md R192, R210; 11_ops_vector.md R214; 12_ops_memory.md R248):
the credits that go back, the tokens, their reservations, and what the vector and the narrow unit hold.
-/
namespace Sys2Proof.Machine

/-! The credits of the operands -/

theorem State.returnCredits_frame (s : State) (tk : Nat) (ops : List Operand) :
    s.returnCredits tk ops = { s with clusters := (s.returnCredits tk ops).clusters } :=
  foldl_rel (R := fun a b : State => b = { a with clusters := b.clusters }) (fun _ => rfl) (fun _ _ _ h k => by rw [k, h]) _
    (fun _ _ => State.returnCredit_frame ..) _ _
theorem State.tile_returnCredits (s : State) (tk : Nat) (ops : List Operand) (k : Nat) : (s.returnCredits tk ops).tile k = s.tile k := by
  rw [State.returnCredits_frame]
  rfl
theorem State.cycles_returnCredits (s : State) (tk : Nat) (ops : List Operand) : (s.returnCredits tk ops).cycles = s.cycles := by
  rw [State.returnCredits_frame]
/-- A cluster is as it was, its flits apart. -/
theorem State.cluster_returnCredit (s : State) (tk : Nat) (c : Option Credit) (d : Colour) (k : Nat) :
    (s.returnCredit tk c d).cluster k = { s.cluster k with flits := ((s.returnCredit tk c d).cluster k).flits } := by
  cases c with
  | none => rfl
  | some c =>
    by_cases h : k = ckOf tk
    · subst h; simp only [State.returnCredit, State.inject, State.cluster_modCluster_self]
    · simp only [State.returnCredit, State.inject, State.cluster_modCluster_other _ _ h]
theorem State.cluster_returnCredits (s : State) (tk : Nat) (ops : List Operand) (k : Nat) :
    (s.returnCredits tk ops).cluster k = { s.cluster k with flits := ((s.returnCredits tk ops).cluster k).flits } :=
  foldl_rel (R := fun a b : State => b.cluster k = { a.cluster k with flits := (b.cluster k).flits }) (fun _ => rfl)
    (fun _ _ _ h k => by rw [k, h]) _ (fun _ _ => State.cluster_returnCredit ..) _ _
theorem State.ports_returnCredits (s : State) (tk : Nat) (ops : List Operand) (k : Nat) :
    ((s.returnCredits tk ops).cluster k).ports = (s.cluster k).ports := by
  rw [State.cluster_returnCredits]
theorem State.launches_returnCredits (s : State) (tk : Nat) (ops : List Operand) (k : Nat) :
    ((s.returnCredits tk ops).cluster k).launches = (s.cluster k).launches := by
  rw [State.cluster_returnCredits]

/-- The flit that takes an operand's credit back to its port. -/
def State.creditFlit (s : State) (tk : Nat) (o : Operand) : Option Flit := o.entry.token.credit.map fun c =>
  (MeshSource.tile (tiOf tk)).flit s.cycles (s.creditGoal (ckOf tk) c) true 3 (.credit c o.entry.token.tag.colour)
theorem State.creditFlit_returnCredits (s : State) (tk : Nat) (ops : List Operand) (o : Operand) :
    (s.returnCredits tk ops).creditFlit tk o = s.creditFlit tk o := by
  simp only [State.creditFlit, State.cycles_returnCredits,
    State.creditGoal_congr (s.ports_returnCredits tk ops) (s.launches_returnCredits tk ops)]
theorem State.flits_returnCredit (s : State) (tk : Nat) (o : Operand) :
    ((s.returnCredit tk o.entry.token.credit o.entry.token.tag.colour).cluster (ckOf tk)).flits =
      (s.cluster (ckOf tk)).flits ++ (s.creditFlit tk o).toList := by
  unfold State.creditFlit
  cases o.entry.token.credit with
  | none => simp [State.returnCredit]
  | some c => simp [State.returnCredit]
/-- The credits go back by the mesh of the tile, in the order of the operands. -/
theorem State.flits_returnCredits (s : State) (tk : Nat) (ops : List Operand) : ((s.returnCredits tk ops).cluster (ckOf tk)).flits =
    (s.cluster (ckOf tk)).flits ++ ops.filterMap (s.creditFlit tk) := by
  induction ops generalizing s with
  | nil => simp [State.returnCredits]
  | cons o ops ih =>
    have hstep : s.returnCredits tk (o :: ops) =
        (s.returnCredits tk [o]).returnCredits tk ops := rfl
    have hflit : (s.returnCredits tk [o]).creditFlit tk = s.creditFlit tk := funext (State.creditFlit_returnCredits s tk [o])
    have hone : ((s.returnCredits tk [o]).cluster (ckOf tk)).flits = (s.cluster (ckOf tk)).flits ++ (s.creditFlit tk o).toList :=
      State.flits_returnCredit s tk o
    rw [hstep, ih, hflit, hone, List.append_assoc, List.filterMap_cons]
    cases s.creditFlit tk o <;> rfl

/-! The tokens -/

theorem State.emissions_returnCredits (s : State) (tk : Nat) (ops : List Operand) (q : Site) (rs : List Result) (cr : Option Credit)
    (p : Bool) : (s.returnCredits tk ops).emissions q rs cr p = s.emissions q rs cr p := by
  cases rs <;> simp only [State.emissions, State.emission, State.tile_returnCredits]
theorem State.emissions_ne_nil {s : State} {q : Site} {rs : List Result} {cr : Option Credit} {p : Bool} (h : rs ≠ []) :
    s.emissions q rs cr p ≠ [] := by
  cases rs with
  | nil => exact absurd rfl h
  | cons r rs => exact nofun
theorem State.emissions_place (s : State) (q : Site) (rs : List Result) (cr : Option Credit) (p : Bool) :
    ((s.emissions q rs cr p).map fun e => (e.slot, e.index, e.dest, e.token.payload)) =
      rs.map fun r => (q.slot, r.index, r.dest, r.payload) := by
  cases rs <;> simp [State.emissions, State.emission]
theorem State.emissions_tag (s : State) (q : Site) (rs : List Result) (cr : Option Credit) (p : Bool) :
    ((s.emissions q rs cr p).map fun e => e.token.tag) = rs.map fun r => { r.tag with slot := r.dest.slot, port := portCode r.dest.port } := by
  cases rs <;> simp [State.emissions, State.emission]
theorem State.emissions_credit (s : State) (q : Site) {rs : List Result} (cr : Option Credit) (p : Bool) (h : rs ≠ []) :
    ((s.emissions q rs cr p).map fun e => e.token.credit) = cr :: (rs.drop 1).map fun _ => none := by
  cases rs with
  | nil => exact absurd rfl h
  | cons r rs => simp only [State.emissions, State.emission, List.map_cons, List.map_map, List.drop_one, List.tail_cons]; rfl
theorem State.emissions_marks (s : State) (q : Site) (rs : List Result) (cr : Option Credit) (p : Bool) :
    ∀ e ∈ s.emissions q rs cr p, e.token.poison = p ∧ e.token.epoch = (s.tile q.tk).epochs.getLsbD q.plane := by
  cases rs <;> simp [State.emissions, State.emission]

/-! Their reservations -/

/-- The reservation of an emission, and whether it is one at tile `k`: an exit takes none (R39). -/
def Emission.reservation (e : Emission) (q : Site) : Reservation := ⟨e.token.tag.colour, e.token.tag.ctx, e.dest.slot.toNat, q.plane⟩
def State.reservesAt (s : State) (q : Site) (k : Nat) (e : Emission) : Bool :=
  (s.exitAt q.ck e.token.tag.ctx.toNat (tiOf q.tk) e.dest).isNone &&
    ((destTile (tiOf q.tk) e.dest).map fun ti => 192 * q.ck + ti) = some k
theorem State.reservesAt_congr {s t : State} {q : Site} {k : Nat} (hl : ∀ c, (t.cluster c).launches = (s.cluster c).launches) :
    t.reservesAt q k = s.reservesAt q k := by
  funext e
  simp only [State.reservesAt, State.exitAt, State.launch?, hl]
theorem State.holdAll_cons (s : State) (q : Site) (e : Emission) (es : List Emission) :
    s.holdAll q (e :: es) = (s.holdAll q [e]).holdAll q es := rfl
theorem State.holdAll_frame (s : State) (q : Site) (es : List Emission) : s.holdAll q es = { s with tiles := (s.holdAll q es).tiles } :=
  foldl_rel (R := fun a b : State => b = { a with tiles := b.tiles }) (fun _ => rfl) (fun _ _ _ h k => by rw [k, h]) _
    (fun s e => by split <;> rfl) _ _
theorem State.cluster_holdAll (s : State) (q : Site) (es : List Emission) (k : Nat) : (s.holdAll q es).cluster k = s.cluster k := by
  rw [State.holdAll_frame]
  rfl
theorem State.tile_hold (s : State) (tk : Nat) (r : Reservation) (k : Nat) :
    (s.hold tk r).tile k = { s.tile k with reserved := (s.tile k).reserved ++ if tk = k then [r] else [] } := by
  by_cases h : tk = k
  · subst h; simp [State.hold]
  · simp [State.hold, State.tile_modTile_other _ _ (Ne.symm h), h]
theorem State.tile_holdAll_one (s : State) (q : Site) (e : Emission) (k : Nat) : (s.holdAll q [e]).tile k =
    { s.tile k with reserved := (s.tile k).reserved ++ if s.reservesAt q k e then [e.reservation q] else [] } := by
  cases hx : s.exitAt q.ck e.token.tag.ctx.toNat (tiOf q.tk) e.dest with
  | some p => simp [State.holdAll, State.reservesAt, hx]
  | none =>
    cases hd : destTile (tiOf q.tk) e.dest with
    | none => simp [State.holdAll, State.reservesAt, hx, hd]
    | some ti => simp [State.holdAll, State.reservesAt, hx, hd, State.tile_hold, Emission.reservation]
/-- Every tile gets the reservations of the tokens that go there, in their order. -/
theorem State.tile_holdAll (s : State) (q : Site) (es : List Emission) (k : Nat) : (s.holdAll q es).tile k =
    { s.tile k with reserved := (s.tile k).reserved ++ (es.filter (s.reservesAt q k)).map fun e => e.reservation q } := by
  induction es generalizing s with
  | nil => simp [State.holdAll]
  | cons e es ih =>
    rw [State.holdAll_cons, ih, State.reservesAt_congr fun c => congrArg (·.launches) (s.cluster_holdAll q [e] c), State.tile_holdAll_one]
    by_cases h : s.reservesAt q k e = true <;> simp [h]

/-! The unit holds the tokens -/

/-- The firing that the narrow unit holds for tokens (R210). -/
def State.narrowOf (s : State) (q : Site) (follow : List Operand) (es : List Emission) : NarrowFiring :=
  let out := (List.range es.length).filterMap fun i => es[i]?.map fun e => (s.nextId + i, e)
  ⟨q.plane, beatMode q.opc, s.cycles, follow.map Operand.source, outBeats out, 0, out⟩
theorem State.submit_vector (s : State) {q : Site} (lat : Nat) (follow : List Operand) {es : List Emission} (hes : es ≠ [])
    (hu : q.unit = .vector) (h : ¬ (q.opc = 0x199 ∨ q.opc = 0x19A)) : s.submit q lat follow es =
      s.modTile q.tk fun t => { t with vector := t.vector ++ [⟨q.plane, s.cycles + lat, es⟩] } := by
  simp only [State.submit, if_neg hes, hu, if_neg h]
theorem State.submit_narrow (s : State) {q : Site} (lat : Nat) (follow : List Operand) {es : List Emission} (hes : es ≠ [])
    (hu : q.unit = .narrow) : s.submit q lat follow es = ({ s with nextId := s.nextId + es.length } : State).modTile q.tk fun t =>
      { t with narrow := t.narrow ++ [s.narrowOf q follow es] } := by
  simp only [State.submit, if_neg hes, hu]
  rfl
theorem filterMap_getElem?_range {α : Type} (l : List α) : ((List.range l.length).filterMap fun i => l[i]?) = l := by
  induction l with
  | nil => rfl
  | cons a l ih => simpa [List.range_succ_eq_map, List.filterMap_map, Function.comp_def] using ih
/-- The narrow unit holds the tokens themselves, each under a number of its own. -/
theorem State.narrowOf_tokens (s : State) (q : Site) (follow : List Operand) (es : List Emission) :
    ((s.narrowOf q follow es).out.map fun x => x.2) = es := by
  simp only [State.narrowOf, List.map_filterMap, Option.map_map, Function.comp_def, Option.map_id']
  exact filterMap_getElem?_range es

/-! A firing with results -/

/-- The operands whose credits a firing returns where L's credit rides on its first token. -/
def Match.others (m : Match) (o : Operand) : List Operand := m.operands.filter fun x => x.idx != o.idx
theorem State.output_some (s : State) (q : Site) (m : Match) {rs : List Result} (o : Operand) (h : rs ≠ []) :
    s.output q m rs (some o) = (((s.returnCredits q.tk (m.others o)).holdAll q
      (s.emissions q rs o.entry.token.credit m.poison)).submit q (vectorLatency q.opc m.eos)
        (match beatMode q.opc with | .online => m.operands | .forward => [o] | .whole => [])
        (s.emissions q rs o.entry.token.credit m.poison)) := by
  simp only [State.output, if_neg h, Match.others, Option.bind_some, State.emissions_returnCredits]
  rfl

/-- What the vector and the narrow unit take in reaches no mesh and no reservation. -/
theorem State.submit_keeps (s : State) {q : Site} (lat : Nat) (follow : List Operand) (es : List Emission)
    (hu : q.unit = .vector ∨ q.unit = .narrow) (ck k : Nat) : (s.submit q lat follow es).cluster ck = s.cluster ck ∧
      ((s.submit q lat follow es).tile k).reserved = (s.tile k).reserved := by
  unfold State.submit
  split
  · exact ⟨rfl, rfl⟩
  rcases hu with hu | hu <;> simp only [hu]
  · split <;> exact ⟨rfl, State.tile_modTile_keeps _ _ _ (by intro t; rfl) k⟩
  · exact ⟨rfl, State.tile_modTile_keeps _ _ _ (by intro t; rfl) k⟩
theorem State.records_faultFiring (s : State) (q : Site) (m : Match) (code va : Nat) : (s.faultFiring q m code va).records = s.records ++
    [s.mkRecord q.ck (s.ringOfColour m.tag.colour) (s.colour m.tag.colour).world 0x04 (faultStatus 0x10 va) code m.tag.colour (faultBytes va)
      { m.tag with slot := BitVec.ofNat 6 q.slot, port := 0 }.toWord] := by
  unfold State.faultFiring
  rw [State.returnCredits_frame]
  rfl

theorem State.cycles_sending (s : State) (q : Site) (ops : List Operand) (es : List Emission) :
    ((s.returnCredits q.tk ops).holdAll q es).cycles = s.cycles := by
  rw [State.holdAll_frame, State.returnCredits_frame]

theorem resultsLeave : Claims.ResultsLeave := by
  intro s q m rs o es hes hrs hared hanorm
  subst hes
  refine ⟨s.emissions_place .., s.emissions_tag .., s.emissions_credit q _ _ hrs, s.emissions_marks q rs _ _, ?_, ?_⟩
  · rintro code va t c rfl rfl
    refine ⟨?_, ?_, s.records_faultFiring q m code va⟩
    · show (s.returnCredits q.tk m.operands).tiles = s.tiles
      rw [State.returnCredits_frame]
    · show (s.returnCredits q.tk m.operands).dram = s.dram
      rw [State.returnCredits_frame]
  rintro t rfl
  rw [s.output_some q m o hrs]
  have hne : s.emissions q rs o.entry.token.credit m.poison ≠ [] := State.emissions_ne_nil hrs
  generalize s.emissions q rs o.entry.token.credit m.poison = es at hne ⊢
  refine ⟨fun hu => ?_, fun hu => ?_, fun hu => ?_, fun k hu => ?_⟩
  · rw [State.submit_vector _ _ _ hne hu (by simp [hared, hanorm]), State.tile_modTile_self, State.cycles_sending, State.tile_holdAll,
      State.tile_returnCredits]
  · refine ⟨((s.returnCredits q.tk (m.others o)).holdAll q es).narrowOf q _ es, ?_, rfl, rfl, s.cycles_sending .., rfl,
      State.narrowOf_tokens .., rfl, rfl⟩
    have hheld := congrArg (·.narrow) ((s.returnCredits q.tk (m.others o)).tile_holdAll q es q.tk)
    have hback := congrArg (·.narrow) (s.tile_returnCredits q.tk (m.others o) q.tk)
    rw [State.submit_narrow _ _ _ hne hu, State.tile_modTile_self]
    exact congrArg (· ++ _) (hheld.trans hback)
  · rw [(State.submit_keeps _ _ _ es hu q.ck 0).1, State.cluster_holdAll]
    exact State.flits_returnCredits ..
  · rw [(State.submit_keeps _ _ _ es hu 0 k).2, State.tile_holdAll, State.tile_returnCredits,
      State.reservesAt_congr (s.launches_returnCredits q.tk _)]
    rfl

end Sys2Proof.Machine
end

section
/-!
PROOFS. What a firing of the vector or the narrow unit leaves alone (02_tokens.md R43, R44), once its operands are taken.
-/
namespace Sys2Proof.Machine

/-- What sending results from a site changes: reservations, the inputs that tiles granted, what the units of its tile hold, and flits, of which
those of the site's cluster are credits. -/
structure Sending (q : Site) (s t : State) : Prop where
  frame : t = { s with tiles := t.tiles, clusters := t.clusters, free := t.free, nextId := t.nextId }
  cluster : ∀ ck, t.cluster ck = { s.cluster ck with flits := (t.cluster ck).flits }
  flits : ∀ g ∈ (t.cluster q.ck).flits, g ∈ (s.cluster q.ck).flits ∨ ∃ k c, g.cargo = .credit k c
  others : ∀ k, k ≠ q.tk → t.tile k = { s.tile k with reserved := (t.tile k).reserved, grantFrom := (t.tile k).grantFrom }
  own : t.tile q.tk = { s.tile q.tk with
    reserved := (t.tile q.tk).reserved, vector := (t.tile q.tk).vector, narrow := (t.tile q.tk).narrow }

namespace Sending
variable {q : Site} {s t u : State}

theorem refl (q : Site) (s : State) : Sending q s s := ⟨rfl, fun _ => rfl, fun _ h => .inl h, fun _ _ => rfl, rfl⟩
theorem trans (a : Sending q s t) (b : Sending q t u) : Sending q s u where
  frame := by rw [b.frame, a.frame]
  cluster ck := by rw [b.cluster, a.cluster]
  flits g h := (b.flits g h).elim (a.flits g) .inr
  others k h := by rw [b.others k h, a.others k h]
  own := by rw [b.own, a.own]
theorem free (h : Sending q s t) (n : Nat) : Sending q s { t with free := n } := h.trans ⟨rfl, fun _ => rfl, fun _ h => .inl h, fun _ _ => rfl, rfl⟩
/-- Changes of tiles alone. -/
theorem of_tiles (hf : t = { s with tiles := t.tiles, nextId := t.nextId })
    (ho : ∀ k, k ≠ q.tk → t.tile k = { s.tile k with reserved := (t.tile k).reserved, grantFrom := (t.tile k).grantFrom })
    (hq : t.tile q.tk = { s.tile q.tk with
      reserved := (t.tile q.tk).reserved, vector := (t.tile q.tk).vector, narrow := (t.tile q.tk).narrow }) : Sending q s t where
  frame := by rw [hf]
  cluster ck := by rw [hf]; rfl
  flits g h := by rw [hf] at h; exact .inl h
  others := ho
  own := hq
theorem returnCredits (q : Site) (s : State) (ops : List Operand) : Sending q s (s.returnCredits q.tk ops) where
  frame := by rw [State.returnCredits_frame]
  cluster := State.cluster_returnCredits s q.tk ops
  flits g h := by
    rw [Site.ck, State.flits_returnCredits, List.mem_append, List.mem_filterMap] at h
    refine h.imp_right fun ⟨o, _, ho⟩ => ?_
    obtain ⟨c, _, rfl⟩ := Option.map_eq_some_iff.mp ho
    exact ⟨c, _, rfl⟩
  others k _ := by rw [State.tile_returnCredits]
  own := by rw [State.tile_returnCredits]
theorem holdAll (q : Site) (s : State) (es : List Emission) : Sending q s (s.holdAll q es) :=
  of_tiles (by rw [State.holdAll_frame]) (fun k _ => by rw [State.tile_holdAll]) (by rw [State.tile_holdAll])
theorem modOwn (s : State) {g : Tile → Tile} (h : ∀ x, g x = { x with vector := (g x).vector, narrow := (g x).narrow }) :
    Sending q s (s.modTile q.tk g) :=
  of_tiles rfl (fun k hk => by rw [State.tile_modTile_other _ _ hk]) (by rw [State.tile_modTile_self, h])
theorem submit (s : State) (lat : Nat) (follow : List Operand) (es : List Emission) (hu : q.unit = .vector ∨ q.unit = .narrow) :
    Sending q s (s.submit q lat follow es) := by
  unfold State.submit
  split
  · exact refl q s
  rcases hu with hu | hu <;> simp only [hu]
  · split
    · exact modOwn s fun _ => rfl
    · exact modOwn s fun _ => rfl
  · exact (of_tiles rfl (fun _ _ => rfl) rfl : Sending q s { s with nextId := s.nextId + es.length }).trans (modOwn _ fun _ => rfl)
theorem output (s : State) (m : Match) (rs : List Result) (carry : Option Operand) (hu : q.unit = .vector ∨ q.unit = .narrow) :
    Sending q s (s.output q m rs carry) :=
  ((returnCredits q s _).trans (holdAll q _ _)).trans (submit _ _ _ _ hu)
theorem pointGrants (q : Site) (s : State) (m : Match) : Sending q s (s.pointGrants q m) := by
  refine foldl_rel (refl q) (fun _ _ _ => trans) _ (fun a dst => ?_) _ _
  split
  · exact refl q a
  next hne =>
    refine of_tiles rfl (fun k _ => ?_) (by rw [State.tile_modTile_other _ _ (Ne.symm hne)])
    by_cases hk : k = dst
    · subst hk; rw [State.tile_modTile_self]
    · rw [State.tile_modTile_other _ _ hk]

end Sending

theorem State.lValue_sending (s : State) (q : Site) (m : Match) : Sending q s (s.lValue m).1 := by
  unfold State.lValue
  split
  · exact .refl q s
  · exact .refl q s
  · exact (Sending.refl q s).free _
/-- What a quiet operator sends. -/
theorem Sends.sending {s u w : State} {q : Site} {m : Match} (h : Sends s u q m w) (hsu : Sending q s u)
    (hu : q.unit = .vector ∨ q.unit = .narrow) : Sending q s w := by
  cases h with
  | nothing => exact .refl q s
  | credits => exact .returnCredits q s _
  | results n rs carry => exact (hsu.free n).trans (.output _ m rs carry hu)

theorem OpTable.unitOf_lane {opc : Nat} (e : EType) (h : (OpTable.row opc).bind (·.unit) ∈ [none, some .vector, some .narrow]) :
    OpTable.unitOf opc e = .vector ∨ OpTable.unitOf opc e = .narrow := by
  unfold OpTable.unitOf
  split
  next u hu =>
    rw [hu] at h
    simpa using h
  next => split <;> simp

/-- A quiet operator's data firing. -/
theorem FiresQuietly.exec_eq {i : Instr} {opc : Nat} {f : OpFields} {act : State → Site → Match → State} (h : FiresQuietly i opc f act)
    {s u : State} {m : Match} {t : Tag} (hr : Claims.Ready s opc f m u t) :
    exec i s = .next (act (Claims.taken s opc f m) (s.site opc f) m) := by
  obtain ⟨⟨hb, h1, h2, h3, h4, hp⟩, he, -⟩ := hr
  rw [h.fires, State.fireData, State.fire_starts _ hb (State.canStart_iff.mpr ⟨h1, h2, h3, h4⟩), if_neg (by simp [hp]), if_neg (by simp [he]),
    State.noteClosed_data _ _ he]

/-- The firing tile once its operands have left the store and its unit is in use. -/
theorem State.tile_started_consume (s : State) (q : Site) (ops : List Operand) : ((s.consume q.tk ops).started q).tile q.tk =
    { s.tile q.tk with
      store := ops.foldl (fun st o => Map.del st o.idx) (s.tile q.tk).store
      slots := ((s.tile q.tk).modSlot q.key fun x => { x with firedAt := s.cycles + 1 }).slots
      lastFired := (((s.consume q.tk ops).started q).tile q.tk).lastFired
      latch := none
      resume := false } := by
  simp only [State.started, State.consume, State.tile_modTile_self]
  rfl
theorem firingsLeaveAlone : Claims.FiringsLeaveAlone := by
  intro i opc f s u w m t hi hpure hready hw
  obtain ⟨act, hact⟩ := firesQuietly_of_pure hi hpure
  rw [hact.exec_eq hready] at hw
  obtain rfl : act (Claims.taken s opc f m) (s.site opc f) m = w := by injection hw
  obtain ⟨-, -, v, hl, ht⟩ := hready
  have hlane : (s.site opc f).unit = .vector ∨ (s.site opc f).unit = .narrow := OpTable.unitOf_lane f.etype hact.unit
  have hu : Sending (s.site opc f) (Claims.taken s opc f m) u := by
    have := State.lValue_sending (Claims.taken s opc f m) (s.site opc f) m
    rwa [hl] at this
  have hsent := (Sending.pointGrants (s.site opc f) ((s.consume (s.site opc f).tk m.operands).started (s.site opc f)) m).trans
    ((hact.quiet _ _ m u v t hl ht).sending hu hlane)
  generalize act (Claims.taken s opc f m) (s.site opc f) m = w at hsent ⊢
  have hother : ∀ k, k ≠ s.actor.tk → ((s.consume (s.site opc f).tk m.operands).started (s.site opc f)).tile k = s.tile k := fun k hk =>
    (State.tile_modTile_other _ _ hk).trans (State.tile_modTile_other _ _ hk)
  refine ⟨hsent.frame, hsent.cluster, hsent.flits, fun k hk => ?_, ?_⟩
  · rw [hsent.others k hk, hother k hk]
  rintro a b rfl rfl
  rw [show s.actor.tk = (s.site opc f).tk from rfl]
  have hown := hsent.own
  rw [State.tile_started_consume] at hown
  exact ⟨by rw [hown], by rw [hown]⟩

end Sys2Proof.Machine

namespace Sys2Proof
open Machine

/-- Settles O29: every result leaves as `State.output` sends it, and a quiet operator does nothing else. -/
theorem resultsAndFrames : Obligations.ResultsAndFrames := ⟨resultsLeave, firingsLeaveAlone⟩

end Sys2Proof
end

section
/-!
PROOFS. Bindings and what translations and reads for them leave alone (02_tokens.md R46; 05_main_memory.md R112; 14_control_core.md R290;
16_scheduling.md R315).
-/
namespace Sys2Proof.Machine

/-! A change of one binding -/

theorem State.bindings_modBinding (s : State) (ck id : Nat) (g : Binding → Binding) : ((s.modBinding ck id g).cluster ck).bindings =
    (s.cluster ck).bindings.map fun b => if b.id = id then g b else b := by
  rw [State.modBinding, State.cluster_modCluster_self]
theorem State.bindings_modBinding_at {s : State} {ck k : Nat} {b : Binding} (g : Binding → Binding)
    (h : (s.cluster ck).bindings[k]? = some b) : ((s.modBinding ck b.id g).cluster ck).bindings[k]? = some (g b) := by
  rw [State.bindings_modBinding, List.getElem?_map, h]
  simp
theorem State.bindings_modBinding_found {s : State} {ck i : Nat} {b : Binding} {g : Binding → Binding} (hg : ∀ x, (g x).id = x.id)
    (h : (s.cluster ck).bindings.find? (fun x => x.id = i) = some b) :
    ((s.modBinding ck b.id g).cluster ck).bindings.find? (fun x => x.id = i) = some (g b) := by
  have hkeep : ((fun x : Binding => decide (x.id = i)) ∘ fun x => if x.id = b.id then g x else x) = fun x => decide (x.id = i) := by
    funext x
    simp only [Function.comp_apply]
    split
    · rw [hg]
    · rfl
  rw [State.bindings_modBinding, List.find?_map, hkeep, h]
  simp

theorem OnlyHome.cluster_eq {s t : State} (h : OnlyHome s t) (k : Nat) : t.cluster k = s.cluster k := by
  rw [h]
  rfl

/-! Extents alone -/

/-- The bindings of a cluster are as they were, but for the extents of those with an id. -/
def OnlyExtents (ck id : Nat) (s t : State) : Prop := ∃ e : Binding → List Extent,
  (t.cluster ck).bindings = (s.cluster ck).bindings.map fun b => if b.id = id then { b with extents := e b } else b

namespace OnlyExtents
variable {ck id : Nat} {s t u : State}

theorem of_bindings (h : (t.cluster ck).bindings = (s.cluster ck).bindings) : OnlyExtents ck id s t :=
  ⟨fun b => b.extents, by simp [h]⟩
theorem trans_bindings (h : OnlyExtents ck id s t) (hu : (u.cluster ck).bindings = (t.cluster ck).bindings) : OnlyExtents ck id s u :=
  h.imp fun _ he => hu.trans he
theorem bindings_trans (h : (t.cluster ck).bindings = (s.cluster ck).bindings) (hu : OnlyExtents ck id t u) : OnlyExtents ck id s u :=
  hu.imp fun _ he => he.trans (by rw [h])
theorem at_index {k : Nat} {b : Binding} (h : OnlyExtents ck b.id s t) (hb : (s.cluster ck).bindings[k]? = some b) :
    ∃ e, (t.cluster ck).bindings[k]? = some { b with extents := e } := by
  obtain ⟨e, he⟩ := h
  refine ⟨e b, ?_⟩
  rw [he, List.getElem?_map, hb]
  simp
theorem found {i : Nat} {b : Binding} (h : OnlyExtents ck b.id s t)
    (hb : (s.cluster ck).bindings.find? (fun x => x.id = i) = some b) :
    ∃ e, (t.cluster ck).bindings.find? (fun x => x.id = i) = some { b with extents := e } := by
  obtain ⟨e, he⟩ := h
  have hkeep : ((fun x : Binding => decide (x.id = i)) ∘ fun x => if x.id = b.id then { x with extents := e x } else x) =
      fun x => decide (x.id = i) := by
    funext x
    simp only [Function.comp_apply]
    split <;> rfl
  refine ⟨e b, ?_⟩
  rw [he, List.find?_map, hkeep, hb]
  simp
theorem keepExtent (s : State) (ck id : Nat) (e : Extent) : OnlyExtents ck id s (s.keepExtent ck id e) := by
  refine ⟨fun b => if !((s.cluster ck).extentsFull b) then b.extents ++ [e]
    else if b.extents = [] then b.extents else b.extents.drop 1 ++ [e], ?_⟩
  rw [State.keepExtent, State.cluster_modCluster_self]
  refine List.map_congr_left fun b _ => ?_
  by_cases hid : b.id = id
  · subst hid
    simp only [bne_self_eq_false, Bool.false_eq_true, if_false, if_true]
    split
    · rfl
    · split <;> rfl
  · simp [hid]
/-- The loader's translation of a page keeps every binding. -/
theorem bindings_extentOf (s : State) (ck : Nat) (c : Colour) (va k : Nat) :
    ((s.extentOf ck c va).1.cluster k).bindings = (s.cluster k).bindings := by
  have hwalk := congrArg (·.bindings) ((OnlyHome.walk s c va).cluster_eq k)
  unfold State.extentOf
  split
  · rfl
  split
  · rfl
  split
  next hx => rw [hx] at hwalk; exact hwalk
  next hx =>
    rw [hx] at hwalk
    exact (State.cluster_modCluster_keeps (·.bindings) _ ck (by intro x; rfl) k).trans hwalk
theorem bindings_xlateEngine (s : State) (ck : Nat) (c : Colour) (va : Nat) (rd wr : Bool) (k : Nat) :
    ((s.xlateEngine ck c va rd wr).1.cluster k).bindings = (s.cluster k).bindings := by
  rw [(OnlyXlate.xlateEngine s ck c va rd wr).clusters]
theorem xlateStream (s : State) (ck : Nat) (b : Binding) (va : Nat) (rd wr : Bool) :
    OnlyExtents ck b.id s (s.xlateStream ck b va rd wr).1 := by
  have hext := bindings_extentOf s ck b.colour va ck
  unfold State.xlateStream
  dsimp only
  split
  · exact of_bindings rfl
  split
  · exact of_bindings rfl
  split
  · exact of_bindings rfl
  split
  · exact of_bindings rfl
  split
  next hx => rw [hx] at hext; exact bindings_trans hext (keepExtent _ ck b.id _)
  next hx => rw [hx] at hext; exact of_bindings ((bindings_xlateEngine ..).trans hext)
theorem bindings_plainRead (s : State) (p : NetGoal) (sk pa a b : Nat) (key c : Colour) (w v : World) (k : Nat) :
    (((s.plainRead sk pa key w).1.countFrom p sk a b c v).cluster k).bindings = (s.cluster k).bindings := by
  rw [State.countFrom_frame]
  exact congrArg (·.bindings) ((OnlyHome.plainRead s sk pa key w).cluster_eq k)
theorem readAt {p : NetGoal} {c : Colour} {va n : Nat} {x : Xlat} {r : List Byte × Bool} (h : s.readAt p c va n x = .done t r) (k : Nat) :
    (t.cluster k).bindings = (s.cluster k).bindings := by
  unfold State.readAt State.readPairs at h
  split at h
  · cases h
  split at h
  · cases h
  · cases h
    exact bindings_plainRead ..
/-- A read for a binding changes no binding but its extents. -/
theorem streamRead {b : Binding} {a n : Nat} {r : List Byte × Bool} (h : s.streamRead ck b a n = .done t r) : OnlyExtents ck b.id s t := by
  have hx := xlateStream s ck b a true false
  unfold State.streamRead at h
  split at h
  · split at h
    · cases h
    · cases h
      exact of_bindings rfl
  · split at h
    · split at h <;> cases h
    next hu => rw [hu] at hx; exact hx.trans_bindings (readAt h ck)

end OnlyExtents

/-! Activation (R315) -/

/-- The EPOCH that a binding takes when it becomes active (21_faults_preemption.md R380). -/
def State.startEpoch (s : State) (ck : Nat) (b : Binding) (l : Launch) : Bool :=
  match l.ports[b.gport]? with | some g => s.bindingEpoch ck b.ctx l g | none => b.epoch
theorem execBindingActivate_starts {s : State} {ck k : Nat} {b : Binding} {l : Launch} (hb : (s.cluster ck).bindings[k]? = some b)
    (hl : s.launch? ck b.ctx = some l) (hrun : l.state = .running) (hexit : b.isExit = false) (hact : b.active = false)
    (hfin : b.finished = false) (hfroz : s.isFrozen l.world = false)
    (hfree : ∀ x ∈ (s.cluster ck).bindings, x.phys = b.phys → x.isExit = true ∨ x.active = false)
    (hearlier : ∀ x ∈ (s.cluster ck).bindings.take k, x.phys ≠ b.phys ∨ x.colour ≠ b.colour ∨ x.isExit = true ∨
      s.bindingDone ck x.id = true) :
    exec (.bindingActivate ck k) s =
      .next (s.modBinding ck b.id fun x => { x with active := true, epoch := s.startEpoch ck b l }) := by
  have hnone : (((s.cluster ck).bindings.filter fun x => x.phys = b.phys && !x.isExit).filter (·.active)) = [] := by
    refine List.filter_eq_nil_iff.mpr fun x hx => ?_
    obtain ⟨hmem, hp⟩ := List.mem_filter.mp hx
    simp only [Bool.and_eq_true, decide_eq_true_eq, Bool.not_eq_true'] at hp
    rcases hfree x hmem hp.1 with he | ha
    · simp [he] at hp
    · simp [ha]
  have hnot : ((s.cluster ck).bindings.take k).any (fun x =>
      x.phys = b.phys && x.isExit = false && x.colour = b.colour && !s.bindingDone ck x.id) = false := by
    refine List.any_eq_false.mpr fun x hx => ?_
    rcases hearlier x hx with h | h | h | h <;> simp [h]
  show execBindingActivate ck k s = _
  simp only [execBindingActivate, hb, hl, hnone, hnot, hexit, hact, hfin, hfroz, hrun]
  rfl

end Sys2Proof.Machine
end

section
/-!
PROOFS. Streams (02_tokens.md R47; 06_slices.md R131, R132; 14_control_core.md R290): the elements and lines that a binding reads, and the
admission of its oldest token.
-/
namespace Sys2Proof.Machine

/-! Elements of a stream (R290) -/

theorem execStreamElementRead_eq {s : State} {ck k : Nat} {b : Binding} {l : Launch} (hb : (s.cluster ck).bindings[k]? = some b)
    (hl : s.launch? ck b.ctx = some l) (hfroz : s.isFrozen l.world = false) (hkind : b.kind = .memory) (hexit : b.isExit = false)
    (hact : b.active = true) (hcard : (s.cluster ck).fabricCard b.phys b.colour false = none) :
    exec (.streamElementRead ck k) s = .next (s.readElement ck l b) := by
  show execStreamElementRead ck k s = _
  simp only [execStreamElementRead, hb, hl, hfroz, hexit, hact, hcard, hkind]
  rfl
theorem Binding.elemAt_eq {b : Binding} {n a : Nat} (h : b.addr n = (a : Nat)) : b.elemAt n = a := by
  simp [Binding.elemAt, h]
theorem State.readElement_end (s : State) (ck : Nat) (l : Launch) {b : Binding} (h : b.nextRead = b.total) :
    s.readElement ck l b = s.endElements ck b := if_pos h
theorem State.readElement_done {s u : State} {ck : Nat} (l : Launch) {b : Binding} {a : Nat} {bs : List Byte} {bad : Bool}
    (hlt : b.nextRead < b.total) (hpage : b.waitPage = none) (ha : b.addr b.nextRead = (a : Nat))
    (hread : s.streamRead ck b a (elemBytes b.elem) = .done u (bs, bad)) : s.readElement ck l b = u.takeElement ck l b bs bad := by
  rw [State.readElement, if_neg (Nat.ne_of_lt hlt), if_neg (by simp [hpage]; omega), Binding.elemAt_eq ha, hread]
theorem State.takeElement_wide (u : State) (ck : Nat) (l : Launch) {b : Binding} (bs : List Byte) (bad : Bool) (h : b.elem = 0) :
    u.takeElement ck l b bs bad = u.modBinding ck b.id fun x => { x with
      ready := x.ready ++ [streamToken b.nextRead (.wide ⟨BitVec.ofNat 512 (bytesNat bs), Lanes.full⟩) bad], nextRead := x.nextRead + 1 } :=
  if_pos h
theorem State.takeElement_narrow (u : State) (ck : Nat) (l : Launch) {b : Binding} (bs : List Byte) (bad : Bool) {d : List Int}
    (h : b.elem ≠ 0) (hd : Num.readBeats ((List.range (elemBeats b.elem)).map fun i => bytesNat ((bs.drop (4 * i)).take 4))
      (l.elemDigits b) = some d) : u.takeElement ck l b bs bad = u.modBinding ck b.id fun x => { x with
        ready := x.ready ++ [streamToken b.nextRead (.narrow d.length (Num.digitsValue d) (.exact d)) bad], nextRead := x.nextRead + 1 } := by
  simp only [State.takeElement, if_neg h, hd]

/-! Lines of a push generator (R131) -/

@[simp] theorem Slice.line?_monitor (l : Slice) (pa w a : Nat) : (l.monitor pa w).line? a = l.line? a := by
  unfold Slice.monitor
  split
  · rfl
  · dsimp only
    split <;> rfl
/-- A plain read of a line that its home holds under the key gives what stands there. -/
theorem State.plainRead_hit {s : State} {sk pa : Nat} {key : Colour} {y : Line} (w : World) (hy : (s.slice sk).line? pa = some y)
    (hkey : y.key = key) : (s.plainRead sk pa key w).2 = (y.data, y.poison) := by
  simp only [State.plainRead, State.serve, State.obtain, State.seen, State.slice_modSlice_self, Slice.line?_monitor, hy, hkey, if_true]
theorem execPushLineRead_eq {s : State} {sk k slice window : Nat} {g : PushGen} {b : Binding} {l : Launch}
    (hg : (s.slice sk).pushes[k]? = some g) (hb : (s.cluster g.ck).bindings.find? (fun b => b.id = g.binding) = some b)
    (hl : s.launch? g.ck b.ctx = some l) (hkind : b.kind = .push slice window) (hact : b.active = true)
    (hfroz : s.isFrozen l.world = false) : exec (.pushLineRead sk k) s =
      if b.nextRead = b.total then .next (s.endElements g.ck b)
      else if b.nextRead > b.total || b.linesHeld ≥ window then .next s else .next (s.readLine g.ck b) := by
  show execPushLineRead sk k s = _
  simp only [execPushLineRead, hg, hb, hl, hkind, hact, hfroz]
  rfl
theorem State.readLine_hit {s u : State} {ck slice window : Nat} {b : Binding} {x : Xlat} {y : Line} (hkind : b.kind = .push slice window)
    (hpage : b.waitPage = none) (haddr : 0 ≤ b.addr b.nextRead)
    (hx : s.xlateStream ck b (b.addr b.nextRead).toNat true false = (u, .ok x)) (hdev : x.device = false)
    (hwait : (u.slice x.sk).waits x.pa = false) (hcut : u.cutFrom (sliceStop slice) x.sk = false)
    (hy : (u.slice x.sk).line? x.pa = some y) (hkey : y.key = x.key) : s.readLine ck b =
      ((u.plainRead x.sk x.pa x.key (u.colour b.colour).world).1.countFrom (sliceStop slice) x.sk 0 4 b.colour
        (u.colour b.colour).world).takeLine ck b (lineBytes y.data 0 256) y.poison.getLsbD := by
  have hread := State.plainRead_hit (u.colour b.colour).world hy hkey
  have helem : b.elemAt b.nextRead = (b.addr b.nextRead).toNat := Binding.elemAt_eq (Int.toNat_of_nonneg haddr).symm
  simp only [State.readLine, helem, hpage, hx, hdev, Binding.reader, hkind, hwait, hcut, hread]
  rfl

/-- The elements of a line follow each other, up to the first one of another line or the end of the pattern. -/
theorem Binding.run_eq (b : Binding) (line : Int) (n fuel : Nat) : ∃ m ≤ fuel, b.run line n fuel = List.range' n m ∧
    (∀ i < m, b.addr (n + i) / 256 = line) ∧ (m < fuel → b.addr (n + m) / 256 ≠ line) := by
  induction fuel generalizing n with
  | zero => exact ⟨0, Nat.le_refl 0, rfl, nofun, nofun⟩
  | succ fuel ih =>
    by_cases h : b.addr n / 256 = line
    · obtain ⟨m, hm, hrun, hin, hout⟩ := ih (n + 1)
      refine ⟨m + 1, by omega, by simp [Binding.run, h, hrun, List.range'_succ], fun i hi => ?_, fun hlt => ?_⟩
      · cases i with
        | zero => exact h
        | succ i => rw [Nat.add_comm i, ← Nat.add_assoc]; exact hin i (by omega)
      · rw [Nat.add_comm m, ← Nat.add_assoc]; exact hout (by omega)
    · exact ⟨0, Nat.zero_le _, by simp [Binding.run, h], nofun, fun _ => h⟩
/-- The token of an element of a line (R131). -/
def Binding.lineToken (b : Binding) (bs : List Byte) (bad : Nat → Bool) (n : Nat) : Token :=
  streamToken n (.wide ⟨BitVec.ofNat 512 (bytesNat ((bs.drop (b.elemAt n % 256)).take 64)), Lanes.full⟩) (bad (b.elemAt n % 256 / 64))
theorem Binding.lineToken_eq {b : Binding} {n off : Nat} (bs : List Byte) (bad : Nat → Bool) (hpos : 0 ≤ b.addr n)
    (hoff : off = (b.addr n % 256).toNat) : b.lineToken bs bad n = ⟨⟨0, 0, 0, 0, 0, BitVec.ofNat 32 n⟩,
      .wide ⟨BitVec.ofNat 512 (bytesNat ((bs.drop off).take 64)), 0xFFFF⟩, none, bad (off / 64), false⟩ := by
  have helem : b.elemAt n % 256 = off := by
    rw [Binding.elemAt_eq (Int.toNat_of_nonneg hpos).symm]
    omega
  rw [Binding.lineToken, helem]
  rfl
theorem State.takeLine_eq (s : State) (ck : Nat) {b : Binding} (bs : List Byte) (bad : Nat → Bool) {m : Nat}
    (hrun : b.run (b.addr b.nextRead / 256) b.nextRead (b.total - b.nextRead) = List.range' b.nextRead m) : s.takeLine ck b bs bad =
      s.modBinding ck b.id fun x => { x with
        ready := x.ready ++ (List.range' b.nextRead m).map (b.lineToken bs bad), nextRead := x.nextRead + m } := by
  simp only [State.takeLine, hrun, List.length_range']
  rfl

/-! Admission (R46, R47) -/

theorem State.flits_injects (s : State) (ck : Nat) (src : MeshSource) (goal : Nat × Nat) (n : Bool) (vc : Nat) (x : Nat → Cargo) (js : List Nat) :
    ((js.foldl (fun s j => s.inject ck src goal n vc (x j)) s).cluster ck).flits =
      (s.cluster ck).flits ++ js.map fun j => src.flit s.cycles goal n vc (x j) := by
  induction js generalizing s with
  | nil => simp
  | cons j js ih =>
    rw [List.foldl_cons, ih, State.flits_inject, List.map_cons, List.append_assoc]
    rfl
theorem State.tile_injects (s : State) (ck : Nat) (src : MeshSource) (goal : Nat × Nat) (n : Bool) (vc : Nat) (x : Nat → Cargo) (js : List Nat)
    (k : Nat) : (js.foldl (fun s j => s.inject ck src goal n vc (x j)) s).tile k = s.tile k :=
  foldl_rel (R := fun a b : State => b.tile k = a.tile k) (fun _ => rfl) (fun _ _ _ h i => i.trans h)
    (fun (s : State) j => s.inject ck src goal n vc (x j)) (fun _ _ => rfl) _ _
theorem State.ports_injects (s : State) (ck : Nat) (src : MeshSource) (goal : Nat × Nat) (n : Bool) (vc : Nat) (x : Nat → Cargo) (js : List Nat)
    (k : Nat) : ((js.foldl (fun s j => s.inject ck src goal n vc (x j)) s).cluster k).ports = (s.cluster k).ports :=
  foldl_rel (R := fun a b : State => (b.cluster k).ports = (a.cluster k).ports) (fun _ => rfl) (fun _ _ _ h i => i.trans h) _
    (fun a _ => State.cluster_modCluster_keeps (·.ports) a ck (by intro c; rfl) k) _ _
theorem State.flits_enterPort (s : State) (ck plane : Nat) (g : GraphPort) (narrow : Bool) (t : Token) :
    ((s.enterPort ck plane g narrow t).cluster ck).flits = (s.cluster ck).flits ++ (List.range t.payload.beats).map fun j =>
      (MeshSource.port g.phys).flit s.cycles (g.ti, 4) narrow 1 (.token ⟨192 + g.phys, 0, 0⟩ plane s.nextId j t) :=
  State.flits_injects ..
theorem State.reserved_enterPort (s : State) (ck plane : Nat) (g : GraphPort) (narrow : Bool) (t : Token) :
    ((s.enterPort ck plane g narrow t).tile (192 * ck + g.ti)).reserved =
      (s.tile (192 * ck + g.ti)).reserved ++ [⟨t.tag.colour, t.tag.ctx, g.slot, plane⟩] := by
  have hheld : ((s.hold (192 * ck + g.ti) ⟨t.tag.colour, t.tag.ctx, g.slot, plane⟩).tile (192 * ck + g.ti)).reserved =
      (s.tile (192 * ck + g.ti)).reserved ++ [⟨t.tag.colour, t.tag.ctx, g.slot, plane⟩] := by
    simp [State.tile_hold]
  rw [State.enterPort, State.tile_injects]
  exact hheld
theorem State.ports_enterPort (s : State) (ck plane : Nat) (g : GraphPort) (narrow : Bool) (t : Token) (k : Nat) :
    ((s.enterPort ck plane g narrow t).cluster k).ports = (s.cluster k).ports :=
  State.ports_injects ..
theorem Cluster.ports_admitCount {x : Cluster} {g : GraphPort} {c i : Nat} {e : PortEntry} (ht : g.table = some i)
    (he : Map.get? x.ports i = some e) : Map.get? (x.admitCount g c).ports i =
      some { e with inFlight := Map.put e.inFlight c (Map.get e.inFlight c 0 + 1) } := by
  simp only [Cluster.admitCount, ht, Option.bind_some, he, Option.map_some]
  exact Map.get?_put_self ..
theorem Cluster.flits_admitCount (x : Cluster) (g : GraphPort) (c : Nat) : (x.admitCount g c).flits = x.flits := by
  unfold Cluster.admitCount
  split <;> rfl
theorem State.tile_modLaunch (s : State) (ck ctx : Nat) (g : Launch → Launch) (k : Nat) : (s.modLaunch ck ctx g).tile k = s.tile k := by
  unfold State.modLaunch
  split <;> rfl
/-- A reading of every cluster that the launches do not enter. -/
theorem State.cluster_modLaunch_keeps {α : Type} (π : Cluster → α) (h : ∀ c x, π { c with launches := x } = π c) (s : State) (ck ctx : Nat)
    (g : Launch → Launch) (k : Nat) : π ((s.modLaunch ck ctx g).cluster k) = π (s.cluster k) := by
  unfold State.modLaunch
  split
  · rfl
  · exact State.cluster_modCluster_keeps π s ck (fun c => h c _) k
theorem State.cluster_notePrefetch_keeps {α : Type} (π : Cluster → α) (h : ∀ c x, π { c with launches := x } = π c) (s : State)
    (ck ctx : Nat) (d : Colour) (k : Nat) : π ((s.notePrefetch ck ctx d).cluster k) = π (s.cluster k) := by
  unfold State.notePrefetch
  split
  · rfl
  split
  · rfl
  · exact State.cluster_modLaunch_keeps π h _ ck ctx _ k
theorem State.tile_notePrefetch (s : State) (ck ctx : Nat) (d : Colour) (k : Nat) : (s.notePrefetch ck ctx d).tile k = s.tile k := by
  unfold State.notePrefetch
  split
  · rfl
  split
  · rfl
  · exact State.tile_modLaunch ..

/-- The state once a binding has given up its oldest token, before the token sets out. -/
def State.taken (s : State) (ck : Nat) (b : Binding) (t : Token) (rest : List Token) : State :=
  (s.modBinding ck b.id fun b => { b with
    ready := rest, nextAdmit := b.nextAdmit + 1, finished := decide (t.payload = .eos 0), active := !decide (t.payload = .eos 0) }).modCluster ck
      fun k => { k with lastAdmitted := Map.put k.lastAdmitted b.phys (b.id, s.cycles + 1) }
theorem State.cluster_taken_keeps {α : Type} (π : Cluster → α) (h : ∀ c x y, π { c with bindings := x, lastAdmitted := y } = π c) (s : State)
    (ck : Nat) (b : Binding) (t : Token) (rest : List Token) (k : Nat) : π ((s.taken ck b t rest).cluster k) = π (s.cluster k) :=
  (State.cluster_modCluster_keeps π _ ck (fun c => h c _ _) k).trans (State.cluster_modCluster_keeps π s ck (fun c => h c _ c.lastAdmitted) k)
/-- The token that a port sends (R46): its colour, context, slot and port, the port as origin of its credit. -/
def Launch.portToken (l : Launch) (ck : Nat) (b : Binding) (g : GraphPort) (t : Token) : Token :=
  ⟨l.admitTag b g t, t.payload, g.table.map fun i => ⟨ck, i⟩, t.poison, b.epoch⟩
theorem State.admitNext_memory {s : State} {ck : Nat} {b : Binding} {l : Launch} {g : GraphPort} {t : Token} {rest : List Token}
    (hl : s.launch? ck b.ctx = some l) (hr : b.ready = t :: rest) (hg : l.ports[b.gport]? = some g) (hlive : (s.colour b.colour).state = .live)
    (hkind : b.kind = .memory) : s.admitNext ck b = (((s.taken ck b t rest).enterPort ck l.plane g
      ((l.entryPlane g).getD (match t.payload with | .narrow _ _ _ => true | _ => false)) (l.portToken ck b g t)).modCluster ck
        fun k => k.admitCount g b.colour.toNat).notePrefetch ck b.ctx b.colour := by
  simp only [State.admitNext, hl, hr, hg, hlive, hkind, decide_true, Bool.and_true]
  rfl

theorem State.flits_admitNext {s : State} {ck : Nat} {b : Binding} {l : Launch} {g : GraphPort} {t : Token} {rest : List Token}
    (hl : s.launch? ck b.ctx = some l) (hr : b.ready = t :: rest) (hg : l.ports[b.gport]? = some g) (hlive : (s.colour b.colour).state = .live)
    (hkind : b.kind = .memory) : ((s.admitNext ck b).cluster ck).flits = (s.cluster ck).flits ++ (List.range t.payload.beats).map fun j =>
      (MeshSource.port g.phys).flit s.cycles (g.ti, 4)
        ((l.entryPlane g).getD (match t.payload with | .narrow _ _ _ => true | _ => false)) 1
        (.token ⟨192 + g.phys, 0, 0⟩ l.plane s.nextId j (l.portToken ck b g t)) := by
  rw [State.admitNext_memory hl hr hg hlive hkind, State.cluster_notePrefetch_keeps (·.flits) (fun _ _ => rfl),
    State.cluster_modCluster_keeps (·.flits) _ _ fun c => Cluster.flits_admitCount c _ _, State.flits_enterPort,
    State.cluster_taken_keeps (·.flits) fun _ _ _ => rfl]
  rfl
theorem State.reserved_admitNext {s : State} {ck : Nat} {b : Binding} {l : Launch} {g : GraphPort} {t : Token} {rest : List Token}
    (hl : s.launch? ck b.ctx = some l) (hr : b.ready = t :: rest) (hg : l.ports[b.gport]? = some g) (hlive : (s.colour b.colour).state = .live)
    (hkind : b.kind = .memory) : ((s.admitNext ck b).tile (192 * ck + g.ti)).reserved =
      (s.tile (192 * ck + g.ti)).reserved ++ [⟨b.colour, BitVec.ofNat 11 b.ctx, g.slot, l.plane⟩] := by
  rw [State.admitNext_memory hl hr hg hlive hkind, State.tile_notePrefetch]
  exact State.reserved_enterPort ..
theorem State.ports_admitNext {s : State} {ck i : Nat} {b : Binding} {l : Launch} {g : GraphPort} {t : Token} {rest : List Token} {e : PortEntry}
    (hl : s.launch? ck b.ctx = some l) (hr : b.ready = t :: rest) (hg : l.ports[b.gport]? = some g) (hlive : (s.colour b.colour).state = .live)
    (hkind : b.kind = .memory) (ht : g.table = some i) (he : Map.get? (s.cluster ck).ports i = some e) :
    Map.get? ((s.admitNext ck b).cluster ck).ports i =
      some { e with inFlight := Map.put e.inFlight b.colour.toNat (Map.get e.inFlight b.colour.toNat 0 + 1) } := by
  rw [State.admitNext_memory hl hr hg hlive hkind, State.cluster_notePrefetch_keeps (·.ports) (fun _ _ => rfl), State.cluster_modCluster_self]
  refine Cluster.ports_admitCount ht ?_
  rw [State.ports_enterPort, State.cluster_taken_keeps (·.ports) fun _ _ _ => rfl]
  exact he

/-! The steps of a port (R131, R315) -/

theorem execAdmitToken_memory {s : State} {ck k : Nat} {b : Binding} (h : s.portTurn ck k = some b) (hkind : b.kind = .memory) :
    exec (.admitToken ck k) s = .next (s.admitNext ck b) := by
  show execAdmitToken ck k s = _
  simp only [execAdmitToken, h, hkind]
theorem execPushElementDeliver_eq {s : State} {sk k : Nat} {g : PushGen} {b : Binding} (hg : (s.slice sk).pushes[k]? = some g)
    (hb : (s.cluster g.ck).bindings.find? (fun b => b.id = g.binding) = some b) (h : s.portTurn g.ck b.phys = some b) :
    exec (.pushElementDeliver sk k) s = .next (s.admitNext g.ck b) := by
  show execPushElementDeliver sk k s = _
  simp only [execPushElementDeliver, hg, hb, h, if_true]

theorem streamsDeliver : Claims.StreamsDeliver := by
  intro s ck k
  refine ⟨?_, ?_, ?_, fun b h hkind => execAdmitToken_memory h hkind, ?_⟩
  · intro b l hb hl hrun hexit hact hfin hfroz hfree hearlier
    exact ⟨_, execBindingActivate_starts hb hl hrun hexit hact hfin hfroz hfree hearlier, ⟨_, State.bindings_modBinding_at _ hb⟩, rfl, rfl⟩
  · intro b l a u bs bad hb hl hfroz _ hkind hexit hact hcard hpage
    have hexec := execStreamElementRead_eq hb hl hfroz hkind hexit hact hcard
    refine ⟨fun hend => ⟨_, hexec.trans (congrArg _ (s.readElement_end ck l hend)), State.bindings_modBinding_at _ hb⟩, fun hlt ha hread => ?_⟩
    obtain ⟨e, he⟩ := (OnlyExtents.streamRead hread).at_index hb
    refine ⟨_, e, hexec.trans (congrArg _ (State.readElement_done l hlt hpage ha hread)), fun h0 => ?_, fun d h0 hd => ?_⟩
    · rw [State.takeElement_wide u ck l bs bad h0]
      exact State.bindings_modBinding_at _ he
    · rw [State.takeElement_narrow u ck l bs bad h0 hd]
      exact State.bindings_modBinding_at _ he
  · intro sk g b l slice window hg hb hl hkind hact hfroz
    have hexec := execPushLineRead_eq hg hb hl hkind hact hfroz
    refine ⟨fun hend => hexec.trans (if_pos hend), fun hlt hfull => ?_, ?_, fun h => execPushElementDeliver_eq hg hb h⟩
    · rw [hexec, if_neg (Nat.ne_of_lt hlt), if_pos (by simp [hfull])]
    intro u x y hlt hroom hpage haddr hx hdev hwait hcut hy hkey
    rw [if_neg (Nat.ne_of_lt hlt), if_neg (by simp; omega), State.readLine_hit hkind hpage haddr hx hdev hwait hcut hy hkey] at hexec
    obtain ⟨m, hm, hrun, hin, hout⟩ := b.run_eq (b.addr b.nextRead / 256) b.nextRead (b.total - b.nextRead)
    rw [State.takeLine_eq _ _ _ _ hrun] at hexec
    have hextents : OnlyExtents g.ck b.id s ((u.plainRead x.sk x.pa x.key (u.colour b.colour).world).1.countFrom (sliceStop slice) x.sk 0 4
        b.colour (u.colour b.colour).world) := by
      have h := OnlyExtents.xlateStream s g.ck b (b.addr b.nextRead).toNat true false
      rw [hx] at h
      exact h.trans_bindings (OnlyExtents.bindings_plainRead ..)
    obtain ⟨e, he⟩ := hextents.found hb
    refine ⟨_, e, m, (List.range' b.nextRead m).map (b.lineToken (lineBytes y.data 0 256) y.poison.getLsbD), hexec,
      State.bindings_modBinding_found (by intro z; rfl) he, ?_, by simp, by omega, fun i hi => ⟨hin i hi, ?_⟩, fun h =>
      hout (by omega)⟩
    · refine Nat.pos_of_ne_zero fun h0 => ?_
      subst h0
      exact hout (by omega) rfl
    · intro off hoff hpos
      rw [List.getElem?_map, List.getElem?_range' hi, Option.map_some, Nat.one_mul, Binding.lineToken_eq _ _ hpos hoff]
  · intro b l g x rest hl hr hg hlive hkind _
    have htag : (l.portToken ck b g x) = ⟨⟨b.colour, BitVec.ofNat 11 b.ctx, BitVec.ofNat 6 g.slot, portCode g.port, x.tag.level,
        x.tag.iter &&& iterMask l.levels⟩, x.payload, g.table.map fun i => ⟨ck, i⟩, x.poison, b.epoch⟩ := by
      simp only [Launch.portToken, Launch.admitTag, hkind]
    refine ⟨_, _, s.nextId, _, rfl, rfl, htag, State.flits_admitNext hl hr hg hlive hkind, State.reserved_admitNext hl hr hg hlive hkind,
      fun i e ht he => State.ports_admitNext hl hr hg hlive hkind ht he⟩

end Sys2Proof.Machine
end

section
/-!
PROOFS. Exit ports and their reorder units (02_tokens.md R47, R49; 12_ops_memory.md R249, R250).
-/
namespace Sys2Proof.Machine

/-! Reorder units -/

theorem State.exits_modReorder (s : State) (ck ctx gport : Nat) (c : Colour) (g : Reorder → Reorder) :
    ((s.modReorder ck ctx gport c g).cluster ck).exits = (s.cluster ck).exits := by
  refine State.cluster_modCluster_keeps (·.exits) s ck (fun k => ?_) ck
  split <;> rfl
/-- A change of reorder units elsewhere is seen by no reading of one. -/
theorem State.reorder_congr {s t : State} {ck : Nat} (h : (t.cluster ck).reorders = (s.cluster ck).reorders) (ctx gport : Nat) (c : Colour) :
    t.reorder ck ctx gport c = s.reorder ck ctx gport c := by
  simp only [State.reorder, h]
/-- A unit's reading is that of its port, context and colour. -/
theorem State.reorder_isFor (s : State) (ck ctx gport : Nat) (c : Colour) : (s.reorder ck ctx gport c).isFor ctx gport c = true := by
  unfold State.reorder
  split
  next r h => exact List.find?_some (p := fun r : Reorder => r.isFor ctx gport c) h
  next => simp [Reorder.isFor]
theorem Reorder.isFor_iff {r : Reorder} {ctx gport : Nat} {c : Colour} : r.isFor ctx gport c = true ↔
    r.ctx = ctx ∧ r.gport = gport ∧ r.colour = c := by
  simp [Reorder.isFor, and_assoc]
theorem State.reorders_modReorder (s : State) (ck ctx gport : Nat) (c : Colour) (g : Reorder → Reorder) :
    ((s.modReorder ck ctx gport c g).cluster ck).reorders = if (s.cluster ck).reorders.any fun r => r.isFor ctx gport c then
      (s.cluster ck).reorders.map fun r => if r.isFor ctx gport c then g r else r
    else (s.cluster ck).reorders ++ [g ⟨ctx, c, gport, 0, []⟩] := by
  rw [State.modReorder, State.cluster_modCluster_self]
  split <;> rfl
/-- What a change of a unit leaves of it. -/
theorem State.reorder_modReorder (s : State) (ck ctx gport : Nat) (c : Colour) {g : Reorder → Reorder}
    (hg : ∀ r, (g r).isFor ctx gport c = r.isFor ctx gport c) :
    (s.modReorder ck ctx gport c g).reorder ck ctx gport c = g (s.reorder ck ctx gport c) := by
  simp only [State.reorder, State.reorders_modReorder]
  cases hf : (s.cluster ck).reorders.find? fun r => r.isFor ctx gport c with
  | none =>
    have hany : ¬ ((s.cluster ck).reorders.any fun r => r.isFor ctx gport c) = true := by
      simpa [List.any_eq_true, List.find?_eq_none] using hf
    have hnew : (g ⟨ctx, c, gport, 0, []⟩).isFor ctx gport c = true := by
      rw [hg]
      simp [Reorder.isFor]
    rw [if_neg hany]
    rw [List.find?_append, hf, Option.none_or, List.find?_cons, hnew]
  | some r =>
    have hr : r.isFor ctx gport c = true := List.find?_some (p := fun r : Reorder => r.isFor ctx gport c) hf
    have hany : ((s.cluster ck).reorders.any fun r => r.isFor ctx gport c) = true :=
      List.any_eq_true.mpr ⟨r, List.mem_of_find?_eq_some hf, hr⟩
    have hkeep : ((fun r : Reorder => r.isFor ctx gport c) ∘ fun r => if r.isFor ctx gport c then g r else r) =
        fun r => r.isFor ctx gport c := by
      funext r
      simp only [Function.comp_apply]
      split
      · exact hg r
      · rfl
    rw [if_pos hany, List.find?_map, hkeep, hf]
    simp [hr]
theorem State.reorder_exitStamp (s : State) (ck phys ctx gport : Nat) (c : Colour) :
    (s.exitStamp ck phys).reorder ck ctx gport c = s.reorder ck ctx gport c :=
  State.reorder_congr (State.cluster_modCluster_keeps (·.reorders) s ck (by intro k; rfl) ck) ctx gport c
/-- NEXT moves by one, and the token that has passed is held no more. -/
theorem State.reorder_passedNext (s : State) (ck phys : Nat) (r : Reorder) (h : Option (Token × Nat)) :
    (s.passedNext ck phys r h).reorder ck r.ctx r.gport r.colour =
      { s.reorder ck r.ctx r.gport r.colour with
        next := (s.reorder ck r.ctx r.gport r.colour).next + 1
        held := match h with
          | some h => (s.reorder ck r.ctx r.gport r.colour).held.erase h
          | none => (s.reorder ck r.ctx r.gport r.colour).held } := by
  rw [State.passedNext, State.reorder_exitStamp]
  exact State.reorder_modReorder _ _ _ _ _ (by intro x; rfl)

/-! A token reaches its exit port (R49, R249) -/

/-- What its port does with the k-th token on its way out, where it comes first from its edge. -/
def State.exitOutcome (s : State) (ck : Nat) (e : ExitToken) : State × Bool :=
  match (s.cluster ck).orderedExit e.phys e.token.tag.ctx.toNat e.token.tag.colour with
  | some b => s.orderedArrival ck e.phys b.gport e.token
  | none => s.passExit ck e.phys e.token
theorem execExitDelivery_first {s : State} {ck k : Nat} {e : ExitToken} (he : (s.cluster ck).exits[k]? = some e)
    (hscan : s.scanning ck = false) (hfroz : s.isFrozen ((s.worldOfCtx ck e.token.tag.ctx.toNat).getD 0) = false)
    (hfirst : ∀ x ∈ (s.cluster ck).exits.take k, x.phys ≠ e.phys ∨ x.edge ≠ e.edge) : exec (.exitDelivery ck k) s = .next
      (if (s.exitOutcome ck e).2 then
        (s.exitOutcome ck e).1.modCluster ck fun x => { x with exits := x.exits.eraseIdx k } else (s.exitOutcome ck e).1) := by
  have hnot : ∀ free : ExitToken → Bool,
      ((s.cluster ck).exits.take k).any (fun x => x.phys = e.phys && x.edge = e.edge && free x) = false := fun free =>
    List.any_eq_false.mpr fun x hx => by rcases hfirst x hx with h | h <;> simp [h]
  show execExitDelivery ck k s = _
  simp only [execExitDelivery, he, State.exitArrival, hscan, hfroz, hnot]
  rfl
theorem State.orderedArrival_next {s u : State} {ck phys gport : Nat} {t : Token} (hdata : t.payload.isEos = false)
    (hnext : t.tag.iter = (s.reorder ck t.tag.ctx.toNat gport t.tag.colour).next) (hpass : s.passExit ck phys t = (u, true)) :
    s.orderedArrival ck phys gport t = (u.passedNext ck phys (s.reorder ck t.tag.ctx.toNat gport t.tag.colour) none, true) := by
  have h0 : t.payload ≠ .eos 0 := fun h => by simp [h, Payload.isEos] at hdata
  simp only [State.orderedArrival, if_neg h0, hdata, if_pos hnext, hpass]
  rfl
theorem State.orderedArrival_holds {s : State} {ck phys gport : Nat} {t : Token} (hdata : t.payload.isEos = false)
    (hnext : t.tag.iter ≠ (s.reorder ck t.tag.ctx.toNat gport t.tag.colour).next)
    (hnear : (t.tag.iter - (s.reorder ck t.tag.ctx.toNat gport t.tag.colour).next).toNat ≤ 63)
    (hroom : (s.cluster ck).entryFree (s.reorder ck t.tag.ctx.toNat gport t.tag.colour) = true) : s.orderedArrival ck phys gport t =
      (s.modReorder ck t.tag.ctx.toNat gport t.tag.colour fun r => { r with held := r.held ++ [(t, 0)] }, true) := by
  have h0 : t.payload ≠ .eos 0 := fun h => by simp [h, Payload.isEos] at hdata
  simp only [State.orderedArrival, if_neg h0, hdata, if_neg hnext, hnear, hroom]
  rfl
theorem State.orderedArrival_waits {s : State} {ck phys gport : Nat} {t : Token} (hdata : t.payload.isEos = false)
    (hnext : t.tag.iter ≠ (s.reorder ck t.tag.ctx.toNat gport t.tag.colour).next)
    (hfar : 63 < (t.tag.iter - (s.reorder ck t.tag.ctx.toNat gport t.tag.colour).next).toNat ∨
      (s.cluster ck).entryFree (s.reorder ck t.tag.ctx.toNat gport t.tag.colour) = false) :
    s.orderedArrival ck phys gport t = (s, false) := by
  have h0 : t.payload ≠ .eos 0 := fun h => by simp [h, Payload.isEos] at hdata
  have hno : (decide ((t.tag.iter - (s.reorder ck t.tag.ctx.toNat gport t.tag.colour).next).toNat ≤ 63) &&
      (s.cluster ck).entryFree (s.reorder ck t.tag.ctx.toNat gport t.tag.colour)) = false := by
    rcases hfar with h | h
    · rw [decide_eq_false (Nat.not_le.mpr h), Bool.false_and]
    · rw [h, Bool.and_false]
  simp only [State.orderedArrival, if_neg h0, hdata, if_neg hnext, hno]
  rfl
/-- Taking a token off the way out touches no reorder unit. -/
theorem State.reorder_eraseExit (s : State) (ck k ctx gport : Nat) (c : Colour) :
    (s.modCluster ck fun x => { x with exits := x.exits.eraseIdx k }).reorder ck ctx gport c = s.reorder ck ctx gport c :=
  State.reorder_congr (State.cluster_modCluster_keeps (·.reorders) s ck (by intro x; rfl) ck) ctx gport c
theorem execExitDelivery_held {s u : State} {ck k p : Nat} {r : Reorder} {h : Token × Nat} (hk : (s.cluster ck).exits.length ≤ k)
    (hr : (s.cluster ck).reorders[k - (s.cluster ck).exits.length]? = some r) (hp : p = s.reorderPort ck r) (hscan : s.scanning ck = false)
    (hfroz : s.isFrozen ((s.worldOfCtx ck r.ctx).getD 0) = false)
    (hstamp : (Map.get (s.cluster ck).lastAdmitted (64 + p) (0, 0)).2 ≠ s.cycles + 1)
    (hh : r.held.find? (fun h => h.1.tag.iter = r.next) = some h) (hpass : s.passExit ck p h.1 = (u, true)) :
    exec (.exitDelivery ck k) s = .next (u.passedNext ck p r (some h)) := by
  subst hp
  show execExitDelivery ck k s = _
  simp only [execExitDelivery, List.getElem?_eq_none hk, hr, State.passHeld, hstamp, hscan, hfroz, hh, hpass]
  rfl

/-! A token passes an exit port (R49) -/

theorem State.passExit_gone {s u : State} {ck phys : Nat} {t : Token} (h : s.passTo ck phys t = (u, true)) :
    s.passExit ck phys t = (u.noteExitEos ck t.tag.ctx.toNat phys t, true) := by
  simp only [State.passExit, h, if_true]
theorem State.noteExitEos_other (s : State) (ck ctx phys : Nat) {t : Token} (h : t.payload ≠ .eos 0) : s.noteExitEos ck ctx phys t = s :=
  if_pos (bne_iff_ne.mpr h)
theorem State.linkFrom_none {s : State} {ck : Nat} (h : ∀ b ∈ (s.cluster ck).bindings, ¬ (∃ sc sp, b.kind = .link sc sp))
    (ctx phys : Nat) (c : Colour) : s.linkFrom ck ctx phys c = none := by
  refine List.find?_eq_none.mpr fun b hb => ?_
  cases hkind : b.kind with
  | link sc sp => exact absurd ⟨sc, sp, hkind⟩ (h b hb)
  | memory => simp
  | push sk w => simp
theorem State.passTo_nobody {s : State} {ck phys : Nat} {t : Token}
    (hlib : (s.die (dieOf ck)).libs.find? (fun x => x.ck = ck && x.ctx = t.tag.ctx.toNat) = none)
    (hlink : s.linkFrom ck t.tag.ctx.toNat phys t.tag.colour = none)
    (hexit : (s.cluster ck).bindings.find? (fun b => b.isExit && b.ctx = t.tag.ctx.toNat && b.phys = phys && b.colour = t.tag.colour) = none) :
    s.passTo ck phys t = (s.unbound ck phys t 0, true) := by
  simp only [State.passTo, hlib, hlink, hexit]
  rfl
theorem State.passTo_exit {s : State} {ck phys : Nat} {t : Token} {b : Binding}
    (hlib : (s.die (dieOf ck)).libs.find? (fun x => x.ck = ck && x.ctx = t.tag.ctx.toNat) = none)
    (hlink : s.linkFrom ck t.tag.ctx.toNat phys t.tag.colour = none)
    (hexit : (s.cluster ck).bindings.find? (fun b => b.isExit && b.ctx = t.tag.ctx.toNat && b.phys = phys && b.colour = t.tag.colour) = some b)
    (hcard : (s.cluster ck).fabricCard phys t.tag.colour true = none) : s.passTo ck phys t =
      if t.payload = .eos 0 then ((s.exitCredit ck phys t).modBinding ck b.id fun b => { b with finished := true }, true)
      else if t.payload.isEos then (s.exitCredit ck phys t, true)
      else if t.tag.iter.toNat ≥ b.total then (s.unbound ck phys t 1, true)
      else (((s.exitCredit ck phys t).modBinding ck b.id fun b => { b with ready := b.ready ++ [t] }).flushExit ck b.id
        (b.ready.length + 1), true) := by
  simp only [State.passTo, hlib, hlink, hexit, hcard]
  rfl

/-! A unit's oldest token is old (R250) -/

theorem execExitReorderAgeRelease_eq {s : State} {ck k : Nat} {r : Reorder} {h : Token × Nat} (hr : (s.cluster ck).reorders[k]? = some r)
    (hlow : r.lowest = some h) (hscan : s.scanning ck = false) (hage : (s.colour r.colour).age ≠ 0)
    (hold : ∃ x ∈ r.held, (s.colour r.colour).age ≤ x.2) : exec (.exitReorderAgeRelease ck k) s =
      .next (s.modReorder ck r.ctx r.gport r.colour fun r => { r with next := h.1.tag.iter }) := by
  have hall : (r.held.all fun x => decide (x.2 < (s.colour r.colour).age)) = false := by
    obtain ⟨x, hx, hle⟩ := hold
    exact List.all_eq_false.mpr ⟨x, hx, by simpa using hle⟩
  show execExitReorderAgeRelease ck k s = _
  simp only [execExitReorderAgeRelease, hr, hlow, hscan, hall]
  simp [hage]

theorem exitsDeliver : Claims.ExitsDeliver := by
  intro s ck k
  refine ⟨?_, ?_, ?_, fun r h hr hlow hscan hage hold => execExitReorderAgeRelease_eq hr hlow hscan hage hold⟩
  · rintro e ctx c he hscan rfl rfl hfroz hfirst
    have hexec := execExitDelivery_first he hscan hfroz hfirst
    refine ⟨fun hno => ⟨fun u hpass => ?_, fun u hpass => ?_⟩, ?_, ?_⟩
    · have hout : s.exitOutcome ck e = (u, true) := by simp only [State.exitOutcome, hno, hpass]
      simp only [hexec, hout, if_true]
    · have hout : s.exitOutcome ck e = (u, false) := by simp only [State.exitOutcome, hno, hpass]
      simp only [hexec, hout, Bool.false_eq_true, if_false]
    · rintro b r hord rfl hdata hnext
      have hout : s.exitOutcome ck e = s.orderedArrival ck e.phys b.gport e.token := by simp only [State.exitOutcome, hord]
      refine ⟨fun hnear hroom => ?_, fun hfar => ?_⟩
      · rw [hout, State.orderedArrival_holds hdata hnext hnear hroom, if_pos rfl] at hexec
        refine ⟨_, hexec, ?_, ?_, ?_⟩
        · rw [State.reorder_eraseExit, State.reorder_modReorder _ _ _ _ _ (by intro x; rfl)]
        · rw [State.reorder_eraseExit, State.reorder_modReorder _ _ _ _ _ (by intro x; rfl)]
        · rw [State.cluster_modCluster_self, State.exits_modReorder]
      · simp only [hexec, hout, State.orderedArrival_waits hdata hnext hfar, Bool.false_eq_true, if_false]
    · rintro b r u hord rfl hdata hnext hpass
      have hout : s.exitOutcome ck e = s.orderedArrival ck e.phys b.gport e.token := by simp only [State.exitOutcome, hord]
      rw [hout, State.orderedArrival_next hdata hnext hpass, if_pos rfl] at hexec
      refine ⟨_, hexec, rfl, ?_⟩
      obtain ⟨hctx, hgport, hcolour⟩ := Reorder.isFor_iff.mp (s.reorder_isFor ck e.token.tag.ctx.toNat b.gport e.token.tag.colour)
      have hpassed := u.reorder_passedNext ck e.phys (s.reorder ck e.token.tag.ctx.toNat b.gport e.token.tag.colour) none
      rw [hctx, hgport, hcolour] at hpassed
      rw [State.reorder_eraseExit, hpassed]
  · intro r h u p hk hr hp hscan hfroz hstamp hh hpass
    exact ⟨_, execExitDelivery_held hk hr hp hscan hfroz hstamp hh hpass, by rw [State.reorder_passedNext], by rw [State.reorder_passedNext]⟩
  · rintro phys t ctx c rfl rfl hlib hlinks
    have hlink := State.linkFrom_none hlinks t.tag.ctx.toNat phys t.tag.colour
    refine ⟨fun hnone => State.passExit_gone (State.passTo_nobody hlib hlink (List.find?_eq_none.mpr fun b hb => ?_)), fun b hexit hcard => ?_⟩
    · have := hnone b hb
      simpa [and_assoc] using this
    have hto := State.passTo_exit hlib hlink hexit hcard
    refine ⟨fun h0 => ?_, fun n hn hn0 => ?_, fun hdata hlong => ?_, fun hdata hin => ?_⟩
    · rw [if_pos h0] at hto
      exact State.passExit_gone hto
    · have h0 : t.payload ≠ .eos 0 := fun h => hn0 (by rw [hn] at h; injection h)
      rw [if_neg h0, if_pos (by rw [hn]; rfl)] at hto
      rw [State.passExit_gone hto, State.noteExitEos_other _ _ _ _ h0]
    · have h0 : t.payload ≠ .eos 0 := fun h => by simp [h, Payload.isEos] at hdata
      rw [if_neg h0, if_neg (by simp [hdata]), if_pos hlong] at hto
      rw [State.passExit_gone hto, State.noteExitEos_other _ _ _ _ h0]
    · have h0 : t.payload ≠ .eos 0 := fun h => by simp [h, Payload.isEos] at hdata
      rw [if_neg h0, if_neg (by simp [hdata]), if_neg (by omega)] at hto
      rw [State.passExit_gone hto, State.noteExitEos_other _ _ _ _ h0]

end Sys2Proof.Machine

namespace Sys2Proof
open Machine

/-- Settles O43: a step of a stream or of an exit port is the step of its binding or reorder unit, step by step of the unit's own rule. -/
theorem streamsAndExitsDeliver : Obligations.StreamsAndExitsDeliver := ⟨streamsDeliver, exitsDeliver⟩

end Sys2Proof
end

section
/-!
PROOFS. The fetch of a line that is locked (06_slices.md R121; 14_control_core.md R275): the instruction is issued again, and what the
translation of PC has cached in the TLBs is not kept.
-/
namespace Sys2Proof.Machine

/-! A fetch that finds its line locked -/

/-- The state in which a context fetches: its `issue` has left the agenda, and it has used the issue of this cycle (R275). -/
def State.issuing (s : State) (rest : List Move) (ck ctx : Nat) : State :=
  ({ s with agenda := rest }.act ck ctx).modCluster ck fun k => { k with lastIssued := ctx, issuedAt := s.cycles + 1 }

/-- An access that waits for a lock keeps no state of its own, so the state that the translation left is gone with it. -/
theorem State.fetchWord_locked {s t : State} {pc : Nat} {x : Xlat}
    (hx : s.xlateCore s.actor.ck s.me.colour pc true false = (t, .ok x)) (hd : x.device = false)
    (hb : t.lineBusy t.actor.ck x.sk x.pa = true) : s.fetchWord pc = .busy := by
  simp [State.fetchWord, hx, hd, hb]

theorem State.fetchCore_locked {s : State} {rest : List Move} {ck ctx : Nat} (hc : ({ s with agenda := rest }.act ck ctx).canIssue = true)
    (hp : (s.issuing rest ck ctx).me.pc.toNat % 8 = 0)
    (hw : (s.issuing rest ck ctx).fetchWord (s.issuing rest ck ctx).me.pc.toNat = .busy) :
    ({ s with agenda := rest }.act ck ctx).fetchCore = .none (s.issuing rest ck ctx) := by
  have hu : ({ s with agenda := rest }.act ck ctx).modCluster ({ s with agenda := rest }.act ck ctx).actor.ck
    (fun k => { k with lastIssued := ({ s with agenda := rest }.act ck ctx).actor.ctx,
                       issuedAt := ({ s with agenda := rest }.act ck ctx).cycles + 1 }) = s.issuing rest ck ctx := rfl
  simp [State.fetchCore, hc, hu, hp, hw]

/-- The step of an `issue` that finds its line locked leaves the state in which the context fetched. -/
theorem step_issue_locked {s t : State} {rest : List Move} {ck ctx : Nat} {x : Xlat} (ha : s.agenda = .issue ck ctx :: rest)
    (hc : ({ s with agenda := rest }.act ck ctx).canIssue = true) (hp : (s.issuing rest ck ctx).me.pc.toNat % 8 = 0)
    (hx : (s.issuing rest ck ctx).xlateCore ck (s.issuing rest ck ctx).me.colour (s.issuing rest ck ctx).me.pc.toNat true false = (t, .ok x))
    (hd : x.device = false) (hb : t.lineBusy t.actor.ck x.sk x.pa = true) : step s = .next (s.issuing rest ck ctx) := by
  simp only [step, ha, State.move, State.fetchCore_locked hc hp (State.fetchWord_locked hx hd hb), Fetched.go]

/-! The translation of PC -/

/-- A translation that misses a cluster's first-level TLB and hits its second-level one caches the leaf in the first (R108). -/
theorem State.xlateCore_caches {s : State} {ck : Nat} {c : Colour} {va : Nat} {rd wr : Bool} {e : TlbEntry}
    (hp : (s.colour c).poisoned = false) (hv : va < 2 ^ 47) (hc : (s.colour c).state = .live)
    (h1 : (s.cluster ck).tlb = []) (h2 : tlbFind (s.cluster ck).l2tlb c va = some e) :
    s.xlateCore ck c va rd wr =
      (s.modCluster ck fun k => { k with tlb := tlbInsert 32 k.tlb e }, s.leafCheck c e.level e.pte.toNat va rd wr) := by
  have hx : s.xlate ((s.cluster ck).tlb ++ (s.cluster ck).l2tlb) c va rd wr = (s, none, s.leafCheck c e.level e.pte.toNat va rd wr) := by
    simp only [State.xlate, hp, if_neg (Nat.not_le.mpr hv), hc, h1, List.nil_append, h2, bne_self_eq_false, Bool.false_eq_true, if_false]
  simp [State.xlateCore, hx, h2]

/-! A state in which a context fetches from a locked line -/

/-- A miss of slice 4 for the line at 64 GiB, where `State.place` puts the fetched page. -/
def missingRead : Miss :=
  { request := { src := .tile 0, sk := 4, pa := fetchBase, off := 0, colour := 0, key := 0, world := 0, kind := .read, pts := 0, scope := 0,
                 answer := none, ack := none, stamp := 0, va := none }
    asked := false, data := none, back := false }
/-- Context 0 of cluster 0 is to fetch at PC 0: the leaf of its page stands in the second-level TLB alone, and the line of its
instruction is locked for a miss. -/
def lockedFetch : State :=
  ((State.reset.place 64 0).modCluster 0 fun k => { k with tlb := [], l2tlb := k.tlb }).modSlice 4 fun l => { l with misses := [missingRead] }
/-- The leaf that maps PC in `lockedFetch`. -/
def fetchLeaf : TlbEntry := ⟨0, 1, 0, BitVec.ofNat 64 (fetchBase + 31)⟩

theorem xlateCore_lockedFetch : (lockedFetch.issuing [] 0 0).xlateCore 0 (lockedFetch.issuing [] 0 0).me.colour
      (lockedFetch.issuing [] 0 0).me.pc.toNat true false =
    ((lockedFetch.issuing [] 0 0).modCluster 0 fun k => { k with tlb := tlbInsert 32 k.tlb fetchLeaf }, .ok ⟨fetchBase, 0, 0, 0, 0, false⟩) := by
  rw [State.xlateCore_caches (e := fetchLeaf) (by decide +kernel) (by decide +kernel) (by decide +kernel) (by decide +kernel)
    (by decide +kernel)]
  exact congrArg _ (by decide +kernel)

end Sys2Proof.Machine

namespace Sys2Proof
open Machine

/-- Refutes O54: the fetch of `lockedFetch` finds its line locked and is to be made again, but its step does not reach the state that
the translation of PC left: the leaf that the translation cached in the cluster's TLB is not there. -/
theorem not_stepRunsTheDecodedInstruction : ¬ Obligations.StepRunsTheDecodedInstruction := by
  intro h
  have hagenda : lockedFetch.agenda = [.issue 0 0] := by decide +kernel
  have hcan : ({ lockedFetch with agenda := [] }.act 0 0).canIssue = true := by decide +kernel
  have hpc : (lockedFetch.issuing [] 0 0).me.pc.toNat % 8 = 0 := by decide +kernel
  have hlocked : ((lockedFetch.issuing [] 0 0).modCluster 0 fun k => { k with tlb := tlbInsert 32 k.tlb fetchLeaf }).lineBusy 0
    (Xlat.sk ⟨fetchBase, 0, 0, 0, 0, false⟩) fetchBase = true := by decide +kernel
  have hmodel := step_issue_locked hagenda hcan hpc xlateCore_lockedFetch rfl hlocked
  obtain ⟨-, -, -, -, -, hissue⟩ := h lockedFetch [] _ rfl
  obtain ⟨hxlate, -⟩ := ((hissue 0 0 hagenda).2 hcan (lockedFetch.issuing [] 0 0) rfl).2 hpc
  obtain ⟨-, hclaim, -⟩ := hxlate _ lockedFetch _ 0 0 0 xlateCore_lockedFetch
  have hsame := Host.Outcome.next.inj (hmodel.symm.trans (hclaim rfl hlocked))
  have htlb : (lockedFetch.issuing [] 0 0).cluster 0 = _ := (congrArg (·.cluster 0) hsame).trans (State.cluster_modCluster_self ..)
  exact absurd (congrArg Cluster.tlb htlb) (by decide +kernel)

end Sys2Proof
end

section
/-!
PROOFS. Bit fields and bytes of numbers (01_notation.md R21): a number below a power of two is its fields, the bytes of a number
give it back, and the codes of scopes, tag operations, element types and destinations are read as they are written.
-/
namespace Sys2Proof

/-! Fields -/

theorem Decode.field_lt (w hi lo : Nat) : Decode.field w hi lo < 2 ^ (hi - lo + 1) := Nat.mod_lt _ (Nat.two_pow_pos _)

/-- The bits of a number up to `hi` are a field that ends there and the bits below the field. -/
theorem Decode.mod_eq_field (w hi lo : Nat) (h : lo ≤ hi := by decide) :
    w % 2 ^ (hi + 1) = Decode.field w hi lo * 2 ^ lo + w % 2 ^ lo := by
  rw [show hi + 1 = lo + (hi - lo + 1) by omega, Nat.pow_add, Nat.mod_mul, Decode.field]
  ring

@[simp] theorem Decode.ofNat_mod_two_pow (n x : Nat) : BitVec.ofNat n (x % 2 ^ n) = BitVec.ofNat n x := by
  apply BitVec.eq_of_toNat_eq; simp

/-- A one-bit field is the flag that it is read as. -/
theorem Decode.toNat_flag (w k : Nat) : (decide (Decode.field w k k = 1)).toNat = Decode.field w k k := by
  have hlt : Decode.field w k k < 2 := by simpa using Decode.field_lt w k k
  by_cases h : Decode.field w k k = 1
  · simp [h]
  · simp [show Decode.field w k k = 0 by omega]

/-! Bytes -/

@[simp] theorem Decode.length_toBytes (n x : Nat) : (Decode.toBytes n x).length = n := by
  induction n generalizing x with
  | zero => rfl
  | succ n ih => simp [Decode.toBytes, ih]

theorem Decode.ofBytes_toBytes (n x : Nat) : Decode.ofBytes (Decode.toBytes n x) = x % 256 ^ n := by
  induction n generalizing x with
  | zero => simp [Decode.toBytes, Decode.ofBytes, Nat.mod_one]
  | succ n ih => rw [Decode.toBytes, Decode.ofBytes, ih, Nat.pow_succ', Nat.mod_mul, BitVec.toNat_ofNat]

theorem decodeBytes_toBytes_8 {w : Nat} (h : w < 2 ^ 64) : decodeBytes (Decode.toBytes 8 w) = decodeCore w := by
  rw [decodeBytes, if_pos (Decode.length_toBytes 8 w), Decode.ofBytes_toBytes, Nat.mod_eq_of_lt (show w < 256 ^ 8 from h)]
theorem decodeBytes_toBytes_16 {w : Nat} (h : w < 2 ^ 128) : decodeBytes (Decode.toBytes 16 w) = decodeFabric w := by
  rw [decodeBytes, Decode.length_toBytes, if_neg (by decide), if_pos rfl, Decode.ofBytes_toBytes, Nat.mod_eq_of_lt (show w < 256 ^ 16 from h)]

/-! Codes -/

@[simp] theorem Decode.scopeOf_scopeCode (s : Scope) : Decode.scopeOf (Decode.scopeCode s) = some s := by cases s <;> rfl
theorem Decode.scopeCode_le (s : Scope) : Decode.scopeCode s ≤ 11 := by cases s <;> decide
theorem Decode.scopeOf_of_le {n : Nat} (h : n ≤ 11) : ∃ s, Decode.scopeOf n = some s ∧ Decode.scopeCode s = n := by
  interval_cases n <;> exact ⟨_, rfl, rfl⟩

@[simp] theorem Decode.tagOpOf_tagOpCode (t : TagOp) : Decode.tagOpOf (Decode.tagOpCode t) = some t := by cases t <;> rfl
theorem Decode.tagOpCode_lt (t : TagOp) : Decode.tagOpCode t < 16 := by cases t <;> decide
theorem Decode.tagOpCode_of_tagOpOf {n : Nat} {t : TagOp} (h : Decode.tagOpOf n = some t) : Decode.tagOpCode t = n := by
  unfold Decode.tagOpOf at h
  split at h <;> cases h <;> rfl

@[simp] theorem EType.ofCode_code (e : EType) : EType.ofCode e.code = some e := by cases e <;> rfl
theorem EType.code_lt (e : EType) : e.code < 16 := by cases e <;> decide
theorem EType.code_of_ofCode {n : Nat} {e : EType} (h : EType.ofCode n = some e) : e.code = n := by
  unfold EType.ofCode at h
  split at h <;> cases h <;> rfl

/-! Destinations (R14) -/

/-- The code of a port in a destination (R14). -/
def Encode.port : Port → Nat | .l => 0 | .r => 1 | .g => 2 | .c => 3
/-- The port of a code. -/
def Decode.port : Nat → Port | 0 => .l | 1 => .r | 2 => .g | _ => .c
theorem Encode.port_lt (p : Port) : Encode.port p < 4 := by cases p <;> decide
@[simp] theorem Decode.port_port (p : Port) : Decode.port (Encode.port p) = p := by cases p <;> rfl
theorem Encode.port_port {n : Nat} (h : n < 4) : Encode.port (Decode.port n) = n := by interval_cases n <;> rfl

theorem Encode.dest_some (d : Dest) : Encode.dest (some d) =
    2 ^ 19 + d.dx.toNat * 2 ^ 14 + d.dy.toNat * 2 ^ 9 + d.slot.toNat * 2 ^ 3 + Encode.port d.port * 2 + d.narrow.toNat := by
  simp only [Encode.dest, Bool.toNat, Bool.cond_eq_ite]
  rfl
theorem Decode.destOf_of_valid {x : Nat} (h : Decode.field x 19 19 = 1) : Decode.destOf x =
    .ok (some ⟨BitVec.ofNat 5 (Decode.field x 18 14), BitVec.ofNat 5 (Decode.field x 13 9), BitVec.ofNat 6 (Decode.field x 8 3),
      Decode.port (Decode.field x 2 1), Decode.field x 0 0 = 1⟩) := if_pos h

theorem Encode.dest_lt (d : Option Dest) : Encode.dest d < 2 ^ 20 := by
  cases d with
  | none => decide
  | some d =>
    have := Encode.port_lt d.port
    have := d.narrow.toNat_lt
    rw [Encode.dest_some]
    omega

@[simp] theorem Decode.destOf_dest (d : Option Dest) : Decode.destOf (Encode.dest d) = .ok d := by
  cases d with
  | none => rfl
  | some d =>
    obtain ⟨dx, dy, slot, port, narrow⟩ := d
    rw [Encode.dest_some]
    generalize hx : 2 ^ 19 + dx.toNat * 2 ^ 14 + dy.toNat * 2 ^ 9 + slot.toNat * 2 ^ 3 + Encode.port port * 2 + narrow.toNat = x
    have hport := Encode.port_lt port
    have hnarrow := narrow.toNat_lt
    have hv : Decode.field x 19 19 = 1 := by unfold Decode.field; omega
    have hdx : Decode.field x 18 14 = dx.toNat := by unfold Decode.field; omega
    have hdy : Decode.field x 13 9 = dy.toNat := by unfold Decode.field; omega
    have hslot : Decode.field x 8 3 = slot.toNat := by unfold Decode.field; omega
    have hp : Decode.field x 2 1 = Encode.port port := by unfold Decode.field; omega
    have hn : Decode.field x 0 0 = narrow.toNat := by unfold Decode.field; omega
    rw [Decode.destOf_of_valid hv, hdx, hdy, hslot, hp, hn]
    simp

theorem Encode.dest_of_destOf {x : Nat} {d : Option Dest} (hx : x < 2 ^ 20) (h : Decode.destOf x = .ok d) : Encode.dest d = x := by
  by_cases hv : Decode.field x 19 19 = 1
  · rw [Decode.destOf_of_valid hv] at h
    cases h
    rw [Encode.dest_some, Decode.toNat_flag, Encode.port_port (Decode.field_lt x 2 1)]
    simp only [Decode.field, BitVec.toNat_ofNat] at hv ⊢
    omega
  · rw [Decode.destOf, if_neg hv] at h
    split at h
    next h0 => cases h; exact h0.symm
    next => cases h

end Sys2Proof
end

section
/-!
PROOFS. The words of the control core (03_formats.md R68 to R71): the encoder writes an opcode and operands, the operands keep to the
opcode's row, and a word that keeps to a row is that of the operands read from it.
-/
namespace Sys2Proof

/-! Operands -/

/-- The operands of a control-core instruction; one that its list does not name is zero or absent (R68, R70). -/
structure CoreOperands where
  xd : Reg := 0
  xa : Reg := 0
  xb : Reg := 0
  imm : Nat := 0
  sc : Option Scope := none

/-- The opcode and operands of a control-core instruction (R70). -/
def coreOf : Instr → Option (Nat × CoreOperands)
  | .add xd xa xb => some (0x01, { xd, xa, xb })
  | .sub xd xa xb => some (0x02, { xd, xa, xb })
  | .mul xd xa xb => some (0x03, { xd, xa, xb })
  | .mulh xd xa xb => some (0x04, { xd, xa, xb })
  | .mulhu xd xa xb => some (0x05, { xd, xa, xb })
  | .div xd xa xb => some (0x06, { xd, xa, xb })
  | .divu xd xa xb => some (0x07, { xd, xa, xb })
  | .rem xd xa xb => some (0x08, { xd, xa, xb })
  | .remu xd xa xb => some (0x09, { xd, xa, xb })
  | .and xd xa xb => some (0x0A, { xd, xa, xb })
  | .or xd xa xb => some (0x0B, { xd, xa, xb })
  | .xor xd xa xb => some (0x0C, { xd, xa, xb })
  | .sll xd xa xb => some (0x0D, { xd, xa, xb })
  | .srl xd xa xb => some (0x0E, { xd, xa, xb })
  | .sra xd xa xb => some (0x0F, { xd, xa, xb })
  | .slt xd xa xb => some (0x10, { xd, xa, xb })
  | .sltu xd xa xb => some (0x11, { xd, xa, xb })
  | .addi xd xa imm => some (0x18, { xd, xa, imm := imm.toNat })
  | .andi xd xa imm => some (0x19, { xd, xa, imm := imm.toNat })
  | .ori xd xa imm => some (0x1A, { xd, xa, imm := imm.toNat })
  | .xori xd xa imm => some (0x1B, { xd, xa, imm := imm.toNat })
  | .slli xd xa imm => some (0x1C, { xd, xa, imm := imm.toNat })
  | .srli xd xa imm => some (0x1D, { xd, xa, imm := imm.toNat })
  | .srai xd xa imm => some (0x1E, { xd, xa, imm := imm.toNat })
  | .slti xd xa imm => some (0x1F, { xd, xa, imm := imm.toNat })
  | .li xd imm => some (0x20, { xd, imm := imm.toNat })
  | .lih xd imm => some (0x21, { xd, imm := imm.toNat })
  | .beq xa xb off => some (0x28, { xa, xb, imm := off.toNat })
  | .bne xa xb off => some (0x29, { xa, xb, imm := off.toNat })
  | .blt xa xb off => some (0x2A, { xa, xb, imm := off.toNat })
  | .bge xa xb off => some (0x2B, { xa, xb, imm := off.toNat })
  | .bltu xa xb off => some (0x2C, { xa, xb, imm := off.toNat })
  | .bgeu xa xb off => some (0x2D, { xa, xb, imm := off.toNat })
  | .jal xd off => some (0x2E, { xd, imm := off.toNat })
  | .jalr xd xa imm => some (0x2F, { xd, xa, imm := imm.toNat })
  | .ldxB xd xa imm sc => some (0x30, { xd, xa, imm := imm.toNat, sc })
  | .ldxBu xd xa imm sc => some (0x31, { xd, xa, imm := imm.toNat, sc })
  | .ldxH xd xa imm sc => some (0x32, { xd, xa, imm := imm.toNat, sc })
  | .ldxHu xd xa imm sc => some (0x33, { xd, xa, imm := imm.toNat, sc })
  | .ldxW xd xa imm sc => some (0x34, { xd, xa, imm := imm.toNat, sc })
  | .ldxWu xd xa imm sc => some (0x35, { xd, xa, imm := imm.toNat, sc })
  | .ldxD xd xa imm sc => some (0x36, { xd, xa, imm := imm.toNat, sc })
  | .stxB xb xa imm sc => some (0x38, { xa, xb, imm := imm.toNat, sc })
  | .stxH xb xa imm sc => some (0x39, { xa, xb, imm := imm.toNat, sc })
  | .stxW xb xa imm sc => some (0x3A, { xa, xb, imm := imm.toNat, sc })
  | .stxD xb xa imm sc => some (0x3B, { xa, xb, imm := imm.toNat, sc })
  | .amoAdd xd xb xa sc => some (0x3C, { xd, xa, xb, sc })
  | .amoSwap xd xb xa sc => some (0x3D, { xd, xa, xb, sc })
  | .amoCas xd xb xa sc => some (0x3E, { xd, xa, xb, sc })
  | .fence sc => some (0x40, { sc := some sc })
  | .rel sc => some (0x41, { sc := some sc })
  | .acq sc => some (0x42, { sc := some sc })
  | .cspawn xa imm => some (0x48, { xa, imm := imm.toNat })
  | .cjoin xa => some (0x49, { xa })
  | .cend => some (0x4A, {})
  | .cyield => some (0x4B, {})
  | .sspec xa imm => some (0x50, { xa, imm := imm.toNat })
  | .sbar imm => some (0x51, { imm := imm.toNat })
  | .scond xa imm sc => some (0x52, { xa, imm := imm.toNat, sc })
  | .gload xd xa imm => some (0x54, { xd, xa, imm := imm.toNat })
  | .gsplice xa xb => some (0x55, { xa, xb })
  | .gfree xa => some (0x56, { xa })
  | .jsub xa => some (0x58, { xa })
  | .gjoin xa imm => some (0x5A, { xa, imm := imm.toNat })
  | .gleave xa imm => some (0x5B, { xa, imm := imm.toNat })
  | .colq xa xb imm => some (0x5C, { xa, xb, imm := imm.toNat })
  | .colret xa => some (0x5D, { xa })
  | .evwait xd xa => some (0x5E, { xd, xa })
  | .evarm xa => some (0x5F, { xa })
  | .binit xa xb => some (0x60, { xa, xb })
  | .barv xa xb sc => some (0x61, { xa, xb, sc })
  | .bwait xd xa xb sc => some (0x62, { xd, xa, xb, sc })
  | .onew xd xa imm => some (0x68, { xd, xa, imm := imm.toNat })
  | .oname xa xb => some (0x69, { xa, xb })
  | .ofind xd xa => some (0x6A, { xd, xa })
  | .oup xd xa => some (0x6B, { xd, xa })
  | .orel xa => some (0x6C, { xa })
  | .oweak xd xa => some (0x6D, { xd, xa })
  | .oprio xa imm => some (0x6E, { xa, imm := imm.toNat })
  | .odisc xa => some (0x6F, { xa })
  | .trap imm => some (0xF0, { imm := imm.toNat })
  | .eret => some (0xF1, {})
  | .csrrd xd csr => some (0xF2, { xd, imm := csr.toNat })
  | .csrwr csr xa => some (0xF3, { xa, imm := csr.toNat })
  | .wfe => some (0xF4, {})
  | .halt => some (0xF5, {})
  | .snap imm => some (0xF6, { imm := imm.toNat })
  | .freeze xa => some (0xF7, { xa })
  | .thaw xa => some (0xF7, { xa })
  | _ => none

/-- The word of an opcode with its operands (R68). -/
def CoreOperands.word (o : CoreOperands) (opc : Nat) : Nat :=
  opc * 2 ^ 56 + Encode.regAt o.xd 51 + Encode.regAt o.xa 46 + Encode.regAt o.xb 41 + o.imm + Encode.scopeAt o.sc

/-- The encoder writes the word of the opcode and the operands. -/
theorem encodeCore_of_coreOf {i : Instr} {opc : Nat} {o : CoreOperands} (h : coreOf i = some (opc, o)) : encodeCore i = some (o.word opc) := by
  cases i
  all_goals cases h
  all_goals refine congrArg some ?_
  all_goals simp [CoreOperands.word, Encode.regAt, Encode.scopeAt, Nat.add_right_comm]
theorem encodeCore_of_coreOf_none {i : Instr} (h : coreOf i = none) : encodeCore i = none := by
  cases i
  all_goals cases h
  all_goals rfl

/-! The fields of a word -/

/-- What a word of the control core holds: an opcode, operands, and zero in bits 35 to 32 (R68). -/
structure CoreOperands.In (o : CoreOperands) (opc w : Nat) : Prop where
  opc : Decode.field w 63 56 = opc
  xd : Decode.field w 55 51 = o.xd.toNat
  xa : Decode.field w 50 46 = o.xa.toNat
  xb : Decode.field w 45 41 = o.xb.toNat
  scope : Decode.field w 40 37 = (o.sc.map Decode.scopeCode).getD 0
  so : Decode.field w 36 36 = o.sc.isSome.toNat
  reserved : Decode.field w 35 32 = 0
  imm : Decode.field w 31 0 = o.imm

/-! Fields within fields -/

theorem Decode.field_15_0 (w : Nat) : Decode.field w 15 0 = Decode.field w 31 0 % 2 ^ 16 := by unfold Decode.field; omega
theorem Decode.field_40_36 (w : Nat) : Decode.field w 40 36 = Decode.field w 40 37 * 2 + Decode.field w 36 36 := by
  unfold Decode.field; omega
theorem Decode.field_45_16 (w : Nat) : Decode.field w 45 16 =
    Decode.field w 45 41 * 2 ^ 25 + Decode.field w 40 36 * 2 ^ 20 + Decode.field w 35 32 * 2 ^ 16 + Decode.field w 31 0 / 2 ^ 16 := by
  unfold Decode.field; omega

/-! The encoder's words -/

theorem Encode.scopeAt_eq (sc : Option Scope) :
    Encode.scopeAt sc = (sc.map Decode.scopeCode).getD 0 * 2 ^ 37 + sc.isSome.toNat * 2 ^ 36 := by
  cases sc <;> simp [Encode.scopeAt]
theorem Decode.scopeCode_getD_le (sc : Option Scope) : (sc.map Decode.scopeCode).getD 0 ≤ 11 := by
  cases sc with
  | none => decide
  | some s => exact Decode.scopeCode_le s

/-- The encoder's word has 64 bits and holds what it was given. -/
theorem CoreOperands.in_word {o : CoreOperands} {opc : Nat} (hopc : opc < 2 ^ 8) (himm : o.imm < 2 ^ 32) :
    o.word opc < 2 ^ 64 ∧ o.In opc (o.word opc) := by
  have hsc := Decode.scopeCode_getD_le o.sc
  have hso := o.sc.isSome.toNat_lt
  rw [CoreOperands.word, Encode.scopeAt_eq]
  unfold Encode.regAt
  refine ⟨by omega, ?_⟩
  constructor <;> (unfold Decode.field; omega)

/-! The operands keep to their row -/

/-- The bits of the immediate that a row names (R68). -/
def Decode.CoreRow.immBits (r : Decode.CoreRow) : Nat := if r.imm then if r.form = .cx then 16 else 32 else 0

/-- Operands that keep to a row: what it does not name is zero or absent, and a fence names its scope (R68 to R70). -/
structure CoreOperands.Fits (o : CoreOperands) (r : Decode.CoreRow) : Prop where
  xd : r.xd = false → o.xd = 0
  xa : r.xa = false → o.xa = 0
  xb : r.xb = false ∨ r.form = .cx → o.xb = 0
  imm : o.imm < 2 ^ r.immBits
  scope : r.scope = false ∨ r.form = .cx → o.sc = none
  so : r.needsSo = true → o.sc.isSome = true

theorem CoreOperands.Fits.imm_lt {o : CoreOperands} {r : Decode.CoreRow} (h : o.Fits r) : o.imm < 2 ^ 32 :=
  lt_of_lt_of_le h.imm (Nat.pow_le_pow_right (by decide) (by unfold Decode.CoreRow.immBits; split_ifs <;> decide))
theorem CoreOperands.Fits.imm_lt_of_cx {o : CoreOperands} {r : Decode.CoreRow} (h : o.Fits r) (hcx : r.form = .cx) : o.imm < 2 ^ 16 :=
  lt_of_lt_of_le h.imm (Nat.pow_le_pow_right (by decide) (by rw [Decode.CoreRow.immBits, if_pos hcx]; split <;> decide))

theorem Decode.named_or_zero {named : Bool} {n : Nat} (h : named = false → n = 0) : (named || decide (n = 0)) = true := by
  cases named <;> simp_all

/-- A word of operands that keep to a row passes the checks of R71. -/
theorem CoreOperands.Fits.coreFieldsOk {o : CoreOperands} {r : Decode.CoreRow} {opc w : Nat} (hf : o.Fits r) (hw : o.In opc w) :
    Decode.coreFieldsOk r w = true := by
  have himm : r.imm = false → o.imm = 0 := fun h => by simpa [Decode.CoreRow.immBits, h] using hf.imm
  simp only [Decode.coreFieldsOk, Bool.and_eq_true]
  refine ⟨⟨⟨⟨⟨Decode.named_or_zero fun h => ?_, Decode.named_or_zero fun h => ?_⟩, Decode.named_or_zero fun h => ?_⟩, ?_⟩, ?_⟩, ?_⟩
  · simp [hw.xd, hf.xd h]
  · simp [hw.xa, hf.xa h]
  · simp [hw.xb, hf.xb (.inl h)]
  · simp [hw.reserved]
  · split
    next hcx =>
      have hzero : Decode.field w 45 16 = 0 := by
        rw [Decode.field_45_16, Decode.field_40_36, hw.xb, hw.scope, hw.so, hw.reserved, hw.imm, hf.xb (.inr hcx), hf.scope (.inr hcx),
          Nat.div_eq_of_lt (hf.imm_lt_of_cx hcx)]
        rfl
      simp only [hzero, decide_true, Bool.true_and]
      exact Decode.named_or_zero fun h => by rw [Decode.field_15_0, hw.imm, himm h, Nat.zero_mod]
    next => exact Decode.named_or_zero fun h => hw.imm.trans (himm h)
  · split
    next =>
      rw [hw.so, hw.scope]
      cases hsc : o.sc with
      | none => simpa [hsc] using hf.so
      | some s => simpa using Decode.scopeCode_le s
    next hscope => simp [Decode.field_40_36, hw.scope, hw.so, hf.scope (.inl (by simpa using hscope))]

/-- The opcode of an instruction has a row, and the operands keep to it. -/
theorem coreRow_of_coreOf {i : Instr} {opc : Nat} {o : CoreOperands} (h : coreOf i = some (opc, o)) :
    opc < 2 ^ 8 ∧ ∃ r, Decode.coreRow opc = some r ∧ o.Fits r := by
  cases i
  all_goals cases h
  all_goals exact ⟨by decide, _, rfl, by constructor <;> simp [Decode.CoreRow.immBits] <;> omega⟩

/-- A word that holds the opcode and the operands of an instruction is read as it. -/
theorem coreInstr_of_coreOf {i : Instr} {opc w : Nat} {o : CoreOperands} (h : coreOf i = some (opc, o)) (hw : o.In opc w) :
    Decode.coreInstr w = some (Claims.asRead i) := by
  obtain ⟨hopc, hxd, hxa, hxb, hscope, hso, -, himm⟩ := hw
  have hi16 : BitVec.ofNat 16 (Decode.field w 15 0) = BitVec.ofNat 16 o.imm := by
    rw [Decode.field_15_0, himm, Decode.ofNat_mod_two_pow]
  have hsc : Decode.overrideOf w = o.sc := by
    rw [Decode.overrideOf, hscope, hso]
    cases o.sc <;> simp
  unfold Decode.coreInstr
  simp only [hopc, hxd, hxa, hxb, himm, hi16, hsc, hscope, BitVec.ofNat_toNat, BitVec.setWidth_eq]
  cases i
  all_goals cases h
  all_goals refine congrArg some ?_
  all_goals simp [Claims.asRead]

/-- What the encoder writes for a control-core instruction is a word of 64 bits, and the decoder reads the instruction from it. -/
theorem decodeCore_of_encodeCore {i : Instr} {w : Nat} (h : encodeCore i = some w) : w < 2 ^ 64 ∧ decodeCore w = .ok (Claims.asRead i) := by
  cases hi : coreOf i with
  | none => rw [encodeCore_of_coreOf_none hi] at h; cases h
  | some p =>
    obtain ⟨opc, o⟩ := p
    obtain rfl : o.word opc = w := Option.some.inj ((encodeCore_of_coreOf hi).symm.trans h)
    obtain ⟨hopc, r, hr, hf⟩ := coreRow_of_coreOf hi
    obtain ⟨hlt, hw⟩ := CoreOperands.in_word hopc hf.imm_lt
    exact ⟨hlt, decodeCore_of_row (hw.opc.symm ▸ hr) (hf.coreFieldsOk hw) (coreInstr_of_coreOf hi hw)⟩

/-! The operands of a word -/

/-- The operands that a row names in a word. -/
def Decode.CoreRow.operands (r : Decode.CoreRow) (w : Nat) : CoreOperands where
  xd := if r.xd then BitVec.ofNat 5 (Decode.field w 55 51) else 0
  xa := if r.xa then BitVec.ofNat 5 (Decode.field w 50 46) else 0
  xb := if r.xb then BitVec.ofNat 5 (Decode.field w 45 41) else 0
  imm := if r.imm then
    if r.form = .cx then (BitVec.ofNat 16 (Decode.field w 15 0)).toNat else (BitVec.ofNat 32 (Decode.field w 31 0)).toNat else 0
  sc := if r.scope then
    if r.needsSo then some ((Decode.scopeOf (Decode.field w 40 37)).getD .pkg) else Decode.overrideOf w else none

/-- The decoder reads an instruction with the operands that the row of its opcode names. -/
theorem coreOf_of_coreInstr {w : Nat} {r : Decode.CoreRow} {i : Instr} (hr : Decode.coreRow (Decode.field w 63 56) = some r)
    (h : Decode.coreInstr w = some i) : coreOf i = some (Decode.field w 63 56, r.operands w) := by
  unfold Decode.coreInstr at h
  dsimp only at h
  split at h
  all_goals rename_i hopc
  all_goals cases h
  all_goals rw [hopc] at hr ⊢
  all_goals cases hr
  all_goals rfl

theorem Decode.toNat_ofNat_field (w hi lo : Nat) : (BitVec.ofNat (hi - lo + 1) (Decode.field w hi lo)).toNat = Decode.field w hi lo := by
  rw [BitVec.toNat_ofNat, Nat.mod_eq_of_lt (Decode.field_lt w hi lo)]

/-- A register is read whole: the field is zero where the row does not name it. -/
theorem Decode.regAt_operand {named : Bool} {w hi lo : Nat} (hn : hi - lo + 1 = 5) (h : (named || decide (Decode.field w hi lo = 0)) = true) :
    Encode.regAt (if named then BitVec.ofNat 5 (Decode.field w hi lo) else 0) lo = Decode.field w hi lo * 2 ^ lo := by
  have hr := Decode.toNat_ofNat_field w hi lo
  rw [hn] at hr
  cases named with
  | true => rw [if_pos rfl, Encode.regAt, hr]
  | false => simp_all [Encode.regAt]

/-- So is the immediate, of 16 bits in form CX and of 32 in the others. -/
theorem Decode.CoreRow.imm_operands {r : Decode.CoreRow} {w : Nat} (h : (if r.form = .cx then
      decide (Decode.field w 45 16 = 0) && (r.imm || decide (Decode.field w 15 0 = 0)) else r.imm || decide (Decode.field w 31 0 = 0)) = true) :
    (r.operands w).imm = Decode.field w 31 0 := by
  have h16 := Decode.toNat_ofNat_field w 15 0
  have h32 := Decode.toNat_ofNat_field w 31 0
  simp only [Decode.CoreRow.operands]
  by_cases hcx : r.form = .cx
  · simp only [hcx, if_true, Bool.and_eq_true, decide_eq_true_eq] at h ⊢
    obtain ⟨h45, h15⟩ := h
    rw [Decode.field_45_16] at h45
    rw [h16]
    have h31 : Decode.field w 15 0 = Decode.field w 31 0 := by rw [Decode.field_15_0]; omega
    cases hi : r.imm <;> simp_all
  · simp only [hcx, if_false] at h ⊢
    rw [h32]
    cases hi : r.imm <;> simp_all

/-- So is the scope, with SO. -/
theorem Decode.CoreRow.scopeAt_operands {r : Decode.CoreRow} {w : Nat} (h : (if r.scope then
      if Decode.field w 36 36 = 1 then decide (Decode.field w 40 37 ≤ 11) else decide (Decode.field w 40 37 = 0) && !r.needsSo
      else decide (Decode.field w 40 36 = 0)) = true) :
    Encode.scopeAt (r.operands w).sc = Decode.field w 40 37 * 2 ^ 37 + Decode.field w 36 36 * 2 ^ 36 := by
  simp only [Decode.CoreRow.operands]
  have hso : Decode.field w 36 36 < 2 := Decode.field_lt w 36 36
  by_cases hs : r.scope = true
  · simp only [hs, if_true] at h ⊢
    by_cases h1 : Decode.field w 36 36 = 1
    · obtain ⟨s, hof, hcode⟩ := Decode.scopeOf_of_le (show Decode.field w 40 37 ≤ 11 by simpa [h1] using h)
      simp [Decode.overrideOf, h1, hof, hcode, Encode.scopeAt]
    · obtain ⟨h0, hn⟩ : Decode.field w 40 37 = 0 ∧ r.needsSo = false := by simpa [h1] using h
      have hso0 : Decode.field w 36 36 = 0 := by omega
      simp [Decode.overrideOf, h0, hso0, hn, Encode.scopeAt]
  · simp only [hs] at h ⊢
    have h0 : Decode.field w 40 37 * 2 + Decode.field w 36 36 = 0 := by simpa [Decode.field_40_36] using h
    have hscope0 : Decode.field w 40 37 = 0 := by omega
    have hso0 : Decode.field w 36 36 = 0 := by omega
    simp [Encode.scopeAt, hscope0, hso0]

/-- A word that keeps to a row is the word of its operands. -/
theorem word_operands {w : Nat} {r : Decode.CoreRow} (hw : w < 2 ^ 64) (h : Decode.coreFieldsOk r w = true) :
    (r.operands w).word (Decode.field w 63 56) = w := by
  simp only [Decode.coreFieldsOk, Bool.and_eq_true] at h
  obtain ⟨⟨⟨⟨⟨hxd, hxa⟩, hxb⟩, hres⟩, himm⟩, hscope⟩ := h
  rw [CoreOperands.word, r.imm_operands himm, r.scopeAt_operands hscope, show Encode.regAt (r.operands w).xd 51 = _ from Decode.regAt_operand rfl hxd,
    show Encode.regAt (r.operands w).xa 46 = _ from Decode.regAt_operand rfl hxa, show Encode.regAt (r.operands w).xb 41 = _ from Decode.regAt_operand rfl hxb]
  have hres : Decode.field w 35 32 = 0 := by simpa using hres
  unfold Decode.field at hres ⊢
  omega

theorem encodeCore_of_decodeCore {w : Nat} {i : Instr} (hw : w < 2 ^ 64) (h : decodeCore w = .ok i) : encodeCore i = some w := by
  obtain ⟨r, hr, hf, hi⟩ := decodeCore_eq_ok_iff.mp h
  rw [encodeCore_of_coreOf (coreOf_of_coreInstr hr hi), word_operands hw hf]

end Sys2Proof
end

section
/-!
PROOFS. The words of the fabric operators (03_formats.md R59 to R64): what a word holds of an opcode and its fields determines it, the
encoder writes such a word, and the decoder reads one.
-/
namespace Sys2Proof

/-! What a word holds -/

/-- A word that holds an opcode and fields, each in its code and at its place (R59, R60). -/
structure OpFields.In (f : OpFields) (opc w : Nat) : Prop where
  opc : Decode.field w 127 119 = opc
  arityN : Decode.field w 118 117 = f.arityN.toNat
  arityG : Decode.field w 116 116 = f.arityG.toNat
  tagop : Decode.field w 115 112 = Decode.tagOpCode f.tagop
  etype : Decode.field w 111 108 = f.etype.code
  sub : Decode.field w 107 100 = f.sub.toNat
  dest0 : Decode.field w 99 80 = Encode.dest f.dest0
  dest1 : Decode.field w 79 60 = Encode.dest f.dest1
  dest2 : Decode.field w 59 40 = Encode.dest f.dest2
  imm : Decode.field w 39 8 = f.imm.toNat
  brk : Decode.field w 7 7 = f.flags.brk.toNat
  order : Decode.field w 6 6 = f.flags.order.toNat
  stall : Decode.field w 5 4 = f.flags.stall.toNat
  commit : Decode.field w 3 3 = f.flags.commit.toNat
  zero : Decode.field w 2 0 = 0

theorem Encode.fabric_eq (opc : Nat) (f : OpFields) : Encode.fabric opc f =
    opc * 2 ^ 119 + f.arityN.toNat * 2 ^ 117 + f.arityG.toNat * 2 ^ 116 + Decode.tagOpCode f.tagop * 2 ^ 112 + f.etype.code * 2 ^ 108 +
    f.sub.toNat * 2 ^ 100 + Encode.dest f.dest0 * 2 ^ 80 + Encode.dest f.dest1 * 2 ^ 60 + Encode.dest f.dest2 * 2 ^ 40 + f.imm.toNat * 2 ^ 8 +
    f.flags.brk.toNat * 2 ^ 7 + f.flags.order.toNat * 2 ^ 6 + f.flags.stall.toNat * 2 ^ 4 + f.flags.commit.toNat * 2 ^ 3 := by
  simp only [Encode.fabric, Bool.toNat, Bool.cond_eq_ite]

/-- The word that holds an opcode and fields is the encoder's. -/
theorem OpFields.In.eq_fabric {f : OpFields} {opc w : Nat} (h : f.In opc w) (hw : w < 2 ^ 128) : Encode.fabric opc f = w := by
  rw [Encode.fabric_eq, ← h.opc, ← h.arityN, ← h.arityG, ← h.tagop, ← h.etype, ← h.sub, ← h.dest0, ← h.dest1, ← h.dest2, ← h.imm, ← h.brk,
    ← h.order, ← h.stall, ← h.commit]
  have hzero : w % 2 ^ 3 = 0 := by simpa [Decode.field] using h.zero
  have hparts := (Nat.mod_eq_of_lt hw).symm
  rw [Decode.mod_eq_field w 127 119, Decode.mod_eq_field w 118 117, Decode.mod_eq_field w 116 116, Decode.mod_eq_field w 115 112, Decode.mod_eq_field w 111 108,
    Decode.mod_eq_field w 107 100, Decode.mod_eq_field w 99 80, Decode.mod_eq_field w 79 60, Decode.mod_eq_field w 59 40, Decode.mod_eq_field w 39 8,
    Decode.mod_eq_field w 7 7, Decode.mod_eq_field w 6 6, Decode.mod_eq_field w 5 4, Decode.mod_eq_field w 3 3, hzero] at hparts
  simpa only [Nat.add_assoc, Nat.add_zero] using hparts.symm

/-- The encoder's word has 128 bits and holds what it was given. -/
theorem OpFields.in_fabric (f : OpFields) {opc : Nat} (hopc : opc < 2 ^ 9) :
    Encode.fabric opc f < 2 ^ 128 ∧ f.In opc (Encode.fabric opc f) := by
  have hg := f.arityG.toNat_lt
  have ht := Decode.tagOpCode_lt f.tagop
  have he := f.etype.code_lt
  have h0 := Encode.dest_lt f.dest0
  have h1 := Encode.dest_lt f.dest1
  have h2 := Encode.dest_lt f.dest2
  have hb := f.flags.brk.toNat_lt
  have ho := f.flags.order.toNat_lt
  have hc := f.flags.commit.toNat_lt
  rw [Encode.fabric_eq]
  refine ⟨by omega, ?_⟩
  constructor <;> (unfold Decode.field; omega)

/-! What the decoder reads -/

/-- The fields that a word holds are read from it. -/
theorem OpFields.In.fabricFields {f : OpFields} {opc w : Nat} (h : f.In opc w) : Decode.fabricFields w = .ok f := by
  simp [Decode.fabricFields, h.arityN, h.arityG, h.tagop, h.etype, h.sub, h.dest0, h.dest1, h.dest2, h.imm, h.brk, h.order, h.stall, h.commit,
    h.zero]

/-- The fields that are read from a word stand in it. -/
theorem OpFields.in_of_fabricFields {f : OpFields} {w : Nat} (h : Decode.fabricFields w = .ok f) : f.In (Decode.opcField w) w := by
  unfold Decode.fabricFields at h
  split at h
  next => cases h
  next t ht =>
    split at h
    next => cases h
    next e he =>
      split at h
      next d0 d1 d2 h0 h1 h2 =>
        split at h
        next hz =>
          cases h
          exact {
            opc := rfl
            arityN := (Decode.toNat_ofNat_field w 118 117).symm
            arityG := (Decode.toNat_flag w 116).symm
            tagop := (Decode.tagOpCode_of_tagOpOf ht).symm
            etype := (EType.code_of_ofCode he).symm
            sub := (Decode.toNat_ofNat_field w 107 100).symm
            dest0 := (Encode.dest_of_destOf (Decode.field_lt w 99 80) h0).symm
            dest1 := (Encode.dest_of_destOf (Decode.field_lt w 79 60) h1).symm
            dest2 := (Encode.dest_of_destOf (Decode.field_lt w 59 40) h2).symm
            imm := (Decode.toNat_ofNat_field w 39 8).symm
            brk := (Decode.toNat_flag w 7).symm
            order := (Decode.toNat_flag w 6).symm
            stall := (Decode.toNat_ofNat_field w 5 4).symm
            commit := (Decode.toNat_flag w 3).symm
            zero := hz }
        next => cases h
      next => cases h

/-! The operators of the opcodes -/

theorem fabricInstr_of_fabricOf {i : Instr} {opc : Nat} {f : OpFields} (h : fabricOf i = some (opc, f)) :
    opc < 2 ^ 9 ∧ Decode.fabricInstr opc f = some (Claims.asRead i) := by
  cases i
  all_goals cases h
  all_goals exact ⟨by decide, rfl⟩

theorem fabricOf_of_fabricInstr {i : Instr} {opc : Nat} {f : OpFields} (h : Decode.fabricInstr opc f = some i) :
    fabricOf i = some (opc, f) := by
  unfold Decode.fabricInstr at h
  split at h
  all_goals cases h
  all_goals rfl

/-- What the encoder writes for an operator is a word of 128 bits, and the decoder reads the operator from it. -/
theorem decodeFabric_of_encodeFabric {i : Instr} {w : Nat} (h : encodeFabric i = some w) : w < 2 ^ 128 ∧ decodeFabric w = .ok (Claims.asRead i) := by
  obtain ⟨⟨opc, f⟩, hi, rfl⟩ := Option.map_eq_some_iff.mp h
  obtain ⟨hopc, hread⟩ := fabricInstr_of_fabricOf hi
  obtain ⟨hlt, hw⟩ := f.in_fabric hopc
  exact ⟨hlt, decodeFabric_of_fields hw.fabricFields (by rw [Decode.opcField, hw.opc, hread])⟩

theorem encodeFabric_of_decodeFabric {w : Nat} {i : Instr} (hw : w < 2 ^ 128) (h : decodeFabric w = .ok i) : encodeFabric i = some w := by
  obtain ⟨f, hf, hi⟩ := decodeFabric_eq_ok_iff.mp h
  have hword : Encode.fabric (Decode.opcField w) f = w := (OpFields.in_of_fabricFields hf).eq_fabric hw
  exact Option.map_eq_some_iff.mpr ⟨(Decode.opcField w, f), fabricOf_of_fabricInstr hi, hword⟩

/-- Settles O55: both tables write words that hold an opcode and its operands, and the decoders read the operands that a word holds.
The six constructors that share another's word (log 38) are read as `Claims.asRead` says. -/
theorem decodeAndEncodeAgree : Obligations.DecodeAndEncodeAgree := by
  refine ⟨fun i bs h => ?_, fun w i => encodeCore_of_decodeCore, fun w i => encodeFabric_of_decodeFabric⟩
  unfold encode at h
  split at h
  next w hcore =>
    cases h
    obtain ⟨hw, hread⟩ := decodeCore_of_encodeCore hcore
    rw [decodeBytes_toBytes_8 hw, hread]
  next =>
    obtain ⟨w, hfabric, rfl⟩ := Option.map_eq_some_iff.mp h
    obtain ⟨hw, hread⟩ := decodeFabric_of_encodeFabric hfabric
    rw [decodeBytes_toBytes_16 hw, hread]

end Sys2Proof
end

section
/-!
PROOFS. Requests at their slices (06_slices.md R121 to R125): what serving, leasing and writing a line that the slice holds leave in the
slice, and what a request that enters its bank does.
-/
namespace Sys2Proof.Machine

/-! Updates of a slice -/

theorem State.modSlice_modSlice (s : State) (sk : Nat) (g h : Slice → Slice) :
    (s.modSlice sk g).modSlice sk h = s.modSlice sk fun l => h (g l) := by
  show { s with slices := Map.put (Map.put s.slices sk (g (s.slice sk))) sk (h ((s.modSlice sk g).slice sk)) } = _
  rw [State.slice_modSlice_self, Map.put_put]
  rfl
theorem State.modSlice_congr {s : State} {sk : Nat} {g h : Slice → Slice} (e : g (s.slice sk) = h (s.slice sk)) :
    s.modSlice sk g = s.modSlice sk h := by
  rw [State.modSlice, e]
  rfl

/-! The lines of a slice -/

theorem Slice.pa_of_line? {l : Slice} {pa : Nat} {x : Line} (h : l.line? pa = some x) : x.pa = pa / 256 * 256 :=
  of_decide_eq_true (List.find?_some (p := fun x : Line => decide (x.pa = pa / 256 * 256)) h)
/-- Replacing a line moves no line to another address. -/
theorem Slice.line?_setLine (l : Slice) (y : Line) (pa : Nat) :
    (l.setLine y).line? pa = (l.line? pa).map fun z => if z.pa = y.pa then y else z := by
  have hsame : ((fun z : Line => decide (z.pa = pa / 256 * 256)) ∘ fun z => if z.pa = y.pa then y else z) =
      fun z => decide (z.pa = pa / 256 * 256) := by
    funext z
    by_cases h : z.pa = y.pa
    · simp only [Function.comp_apply, h, if_true]
    · simp only [Function.comp_apply, if_neg h]
  simp only [Slice.line?, Slice.setLine, List.find?_map, hsame]
theorem Slice.line?_setLine_self {l : Slice} {pa : Nat} {x y : Line} (h : l.line? pa = some x) (hy : y.pa = x.pa) :
    (l.setLine y).line? pa = some y := by
  rw [Slice.line?_setLine, h, Option.map_some, if_pos hy.symm]
theorem Slice.line?_setLine_other (l : Slice) {a : Nat} {y : Line} (h : a / 256 * 256 ≠ y.pa) : (l.setLine y).line? a = l.line? a := by
  rw [Slice.line?_setLine]
  exact (Option.map_congr fun z hz => if_neg (Slice.pa_of_line? hz ▸ h)).trans Option.map_id'

/-! A slice that holds the line -/

/-- The state `t` differs from `s` in slices and the arrival counter alone; slice `sk` holds `y` as the line of `pa`, and every other
line as before. -/
structure HoldsLine (s t : State) (sk pa : Nat) (y : Line) : Prop where
  rest : t = { s with slices := t.slices, seq := t.seq }
  line : (t.slice sk).line? pa = some y
  others : ∀ a, a / 256 ≠ pa / 256 → (t.slice sk).line? a = (s.slice sk).line? a

theorem HoldsLine.seen {s : State} {sk pa : Nat} {x : Line} (h : (s.slice sk).line? pa = some x) (w : World) :
    HoldsLine s (s.seen sk pa w) sk pa x where
  rest := rfl
  line := by rw [State.seen, State.slice_modSlice_self, Slice.line?_monitor, h]
  others a _ := by rw [State.seen, State.slice_modSlice_self, Slice.line?_monitor]
theorem HoldsLine.setLine {s t : State} {sk pa : Nat} {x y : Line} (h : HoldsLine s t sk pa x) (hy : y.pa = x.pa) :
    HoldsLine s (t.modSlice sk fun l => l.setLine y) sk pa y where
  rest := by rw [h.rest]; rfl
  line := by rw [State.slice_modSlice_self, Slice.line?_setLine_self h.line hy]
  others a ha := by
    have hne : a / 256 * 256 ≠ y.pa := by rw [hy, Slice.pa_of_line? h.line]; omega
    rw [State.slice_modSlice_self, Slice.line?_setLine_other _ hne, h.others a ha]
theorem HoldsLine.withSeq {s t : State} {sk pa : Nat} {y : Line} (h : HoldsLine s t sk pa y) (n : Nat) :
    HoldsLine s { t with seq := n } sk pa y where
  rest := by rw [h.rest]
  line := h.line
  others := h.others
/-- The settings that TDISP has locked do not depend on slices. -/
theorem HoldsLine.unlocked {s t : State} {sk pa : Nat} {y : Line} (h : HoldsLine s t sk pa y) : t.unlocked = s.unlocked := by
  rw [h.rest]; rfl

/-- Serving a request whose line is there under its key (R121): the line is the most recently used. -/
theorem State.serve_hit {s : State} {sk pa : Nat} {key : Colour} {x : Line} (w : World) (hx : (s.slice sk).line? pa = some x)
    (hkey : x.key = key) : ∃ t, s.serve sk pa key w = (t, { x with used := s.seq }, true) ∧ HoldsLine s t sk pa { x with used := s.seq } := by
  refine ⟨_, ?_, ((HoldsLine.seen hx w).setLine (y := { x with used := s.seq }) rfl).withSeq (s.seq + 1)⟩
  simp only [State.serve, State.obtain, (HoldsLine.seen hx w).line, hkey, if_true]
  rfl

/-- A read of a line that the slice holds: its lease, and the answer (R124). -/
theorem State.performRequest_read {s : State} {r : Request} {x : Line} (hr : r.kind = .read) (hx : (s.slice r.sk).line? r.pa = some x)
    (hkey : x.key = r.key) : ∃ t, s.performRequest r = t.answerTo r (.line x.data x.poison x.wts (maxTime r.pts x.wts + 256)) ∧
      HoldsLine s t r.sk r.pa { x with used := s.seq, rts := maxTime x.rts (maxTime r.pts x.wts + 256) } := by
  obtain ⟨t, ht, h⟩ := State.serve_hit r.world hx hkey
  exact ⟨_, by simp only [State.performRequest, State.performOn, hr, ht, State.leaseOf, if_true], h.setLine rfl⟩
/-- The line after a write of some bytes or an atomic (R125). -/
def Line.written (x : Line) (ps : List (Nat × Byte)) (poison : Bool) (used : Nat) (time : Word) : Line :=
  { x with used := used, data := lineSet x.data ps, dirty := x.dirty ||| unitsOf ps, poison := poisonAfter x.poison ps poison,
           wts := time, rts := time }
theorem State.performRequest_write {s : State} {r : Request} {x : Line} {ps : List (Nat × Byte)} {p : Bool} (hr : r.kind = .write ps p)
    (hx : (s.slice r.sk).line? r.pa = some x) (hkey : x.key = r.key) :
    ∃ t, s.performRequest r = (t.raiseClock r.src (maxTime r.pts (x.rts + 1))).answerTo r .ack ∧
      HoldsLine s t r.sk r.pa (x.written (s.unlocked r.world r.pa ps) p s.seq (maxTime r.pts (x.rts + 1))) := by
  obtain ⟨t, ht, h⟩ := State.serve_hit r.world hx hkey
  exact ⟨_, by simp only [State.performRequest, State.performOn, hr, ht, State.updateOf, if_true, h.unlocked]; rfl, h.setLine rfl⟩
theorem State.performRequest_atomic {s : State} {r : Request} {x : Line} {opc : Nat} {v : WideVal} {c : Option WideVal} {p : Bool}
    (hr : r.kind = .atomic opc v c p) (hx : (s.slice r.sk).line? r.pa = some x) (hkey : x.key = r.key) {b : WideVal × WideVal}
    (hb : b = atomicBlock opc (lineUnit x.data (r.off / 64)) v c) :
    ∃ t, s.performRequest r =
        (t.raiseClock r.src (maxTime r.pts (x.rts + 1))).answerTo r (.old b.2 (x.poison.getLsbD (r.off / 64))) ∧
      HoldsLine s t r.sk r.pa (x.written (s.unlocked r.world r.pa (activeBytes r.off b.1)) (p || x.poison.getLsbD (r.off / 64)) s.seq
        (maxTime r.pts (x.rts + 1))) := by
  obtain ⟨t, ht, h⟩ := State.serve_hit r.world hx hkey
  exact ⟨_, by simp only [State.performRequest, State.performOn, hr, ht, State.updateOf, if_true, h.unlocked, ← hb]; rfl, h.setLine rfl⟩

/-! Clocks and answers -/

/-- The state once the k-th request at the slices' stops has left them. -/
def State.dequeued (s : State) (k : Nat) : State := { s with requests := s.requests.eraseIdx k }

theorem State.raiseClock_frame (s : State) (src : Source) (w : Word) :
    s.raiseClock src w = { s with tiles := (s.raiseClock src w).tiles, clusters := (s.raiseClock src w).clusters } := by
  cases src <;> rfl
theorem State.tile_raiseClock (s : State) (tk : Nat) (w : Word) :
    (s.raiseClock (.tile tk) w).tile tk = { s.tile tk with pts := maxTime (s.tile tk).pts w } := State.tile_modTile_self ..
theorem State.answerTo_frame (s : State) (r : Request) (d : AnswerData) : s.answerTo r d = { s with net := (s.answerTo r d).net } := by
  unfold State.answerTo
  split <;> rfl
theorem State.tile_answerTo (s : State) (r : Request) (d : AnswerData) (k : Nat) : (s.answerTo r d).tile k = s.tile k := by
  rw [State.answerTo_frame]; rfl
/-- The answer to a tile or a stream leaves the slice's stop in the response class. -/
theorem State.answerTo_answers {s t : State} (hnet : t.net = s.net) (r : Request) (d : AnswerData) : Claims.Answers s (t.answerTo r d) r d := by
  intro hsrc
  have hsend : t.answerTo r d = t.sendAnswer ⟨r, d⟩ := by
    unfold State.answerTo
    split
    next ck x h => exact absurd h (hsrc ck x)
    next => rfl
  rw [hsend, ← hnet]
  exact ⟨_, rfl, rfl, rfl, rfl, rfl⟩

/-- The k-th request at the stops of `s` is gone in `t`, answered with `d`; its slice holds `y` as its line, the other lines and DRAM as
before. -/
structure ServedAt (s t : State) (k : Nat) (r : Request) (y : Line) (d : AnswerData) : Prop where
  line : (t.slice r.sk).line? r.pa = some y
  dram : t.dram = s.dram
  requests : t.requests = s.requests.eraseIdx k
  others : ∀ a, a / 256 ≠ r.pa / 256 → (t.slice r.sk).line? a = (s.slice r.sk).line? a
  answers : Claims.Answers s t r d

/-- The slice has served the request, and at most a clock has risen, when the answer leaves. -/
theorem HoldsLine.served {s u v : State} {k : Nat} {r : Request} {y : Line} (h : HoldsLine (s.dequeued k) u r.sk r.pa y)
    (hv : v = { u with tiles := v.tiles, clusters := v.clusters }) (d : AnswerData) : ServedAt s (v.answerTo r d) k r y d where
  line := by rw [State.answerTo_frame, hv]; exact h.line
  dram := by rw [State.answerTo_frame, hv, h.rest]; rfl
  requests := by rw [State.answerTo_frame, hv, h.rest]; rfl
  others := by rw [State.answerTo_frame, hv]; exact h.others
  answers := State.answerTo_answers (by rw [hv, h.rest]; rfl) r d
/-- A write or atomic raises the clock of the tile that sent it (R125). -/
theorem HoldsLine.pts_raised {s u : State} {k sk pa : Nat} {r : Request} {y : Line} (h : HoldsLine (s.dequeued k) u sk pa y) (w : Word)
    (d : AnswerData) (tk : Nat) (hsrc : r.src = .tile tk) :
    (((u.raiseClock r.src w).answerTo r d).tile tk).pts = maxTime (s.tile tk).pts w := by
  rw [State.tile_answerTo, hsrc, State.tile_raiseClock, h.rest]
  rfl

/-! A request enters its bank (R121) -/

theorem State.hits_of_line? {s : State} {sk pa : Nat} {key : Colour} {x : Line} (hx : (s.slice sk).line? pa = some x) (hkey : x.key = key) :
    s.hits sk pa key = true := by
  rw [State.hits, hx]
  exact decide_eq_true hkey

section
variable {s : State} {k : Nat} {r : Request} (hr : Claims.NextAt s k r) {want : ReqKind → Bool} (hw : want r.kind = true)
include hr hw

theorem State.arriveSlice_next : s.arriveSlice k want =
    if !(s.slice r.sk).waits r.pa then (s.dequeued k).startRequest r
    else if (s.slice r.sk).queued r.pa < 16 then (s.dequeued k).modSlice r.sk fun l => { l with conflicts := l.conflicts ++ [r] }
    else s := by
  obtain ⟨hk, hbefore, hqueued⟩ := hr
  have hfirst : (s.requests.take k).any (fun x => decide (x.sk = r.sk) && (decide (x.src = r.src) || decide (bankOf x.pa = bankOf r.pa))) =
      false := by
    rw [List.any_eq_false]
    intro x hx
    simpa using hbefore x hx
  have hown : (s.slice r.sk).conflicts.any (fun x => decide (x.src = r.src)) = false := by
    rw [List.any_eq_false]
    intro x hx
    simpa using hqueued x hx
  simp only [State.arriveSlice, hk, hw, hfirst, hown, Bool.not_true, Bool.or_self, Bool.false_eq_true, if_false]
  rfl
theorem State.arriveSlice_free (hfree : (s.slice r.sk).waits r.pa = false) :
    s.arriveSlice k want = (s.dequeued k).startRequest r := by
  rw [State.arriveSlice_next hr hw, hfree]
  rfl
theorem State.arriveSlice_queues (hwaits : (s.slice r.sk).waits r.pa = true) (hroom : (s.slice r.sk).queued r.pa < 16) :
    s.arriveSlice k want = (s.dequeued k).modSlice r.sk fun l => { l with conflicts := l.conflicts ++ [r] } := by
  rw [State.arriveSlice_next hr hw, hwaits, if_pos hroom]
  rfl
theorem State.arriveSlice_refused (hwaits : (s.slice r.sk).waits r.pa = true) (hfull : 16 ≤ (s.slice r.sk).queued r.pa) :
    s.arriveSlice k want = s := by
  rw [State.arriveSlice_next hr hw, hwaits, if_neg (Nat.not_lt.mpr hfull)]
  rfl
theorem State.arriveSlice_hit {x : Line} (hfree : (s.slice r.sk).waits r.pa = false) (hx : (s.slice r.sk).line? r.pa = some x)
    (hkey : x.key = r.key) : s.arriveSlice k want = (s.dequeued k).performRequest r := by
  rw [State.arriveSlice_free hr hw hfree, State.startRequest, if_pos (State.hits_of_line? (s := s.dequeued k) hx hkey)]

end

/-- A read whose line the slice does not hold asks the stack port for it, under the line's lock (R100, R121). -/
theorem State.startRequest_miss {s : State} {r : Request} (hr : r.kind = .read) (hx : (s.slice r.sk).line? r.pa = none) :
    s.startRequest r = (s.modSlice r.sk fun l => { l with misses := l.misses ++ [⟨r, false, none, false⟩] }).netSend s.nclk 0
      (sliceStop r.sk) (memoryPort r.pa) r.colour r.world 0 (.lineRead r.sk (r.pa / 256 * 256)) := by
  have hmiss : s.hits r.sk r.pa r.key = false := by rw [State.hits, hx]
  simp only [State.startRequest, hmiss, hr, bne_self_eq_false, Bool.and_false, Bool.false_eq_true, if_false, State.modSlice_modSlice]
  exact congrArg (State.netSend · _ _ _ _ _ _ _ _) (State.modSlice_congr (by simp only [hx]))

/-- The instruction of a request's kind takes it. -/
theorem exec_arrives {s : State} {k : Nat} {r : Request} {i : Instr} (hi : i ∈ [Instr.sliceRead k, .sliceWrite k])
    (hkind : i = .sliceRead k ↔ r.kind = .read) : ∃ want : ReqKind → Bool, want r.kind = true ∧ exec i s = .next (s.arriveSlice k want) := by
  simp only [List.mem_cons, List.not_mem_nil, or_false] at hi
  rcases hi with rfl | rfl
  · exact ⟨fun x => x = .read, decide_eq_true (hkind.mp rfl), rfl⟩
  · exact ⟨fun x => x != .read, bne_iff_ne.mpr fun h => Instr.noConfusion (hkind.mpr h), rfl⟩

end Sys2Proof.Machine

namespace Sys2Proof
open Machine

theorem slicesServe_requests : Claims.SlicesServe := by
  intro s k r x hr
  refine ⟨fun hwaits i hi hkind => ?waits, fun hfree hx hkey => ⟨fun hread => ?read, ?write, ?atomic⟩, fun hfree hx hread => ?miss⟩
  case waits =>
    obtain ⟨want, hw, hexec⟩ := exec_arrives (s := s) hi hkind
    rw [hexec]
    exact ⟨fun hroom => congrArg Host.Outcome.next (State.arriveSlice_queues hr hw hwaits hroom),
      fun hfull => congrArg Host.Outcome.next (State.arriveSlice_refused hr hw hwaits hfull)⟩
  case read =>
    obtain ⟨u, hu, h⟩ := State.performRequest_read (s := s.dequeued k) hread hx hkey
    have hserved := h.served (v := u) rfl (.line x.data x.poison x.wts (maxTime r.pts x.wts + 256))
    have harrive := (State.arriveSlice_hit hr (want := fun x => x = .read) (decide_eq_true hread) hfree hx hkey).trans hu
    exact ⟨_, _, congrArg Host.Outcome.next harrive, hserved.line, rfl, rfl, rfl, rfl, hserved.dram, hserved.requests,
      hserved.others, hserved.answers⟩
  case write =>
    rintro all ps p hwrite rfl
    obtain ⟨u, hu, h⟩ := State.performRequest_write (s := s.dequeued k) hwrite hx hkey
    have hserved := h.served (u.raiseClock_frame r.src (maxTime r.pts (x.rts + 1))) .ack
    have harrive := (State.arriveSlice_hit hr (want := fun x => x != .read) (by rw [hwrite]; rfl) hfree hx hkey).trans hu
    exact ⟨_, _, congrArg Host.Outcome.next harrive, hserved.line, rfl, rfl, rfl, rfl, hserved.dram, hserved.requests, hserved.answers,
      h.pts_raised _ _, hserved.others⟩
  case atomic =>
    intro opc v c p hatomic
    obtain ⟨u, hu, h⟩ := State.performRequest_atomic (s := s.dequeued k) hatomic hx hkey rfl
    have hserved := h.served (u.raiseClock_frame r.src (maxTime r.pts (x.rts + 1)))
      (.old (atomicBlock opc (lineUnit x.data (r.off / 64)) v c).2 (x.poison.getLsbD (r.off / 64)))
    have harrive := (State.arriveSlice_hit hr (want := fun x => x != .read) (by rw [hatomic]; rfl) hfree hx hkey).trans hu
    exact ⟨_, _, _, _, congrArg Host.Outcome.next harrive, rfl, hserved.line, rfl, rfl, rfl, hserved.dram, hserved.answers, h.pts_raised _ _⟩
  case miss =>
    have harrive := (State.arriveSlice_free hr (want := fun x => x = .read) (decide_eq_true hread) hfree).trans
      (State.startRequest_miss (s := s.dequeued k) hread hx)
    have hslice := (s.dequeued k).slice_modSlice_self r.sk fun l => { l with misses := l.misses ++ [⟨r, false, none, false⟩] }
    exact ⟨_, congrArg Host.Outcome.next harrive, congrArg Slice.misses hslice, rfl, rfl, _, rfl, rfl, rfl, rfl⟩

end Sys2Proof
end

section
/-!
PROOFS. Answers at their tiles (06_slices.md R124, R125; 12_ops_memory.md R238, R241): the line that a load gets, the old lanes that an atomic
gets, and what the stash's room for the line leaves alone.
-/
namespace Sys2Proof.Machine

/-! What installing a copy in a stash leaves alone (R165, R167) -/

theorem State.modLaunch_frame (s : State) (ck ctx : Nat) (g : Launch → Launch) :
    s.modLaunch ck ctx g = { s with clusters := (s.modLaunch ck ctx g).clusters } := by
  unfold State.modLaunch
  split <;> rfl
theorem State.acknowledge_frame (s : State) (a : Option (Nat × Nat)) :
    s.acknowledge a = { s with clusters := (s.acknowledge a).clusters } := by
  cases a
  · rfl
  · exact State.modLaunch_frame ..
theorem State.tile_acknowledge (s : State) (a : Option (Nat × Nat)) (k : Nat) : (s.acknowledge a).tile k = s.tile k := by
  rw [State.acknowledge_frame]; rfl

/-- Nothing differs but tiles, clusters and the counters of arrivals and identities; the tile's clock and its outstanding accesses are as
before. -/
structure KeepsAccesses (tk : Nat) (s t : State) : Prop where
  rest : t = { s with tiles := t.tiles, clusters := t.clusters, seq := t.seq, nextId := t.nextId }
  pts : (t.tile tk).pts = (s.tile tk).pts
  accesses : (t.tile tk).accesses = (s.tile tk).accesses

namespace KeepsAccesses
variable {tk : Nat} {s t u : State}

theorem refl (tk : Nat) (s : State) : KeepsAccesses tk s s := ⟨rfl, rfl, rfl⟩
theorem trans (a : KeepsAccesses tk s t) (b : KeepsAccesses tk t u) : KeepsAccesses tk s u :=
  ⟨by rw [b.rest, a.rest], b.pts.trans a.pts, b.accesses.trans a.accesses⟩
theorem dram (h : KeepsAccesses tk s t) : t.dram = s.dram := by rw [h.rest]
theorem cycles (h : KeepsAccesses tk s t) : t.cycles = s.cycles := by rw [h.rest]
theorem modTile (s : State) {g : Tile → Tile} (hp : ∀ x, (g x).pts = x.pts) (ha : ∀ x, (g x).accesses = x.accesses) :
    KeepsAccesses tk s (s.modTile tk g) :=
  ⟨rfl, by rw [State.tile_modTile_self, hp], by rw [State.tile_modTile_self, ha]⟩
/-- A change of the tile that takes the next arrival number. -/
theorem nextUse (s : State) (g : Tile → Tile) (hp : ∀ x, (g x).pts = x.pts) (ha : ∀ x, (g x).accesses = x.accesses) :
    KeepsAccesses tk s { s.modTile tk g with seq := s.seq + 1 } :=
  (modTile s hp ha).trans ⟨rfl, rfl, rfl⟩
theorem modLaunch (s : State) (ck ctx : Nat) (g : Launch → Launch) : KeepsAccesses tk s (s.modLaunch ck ctx g) :=
  ⟨by rw [State.modLaunch_frame], by rw [State.tile_modLaunch], by rw [State.tile_modLaunch]⟩
theorem inject (s : State) (ck : Nat) (src : MeshSource) (goal : Nat × Nat) (n : Bool) (vc : Nat) (x : Cargo) :
    KeepsAccesses tk s (s.inject ck src goal n vc x) := ⟨rfl, rfl, rfl⟩
theorem post (s : State) {r : Request} (hr : r.src = .tile tk) : KeepsAccesses tk s (s.post r) := by
  have hid : KeepsAccesses tk s { s with nextId := s.nextId + 1 } := ⟨rfl, rfl, rfl⟩
  have htouch : ∀ s : State, KeepsAccesses tk s (if r.kind = .read then s else s.touches (.tile tk) r.sk) := by
    intro s
    split
    · exact refl tk s
    · exact modTile s (g := fun t => { t with touched := touch t.touched (dieOf (ckOf tk)) r.sk }) (fun _ => rfl) fun _ => rfl
  rcases hack : r.ack with _ | ⟨ck, ctx⟩
  · simp only [State.post, hr, hack]
    exact (hid.trans (htouch _)).trans (inject ..)
  · simp only [State.post, hr, hack]
    exact ((hid.trans (modLaunch ..)).trans (htouch _)).trans (inject ..)
theorem stashBackFor (s : State) (ack : Option (Nat × Nat)) (l : StashLine) : KeepsAccesses tk s (s.stashBackFor tk ack l) := by
  have hsend : ∀ (s : State) (p : Bool), KeepsAccesses tk s (if l.dirtyBytes p = [] then s
      else s.post { src := .tile tk, sk := l.sk, pa := l.pa, off := 0, colour := l.key, key := l.key, world := l.world
                    kind := .write (l.dirtyBytes p) p, pts := (s.tile tk).pts, scope := scopePkg, answer := none, stamp := 0
                    ack := ack, va := none }) := by
    intro s p
    split
    · exact refl tk s
    · exact post s rfl
  unfold State.stashBackFor
  split
  · exact refl tk s
  · exact ((hsend s false).trans (hsend _ true)).trans (modTile _ (fun _ => rfl) fun _ => rfl)
theorem stashDrop (s : State) (ctx pa : Nat) : KeepsAccesses tk s (s.stashDrop tk ctx pa) := by
  unfold State.stashDrop
  split
  · exact refl tk s
  · exact (stashBackFor s _ _).trans (modTile _ (fun _ => rfl) fun _ => rfl)
theorem stashInstall (s : State) (ctx : Nat) (l : StashLine) : KeepsAccesses tk s (s.stashInstall tk ctx l) := by
  unfold State.stashInstall
  split
  · exact refl tk s
  refine ((stashDrop s ctx l.pa).trans ?_).trans (nextUse _ _ (fun _ => rfl) fun _ => rfl)
  split
  · exact refl tk _
  split
  · exact stashDrop ..
  · exact refl tk _
theorem stashPut (s : State) (ctx : Nat) (l : StashLine) : KeepsAccesses tk s (s.stashPut tk ctx l) := by
  unfold State.stashPut
  split
  · exact nextUse s _ (fun _ => rfl) fun _ => rfl
  · exact stashInstall s ctx l

end KeepsAccesses

/-! The access that an answer names -/

/-- A change of the outstanding accesses of an identity, where only one access has it. -/
theorem eq_of_mem_map_access {l : List Access} {id : Nat} {a : Access} {g : Access → Access} (hone : ∀ b ∈ l, b.id = id → b = a)
    {b : Access} (hb : b ∈ l.map fun x => if x.id = id then g x else x) (h : b.id = id) : b = g a := by
  obtain ⟨x, hx, rfl⟩ := List.mem_map.mp hb
  by_cases hxid : x.id = id
  · rw [if_pos hxid, hone x hx hxid]
  · rw [if_neg hxid] at h
    exact absurd h hxid

theorem State.accesses_load' {s : State} {tk id : Nat} {a : Access} (hone : ∀ b ∈ (s.tile tk).accesses, b.id = id → b = a)
    (hopc : a.opc ≠ 0x021) (d : BitVec 2048) (p : BitVec 4) (off : Nat) {b : Access}
    (hb : b ∈ ((s.load' tk id d p off).tile tk).accesses) (h : b.id = id) : b = { a.loaded d p off with since := s.cycles + 1 } := by
  rw [State.load', State.tile_modTile_self] at hb
  rw [eq_of_mem_map_access hone hb h, if_neg hopc]
theorem State.accesses_answer {s : State} {tk id : Nat} {a : Access} (hone : ∀ b ∈ (s.tile tk).accesses, b.id = id → b = a)
    (g : Access → Access) {b : Access} (hb : b ∈ ((s.answer tk id g).tile tk).accesses) (h : b.id = id) :
    b = { g a with phase := .answered, since := s.cycles + 1 } := by
  rw [State.answer, State.tile_modTile_self] at hb
  exact eq_of_mem_map_access hone hb h

/-! Answers -/

/-- The copy of its line that the answer to a read brings (R124, R165). -/
def Request.copy (r : Request) (d : BitVec 2048) (p : BitVec 4) (wts fin : Word) : StashLine :=
  ⟨r.pa / 256 * 256, r.sk, r.key, r.world, wts, fin, 0, p, d, 0⟩
/-- A tile without a copy of a line keeps the one that arrives. -/
theorem Tile.keeps_copy {t : Tile} {r : Request} (h : t.stashLine r.pa = none) (d : BitVec 2048) (p : BitVec 4) (wts fin : Word) :
    t.keeps (r.copy d p wts fin) = r.copy d p wts fin := by
  have hbase : t.stashLine (r.copy d p wts fin).pa = none := by
    rw [← h, Tile.stashLine, Tile.stashLine, Request.copy, Nat.mul_div_cancel _ (by decide)]
  rw [Tile.keeps, hbase]
/-- The answer to a load whose tile has no copy of the line (R165, R238). -/
theorem State.takeAnswer_line {s : State} {tk id : Nat} {r : Request} {a : Access} (hsrc : r.src = .tile tk) (hans : r.answer = some id)
    (hfind : (s.tile tk).accesses.find? (fun a => a.id = id) = some a) (hload : a.isStore = false) (hopc : a.opc ≠ 0x021)
    (hstash : (s.tile tk).stashLine r.pa = none) (d : BitVec 2048) (p : BitVec 4) (wts fin : Word) :
    s.takeAnswer ⟨r, .line d p wts fin⟩ =
      ((s.raiseClock (.tile tk) wts).stashPut tk a.tag.ctx.toNat (r.copy d p wts fin)).load' tk id d p r.off := by
  have haccess : ((s.raiseClock (.tile tk) wts).tile tk).accesses.find? (fun a => a.id = id) = some a := by
    rw [State.tile_raiseClock, hfind]
  have hkeeps : ((s.raiseClock (.tile tk) wts).tile tk).keeps ⟨r.pa / 256 * 256, r.sk, r.key, r.world, wts, fin, 0, p, d, 0⟩ =
      r.copy d p wts fin := Tile.keeps_copy (by rw [State.tile_raiseClock]; exact hstash) d p wts fin
  simp only [State.takeAnswer, State.fillStash, hsrc, hans, hkeeps, haccess, hload, Bool.false_eq_true, if_false, if_neg hopc]
  rfl
/-- The answer to an atomic (R241). -/
theorem State.takeAnswer_old (s : State) {tk id : Nat} {r : Request} (hsrc : r.src = .tile tk) (hans : r.answer = some id) (v : WideVal)
    (bad : Bool) : s.takeAnswer ⟨r, .old v bad⟩ =
      (s.answer tk id fun x => { x with data := v, memPoison := bad }).acknowledge r.ack := by
  simp only [State.takeAnswer, hsrc, hans]

end Sys2Proof.Machine

namespace Sys2Proof
open Machine

theorem answersArrive : Claims.AnswersArrive := by
  intro s tk id r a hsrc hans hfind hone
  constructor
  · rintro d p wts fin t rfl hload hopc hstash
    rw [State.takeAnswer_line hsrc hans hfind hload hopc hstash]
    have hkeep := KeepsAccesses.stashPut (tk := tk) (s.raiseClock (.tile tk) wts) a.tag.ctx.toNat (r.copy d p wts fin)
    have haccesses := hkeep.accesses.trans (congrArg Tile.accesses (s.tile_raiseClock tk wts))
    refine ⟨?_, hkeep.dram, fun b hb hid => ?_⟩
    · rw [State.load', State.tile_modTile_self, hkeep.pts, State.tile_raiseClock]
    · rw [State.accesses_load' (by rw [haccesses]; exact hone) hopc d p r.off hb hid, hkeep.cycles]
      exact ⟨rfl, rfl, rfl, rfl⟩
  · rintro v bad t rfl
    rw [State.takeAnswer_old s hsrc hans]
    refine ⟨by rw [State.acknowledge_frame]; rfl, fun b hb hid => ?_⟩
    rw [State.tile_acknowledge] at hb
    rw [State.accesses_answer hone _ hb hid]
    exact ⟨rfl, rfl, rfl⟩

/-- Settles O44: a request that enters its bank finds its line's slice busy, holding the line, or without it; its answer, at its tile, changes
the one access that it names. -/
theorem slicesServe : Obligations.SlicesServe := ⟨slicesServe_requests, answersArrive⟩

end Sys2Proof
end

section
/-!
PROOFS. How a tile's accesses end, wait for a page or expire (08_tile_memory.md R170; 12_ops_memory.md R235, R237, R240, R243, R248).
-/
namespace Sys2Proof.Machine

/-! What the step of an access does, phase by phase -/

/-- What an outstanding access in a phase, of a world that is not frozen, does next. -/
structure GoesOn (s : State) (tk k : Nat) (a : Access) (p : AccessPhase) : Prop where
  answered : p = .answered → a.since ≠ s.cycles + 1 → exec (.memoryResultArrival tk k) s = .next (s.emitAccess tk a)
  faulted : ∀ c, p = .faulted c → exec (.memoryResultArrival tk k) s = .next (s.faultAccess tk a c)
  reissue : p = .reissue → exec (.memoryResultArrival tk k) s = .next (s.startAccess tk a)
  bank : p = .bank → (∀ b ∈ (s.tile tk).accesses.take k, b.phase ≠ .bank ∨ b.bankTile ≠ a.bankTile) →
    exec (.memoryResultArrival tk k) s = .next (s.atBank tk a)
theorem GoesOn.of_at {s : State} {tk k : Nat} {a : Access} {p : AccessPhase} (h : Claims.At s tk k a p) : GoesOn s tk k a p := by
  obtain ⟨ha, hp, hopc, hlive⟩ := h
  have hexec : exec (.memoryResultArrival tk k) s = execMemoryResultArrival tk k s := rfl
  refine ⟨?answered, ?faulted, ?reissue, ?bank⟩
  case answered =>
    rintro rfl hsince
    cases hw : s.planeWorld tk a.plane <;> simp_all [execMemoryResultArrival]
  case faulted =>
    rintro c rfl
    cases hw : s.planeWorld tk a.plane <;> simp_all [execMemoryResultArrival]
  case reissue =>
    rintro rfl
    cases hw : s.planeWorld tk a.plane <;> simp_all [execMemoryResultArrival]
  case bank =>
    rintro rfl hfirst
    have hnone : ((s.tile tk).accesses.take k).any (fun b => b.phase = .bank && b.bankTile = a.bankTile) = false := by
      rw [List.any_eq_false]
      intro b hb
      simpa [imp_iff_not_or] using hfirst b hb
    simp [hexec, execMemoryResultArrival, ha, hp, hopc, hnone]

/-! The replies of an answered access (R231, R237, R245, R246) -/

/-- With FLAGS.ORDER every reply is an ORDER token (R35). -/
theorem Access.results_ordered {a : Access} (h : a.fields.flags.order = true) (tk : Nat) : a.results (a.site tk) =
    (OpTable.dests a.fields).map fun d => ⟨d.1, d.2, .order, a.out⟩ := by
  have hall : ∀ p, (a.site tk).toAll p a.out = (OpTable.dests a.fields).map fun d => ⟨d.1, d.2, .order, a.out⟩ := fun p => by
    simp [Site.toAll, Access.site, h]
  simp only [Access.results, hall, h, if_true, Bool.true_or, List.map_id', ite_self]
/-- Without FLAGS.ORDER each destination gets the reply of its index and port. -/
theorem Access.results_unordered {a : Access} (h : a.fields.flags.order = false) (tk : Nat) : a.results (a.site tk) =
    (OpTable.dests a.fields).map fun d => ⟨d.1, d.2, Claims.reply a d.1 (d.2.port = .g), a.out⟩ := by
  have hall : ∀ p, (a.site tk).toAll p a.out = (OpTable.dests a.fields).map fun d => ⟨d.1, d.2, p, a.out⟩ := fun p => by
    simp [Site.toAll, Access.site, h]
  have hwides : a.opc ∈ [0x140, 0x150, 0x151, 0x159] ↔ a.opc = 0x140 ∨ (0x150 ≤ a.opc ∧ a.opc ≤ 0x151) ∨ a.opc = 0x159 := by
    simp only [List.mem_cons, List.not_mem_nil, or_false]
    omega
  have hplain : a.opc ≠ 0x170 → ¬(a.fields.flags.order = true ∨ a.opc = 0x170) := by simp [h]
  simp only [Access.results, hall, h, Bool.false_eq_true, if_false, Bool.false_or, List.map_map, Function.comp_def]
  by_cases hwide : a.opc = 0x140 ∨ (0x150 ≤ a.opc ∧ a.opc ≤ 0x151) ∨ a.opc = 0x159
  · simp only [if_pos hwide, Claims.reply, if_neg (hplain (by omega)), if_pos (hwides.mpr hwide)]
  rw [if_neg hwide]
  rw [← hwides] at hwide
  by_cases hnum : 0x142 ≤ a.opc ∧ a.opc ≤ 0x145
  · simp only [if_pos hnum, Claims.reply, if_neg (hplain (by omega)), if_neg hwide, if_pos (Or.inl hnum)]
  rw [if_neg hnum]
  have hsigned : a.opc ≠ 0x1A1 → ¬((0x142 ≤ a.opc ∧ a.opc ≤ 0x145) ∨ a.opc = 0x1A1) := fun hkv => not_or.mpr ⟨hnum, hkv⟩
  by_cases hgroup : a.opc = 0x158
  · simp [Claims.reply, h, hgroup]
  rw [if_neg hgroup]
  by_cases hweak : a.opc = 0x15B
  · rw [if_pos hweak]
    refine List.map_congr_left fun d _ => ?_
    simp only [Claims.reply, if_neg (hplain (by omega)), if_neg hwide, if_neg (hsigned (by omega)), if_neg hgroup, if_pos hweak, decide_eq_true_eq]
    by_cases hi : d.1 = 1
    · simp only [if_pos hi]
    · simp only [if_neg hi]
  rw [if_neg hweak]
  by_cases hup : a.opc = 0x168
  · rw [if_pos hup]
    refine List.map_congr_left fun d _ => ?_
    simp only [Claims.reply, if_neg (hplain (by omega)), if_neg hwide, if_neg (hsigned (by omega)), if_neg hgroup, if_neg hweak,
      if_pos hup, decide_eq_true_eq]
    by_cases hi : d.1 = 1
    · simp only [if_pos hi]
    · simp only [if_neg hi]
  rw [if_neg hup]
  by_cases hatomic : 0x160 ≤ a.opc ∧ a.opc ≤ 0x167
  · rw [if_pos (by simpa [isAtomic] using hatomic)]
    rcases hcompare : a.cWide? with _ | c
    all_goals simp only [hcompare, Claims.reply, if_neg (hplain (by omega)), if_neg hwide, if_neg (hsigned (by omega)), if_neg hgroup,
      if_neg hweak, if_neg hup, if_pos hatomic]
  rw [if_neg (by simpa [isAtomic] using hatomic)]
  by_cases hfence : a.opc = 0x170
  · simp [Claims.reply, hfence]
  rw [if_neg hfence]
  by_cases hkv : a.opc = 0x1A1
  · simp [Claims.reply, h, hkv]
  simp only [if_neg hkv, Claims.reply, if_neg (hplain hfence), if_neg hwide, if_neg (hsigned hkv), if_neg hgroup, if_neg hweak, if_neg hup,
    if_neg hatomic]
theorem Access.results_eq_replies (a : Access) (tk : Nat) : a.results (a.site tk) =
    (OpTable.dests a.fields).map fun d => ⟨d.1, d.2, Claims.reply a d.1 (d.2.port = .g), a.out⟩ := by
  rcases h : a.fields.flags.order with _ | _
  · exact Access.results_unordered h tk
  · simpa [Claims.reply, h] using Access.results_ordered h tk

/-! An access that expires (R170, R240) -/

/-- Nothing is recorded, and every tile parks the same accesses. -/
structure KeepsParked (s t : State) : Prop where
  records : t.records = s.records
  parked : ∀ k, (t.tile k).parked = (s.tile k).parked

namespace KeepsParked
variable {s t u : State}

theorem refl (s : State) : KeepsParked s s := ⟨rfl, fun _ => rfl⟩
theorem trans (a : KeepsParked s t) (b : KeepsParked t u) : KeepsParked s u :=
  ⟨b.records.trans a.records, fun k => (b.parked k).trans (a.parked k)⟩
theorem modTile (s : State) (tk : Nat) {g : Tile → Tile} (h : ∀ x, (g x).parked = x.parked) : KeepsParked s (s.modTile tk g) :=
  ⟨rfl, State.tile_modTile_keeps Tile.parked s tk h⟩
theorem acknowledge (s : State) (x : Option (Nat × Nat)) : KeepsParked s (s.acknowledge x) :=
  ⟨by rw [State.acknowledge_frame], fun k => by rw [State.tile_acknowledge]⟩
theorem returnCredit (s : State) (tk : Nat) (c : Option Credit) (d : Colour) : KeepsParked s (s.returnCredit tk c d) :=
  ⟨by rw [State.returnCredit_frame], fun k => by rw [State.tile_returnCredit]⟩
theorem poke (s : State) (pa : Nat) (bs : List Byte) : KeepsParked s (s.poke pa bs) :=
  ⟨State.poke_records .., fun k => by rw [State.poke_frame]; rfl⟩
theorem setObject (s : State) (d i : Nat) (e : ObjectEntry) : KeepsParked s (s.setObject d i e) := by
  have hdie : KeepsParked s (s.modDie d fun x => { x with objects := Map.put x.objects i e }) := ⟨rfl, fun _ => rfl⟩
  unfold State.setObject
  exact hdie.trans (poke ..)
theorem unpinFor (s : State) (a : Access) : KeepsParked s (s.unpinFor a) := by
  unfold State.unpinFor
  split
  · exact setObject ..
  · exact refl s
theorem dropAccess (s : State) (tk : Nat) (a : Access) : KeepsParked s (s.dropAccess tk a) := by
  unfold State.dropAccess
  refine trans ?_ (unpinFor ..)
  exact modTile s tk fun _ => rfl
theorem unholdAccess (s : State) (tk : Nat) (a : Access) : KeepsParked s (s.unholdAccess tk a) := by
  unfold State.unholdAccess
  refine foldl_rel refl (fun _ _ _ => trans) _ (fun s e => ?_) _ _
  split
  · exact modTile s _ fun _ => rfl
  · exact refl s

end KeepsParked

@[simp] theorem State.tile_recordColour (s : State) (ck : Nat) (c : Colour) (kind status fault bytes : Nat) (tag : Word) (k : Nat) :
    (s.recordColour ck c kind status fault bytes tag).tile k = s.tile k := rfl
/-- The access leaves the list and its record is written; what else its end does keeps the records and what is parked. -/
theorem exec_feTimeout_expired {s : State} {tk k : Nat} {w : FeWait} (hw : (s.tile tk).parked[k]? = some w)
    (hlim : (s.colour w.tag.colour).age ≠ 0) (hage : (s.colour w.tag.colour).age ≤ w.age) :
    ∃ z : State, exec (.feTimeout tk k) s = .next (z.feServe tk (w.off / 64) 17) ∧
      KeepsParked ((s.modTile tk fun t => { t with parked := t.parked.eraseIdx k }).recordColour (ckOf tk) w.tag.colour 0x02 0x03 0 64
        w.tag.toWord) z := by
  have hexpired : ¬((s.colour w.tag.colour).age = 0 ∨ w.age < (s.colour w.tag.colour).age) := by omega
  have hexec : exec (.feTimeout tk k) s = execFeTimeout tk k s := rfl
  simp only [hexec, execFeTimeout, hw, if_neg hexpired]
  refine ⟨_, rfl, ?_⟩
  have hack : ∀ u : State, KeepsParked u (if w.kind = .store then u.acknowledge (some (ckOf w.src, w.tag.ctx.toNat)) else u) := by
    intro u
    split
    · exact .acknowledge ..
    · exact .refl u
  generalize hu : (if w.kind = .store then _ else _ : State) = u
  refine (hu ▸ hack _ : KeepsParked _ u).trans ?_
  split
  · exact ((KeepsParked.unholdAccess ..).trans (.dropAccess ..)).trans (.returnCredit ..)
  · exact .refl _

end Sys2Proof.Machine

namespace Sys2Proof
open Machine

/-- Settles O37: an access goes on as its phase says, an answered one with the replies of its results; a walk by what its translation finds; and of
the steps that end an expired access only one writes a record. -/
theorem accessesEnd : Obligations.AccessesEnd := by
  intro s tk k
  refine ⟨?answered, ?faulted, ?reissue, ?walk, ?timeout, ?resend⟩
  case answered =>
    intro a rs hat hsince hrs hne hclean
    have hresults : a.results (a.site tk) = rs := hrs ▸ a.results_eq_replies tk
    rw [(GoesOn.of_at hat).answered rfl hsince]
    simp [State.emitAccess, hresults, hne, hclean]
  case faulted => exact fun a c hat => (GoesOn.of_at hat).faulted c rfl
  case reissue => exact fun a hat => (GoesOn.of_at hat).reissue rfl
  case walk =>
    rintro w z hw rfl
    have hexec : exec (.walkComplete tk k) s = execWalkComplete tk k s := rfl
    rcases hx : (s.modTile tk fun x => { x with walks := x.walks.eraseIdx k }).xlateWalk tk w.tag.colour w.va (!w.write) w.write
      with ⟨v, r⟩
    refine ⟨v, r, rfl, ?_, ?_, ?_⟩
    · rintro x rfl
      simp [hexec, execWalkComplete, hw, hx]
    · rintro rfl
      simp [hexec, execWalkComplete, hw, hx, codeNotMapped]
    · rintro c rfl hc
      simp [hexec, execWalkComplete, hw, hx, codeNotMapped, hc]
  case timeout =>
    rintro w lim hw rfl
    constructor
    · intro hyoung
      have hexec : exec (.feTimeout tk k) s = execFeTimeout tk k s := rfl
      simp only [hexec, execFeTimeout, hw, if_pos hyoung]
    · intro hlim hage
      obtain ⟨z, hz, hkeep⟩ := exec_feTimeout_expired hw hlim hage
      refine ⟨z, hz, ?_, _, hkeep.records, rfl, rfl, rfl, rfl⟩
      rw [hkeep.parked, State.tile_recordColour, State.tile_modTile_self]
  case resend =>
    rintro w z hw hdue rfl
    have hexec : exec (.feResend tk k) s = execFeResend tk k s := rfl
    have hready : ¬s.cycles < w.resendAt := by omega
    constructor
    · rintro (hsrc | hgone)
      · simp [hexec, execFeResend, hw, hready, hsrc]
      · by_cases hsrc : w.src = tk
        · simp [hexec, execFeResend, hw, hready, hsrc]
        · have hfind : (s.tile w.src).accesses.find? (fun b => b.id = w.id) = none := by simpa using hgone
          simp [hexec, execFeResend, hw, hready, hsrc, State.tile_modTile_other _ _ hsrc, hfind]
    · intro b hsrc hfind
      simp [hexec, execFeResend, hw, hready, hsrc, State.tile_modTile_other _ _ hsrc, hfind]

end Sys2Proof
end

section
/-!
PROOFS. Accesses at a scratchpad bank: what its answers are and where they go, and what a full/empty access finds there (08_tile_memory.md
R161, R169, R170; 12_ops_memory.md R238, R239, R241).
-/
namespace Sys2Proof.Machine

/-! Sets of granules -/

theorem NatSet.mem_insert {l : List Nat} {n m : Nat} : m ∈ NatSet.insert l n ↔ m = n ∨ m ∈ l := by
  induction l with
  | nil => simp [NatSet.insert]
  | cons k r ih =>
    unfold NatSet.insert
    split_ifs with hlt heq
    · simp
    · simp [heq]
    · simp [ih, or_left_comm]
theorem NatSet.mem_inserts {gs l : List Nat} {g : Nat} : g ∈ gs.foldl NatSet.insert l ↔ g ∈ gs ∨ g ∈ l := by
  induction gs generalizing l with
  | nil => simp
  | cons x xs ih => simp [ih, NatSet.mem_insert, or_assoc, or_left_comm]
/-- Granules that are set FULL are full (R169). -/
theorem Tile.mem_full_setFull {t : Tile} {gs : List Nat} {g : Nat} (h : g ∈ gs) : g ∈ (t.setFull gs true).full :=
  NatSet.mem_inserts.mpr (.inl h)

/-! The answer of a bank (R161) -/

/-- An access that its bank has answered: it has its answer in its own tile, and else the answer is on its way. -/
def Access.banked (a : Access) (own : Bool) (now : Nat) : Access :=
  if own then { a with phase := .answered, since := now + 1 } else { a with phase := .sent }
@[simp] theorem Access.banked_id (a : Access) (own : Bool) (now : Nat) : (a.banked own now).id = a.id := by cases own <;> rfl
@[simp] theorem Access.banked_opc (a : Access) (own : Bool) (now : Nat) : (a.banked own now).opc = a.opc := by cases own <;> rfl
@[simp] theorem Access.banked_out (a : Access) (own : Bool) (now : Nat) : (a.banked own now).out = a.out := by cases own <;> rfl
@[simp] theorem Access.banked_data (a : Access) (own : Bool) (now : Nat) : (a.banked own now).data = a.data := by cases own <;> rfl
@[simp] theorem Access.banked_value (a : Access) (own : Bool) (now : Nat) : (a.banked own now).value = a.value := by cases own <;> rfl

section
variable (u : State) (bank src id ctx : Nat) (ack : Bool) (g : Access → Access)

theorem State.accesses_bankAnswer : ((u.bankAnswer bank src id ctx ack g).tile src).accesses =
    (u.tile src).accesses.map fun a => if a.id = id then (g a).banked (src = bank) u.cycles else a := by
  unfold State.bankAnswer
  by_cases hsrc : src = bank
  · simp [hsrc, State.tile_acknowledge, State.answer, Access.banked]
  · split
    next => simp [hsrc, Access.banked]
    next hnone =>
      have hgone : ∀ a ∈ (u.tile src).accesses, a.id ≠ id := by simpa [hsrc] using hnone
      rw [State.tile_acknowledge, State.answer, State.tile_modTile_self]
      exact List.map_congr_left fun a ha => by rw [if_neg (hgone a ha), if_neg (hgone a ha)]
/-- Of the tiles an answer changes nothing but the accesses. -/
theorem State.tile_bankAnswer_keeps {α : Type} (π : Tile → α) (h : ∀ t x, π { t with accesses := x } = π t) (k : Nat) :
    π ((u.bankAnswer bank src id ctx ack g).tile k) = π (u.tile k) := by
  unfold State.bankAnswer
  split
  · exact State.tile_modTile_keeps π u src (fun t => h t _) k
  · rw [State.tile_acknowledge]
    exact State.tile_modTile_keeps π u src (fun t => h t _) k
/-- The answer to an access of another tile goes by the mesh, on VC1 (07_network.md R142). -/
theorem State.flits_bankAnswer {a : Access} (hsrc : bank ≠ src) (ha : a ∈ (u.tile src).accesses) :
    ∃ f ∈ ((u.bankAnswer bank src a.id ctx ack g).cluster (ckOf bank)).flits, f.cargo = .reply src a.id ∧ f.vc = 1 ∧
      f.router = tiOf bank ∧ f.dst = tiOf src ∧ f.out = 4 := by
  have hremote : (src != bank && (u.tile src).accesses.any fun b => b.id = a.id) = true := by
    simpa [Ne.symm hsrc] using ⟨a, ha, rfl⟩
  rw [State.bankAnswer, if_pos hremote, State.flits_inject]
  exact ⟨_, List.mem_append_right _ (List.mem_singleton_self _), rfl, rfl, rfl, rfl, rfl⟩

end

/-- A bank's answer to an access at its place in its tile. -/
theorem State.bankAnswers_of_bankAnswer {s u : State} {tk k dst ctx : Nat} {a : Access} {ack : Bool} {g : Access → Access}
    (ha : (u.tile tk).accesses[k]? = some a) (hcycles : u.cycles = s.cycles) (hid : (g a).id = a.id) (hopc : (g a).opc = a.opc)
    (hout : (g a).out = a.out) :
    Claims.BankAnswers s (u.bankAnswer dst tk a.id ctx ack g) tk k dst a ((g a).banked (tk = dst) s.cycles) := by
  refine ⟨?_, by simp [hid], by simp [hopc], by simp [hout], fun hown => ?_, fun hremote => ?_⟩
  · rw [State.accesses_bankAnswer, List.getElem?_map, ha, Option.map_some, if_pos rfl, hcycles]
  · simp [hown, Access.banked]
  · exact ⟨by simp [Ne.symm hremote, Access.banked], State.flits_bankAnswer _ _ _ _ _ _ hremote (List.mem_of_getElem? ha)⟩

/-! An access at its bank, by what its operator does there (R161, R238, R239, R241) -/

section
variable {s : State} {tk dst off : Nat} {a : Access}

theorem State.atBank_load (hsp : s.spCheck (ckOf tk) a.tag.colour (a.addr % 2 ^ 24) (memAlign a.opc) = .ok (dst, off))
    (hopc : a.opc = 0x140 ∨ (0x142 ≤ a.opc ∧ a.opc ≤ 0x145)) :
    s.atBank tk a = s.bankAnswer dst tk a.id a.tag.ctx.toNat false fun x =>
      { x with
        data := ⟨BitVec.ofNat 512 (bytesNat (Memory.readBytes (s.tile dst).scratch off (memAlign a.opc))), Lanes.full⟩
        value := (BitVec.ofNat (8 * memAlign a.opc) (bytesNat (Memory.readBytes (s.tile dst).scratch off (memAlign a.opc)))).toInt
        memPoison := ((s.tile dst).spRead off (memAlign a.opc)).2 } := by
  have hfe : a.opc ≠ 0x150 ∧ a.opc ≠ 0x151 ∧ a.opc ≠ 0x152 := by omega
  have hatomic : isAtomic a.opc = false := by simp [isAtomic]; omega
  have hstore : a.isStore = false := by simp [Access.isStore]; omega
  simp only [State.atBank, hsp, hfe, hatomic, hstore]
  rfl
theorem State.atBank_store (hsp : s.spCheck (ckOf tk) a.tag.colour (a.addr % 2 ^ 24) (memAlign a.opc) = .ok (dst, off))
    (hstore : a.isStore = true) : s.atBank tk a =
      (s.modTile dst fun t => t.spWrite (a.storeBytes off) a.poison).bankAnswer dst tk a.id a.tag.ctx.toNat true id := by
  have hopc : a.opc = 0x141 ∨ (0x146 ≤ a.opc ∧ a.opc ≤ 0x149) ∨ a.opc = 0x15A := by simpa [Access.isStore, or_assoc] using hstore
  have hfe : a.opc ≠ 0x150 ∧ a.opc ≠ 0x151 ∧ a.opc ≠ 0x152 := by omega
  have hatomic : isAtomic a.opc = false := by simp [isAtomic]; omega
  simp only [State.atBank, hsp, hfe, hatomic, hstore]
  rfl
theorem State.atBank_atomic (hsp : s.spCheck (ckOf tk) a.tag.colour (a.addr % 2 ^ 24) (memAlign a.opc) = .ok (dst, off))
    (hatomic : isAtomic a.opc = true) {new old : WideVal} (h : (new, old) = atomicBlock a.opc
      (BitVec.ofNat 512 (bytesNat (Memory.readBytes (s.tile dst).scratch off 64))) a.rWide a.cWide?) :
    ∃ p q, s.atBank tk a = (s.modTile dst fun t => t.spWrite (activeBytes off new) p).bankAnswer dst tk a.id a.tag.ctx.toNat true
      fun x => { x with data := old, memPoison := q } := by
  have hopc : 0x160 ≤ a.opc ∧ a.opc ≤ 0x167 := by simpa [isAtomic] using hatomic
  have hfe : a.opc ≠ 0x150 ∧ a.opc ≠ 0x151 ∧ a.opc ≠ 0x152 := by omega
  simp only [State.atBank, hsp, hfe, hatomic, State.bankAtomic, Tile.spRead, ← h]
  exact ⟨_, _, rfl⟩
theorem State.atBank_fullEmpty (hsp : s.spCheck (ckOf tk) a.tag.colour (a.addr % 2 ^ 24) (memAlign a.opc) = .ok (dst, off))
    {kind : FeKind} {data : WideVal}
    (hopc : (a.opc, kind, data) ∈ [(0x150, FeKind.consume, ⟨0, 0⟩), (0x151, .keep, ⟨0, 0⟩), (0x152, .store, a.rWide)]) :
    s.atBank tk a = s.feArrive dst ⟨tk, a.id, off, kind, data, a.poison, a.tag, 0, 0⟩ := by
  simp only [List.mem_cons, List.not_mem_nil, or_false, Prod.mk.injEq] at hopc
  rcases hopc with ⟨ho, rfl, rfl⟩ | ⟨ho, rfl, rfl⟩ | ⟨ho, rfl, rfl⟩ <;> simp only [State.atBank, hsp] <;> simp [ho]
/-- A fault at the bank is found by the access's next step (R248). -/
theorem State.atBank_faults {k c : Nat} (hsp : s.spCheck (ckOf tk) a.tag.colour (a.addr % 2 ^ 24) (memAlign a.opc) = .error c)
    (ha : (s.tile tk).accesses[k]? = some a) :
    ((s.atBank tk a).tile tk).accesses[k]? = some { a with phase := .faulted c } ∧
      ∀ j, ((s.atBank tk a).tile j).scratch = (s.tile j).scratch := by
  have hphase : ∀ u : State, (∀ j, u.tile j = s.tile j) → ((u.setPhase tk a.id (.faulted c)).tile tk).accesses[k]? =
      some { a with phase := .faulted c } ∧ ∀ j, ((u.setPhase tk a.id (.faulted c)).tile j).scratch = (s.tile j).scratch := by
    intro u hu
    refine ⟨?_, fun j => ?_⟩
    · rw [State.setPhase, State.tile_modTile_self, List.getElem?_map, hu, ha, Option.map_some, if_pos rfl]
    · rw [← hu j, State.setPhase]
      exact State.tile_modTile_keeps Tile.scratch u tk (by intro; rfl) j
  simp only [State.atBank, hsp]
  split
  · exact hphase _ fun j => State.tile_acknowledge ..
  · exact hphase s fun _ => rfl

end

/-! A write at a bank -/

/-- The bytes at the banks once one of them has taken a write and answered it (R161, R241). -/
theorem State.write_bankAnswer {s t : State} {tk k dst ctx : Nat} {a : Access} {g : Access → Access} {ps : List (Nat × Byte)} {p : Bool}
    (ht : t = (s.modTile dst fun x => x.spWrite ps p).bankAnswer dst tk a.id ctx true g) (ha : (s.tile tk).accesses[k]? = some a)
    (hid : (g a).id = a.id) (hopc : (g a).opc = a.opc) (hout : (g a).out = a.out) :
    Claims.BankAnswers s t tk k dst a ((g a).banked (tk = dst) s.cycles) ∧
      (t.tile dst).scratch = Memory.writePairs (s.tile dst).scratch 0 ps ∧ ∀ j, j ≠ dst → (t.tile j).scratch = (s.tile j).scratch := by
  have haccess : ((s.modTile dst fun x => x.spWrite ps p).tile tk).accesses[k]? = some a := by
    rw [State.tile_modTile_keeps Tile.accesses s dst (g := fun x => x.spWrite ps p) (fun _ => rfl), ha]
  have hscratch : ∀ j, (t.tile j).scratch = ((s.modTile dst fun x => x.spWrite ps p).tile j).scratch := fun j => by
    rw [ht, State.tile_bankAnswer_keeps _ _ _ _ _ _ _ Tile.scratch (fun _ _ => rfl)]
  refine ⟨ht ▸ State.bankAnswers_of_bankAnswer haccess rfl hid hopc hout, ?_, fun j hj => ?_⟩
  · rw [hscratch, State.tile_modTile_self, Tile.spWrite]
  · rw [hscratch, State.tile_modTile_other _ _ hj]

end Sys2Proof.Machine

namespace Sys2Proof
open Machine

theorem bankAccesses : Claims.BankAccesses := by
  rintro s tk k a n hat rfl hfirst -
  have ha : (s.tile tk).accesses[k]? = some a := hat.1
  rw [(GoesOn.of_at hat).bank rfl hfirst]
  refine ⟨fun c hsp => ⟨_, rfl, State.atBank_faults hsp ha⟩, fun dst off hsp => ⟨?load, ?fullEmpty, ?store, ?atomic⟩⟩
  case load =>
    intro hopc
    rw [State.atBank_load hsp hopc]
    refine ⟨_, _, _, rfl, State.bankAnswers_of_bankAnswer ha rfl rfl rfl rfl, Access.banked_data .., Access.banked_value .., fun j => ?_, rfl⟩
    exact State.tile_bankAnswer_keeps _ _ _ _ _ _ _ Tile.scratch (fun _ _ => rfl) j
  case fullEmpty => exact fun kind data hopc => congrArg Host.Outcome.next (State.atBank_fullEmpty hsp hopc)
  case store =>
    intro hstore
    obtain ⟨hanswer, hscratch⟩ := State.write_bankAnswer (State.atBank_store hsp hstore) ha rfl rfl rfl
    exact ⟨_, _, hanswer, rfl, hscratch⟩
  case atomic =>
    intro hatomic
    obtain ⟨p, q, hatBank⟩ := State.atBank_atomic hsp hatomic rfl
    obtain ⟨hanswer, hscratch⟩ := State.write_bankAnswer hatBank ha rfl rfl rfl
    exact ⟨_, _, _, _, rfl, hanswer, Access.banked_data .., rfl, hscratch⟩

end Sys2Proof
end

section
/-!
PROOFS. Full/empty accesses (08_tile_memory.md R169, R170; 12_ops_memory.md R239): what one that finds its granules ready does, and where one that
does not waits.
-/
namespace Sys2Proof.Machine

/-! One that finds its granules ready -/

theorem State.feDo_store {w : FeWait} (h : w.kind = .store) (s : State) (tk : Nat) : s.feDo tk w =
    (s.modTile tk fun t => (t.spWrite (activeBytes w.off w.data) w.poison).setFull (granulesOf w.off 64) true).bankAnswer tk w.src w.id
      w.tag.ctx.toNat true id := by
  simp only [State.feDo, h]
/-- Each access of the number that a bank answers is changed alike. -/
theorem State.mem_bankAnswer {u : State} {bank src i ctx : Nat} {ack : Bool} {g : Access → Access} {b : Access}
    (hb : b ∈ ((u.bankAnswer bank src i ctx ack g).tile src).accesses) (hid : b.id = i) :
    ∃ a ∈ (u.tile src).accesses, a.id = i ∧ b = (g a).banked (src = bank) u.cycles := by
  rw [State.accesses_bankAnswer] at hb
  obtain ⟨a, ha, rfl⟩ := List.mem_map.mp hb
  by_cases hi : a.id = i
  · exact ⟨a, ha, hi, if_pos hi⟩
  · rw [if_neg hi] at hid
    exact absurd hid hi
/-- A load's access gets the bytes; one that consumes empties its granules first. -/
theorem State.feDo_load {w : FeWait} (h : w.kind ≠ .store) (s : State) (tk : Nat) : s.feDo tk w =
    (if w.kind = .consume then s.modTile tk fun t => t.setFull (granulesOf w.off 64) false else s).bankAnswer tk w.src w.id
      w.tag.ctx.toNat false fun a => { a with
        data := ⟨BitVec.ofNat 512 (bytesNat (Memory.readBytes (s.tile tk).scratch w.off 64)), Lanes.full⟩
        memPoison := ((s.tile tk).spRead w.off 64).2 } := by
  rcases hk : w.kind with _ | _ | _
  case store => exact absurd hk h
  all_goals simp only [State.feDo, hk]; rfl
theorem State.tile_emptied (s : State) (tk : Nat) (w : FeWait) :
    (if w.kind = .consume then s.modTile tk fun t => t.setFull (granulesOf w.off 64) false else s).tile tk =
      if w.kind = .consume then (s.tile tk).setFull (granulesOf w.off 64) false else s.tile tk := by
  split
  · exact State.tile_modTile_self ..
  · rfl

/-! One that does not -/

theorem State.tile_feParked_keeps {α : Type} (π : Tile → α) (h : ∀ t x, π { t with accesses := x } = π t) (s : State) (w : FeWait) (k : Nat) :
    π ((s.feParked w).tile k) = π (s.tile k) :=
  State.tile_modTile_keeps π s w.src (fun t => h t _) k
theorem State.phase_feParked {s : State} {w : FeWait} {b : Access} (hb : b ∈ ((s.feParked w).tile w.src).accesses) (h : b.id = w.id) :
    b.phase = .parked := by
  rw [State.feParked, State.tile_modTile_self] at hb
  obtain ⟨a, -, rfl⟩ := List.mem_map.mp hb
  by_cases hid : a.id = w.id
  · rw [if_pos hid]
  · rw [if_neg hid] at h
    exact absurd h hid
theorem State.feArrive_ready {s : State} {tk : Nat} {w : FeWait} (h : (s.tile tk).feReady w.off w.kind = true) :
    s.feArrive tk w = (s.feDo tk w).feServe tk (w.off / 64) 17 := by
  simp only [State.feArrive, h, if_true]
theorem State.feArrive_parks {s : State} {tk : Nat} {w : FeWait} (h : (s.tile tk).feReady w.off w.kind = false)
    (hroom : (s.tile tk).parked.length < 16) :
    s.feArrive tk w = (s.modTile tk fun t => { t with parked := t.parked ++ [{ w with age := 0 }] }).feParked w := by
  simp only [State.feArrive, h, Bool.false_eq_true, if_false, if_pos hroom]
theorem State.feArrive_refuses {s : State} {tk : Nat} {w : FeWait} (h : (s.tile tk).feReady w.off w.kind = false)
    (hfull : 16 ≤ (s.tile tk).parked.length) : s.feArrive tk w =
      (s.modTile tk fun t => { t with refused := t.refused ++ [{ w with resendAt := s.cycles + 16 }] }).feParked w := by
  simp only [State.feArrive, h, Bool.false_eq_true, if_false, if_neg (Nat.not_lt.mpr hfull)]

/-- Either way the access waits and no byte changes. -/
theorem State.feArrive_waits {s : State} {tk : Nat} {w : FeWait} (h : (s.tile tk).feReady w.off w.kind = false) :
    ∃ u : State, s.feArrive tk w = u.feParked w ∧ ∀ k, (u.tile k).scratch = (s.tile k).scratch := by
  rcases Nat.lt_or_ge (s.tile tk).parked.length 16 with hroom | hfull
  · exact ⟨_, State.feArrive_parks h hroom, State.tile_modTile_keeps Tile.scratch s tk (by intro; rfl)⟩
  · exact ⟨_, State.feArrive_refuses h hfull, State.tile_modTile_keeps Tile.scratch s tk (by intro; rfl)⟩

end Sys2Proof.Machine

namespace Sys2Proof
open Machine

theorem fullEmptyAccesses : Claims.FullEmptyAccesses := by
  intro s tk w
  refine ⟨fun hready => ⟨State.feArrive_ready hready, ?store, ?load⟩, fun hready => ⟨?parks, ?refuses, ?scratch, ?phase⟩⟩
  case store =>
    intro hstore
    rw [State.feDo_store hstore]
    refine ⟨?_, fun g hg => ?_⟩
    · rw [State.tile_bankAnswer_keeps _ _ _ _ _ _ _ Tile.scratch (fun _ _ => rfl), State.tile_modTile_self]
      rfl
    · rw [State.tile_bankAnswer_keeps _ _ _ _ _ _ _ Tile.full (fun _ _ => rfl), State.tile_modTile_self]
      exact Tile.mem_full_setFull hg
  case load =>
    intro hload
    rw [State.feDo_load hload]
    refine ⟨?_, ?_, fun b hb hid => ?_⟩
    · rw [State.tile_bankAnswer_keeps _ _ _ _ _ _ _ Tile.scratch (fun _ _ => rfl), State.tile_emptied]
      split <;> rfl
    · rw [State.tile_bankAnswer_keeps _ _ _ _ _ _ _ Tile.full (fun _ _ => rfl), State.tile_emptied]
      split <;> rfl
    · obtain ⟨a, ha, haid, rfl⟩ := State.mem_bankAnswer hb hid
      refine ⟨Access.banked_data .., fun hown => ?_, fun hremote => ⟨?_, ?_⟩⟩
      · simp [hown, Access.banked]
      · simp [hremote, Access.banked]
      · rw [← haid]
        exact State.flits_bankAnswer _ _ _ _ _ _ (Ne.symm hremote) ha
  case parks =>
    intro hroom
    rw [State.feArrive_parks hready hroom, State.tile_feParked_keeps Tile.parked (fun _ _ => rfl), State.tile_modTile_self]
  case refuses =>
    intro hfull
    rw [State.feArrive_refuses hready hfull]
    constructor
    · rw [State.tile_feParked_keeps Tile.refused (fun _ _ => rfl), State.tile_modTile_self]
    · rw [State.tile_feParked_keeps Tile.parked (fun _ _ => rfl), State.tile_modTile_self]
  case scratch =>
    obtain ⟨u, hu, hscratch⟩ := State.feArrive_waits hready
    intro k
    rw [hu, State.tile_feParked_keeps Tile.scratch (fun _ _ => rfl), hscratch]
  case phase =>
    obtain ⟨u, hu, -⟩ := State.feArrive_waits hready
    rw [hu]
    exact fun b hb hid => State.phase_feParked hb hid

/-- Settles O38: a bank answers its access or leaves it faulted, by the operator; a full/empty one is done or waits, by its granules. -/
theorem scratchpadAccesses : Obligations.ScratchpadAccesses := ⟨bankAccesses, fullEmptyAccesses⟩

end Sys2Proof
end

section
/-!
PROOFS. The window of cards (09_block_transfer.md R178, R179, R187): what changing a card leaves in it, which accesses leave it alone, and how
a turn of a card ends.
-/
namespace Sys2Proof.Machine

/-! One card of the window -/

/-- In the window of a cluster `d` is the one card of its number. -/
structure State.OnlyCard (s : State) (ck id : Nat) (d : Card) : Prop where
  mem : d ∈ (s.cluster ck).cards
  id_eq : d.id = id
  unique : ∀ e ∈ (s.cluster ck).cards, e.id = id → e = d

theorem State.cards_modCard (s : State) (ck id : Nat) (g : Card → Card) :
    ((s.modCard ck id g).cluster ck).cards = (s.cluster ck).cards.map fun c => if c.id = id then g c else c := by
  rw [State.modCard, State.cluster_modCluster_self]

theorem State.modCluster_congr {s : State} {ck : Nat} {g h : Cluster → Cluster} (e : g (s.cluster ck) = h (s.cluster ck)) :
    s.modCluster ck g = s.modCluster ck h := by
  unfold State.modCluster
  rw [e]

section
variable {s : State} {ck id : Nat} {d : Card} {g : Card → Card}

theorem State.OnlyCard.modCard (h : s.OnlyCard ck id d) (hg : ∀ x, (g x).id = x.id) : (s.modCard ck id g).OnlyCard ck id (g d) where
  mem := by
    rw [State.cards_modCard]
    exact List.mem_map.mpr ⟨d, h.mem, if_pos h.id_eq⟩
  id_eq := (hg d).trans h.id_eq
  unique e he hid := by
    rw [State.cards_modCard] at he
    obtain ⟨x, hx, rfl⟩ := List.mem_map.mp he
    by_cases hxid : x.id = id
    · rw [if_pos hxid, h.unique x hx hxid]
    · rw [if_neg hxid] at hid
      exact absurd hid hxid
theorem State.OnlyCard.find (h : s.OnlyCard ck id d) : ((s.cluster ck).cards.find? fun c => c.id = id) = some d := by
  cases hf : (s.cluster ck).cards.find? fun c => c.id = id with
  | none => exact absurd h.id_eq (by simpa using List.find?_eq_none.mp hf d h.mem)
  | some e => rw [h.unique e (List.mem_of_find?_eq_some hf) (by simpa using List.find?_some hf)]
/-- Changes of the one card that agree on it are the same. -/
theorem State.OnlyCard.modCard_congr {k : Card → Card} (h : s.OnlyCard ck id d) (hgk : g d = k d) : s.modCard ck id g = s.modCard ck id k := by
  refine State.modCluster_congr ?_
  have hmap : (s.cluster ck).cards.map (fun c => if c.id = id then g c else c) =
      (s.cluster ck).cards.map fun c => if c.id = id then k c else c := by
    refine List.map_congr_left fun c hc => ?_
    by_cases hid : c.id = id
    · rw [if_pos hid, if_pos hid, h.unique c hc hid, hgk]
    · rw [if_neg hid, if_neg hid]
  rw [hmap]

end

theorem State.modCluster_modCluster (s : State) (ck : Nat) (g h : Cluster → Cluster) :
    (s.modCluster ck g).modCluster ck h = s.modCluster ck fun k => h (g k) := by
  show { s with clusters := Map.put (Map.put s.clusters ck (g (s.cluster ck))) ck (h ((s.modCluster ck g).cluster ck)) } = _
  rw [State.cluster_modCluster_self, Map.put_put]
  rfl
theorem State.modCard_modCard (s : State) (ck id : Nat) {g : Card → Card} (h : Card → Card) (hg : ∀ x, (g x).id = x.id) :
    (s.modCard ck id g).modCard ck id h = s.modCard ck id fun x => h (g x) := by
  unfold State.modCard
  rw [State.modCluster_modCluster]
  congr 1
  funext k
  rw [List.map_map]
  congr 2
  funext c
  by_cases hc : c.id = id <;> simp [hc, hg]

/-! Accesses that leave the windows alone -/

/-- The windows hold the same cards. -/
structure KeepsCards (s t : State) : Prop where
  cards : ∀ k, (t.cluster k).cards = (s.cluster k).cards

theorem State.OnlyCard.keeps {s t : State} {ck id : Nat} {d : Card} (h : s.OnlyCard ck id d) (hk : KeepsCards s t) : t.OnlyCard ck id d :=
  ⟨(hk.cards ck).symm ▸ h.mem, h.id_eq, fun e he => h.unique e (hk.cards ck ▸ he)⟩

/-- A translation of the engine as an access: it gives a leaf, or the access waits for the page or faults. -/
def State.translated (s : State) (ck : Nat) (c : Colour) (va : Nat) (rd wr : Bool) : Mem Xlat :=
  match s.xlateEngine ck c va rd wr with
  | (t, .error k) => if k = codeNotMapped then .page t va else .fault t k va
  | (t, .ok x) => .done t x
theorem State.engineReadLine_eq (s : State) (ck : Nat) (c : Colour) (va n : Nat) : s.engineReadLine ck c va n =
    (s.translated ck c va true false).bind fun t x => t.readAt (engineStop ck x.sk) c va n x := by
  unfold State.engineReadLine State.translated
  rcases s.xlateEngine ck c va true false with ⟨t, k | x⟩
  · by_cases hk : k = codeNotMapped <;> simp [hk, Mem.bind]
  · rfl
theorem State.engineWriteLine_eq (s : State) (ck : Nat) (c : Colour) (va : Nat) (bs : List Byte) (p : Bool) :
    s.engineWriteLine ck c va bs p = (s.translated ck c va false true).bind fun t x =>
      if x.device then .fault t codePerm va
      else if t.lineBusy ck x.sk x.pa then .busy
      else
        let r := t.lineWrite x.sk x.pa x.key (t.colour c).world (pairsAt (x.pa % 256) bs) p 0
        .done (r.1.countAccess ck x.sk (unitSpan (x.pa % 256) bs.length) 0 c (r.1.colour c).world) () := by
  unfold State.engineWriteLine State.translated
  rcases s.xlateEngine ck c va false true with ⟨t, k | x⟩
  · by_cases hk : k = codeNotMapped <;> simp [hk, Mem.bind]
  · rfl
/-- A card reads the bytes of a line in memory as the engine does, below the window (R176, R177). -/
theorem State.cardReadLine_memory (s : State) (ck : Nat) (c : Colour) (a n : Nat) : s.cardReadLine ck c false a n =
    if windowBase < a + n then .fault s codeVaRange (max a windowBase)
    else (s.translated ck c a true false).bind fun t x => t.readPairs (engineStop ck x.sk) c a n x := by
  unfold State.cardReadLine State.translated
  split
  · rcases s.xlateEngine ck c a true false with ⟨t, k | x⟩
    · by_cases hk : k = codeNotMapped <;> simp [hk, Mem.bind]
    · rfl
  · contradiction
/-- Reading bytes line by line: the first line, then the rest. -/
theorem State.engineRead_succ (s : State) (ck : Nat) (c : Colour) (va n fuel : Nat) : s.engineRead ck c va n (fuel + 1) =
    if n = 0 then .done s ([], false)
    else (s.engineReadLine ck c va (min n (256 - va % 256))).bind fun t v =>
      (t.engineRead ck c (va + min n (256 - va % 256)) (n - min n (256 - va % 256)) fuel).map fun w => (v.1 ++ w.1, v.2 || w.2) := by
  rw [State.engineRead]
  split
  · rfl
  · cases s.engineReadLine ck c va (min n (256 - va % 256)) with
    | done t v =>
      simp only [Mem.bind, Mem.map]
      cases t.engineRead ck c (va + min n (256 - va % 256)) (n - min n (256 - va % 256)) fuel <;> rfl
    | fault | page | busy => rfl
/-- Writing bytes line by line. -/
theorem State.engineWrite_succ (s : State) (ck : Nat) (c : Colour) (va : Nat) (bs : List Byte) (p : Bool) (fuel : Nat) :
    s.engineWrite ck c va bs p (fuel + 1) = if bs.length = 0 then .done s ()
      else (s.engineWriteLine ck c va (bs.take (min bs.length (256 - va % 256))) p).bind fun t _ =>
        t.engineWrite ck c (va + min bs.length (256 - va % 256)) (bs.drop (min bs.length (256 - va % 256))) p fuel := by
  rw [State.engineWrite]
  split
  · rfl
  · cases s.engineWriteLine ck c va (bs.take (min bs.length (256 - va % 256))) p <;> rfl

namespace KeepsCards

theorem refl (s : State) : KeepsCards s s := ⟨fun _ => rfl⟩
theorem trans {s t u : State} (a : KeepsCards s t) (b : KeepsCards t u) : KeepsCards s u := ⟨fun k => (b.cards k).trans (a.cards k)⟩
theorem ofXlate {s t : State} (h : OnlyXlate s t) : KeepsCards s t := ⟨fun k => by rw [h.clusters k]⟩
theorem ofHome {s t : State} (h : OnlyHome s t) : KeepsCards s t := .ofXlate (.ofHome h)
theorem modTile (s : State) (tk : Nat) (g : Tile → Tile) : KeepsCards s (s.modTile tk g) := ⟨fun _ => rfl⟩
theorem countFrom (s : State) (p : NetGoal) (sk a b : Nat) (c : Colour) (w : World) : KeepsCards s (s.countFrom p sk a b c w) :=
  ⟨fun k => by rw [State.countFrom_frame]; rfl⟩
theorem askPager (s : State) (t : FaultToken) : KeepsCards s (s.askPager t) :=
  ⟨fun k => by unfold State.askPager; split <;> rfl⟩
theorem poisonDue (s : State) (die : Nat) (c : Colour) (code va : Nat) : KeepsCards s (s.poisonDue die c code va) := by
  unfold State.poisonDue
  split
  · exact askPager ..
  · exact refl s

/-! What an access has done, however it ended -/

theorem bind {α β : Type} {s : State} {m : Mem α} {f : State → α → Mem β} (hm : KeepsCards s (m.stateOr s))
    (hf : ∀ t v, KeepsCards t ((f t v).stateOr t)) : KeepsCards s ((m.bind f).stateOr s) := by
  cases m with
  | done t v =>
    have hft := hf t v
    show KeepsCards s ((f t v).stateOr s)
    cases hr : f t v with
    | busy => exact refl s
    | done | fault | page => rw [hr] at hft; exact hm.trans hft
  | fault | page | busy => exact hm
theorem map {α β : Type} {s : State} {m : Mem α} (f : α → β) (hm : KeepsCards s (m.stateOr s)) : KeepsCards s ((m.map f).stateOr s) :=
  bind hm fun _ _ => refl _
theorem readPairs (s : State) (p : NetGoal) (c : Colour) (va n : Nat) (x : Xlat) : KeepsCards s ((s.readPairs p c va n x).stateOr s) := by
  unfold State.readPairs
  split
  · exact refl s
  · split
    · exact refl s
    · exact (ofHome (OnlyHome.plainRead ..)).trans (countFrom ..)
theorem translated (s : State) (ck : Nat) (c : Colour) (va : Nat) (rd wr : Bool) :
    KeepsCards s ((s.translated ck c va rd wr).stateOr s) := by
  have hx := ofXlate (OnlyXlate.xlateEngine s ck c va rd wr)
  unfold State.translated
  split
  next h =>
    rw [h] at hx
    split <;> exact hx
  next h =>
    rw [h] at hx
    exact hx
theorem engineReadLine (s : State) (ck : Nat) (c : Colour) (va n : Nat) : KeepsCards s ((s.engineReadLine ck c va n).stateOr s) := by
  rw [State.engineReadLine_eq]
  exact bind (translated ..) fun t x => map _ (readPairs ..)
theorem engineWriteLine (s : State) (ck : Nat) (c : Colour) (va : Nat) (bs : List Byte) (p : Bool) :
    KeepsCards s ((s.engineWriteLine ck c va bs p).stateOr s) := by
  rw [State.engineWriteLine_eq]
  refine bind (translated ..) fun t x => ?_
  split
  · exact refl t
  · split
    · exact refl t
    · exact (ofHome (OnlyHome.lineWrite ..)).trans (countFrom ..)
theorem engineRead (s : State) (ck : Nat) (c : Colour) (va n fuel : Nat) : KeepsCards s ((s.engineRead ck c va n fuel).stateOr s) := by
  induction fuel generalizing s va n with
  | zero => exact refl s
  | succ fuel ih =>
    rw [State.engineRead_succ]
    split
    · exact refl s
    · exact bind (engineReadLine ..) fun t v => map _ (ih t _ _)
theorem engineWrite (s : State) (ck : Nat) (c : Colour) (va : Nat) (bs : List Byte) (p : Bool) (fuel : Nat) :
    KeepsCards s ((s.engineWrite ck c va bs p fuel).stateOr s) := by
  induction fuel generalizing s va bs with
  | zero => exact refl s
  | succ fuel ih =>
    rw [State.engineWrite_succ]
    split
    · exact refl s
    · exact bind (engineWriteLine ..) fun t _ => ih t _ _

/-! The banks of a cluster -/

/-- A change of clusters that leaves every window alone. -/
theorem modCluster (s : State) (ck : Nat) {g : Cluster → Cluster} (h : ∀ k, (g k).cards = k.cards) : KeepsCards s (s.modCluster ck g) :=
  ⟨State.cluster_modCluster_keeps (·.cards) s ck h⟩
theorem acknowledge (s : State) (a : Option (Nat × Nat)) : KeepsCards s (s.acknowledge a) := by
  cases a with
  | none => exact refl s
  | some a => exact ⟨State.cluster_modLaunch_keeps (·.cards) (fun _ _ => rfl) s a.1 a.2 _⟩
theorem bankAnswer (s : State) (tk src id ctx : Nat) (ack : Bool) (g : Access → Access) :
    KeepsCards s (s.bankAnswer tk src id ctx ack g) := by
  unfold State.bankAnswer
  split
  · exact (modTile s src _).trans (modCluster _ _ fun _ => rfl)
  · exact (modTile s src _).trans (acknowledge ..)
theorem feDo (s : State) (tk : Nat) (w : FeWait) : KeepsCards s (s.feDo tk w) := by
  by_cases hstore : w.kind = .store
  · rw [State.feDo_store hstore]
    exact (modTile s tk _).trans (bankAnswer ..)
  · rw [State.feDo_load hstore]
    refine .trans ?_ (bankAnswer ..)
    split
    · exact modTile s tk _
    · exact refl s
theorem feServe (s : State) (tk block fuel : Nat) : KeepsCards s (s.feServe tk block fuel) := by
  induction fuel generalizing s with
  | zero => exact refl s
  | succ fuel ih =>
    rw [State.feServe]
    split
    · exact refl s
    · split
      · exact ((modTile s tk _).trans (feDo ..)).trans (ih _)
      · exact refl s
theorem spFill (s : State) (tk off : Nat) (bs : List Byte) (p : Bool) : KeepsCards s (s.spFill tk off bs p) :=
  (modTile s tk _).trans (foldl_rel refl (fun _ _ _ => trans) _ (fun t b => feServe t tk b 17) _ _)

/-! A card's accesses (R176, R177) -/

theorem cardRead (s : State) (ck : Nat) (c : Colour) (win : Bool) (a n fuel : Nat) :
    KeepsCards s ((s.cardRead ck c win a n fuel).stateOr s) := by
  induction fuel generalizing s a n with
  | zero => exact refl s
  | succ fuel ih =>
    simp only [State.cardRead]
    split
    · split
      · exact refl s
      · exact engineRead ..
    · split
      · exact refl s
      · split
        · exact refl s
        · split
          · exact refl s
          · exact bind (ih s _ _) fun _ _ => refl _
theorem cardReadLine (s : State) (ck : Nat) (c : Colour) (win : Bool) (a n : Nat) :
    KeepsCards s ((s.cardReadLine ck c win a n).stateOr s) := by
  cases win with
  | false =>
    rw [State.cardReadLine_memory]
    split
    · exact refl s
    · exact bind (translated ..) fun t x => readPairs ..
  | true =>
    rw [State.cardReadLine, if_neg (by simp)]
    split
    · exact refl s
    · split <;> exact refl s
theorem cardReadTwo (s : State) (ck : Nat) (c : Card) (win : Bool) (a n : Nat) :
    KeepsCards s ((s.cardReadTwo ck c win a n).stateOr s) := by
  refine bind (cardReadLine ..) fun t ps => ?_
  split
  · exact refl t
  · exact map _ (cardReadLine ..)
theorem cardWrite (s : State) (ck : Nat) (c : Colour) (win : Bool) (a : Nat) (bs : List Byte) (p : Bool) :
    KeepsCards s ((s.cardWrite ck c win a bs p).stateOr s) := by
  unfold State.cardWrite
  split
  · split
    · exact refl s
    · exact engineWrite ..
  · split
    · exact refl s
    · split
      · exact refl s
      · exact spFill ..

/-! Where an access ended -/

theorem of_done {α : Type} {s t : State} {m : Mem α} {v : α} (hm : KeepsCards s (m.stateOr s)) (h : m = .done t v) : KeepsCards s t := by
  rwa [h] at hm
theorem of_fault {α : Type} {s t : State} {m : Mem α} {k va : Nat} (hm : KeepsCards s (m.stateOr s)) (h : m = .fault t k va) :
    KeepsCards s t := by
  rwa [h] at hm

/-! A part of a card's work that faults -/

section
variable {s v : State} {ck dst n k va : Nat} {c : Card}

theorem cardPut_stop {ps : List (Byte × Bool)} {rest : List CardWork} (h : s.cardPut ck c ps dst rest = .stop v k va) : KeepsCards s v := by
  simp only [State.cardPut] at h
  split at h
  next => cases h
  next => cases h
  next hw => cases h; exact (cardWrite ..).of_fault hw
  next => cases h
theorem cardMove_stop {src : Option (Nat × Bool)} {given : List (Byte × Bool)} (h : s.cardMove ck c src given dst n = .stop v k va) :
    KeepsCards s v := by
  cases src with
  | none =>
    simp only [State.cardMove] at h
    split at h <;> exact cardPut_stop h
  | some a =>
    simp only [State.cardMove] at h
    split at h
    next => cases h
    next => cases h
    next hr => cases h; exact (cardReadTwo ..).of_fault hr
    next hr => exact ((cardReadTwo ..).of_done hr).trans (cardPut_stop h)
theorem cardRows_stop {j : Nat} (h : s.cardRows ck c j n = .stop v k va) : KeepsCards s v := by
  simp only [State.cardRows] at h
  split at h
  next => cases h
  next => cases h
  next hr => cases h; exact (cardRead ..).of_fault hr
  next => cases h
theorem cardChunk_stop {off : Nat} (h : s.cardChunk ck c off n = .stop v k va) : KeepsCards s v := by
  simp only [State.cardChunk] at h
  split at h
  next => cases h
  next => cases h
  next hr => cases h; exact (cardReadTwo ..).of_fault hr
  next => cases h
theorem cardWorks_stop {w : CardWork} (h : s.cardWorks ck c w = .stop v k va) : KeepsCards s v := by
  cases w with
  | move => exact cardMove_stop h
  | rows => exact cardRows_stop h
  | chunk => exact cardChunk_stop h
  | entries => cases h

end

end KeepsCards

/-! A turn of a card and its end (R179, R187) -/

/-- A card that has taken its channel in a cycle. -/
def Card.turned (c : Card) (now : Nat) : Card :=
  { c with movedAt := now + 1, state := match c.state with | .waiting => .running | y => y }
theorem State.cardTurn_eq (s : State) (ck : Nat) (c : Card) : s.cardTurn ck c = s.modCard ck c.id fun x => x.turned s.cycles := rfl
theorem execCardIssue_eq {s : State} {ck : Nat} {c : Card} (h : (s.cluster ck).nextCard s.cycles = some c) :
    exec (.cardIssue ck) s = .next (((s.cardTurn ck c).cardRuns ck c).cardFinishes ck c.id) := by
  simp only [exec, execCardIssue, h]
/-- The card that goes next has taken its channel. -/
theorem State.OnlyCard.of_nextCard {s : State} {ck : Nat} {c : Card} (h : (s.cluster ck).nextCard s.cycles = some c)
    (hone : ∀ d ∈ (s.cluster ck).cards, d.id = c.id → d = c) : (s.cardTurn ck c).OnlyCard ck c.id (c.turned s.cycles) :=
  State.OnlyCard.modCard ⟨List.mem_of_find?_eq_some h, rfl, hone⟩ (g := fun x => x.turned s.cycles) fun _ => rfl

/-- Whether a card has done all its work, and none of it waits for a page. -/
def Card.through (c : Card) : Bool := c.begun && c.state = .running && c.work = []
section
variable {s : State} {ck id : Nat} {d : Card}

theorem State.cardFinishes_through (h : s.OnlyCard ck id d) (hd : d.through = true) :
    s.cardFinishes ck id = s.cardEnd ck d (if d.failed = [] then 0 else 0x04) (d.firstFailed.getD 0) := by
  simp only [State.cardFinishes, h.find]
  exact if_pos hd
theorem State.cardFinishes_goesOn (h : s.OnlyCard ck id d) (hd : d.through = false) : s.cardFinishes ck id = s := by
  simp only [State.cardFinishes, h.find]
  exact if_neg (by simpa [Card.through] using hd)

theorem Card.through_of_work (h : d.work ≠ []) : d.through = false := by simp [Card.through, h]
theorem Card.through_of_state (h : d.state ≠ .running) : d.through = false := by simp [Card.through, h]

/-- A card that has work left once it is changed goes on. -/
theorem State.cardFinishes_modCard {g : Card → Card} (h : s.OnlyCard ck id d) (hg : ∀ x, (g x).id = x.id) (hd : (g d).through = false) :
    (s.modCard ck id g).cardFinishes ck id = s.modCard ck id g :=
  State.cardFinishes_goesOn (h.modCard hg) hd
end

theorem State.cardEnd_eq (s : State) (ck : Nat) (c : Card) (st fault : Nat) :
    s.cardEnd ck c st fault = s.modCard ck c.id fun x => x.over st fault := rfl
@[simp] theorem worse_zero (a : Nat) : worse a 0 = a := by
  unfold worse
  split
  · omega
  · rfl

end Sys2Proof.Machine
end

section
/-!
PROOFS. How cards begin and complete (09_block_transfer.md R180 to R187).
-/
namespace Sys2Proof.Machine

/-! The turn of a card that has not begun -/

section
variable {s u : State} {ck : Nat} {c d : Card}

/-- The beginning of a card's work is the whole turn where work is left. -/
theorem execCardIssue_begins {g : Card → Card} (hnext : (s.cluster ck).nextCard s.cycles = some c) (hfab : c.fab = false)
    (hbegun : c.begun = false) (hbegin : (s.cardTurn ck c).beginCard ck c = u.modCard ck c.id g) (hcard : u.OnlyCard ck c.id d)
    (hg : ∀ x, (g x).id = x.id) (hd : (g d).through = false) : exec (.cardIssue ck) s = .next (u.modCard ck c.id g) := by
  have hruns : (s.cardTurn ck c).cardRuns ck c = u.modCard ck c.id g := by simp [State.cardRuns, hfab, hbegun, hbegin]
  rw [execCardIssue_eq hnext, hruns, State.cardFinishes_modCard hcard hg hd]
theorem State.beginCard_copy (h : c.op = 0x01) : s.beginCard ck c =
    s.modCard ck c.id fun x => x.starts [.move (some (c.rd0.base, c.rd0.window)) [] c.wr.base c.count] := by
  simp only [State.beginCard, h]
theorem State.beginCard_fill (h : c.op = 0x05) : s.beginCard ck c = s.modCard ck c.id fun x => x.starts [.move none [] c.wr.base c.count] := by
  simp only [State.beginCard, h]
theorem State.beginCard_rows (h : c.op = 0x03 ∨ c.op = 0x04) : s.beginCard ck c = s.modCard ck c.id fun x => x.starts [.rows 0 c.rows] := by
  rcases h with h | h <;> simp only [State.beginCard, h]
theorem State.beginCard_nop (h : c.op = 0x07) : s.beginCard ck c = s.modCard ck c.id fun x => x.starts [] := by
  simp only [State.beginCard, h]
/-- The receivers that the mask of an `mcast` names (R181). -/
theorem State.beginCard_mcast {v : State} {bs : List Byte} (h : c.op = 0x02)
    (hread : s.cardRead ck c.colour false c.maskp 24 3 = .done v (bs, false)) (hmask : ∃ i, i < 192 ∧ bits (bytesNat bs) i i = 1) :
    s.beginCard ck c = v.modCard ck c.id fun x =>
      { x with begun := true, work := [.chunk 0 c.count], dests := (List.range 192).filter fun i => bits (bytesNat bs) i i = 1 } := by
  obtain ⟨i, hi, hbit⟩ := hmask
  have hne : ((List.range 192).filter fun i => bits (bytesNat bs) i i = 1) ≠ [] :=
    List.ne_nil_of_mem (List.mem_filter.mpr ⟨List.mem_range.mpr hi, by simpa using hbit⟩)
  simp only [State.beginCard, h, State.beginMcast, hread, State.cardThen, if_neg hne]
  rfl

end

/-! A gather through the fabric (R183) -/

/-- The binding that holds a port of a gather. -/
def State.gatherPort (s : State) (ck : Nat) (c : Card) (port : Nat) (exit : Bool) : Option Binding :=
  (s.cluster ck).bindings.find? fun b => b.phys = 32 + port && b.isExit = exit && b.colour = c.colour && s.worldOfCtx ck b.ctx = some c.world

section
variable {s : State} {ck : Nat} {c d : Card}

theorem State.gatherPort_cardTurn (port : Nat) (exit : Bool) : (s.cardTurn ck c).gatherPort ck c port exit = s.gatherPort ck c port exit := by
  have hb : ((s.cardTurn ck c).cluster ck).bindings = (s.cluster ck).bindings :=
    State.cluster_modCluster_keeps (·.bindings) s ck (by intro k; rfl) ck
  have hl : ((s.cardTurn ck c).cluster ck).launches = (s.cluster ck).launches :=
    State.cluster_modCluster_keeps (·.launches) s ck (by intro k; rfl) ck
  have hw : ∀ x, (s.cardTurn ck c).worldOfCtx ck x = s.worldOfCtx ck x := fun x => by simp only [State.worldOfCtx, State.launch?, hl]
  simp only [State.gatherPort, hb, hw]
theorem State.gatherPort_eq_none {port : Nat} {exit : Bool} (h : ∀ b ∈ (s.cluster ck).bindings,
    ¬ (b.phys = 32 + port ∧ b.isExit = exit ∧ b.colour = c.colour ∧ s.worldOfCtx ck b.ctx = some c.world)) :
    s.gatherPort ck c port exit = none := by
  refine List.find?_eq_none.mpr fun b hb => ?_
  simpa [and_assoc] using h b hb
/-- Both ports are bound: the card is on the fabric. -/
theorem State.cardFabric_holds {a b : Binding} (h : s.OnlyCard ck c.id d) (ha : s.gatherPort ck c c.cport false = some a)
    (hb : s.gatherPort ck c c.rport true = some b) : (s.cardFabric ck c).OnlyCard ck c.id { d with state := .fabric 0 0 false } := by
  unfold State.gatherPort at ha hb
  simp only [State.cardFabric, ha, hb]
  exact (h.keeps (KeepsCards.modCluster s ck (by intro k; rfl))).modCard (g := fun x => { x with state := .fabric 0 0 false }) fun _ => rfl
/-- A port is unbound: the card has ended. -/
theorem State.cardFabric_unbound (h : s.OnlyCard ck c.id d)
    (hnone : s.gatherPort ck c c.cport false = none ∨ s.gatherPort ck c c.rport true = none) :
    (s.cardFabric ck c).OnlyCard ck c.id (d.over 0x09 0) := by
  have hend : s.cardFabric ck c = s.cardEnd ck c 0x09 0 := by
    unfold State.gatherPort at hnone
    rcases hnone with h | h
    · simp only [State.cardFabric, h]
    · simp only [State.cardFabric, h]
      split
      next hs => cases hs
      next => rfl
  rw [hend]
  exact h.modCard (g := fun x => x.over 0x09 0) fun _ => rfl
theorem execCardIssue_fabric (hnext : (s.cluster ck).nextCard s.cycles = some c) (hfab : c.fab = true)
    (hcard : ((s.cardTurn ck c).cardFabric ck c).OnlyCard ck c.id d) (hd : d.state ≠ .running) :
    exec (.cardIssue ck) s = .next ((s.cardTurn ck c).cardFabric ck c) := by
  have hruns : (s.cardTurn ck c).cardRuns ck c = (s.cardTurn ck c).cardFabric ck c := if_pos hfab
  rw [execCardIssue_eq hnext, hruns, State.cardFinishes_goesOn hcard (Card.through_of_state hd)]

end

/-! `nop` (R186) -/

/-- A `nop` is done with its beginning. -/
theorem execCardIssue_nop {s : State} {ck : Nat} {c : Card} (hnext : (s.cluster ck).nextCard s.cycles = some c)
    (hcard : (s.cardTurn ck c).OnlyCard ck c.id (c.turned s.cycles)) (hfab : c.fab = false) (hbegun : c.begun = false)
    (hop : c.op = 0x07) (hstate : c.state = .waiting) (hfailed : c.failed = []) :
    exec (.cardIssue ck) s = .next ((s.cardTurn ck c).modCard ck c.id fun x =>
      { x with begun := true, work := [], state := .done, fault := 0, bytes := c.progress }) := by
  have hruns : (s.cardTurn ck c).cardRuns ck c = (s.cardTurn ck c).modCard ck c.id fun x => x.starts [] := by
    simp [State.cardRuns, hfab, hbegun, State.beginCard_nop hop]
  have hstarted := hcard.modCard (g := fun x => x.starts []) fun _ => rfl
  have hthrough : ((c.turned s.cycles).starts []).through = true := by simp [Card.through, Card.starts, Card.turned, hstate]
  have hend : (((c.turned s.cycles).starts []).over 0 0) =
      { c.turned s.cycles with begun := true, work := [], state := .done, fault := 0, bytes := c.progress } := by
    simp only [Card.over, worse_zero]
    rfl
  rw [execCardIssue_eq hnext, hruns, State.cardFinishes_through hstarted hthrough, State.cardEnd_eq]
  rw [if_pos (show ((c.turned s.cycles).starts []).failed = [] from hfailed),
    show ((c.turned s.cycles).starts []).firstFailed = none by simp [Card.firstFailed, Card.starts, Card.turned, hfailed],
    show ((c.turned s.cycles).starts []).id = c.id from rfl, State.modCard_modCard _ _ _ _ (by intro x; rfl)]
  exact congrArg _ (hcard.modCard_congr hend)

/-! The end of a card (R187) -/

theorem Card.progress_eq {c : Card} (h : c.op ≠ 0x06) :
    (c.written = [] → c.progress = 0) ∧ ∀ n r, c.written = (0, n) :: r → c.progress = n := by
  unfold Card.progress
  exact ⟨fun hw => by simp [h, hw], fun n r hw => by simp [h, hw]⟩
@[simp] theorem State.cluster_recordJoin (s : State) (r : EventRecord) (j : Option Join) (k : Nat) :
    (s.recordJoin r j).cluster k = s.cluster k := rfl

/-! A card that is done leaves the window, and its record or its JOIN word follows. -/

section
variable {s : State} {ck k : Nat} {c : Card} (hc : (s.cluster ck).cards[k]? = some c) (hdone : c.state = .done)
include hc hdone

theorem execCardComplete_record (hrv : c.rv = true) : exec (.cardComplete ck k) s =
    .next ((s.modCluster ck fun x => { x with cards := x.cards.eraseIdx k }).recordJoin
      (s.mkRecord ck c.recordRing c.world 0x01 c.status c.fault c.colour c.bytes (BitVec.ofNat 64 c.tag))
      (if c.jv then some ⟨ck, c.colour, c.join⟩ else none)) := by
  simp only [exec, execCardComplete, hc, hdone, bne_self_eq_false, Bool.false_eq_true, if_false, hrv, if_true]
  rfl
theorem execCardComplete_silent (hrv : c.rv = false) (hjv : c.jv = false) : exec (.cardComplete ck k) s =
    .next (s.modCluster ck fun x => { x with cards := x.cards.eraseIdx k }) := by
  simp only [exec, execCardComplete, hc, hdone, bne_self_eq_false, Bool.false_eq_true, if_false, hrv, hjv]
theorem execCardComplete_join (hrv : c.rv = false) (hjv : c.jv = true) : exec (.cardComplete ck k) s =
    .next ((s.modCluster ck fun x => { x with cards := x.cards.eraseIdx k }).joinWord ⟨ck, c.colour, c.join⟩) := by
  simp only [exec, execCardComplete, hc, hdone, bne_self_eq_false, Bool.false_eq_true, if_false, hrv, hjv, if_true]

end

end Sys2Proof.Machine

namespace Sys2Proof
open Machine

theorem cardsBegin : Claims.CardsBegin := by
  intro s u ck c hnext hone hu
  subst hu
  have hcard := State.OnlyCard.of_nextCard hnext hone
  refine ⟨fun hfab hbegun => ⟨fun hop => ?copy, fun hop => ?fill, fun hop => ?rows, fun hop v bs hread hmask => ?mcast,
    fun hop hstate hfailed => ?nop⟩, fun hfab => ⟨fun a b ha hb => ?holds, fun hnone => ?unbound⟩⟩
  case copy =>
    exact execCardIssue_begins hnext hfab hbegun (State.beginCard_copy hop) hcard (by intro x; rfl)
      (Card.through_of_work (List.cons_ne_nil _ _))
  case fill =>
    exact execCardIssue_begins hnext hfab hbegun (State.beginCard_fill hop) hcard (by intro x; rfl)
      (Card.through_of_work (List.cons_ne_nil _ _))
  case rows =>
    exact execCardIssue_begins hnext hfab hbegun (State.beginCard_rows hop) hcard (by intro x; rfl)
      (Card.through_of_work (List.cons_ne_nil _ _))
  case mcast =>
    exact execCardIssue_begins hnext hfab hbegun (State.beginCard_mcast hop hread hmask)
      (hcard.keeps ((KeepsCards.cardRead ..).of_done hread)) (by intro x; rfl) (Card.through_of_work (List.cons_ne_nil _ _))
  case nop => exact execCardIssue_nop hnext hcard hfab hbegun hop hstate hfailed
  case holds =>
    have h := State.cardFabric_holds hcard ((State.gatherPort_cardTurn ..).trans ha) ((State.gatherPort_cardTurn ..).trans hb)
    exact ⟨_, _, execCardIssue_fabric hnext hfab h (by simp), h.mem, h.id_eq, rfl⟩
  case unbound =>
    have h := State.cardFabric_unbound hcard (hnone.imp (fun h => (State.gatherPort_cardTurn ..).trans (State.gatherPort_eq_none h))
      fun h => (State.gatherPort_cardTurn ..).trans (State.gatherPort_eq_none h))
    exact ⟨_, _, execCardIssue_fabric hnext hfab h (by simp [Card.over]), h.mem, h.id_eq, rfl, rfl⟩

theorem cardsComplete : Claims.CardsComplete := by
  intro s ck k st fault c hc
  refine ⟨⟨c.over st fault, ?ended, rfl, fun hop => Card.progress_eq hop, rfl, rfl⟩, fun hdone hrv => ?record,
    fun hdone hrv hjv => ⟨_, execCardComplete_silent hc hdone hrv hjv, rfl⟩,
    fun hdone hrv hjv => ⟨_, execCardComplete_join hc hdone hrv hjv, rfl⟩⟩
  case ended => rw [State.cardEnd_eq, State.cards_modCard, List.getElem?_map, hc, Option.map_some, if_pos rfl]
  case record =>
    refine ⟨_, _, execCardComplete_record hc hdone hrv, ?_, rfl, rfl, rfl, rfl, rfl, rfl, rfl, rfl, rfl, rfl, rfl, rfl⟩
    rw [State.cluster_recordJoin, State.cluster_modCluster_self]

end Sys2Proof
end

section
/-!
PROOFS. How the parts of a card's work go on (09_block_transfer.md R177, R180 to R187; 25_reliability.md R410).
-/
namespace Sys2Proof.Machine

/-! A turn of a card that has begun -/

theorem execCardIssue_works {s : State} {ck i : Nat} {c : Card} {w : CardWork} (hnext : (s.cluster ck).nextCard s.cycles = some c)
    (hfab : c.fab = false) (hbegun : c.begun = true) (hwork : c.nextWork [] 0 c.work = some (i, w)) :
    exec (.cardIssue ck) s = .next (((s.cardTurn ck c).cardGoes ck c i w).cardFinishes ck c.id) := by
  have hruns : (s.cardTurn ck c).cardRuns ck c = (s.cardTurn ck c).cardGoes ck c i w := by simp [State.cardRuns, hfab, hbegun, hwork]
  rw [execCardIssue_eq hnext, hruns]

/-- A card whose part went on: what is left of it, the stretch that is written, and a line that was poisoned. -/
def Card.went (c : Card) (i : Nat) (st : Nat × Nat) (bad : Bool) (ws : List CardWork) : Card :=
  { c.leaves i ws with
    written := if st.2 = 0 then c.written else addStretch st c.written
    status := worse c.status (if bad then 0x06 else 0) }

section
variable {u v : State} {ck i k va : Nat} {c : Card} {w : CardWork} {st : Nat × Nat} {bad : Bool} {ws : List CardWork}

theorem State.cardGoes_went (h : u.cardWorks ck c w = .went v st bad ws) :
    u.cardGoes ck c i w = v.modCard ck c.id fun x => x.went i st bad ws := by
  simp only [State.cardGoes, h]
  rfl
theorem State.cardGoes_stop (h : u.cardWorks ck c w = .stop v k va) : u.cardGoes ck c i w = v.cardFault ck c k va := by
  simp only [State.cardGoes, h]
theorem State.cardGoes_waits (h : u.cardWorks ck c w = .waits v va ws) :
    u.cardGoes ck c i w = (v.modCard ck c.id fun x => x.leaves i ws).cardPage ck c va := by
  simp only [State.cardGoes, h]

end

/-- The part that can go on is one of the parts left, and the only one where one is left. -/
theorem Card.nextWork_singleton {c : Card} {i : Nat} {w x : CardWork} (h : c.nextWork [] 0 [x] = some (i, w)) : i = 0 ∧ w = x := by
  simp only [Card.nextWork] at h
  split at h
  · cases h
  · cases h; exact ⟨rfl, rfl⟩

/-- An index that is read writes nothing. -/
theorem Card.went_index (c : Card) (i : Nat) (ws : List CardWork) : c.went i (0, 0) false ws = c.leaves i ws := by
  simp only [Card.went, if_true, Bool.false_eq_true, if_false, worse_zero]
  rfl
/-- A card none of whose receivers failed keeps its status at its end, and its end where it is not through yet. -/
theorem State.cardFinishes_last {s : State} {ck id : Nat} {d : Card} (h : s.OnlyCard ck id d) (hfailed : d.failed = []) :
    ∃ e, (s.cardFinishes ck id).OnlyCard ck id e ∧ e.written = d.written ∧ e.status = d.status ∧
      (d.through = true → e.state = .done ∧ e.fault = 0 ∧ e.work = []) := by
  cases hd : d.through with
  | false => exact ⟨d, by rwa [State.cardFinishes_goesOn h hd], rfl, rfl, fun hthrough => by cases hthrough⟩
  | true =>
    refine ⟨d.over 0 0, ?_, rfl, worse_zero _, fun _ => ⟨rfl, rfl, rfl⟩⟩
    rw [State.cardFinishes_through h hd, State.cardEnd_eq, h.id_eq, if_pos hfailed, show d.firstFailed = none by simp [Card.firstFailed, hfailed]]
    exact h.modCard (g := fun x => x.over 0 0) fun _ => rfl

/-! What a turn leaves of the rest of the machine -/

theorem State.cardFinishes_frame (s : State) (ck id : Nat) : s.cardFinishes ck id = { s with clusters := (s.cardFinishes ck id).clusters } := by
  unfold State.cardFinishes
  split
  · split <;> rfl
  · rfl
theorem State.mem_faultTokens_raisePage (s : State) (die : Nat) (c : Colour) (va : Nat) :
    (⟨die, c, .page (va / 2 ^ 14)⟩ : FaultToken) ∈ (s.raisePage die c va).faultTokens := by
  unfold State.raisePage State.askPager
  split
  next h => simpa using h
  next => exact List.mem_append_right _ (List.mem_singleton_self _)

/-! The bytes of a card's source -/

theorem Memory.length_readBytes (m : Memory) (a n : Nat) : (Memory.readBytes m a n).length = n := by
  induction n generalizing a with
  | zero => rfl
  | succ n ih => simp [Memory.readBytes, ih]
/-- An access that goes on after another has ended the first one too. -/
theorem Mem.bind_eq_done {α β : Type} {m : Mem α} {f : State → α → Mem β} {t : State} {v : β} (h : m.bind f = .done t v) :
    ∃ u a, m = .done u a ∧ f u a = .done t v := by
  cases m with
  | done u a => exact ⟨u, a, rfl, h⟩
  | fault | page | busy => cases h
theorem Mem.map_eq_done {α β : Type} {m : Mem α} {f : α → β} {t : State} {v : β} (h : m.map f = .done t v) :
    ∃ a, m = .done t a ∧ f a = v := by
  obtain ⟨u, a, hm, hv⟩ := Mem.bind_eq_done h
  cases hv
  exact ⟨a, hm, rfl⟩
section
variable {s t : State} {ck a n : Nat} {ps : List (Byte × Bool)}

theorem State.length_readPairs {p : NetGoal} {c : Colour} {x : Xlat} (h : s.readPairs p c a n x = .done t ps) : ps.length = n := by
  unfold State.readPairs at h
  split at h
  · cases h
  · split at h
    · cases h
    · cases h; simp
theorem State.length_cardReadLine {c : Colour} {win : Bool} (h : s.cardReadLine ck c win a n = .done t ps) : ps.length = n := by
  cases win with
  | false =>
    rw [State.cardReadLine_memory] at h
    split at h
    · cases h
    · obtain ⟨u, x, -, hread⟩ := Mem.bind_eq_done h
      exact State.length_readPairs hread
  | true =>
    rw [State.cardReadLine, if_neg (by simp)] at h
    split at h
    · cases h
    · split at h
      · cases h
      · cases h; simp [Tile.spRead, Memory.length_readBytes]
theorem State.length_cardReadTwo {c : Card} {win : Bool} (h : s.cardReadTwo ck c win a n = .done t ps) : ps.length = n := by
  obtain ⟨u, qs, hfirst, hrest⟩ := Mem.bind_eq_done h
  have hlen := State.length_cardReadLine hfirst
  split at hrest
  next hn => cases hrest; omega
  next =>
    obtain ⟨rs, hsecond, rfl⟩ := Mem.map_eq_done hrest
    rw [List.length_append, hlen, State.length_cardReadLine hsecond]
    omega

end

/-! A chunk written to one line (R180, R184) -/

/-- Bytes with one poison keep it when each granule gets one. -/
theorem byGranule_uniform {ps : List (Byte × Bool)} {bad : Bool} (h : ∀ p ∈ ps, p.2 = bad) : byGranule ps = ps := by
  refine List.ext_getElem (by simp [byGranule]) fun i _ hi => ?_
  have hmem : ps[i] ∈ (ps.drop (i / 16 * 16)).take 16 := by
    refine List.mem_take_iff_getElem.mpr ⟨i - i / 16 * 16, by simp; omega, ?_⟩
    rw [List.getElem_drop]
    congr 1
    omega
  have hany : ((ps.drop (i / 16 * 16)).take 16).any (·.2) = bad := by
    cases bad with
    | true => exact List.any_eq_true.mpr ⟨_, hmem, h _ (List.getElem_mem hi)⟩
    | false => exact List.any_eq_false.mpr fun p hp => by simp [h p (List.mem_of_mem_drop (List.mem_of_mem_take hp))]
  have hpair : ps[i] = (ps[i].1, bad) := by rw [← h _ (List.getElem_mem hi)]
  simp only [byGranule, List.getElem_map, List.getElem_range, hany, List.getD_eq_getElem _ _ hi]
  exact hpair.symm
/-- Bytes that end in their line and have one poison are written whole. -/
theorem State.cardPut_whole {v v' : State} {ck dst : Nat} {c : Card} {ps : List (Byte × Bool)} {bad : Bool} (rest : List CardWork)
    (hps : ∀ p ∈ ps, p.2 = bad) (hne : ps ≠ []) (hlen : ps.length ≤ 256 - dst % 256)
    (hw : v.cardWrite ck c.colour c.wr.window dst (ps.map (·.1)) bad = .done v' ()) :
    v.cardPut ck c ps dst rest = .went v' (dst - c.wr.base, ps.length) bad rest := by
  have hgranules : (if c.wr.window then byGranule ps else ps) = ps := by
    split
    · exact byGranule_uniform hps
    · rfl
  have hhead : (ps.headD (0, false)).2 = bad := by
    cases ps with
    | nil => exact absurd rfl hne
    | cons p r => exact hps p (List.mem_cons_self ..)
  have hnow : ((ps.take (256 - dst % 256)).takeWhile fun p => p.2 = bad) = ps := by
    rw [List.take_of_length_le hlen, List.takeWhile_eq_self_iff]
    exact fun p hp => by simpa using hps p hp
  simp only [State.cardPut, hgranules, hhead, hnow, hw, List.drop_length, if_true, List.nil_append]
section
variable {u v v' : State} {ck dst n : Nat} {c : Card} {bad : Bool} (hn : n ≠ 0)
include hn

/-- A chunk of a move with a source: it is read and written up to the end of the line. -/
theorem State.cardMove_reads {a : Nat × Bool} {given ps : List (Byte × Bool)}
    (hread : u.cardReadTwo ck c a.2 a.1 (min n (256 - dst % 256)) = .done v ps) (hps : ∀ p ∈ ps, p.2 = bad)
    (hw : v.cardWrite ck c.colour c.wr.window dst (ps.map (·.1)) bad = .done v' ()) :
    ∃ rest, u.cardMove ck c (some a) given dst n = .went v' (dst - c.wr.base, min n (256 - dst % 256)) bad rest ∧
      (n = min n (256 - dst % 256) → rest = []) := by
  have hlen := State.length_cardReadTwo hread
  have hput := fun rest => State.cardPut_whole rest hps (List.ne_nil_of_length_pos (by omega)) (by omega) hw
  rw [hlen] at hput
  simp only [State.cardMove, hread, hput]
  exact ⟨_, rfl, fun h => if_pos h⟩
/-- A chunk of a move that names no source: zeros, or the pattern of `fill`. -/
theorem State.cardMove_forms
    (hw : u.cardWrite ck c.colour c.wr.window dst (((List.range (min n (256 - dst % 256))).map fun j => (c.plain (dst + j), false)).map (·.1))
      false = .done v' ()) :
    ∃ rest, u.cardMove ck c none [] dst n = .went v' (dst - c.wr.base, min n (256 - dst % 256)) false rest ∧
      (n = min n (256 - dst % 256) → rest = []) := by
  have hput := fun rest => State.cardPut_whole rest (by simp) (by simp; omega) (by simp) hw
  simp only [List.length_map, List.length_range] at hput
  simp only [State.cardMove, bne_self_eq_false, Bool.false_eq_true, if_false, hput]
  exact ⟨_, rfl, fun h => if_pos h⟩

end

/-! An index of a `gather` (R182) -/

theorem State.cardRows_gather {u v : State} {ck j n : Nat} {c : Card} {bs : List Byte}
    (hread : u.cardRead ck c.colour c.rd1.window (c.rd1.base + c.indexBytes * j) c.indexBytes 3 = .done v (bs, false))
    (hop : c.op = 0x03) (hin : (bytesNat bs + 1) * c.rowb ≤ c.rd0.len) :
    u.cardRows ck c j n = .went (v.modCard ck c.id fun x => { x with status := worse x.status (worse 0 0) }) (0, 0) false
      (.move (some (c.rd0.base + bytesNat bs * c.rowb, c.rd0.window)) [] (c.wr.base + j * c.rowb) c.rowb ::
        if n = 1 then [] else [.rows (j + 1) (n - 1)]) := by
  simp only [State.cardRows, hread, hop, if_true, if_false, gt_iff_lt, Nat.not_lt.mpr hin, decide_false, Bool.false_eq_true,
    List.singleton_append]

end Sys2Proof.Machine
end

section
/-!
PROOFS. What a chunk of an `mcast` leaves at its receivers (09_block_transfer.md R181; 08_tile_memory.md R160, R169).
-/
namespace Sys2Proof.Machine

/-! A scratchpad that other banks leave alone -/

/-- Neither the colours nor the scratchpad of a tile nor who may use it differ. -/
structure SameBank (tk : Nat) (s t : State) : Prop where
  colours : t.colours = s.colours
  spk : (t.tile tk).spk = (s.tile tk).spk
  tsWorld : (t.tile tk).tsWorld = (s.tile tk).tsWorld
  scratch : (t.tile tk).scratch = (s.tile tk).scratch
  parked : (t.tile tk).parked = (s.tile tk).parked

namespace SameBank
variable {tk : Nat} {s t u : State}

theorem refl (tk : Nat) (s : State) : SameBank tk s s := ⟨rfl, rfl, rfl, rfl, rfl⟩
theorem trans (a : SameBank tk s t) (b : SameBank tk t u) : SameBank tk s u :=
  ⟨b.colours.trans a.colours, b.spk.trans a.spk, b.tsWorld.trans a.tsWorld, b.scratch.trans a.scratch, b.parked.trans a.parked⟩
theorem of_tile (hc : t.colours = s.colours) (ht : t.tile tk = s.tile tk) : SameBank tk s t :=
  ⟨hc, by rw [ht], by rw [ht], by rw [ht], by rw [ht]⟩
theorem modTile_other (s : State) {k : Nat} (g : Tile → Tile) (h : tk ≠ k) : SameBank tk s (s.modTile k g) :=
  of_tile rfl (State.tile_modTile_other s g h)
theorem modCluster (tk : Nat) (s : State) (ck : Nat) (g : Cluster → Cluster) : SameBank tk s (s.modCluster ck g) := of_tile rfl rfl
theorem bankAnswer (tk : Nat) (s : State) (bank src id ctx : Nat) (ack : Bool) (g : Access → Access) :
    SameBank tk s (s.bankAnswer bank src id ctx ack g) where
  colours := by
    unfold State.bankAnswer
    split
    · rfl
    · rw [State.acknowledge_frame]; rfl
  spk := State.tile_bankAnswer_keeps _ _ _ _ _ _ _ Tile.spk (fun _ _ => rfl) _
  tsWorld := State.tile_bankAnswer_keeps _ _ _ _ _ _ _ Tile.tsWorld (fun _ _ => rfl) _
  scratch := State.tile_bankAnswer_keeps _ _ _ _ _ _ _ Tile.scratch (fun _ _ => rfl) _
  parked := State.tile_bankAnswer_keeps _ _ _ _ _ _ _ Tile.parked (fun _ _ => rfl) _
theorem feDo_other (s : State) {k : Nat} (w : FeWait) (h : tk ≠ k) : SameBank tk s (s.feDo k w) := by
  by_cases hstore : w.kind = .store
  · rw [State.feDo_store hstore]
    exact (modTile_other s _ h).trans (bankAnswer ..)
  · rw [State.feDo_load hstore]
    refine .trans ?_ (bankAnswer ..)
    split
    · exact modTile_other s _ h
    · exact refl tk s
theorem feServe_other (s : State) {k : Nat} (block fuel : Nat) (h : tk ≠ k) : SameBank tk s (s.feServe k block fuel) := by
  induction fuel generalizing s with
  | zero => exact refl tk s
  | succ fuel ih =>
    rw [State.feServe]
    split
    · exact refl tk s
    · split
      · exact ((modTile_other s _ h).trans (feDo_other _ _ h)).trans (ih _)
      · exact refl tk s
/-- What is written at another bank, and the accesses parked there that it serves, leave a scratchpad alone. -/
theorem spFill_other (s : State) {k : Nat} (off : Nat) (bs : List Byte) (p : Bool) (h : tk ≠ k) : SameBank tk s (s.spFill k off bs p) :=
  (modTile_other s _ h).trans (foldl_rel (refl tk) (fun _ _ _ => trans) _ (fun t b => feServe_other t b 17 h) _ _)

end SameBank

/-! A write at a bank where nothing is parked -/

theorem Memory.writePairs_pairsAt (m : Memory) (a : Nat) (bs : List Byte) :
    Memory.writePairs m 0 (pairsAt a bs) = Memory.writeBytes m a bs := by
  induction bs generalizing m a with
  | nil => rfl
  | cons b r ih => simp only [pairsAt, Memory.writePairs, Memory.writeBytes, Nat.zero_add, ih]
theorem State.feServe_none {s : State} {tk : Nat} (h : (s.tile tk).parked = []) (block fuel : Nat) : s.feServe tk block fuel = s := by
  cases fuel with
  | zero => rfl
  | succ fuel => simp [State.feServe, h]
theorem State.feChanged_none {s : State} {tk : Nat} (h : (s.tile tk).parked = []) (gs : List Nat) : s.feChanged tk gs = s := by
  unfold State.feChanged
  generalize gs.foldl (fun l g => NatSet.insert l (g / 4)) [] = blocks
  induction blocks with
  | nil => rfl
  | cons b r ih => rw [List.foldl_cons, State.feServe_none h, ih]
theorem State.spFill_none {s : State} {tk : Nat} (h : (s.tile tk).parked = []) (off : Nat) (bs : List Byte) (p : Bool) :
    s.spFill tk off bs p = s.modTile tk fun t => (t.spWrite (pairsAt off bs) p).setFull (granulesOf off bs.length) true :=
  State.feChanged_none (by rw [State.tile_modTile_self]; exact h) _

/-! When a receiver takes a chunk -/

/-- An address of the scratchpad window is good where its tile exists, holds the bytes, and is the colour's world's (R160). -/
theorem State.spCheck_eq_ok_iff {s : State} {ck spa n tk off : Nat} {c : Colour} : s.spCheck ck c spa n = .ok (tk, off) ↔
    192 * ck + 16 * bits spa 23 20 + bits spa 19 16 = tk ∧ spa % 2 ^ 16 = off ∧ (s.colour c).poisoned = false ∧ bits spa 23 20 < 12 ∧
      off + n ≤ 4096 * (s.tile tk).spk.toNat ∧ (s.colour c).world = (s.tile tk).tsWorld := by
  constructor
  · intro h
    simp only [State.spCheck] at h
    split at h
    · cases h
    · split at h
      · cases h
      · split at h
        · cases h
        · cases h
          refine ⟨rfl, rfl, ?_, ?_, ?_, ?_⟩ <;> simp_all
  · rintro ⟨rfl, rfl, hp, hy, hn, hw⟩
    have hrange : ¬ (bits spa 23 20 ≥ 12 ∨
        spa % 2 ^ 16 + n > 4096 * (s.tile (192 * ck + 16 * bits spa 23 20 + bits spa 19 16)).spk.toNat) := by omega
    simp only [State.spCheck, hp, hw, if_neg hrange, bne_self_eq_false, Bool.false_eq_true, if_false]
theorem State.spCheck_keeps {s t : State} {ck spa n tk off : Nat} {c : Colour} (hc : t.colours = s.colours)
    (hspk : (t.tile tk).spk = (s.tile tk).spk) (hts : (t.tile tk).tsWorld = (s.tile tk).tsWorld)
    (h : s.spCheck ck c spa n = .ok (tk, off)) : t.spCheck ck c spa n = .ok (tk, off) := by
  have hcolour : t.colour c = s.colour c := by simp only [State.colour, hc]
  rw [State.spCheck_eq_ok_iff] at h ⊢
  rwa [hcolour, hspk, hts]

/-- The tile `tk` takes chunks of `n` bytes at `o` that are sent to the number `ti`, in a card's colour, and nothing is parked there. -/
structure State.Receives (s : State) (ck : Nat) (c : Colour) (ti tk o n : Nat) : Prop where
  good : s.spCheck ck c (65536 * ti + o) n = .ok (tk, o)
  wf : (s.tile tk).scratch.wf = true
  parked : (s.tile tk).parked = []

/-- A scratchpad holds the bytes of a chunk from an offset on. -/
def State.HoldsBytes (s : State) (tk o : Nat) (ps : List (Byte × Bool)) : Prop :=
  ∀ j, j < ps.length → Memory.read (s.tile tk).scratch (o + j) = (ps.getD j (0, false)).1

theorem State.Receives.same {s t : State} {ck ti tk o n : Nat} {c : Colour} (h : s.Receives ck c ti tk o n) (hst : SameBank tk s t) :
    t.Receives ck c ti tk o n :=
  ⟨State.spCheck_keeps hst.colours hst.spk hst.tsWorld h.good, hst.scratch ▸ h.wf, hst.parked.trans h.parked⟩
theorem State.HoldsBytes.same {s t : State} {tk o : Nat} {ps : List (Byte × Bool)} (h : s.HoldsBytes tk o ps) (hst : SameBank tk s t) :
    t.HoldsBytes tk o ps := fun j hj => by rw [hst.scratch, h j hj]
theorem State.Receives.lt {s : State} {ck ti tk o n : Nat} {c : Colour} (h : s.Receives ck c ti tk o n) : o < 65536 := by
  obtain ⟨-, ho, -⟩ := State.spCheck_eq_ok_iff.mp h.good
  omega

/-! A chunk goes to a bank granule by granule -/

/-- Granule `g` of a chunk is written at its bank. -/
def State.granuleFill (tk o : Nat) (ps : List (Byte × Bool)) (s : State) (g : Nat) : State :=
  s.spFill tk (o + 16 * g) (((ps.drop (16 * g)).take 16).map (·.1)) (((ps.drop (16 * g)).take 16).any (·.2))
/-- A chunk is written at its bank. -/
def State.chunkFill (s : State) (tk o : Nat) (ps : List (Byte × Bool)) : State :=
  (List.range ((ps.length + 15) / 16)).foldl (State.granuleFill tk o ps) s

theorem SameBank.chunkFill_other (s : State) {tk k : Nat} (o : Nat) (ps : List (Byte × Bool)) (h : tk ≠ k) :
    SameBank tk s (s.chunkFill k o ps) :=
  foldl_rel (SameBank.refl tk) (fun _ _ _ => SameBank.trans) _ (fun t _ => SameBank.spFill_other t _ _ _ h) _ _

/-- The first `g` granules of a chunk are written at the bank of `tk`, which still takes what it took. -/
structure FilledTo (tk o : Nat) (ps : List (Byte × Bool)) (g : Nat) (s t : State) : Prop where
  colours : t.colours = s.colours
  spk : (t.tile tk).spk = (s.tile tk).spk
  tsWorld : (t.tile tk).tsWorld = (s.tile tk).tsWorld
  wf : (t.tile tk).scratch.wf = true
  parked : (t.tile tk).parked = []
  bytes : ∀ j, j < ps.length → j < 16 * g → Memory.read (t.tile tk).scratch (o + j) = (ps.getD j (0, false)).1

theorem FilledTo.next {tk o g : Nat} {ps : List (Byte × Bool)} {s t : State} (h : FilledTo tk o ps g s t) :
    FilledTo tk o ps (g + 1) s (t.granuleFill tk o ps g) := by
  have hscratch : ((t.granuleFill tk o ps g).tile tk).scratch =
      Memory.writeBytes (t.tile tk).scratch (o + 16 * g) (((ps.drop (16 * g)).take 16).map (·.1)) := by
    rw [State.granuleFill, State.spFill_none h.parked, State.tile_modTile_self]
    exact Memory.writePairs_pairsAt ..
  have hlen : (((ps.drop (16 * g)).take 16).map (·.1)).length = min 16 (ps.length - 16 * g) := by simp
  refine ⟨?colours, ?spk, ?tsWorld, ?wf, ?parked, fun j hj hg => ?bytes⟩
  case colours => rw [State.granuleFill, State.spFill_none h.parked]; exact h.colours
  case spk => rw [State.granuleFill, State.spFill_none h.parked, State.tile_modTile_self]; exact h.spk
  case tsWorld => rw [State.granuleFill, State.spFill_none h.parked, State.tile_modTile_self]; exact h.tsWorld
  case parked => rw [State.granuleFill, State.spFill_none h.parked, State.tile_modTile_self]; exact h.parked
  case wf => rw [hscratch]; exact Memory.wf_writeBytes _ _ h.wf
  case bytes =>
    rw [hscratch]
    by_cases hold : j < 16 * g
    · rw [Memory.read_writeBytes_outside h.wf _ _ _ (by omega), h.bytes j hj hold]
    · obtain ⟨i, rfl⟩ := Nat.exists_eq_add_of_le (Nat.le_of_not_lt hold)
      have hi : i < (((ps.drop (16 * g)).take 16).map (·.1)).length := by omega
      rw [← Nat.add_assoc, Memory.read_writeBytes_inside h.wf _ _ _ hi, List.getD_eq_getElem _ _ hj]
      simp
theorem FilledTo.chunk {s : State} {tk : Nat} (hwf : (s.tile tk).scratch.wf = true) (hparked : (s.tile tk).parked = []) (o : Nat)
    (ps : List (Byte × Bool)) : FilledTo tk o ps ((ps.length + 15) / 16) s (s.chunkFill tk o ps) := by
  unfold State.chunkFill
  induction (ps.length + 15) / 16 with
  | zero => exact ⟨rfl, rfl, rfl, hwf, hparked, fun j _ h => by omega⟩
  | succ g ih => rw [List.range_succ, List.foldl_append]; exact ih.next
/-- A receiver that has taken a chunk holds it, and takes the next. -/
theorem State.Receives.chunkFill {s : State} {ck ti tk o n : Nat} {c : Colour} (h : s.Receives ck c ti tk o n) (ps : List (Byte × Bool)) :
    (s.chunkFill tk o ps).Receives ck c ti tk o n ∧ (s.chunkFill tk o ps).HoldsBytes tk o ps := by
  have hf := FilledTo.chunk h.wf h.parked o ps
  exact ⟨⟨State.spCheck_keeps hf.colours hf.spk hf.tsWorld h.good, hf.wf, hf.parked⟩, fun j hj => hf.bytes j hj (by omega)⟩

/-! A chunk goes to the receivers (R181) -/

section
variable {s : State} {ck off ti : Nat} {c : Card} {ps : List (Byte × Bool)}

/-- What follows a chunk at a receiver, and a receiver that fails, change the cluster alone. -/
theorem State.mcastTo_fills {tk o : Nat} (k : Nat) (hlen : c.wr.base % 65536 + off + ps.length ≤ 65536)
    (hsp : s.spCheck ck c.colour (65536 * ti + (c.wr.base % 65536 + off)) ps.length = .ok (tk, o)) :
    SameBank k (s.chunkFill tk o ps) (s.mcastTo ck c off ps ti) := by
  simp only [State.mcastTo, if_neg (Nat.not_lt.mpr hlen), hsp]
  split
  · exact SameBank.refl k _
  · split
    · exact SameBank.modCluster k _ ck _
    · exact SameBank.modCluster k _ ck _
theorem State.mcastTo_fails {e : Nat} (k : Nat) (hlen : c.wr.base % 65536 + off + ps.length ≤ 65536)
    (hsp : s.spCheck ck c.colour (65536 * ti + (c.wr.base % 65536 + off)) ps.length = .error e) :
    SameBank k s (s.mcastTo ck c off ps ti) := by
  simp only [State.mcastTo, if_neg (Nat.not_lt.mpr hlen), hsp]
  exact SameBank.modCluster k _ ck _

end

section
variable {s : State} {ck off ti tk o : Nat} {c : Card} {ps : List (Byte × Bool)} (hoff : o = c.wr.base % 65536 + off)
  (hlen : o + ps.length ≤ 65536)
include hoff hlen

/-- A chunk sent to any number leaves a receiver one; it holds the chunk where it was sent to it, or held it already. -/
theorem State.Receives.mcastTo (h : s.Receives ck c.colour ti tk o ps.length) (x : Nat) :
    (s.mcastTo ck c off ps x).Receives ck c.colour ti tk o ps.length ∧
      (x = ti ∨ s.HoldsBytes tk o ps → (s.mcastTo ck c off ps x).HoldsBytes tk o ps) := by
  have hgood := h.good
  subst hoff
  cases hsp : s.spCheck ck c.colour (65536 * x + (c.wr.base % 65536 + off)) ps.length with
  | error e =>
    have hsame := State.mcastTo_fails tk hlen hsp
    refine ⟨h.same hsame, fun hx => ?_⟩
    rcases hx with rfl | hb
    · rw [hgood] at hsp
      cases hsp
    · exact hb.same hsame
  | ok p =>
    obtain ⟨k, o'⟩ := p
    have hsame := State.mcastTo_fills tk hlen hsp
    by_cases hk : tk = k
    · subst hk
      obtain ⟨-, ho', -⟩ := State.spCheck_eq_ok_iff.mp hsp
      obtain rfl : o' = c.wr.base % 65536 + off := by have := h.lt; omega
      have hfilled := h.chunkFill ps
      exact ⟨hfilled.1.same hsame, fun _ => hfilled.2.same hsame⟩
    · have hother := (SameBank.chunkFill_other s o' ps hk).trans hsame
      refine ⟨h.same hother, fun hx => ?_⟩
      rcases hx with rfl | hb
      · rw [hgood] at hsp
        cases hsp
        exact absurd rfl hk
      · exact hb.same hother
/-- Every receiver of a chunk holds it once it is sent. -/
theorem State.Receives.holds (dests : List Nat) (h : s.Receives ck c.colour ti tk o ps.length) (hti : ti ∈ dests ∨ s.HoldsBytes tk o ps) :
    (dests.foldl (fun s x => s.mcastTo ck c off ps x) s).HoldsBytes tk o ps := by
  induction dests generalizing s with
  | nil => simpa using hti
  | cons x r ih =>
    obtain ⟨hrec, hbytes⟩ := h.mcastTo hoff hlen x
    refine ih hrec ?_
    rcases hti with hmem | hb
    · rcases List.mem_cons.mp hmem with rfl | hmem
      · exact .inr (hbytes (.inl rfl))
      · exact .inl hmem
    · exact .inr (hbytes (.inr hb))

end

theorem State.cardChunk_went {u v : State} {ck off n : Nat} {c : Card} {ps : List (Byte × Bool)}
    (hread : u.cardReadTwo ck c c.rd0.window (c.rd0.base + off) (min n 256) = .done v ps) :
    u.cardChunk ck c off n = .went (c.dests.foldl (fun s ti => s.mcastTo ck c off ps ti) v) (off, min n 256) (ps.any (·.2))
      (if n = min n 256 then [] else [.chunk (off + min n 256) (n - min n 256)]) := by
  simp only [State.cardChunk, hread]

end Sys2Proof.Machine

namespace Sys2Proof
open Machine

theorem cardsWork : Claims.CardsWork := by
  intro s u ck i c w hnext hone hu hfab hbegun hwork
  subst hu
  have hcard := State.OnlyCard.of_nextCard hnext hone
  refine ⟨fun src given dst n ps bad v v' hw hn hfailed hread hps hbad hwrite => ?chunk, fun v k va hstop => ?fault, fun v va ws hwaits => ?page,
    fun j n v bs hw hread hop hin => ?row, fun off n v ps hw hread => ?mcast⟩
  case chunk =>
    subst hw
    have hstep : ∃ rest, (s.cardTurn ck c).cardMove ck c src given dst n = .went v' (dst - c.wr.base, min n (256 - dst % 256)) bad rest ∧
        (n = min n (256 - dst % 256) → rest = []) := by
      cases src with
      | none =>
        obtain ⟨rfl, rfl, rfl⟩ := hread
        obtain rfl := hbad rfl
        exact State.cardMove_forms hn hwrite
      | some a => exact State.cardMove_reads hn hread hps hwrite
    have hkeeps : KeepsCards (s.cardTurn ck c) v := by
      cases src with
      | none => obtain ⟨rfl, -⟩ := hread; exact KeepsCards.refl _
      | some a => exact (KeepsCards.cardReadTwo ..).of_done hread
    obtain ⟨rest, hstep, hrest⟩ := hstep
    have hwent := (hcard.keeps (hkeeps.trans ((KeepsCards.cardWrite ..).of_done hwrite))).modCard
      (g := fun x => x.went i (dst - c.wr.base, min n (256 - dst % 256)) bad rest) fun _ => rfl
    obtain ⟨d, hd, hwritten, hstatus, hend⟩ := State.cardFinishes_last hwent hfailed
    rw [execCardIssue_works hnext hfab hbegun hwork, State.cardGoes_went (w := .move src given dst n) hstep]
    refine ⟨_, d, rfl, hd.mem, hd.id_eq, ?frame, ?written, hstatus, fun hlast hone hrunning => hend ?through⟩
    case frame => rw [State.cardFinishes_frame]; rfl
    case written => rw [hwritten]; exact if_neg (by show min n (256 - dst % 256) ≠ 0; omega)
    case through =>
      rw [hone] at hwork
      obtain ⟨rfl, -⟩ := Card.nextWork_singleton hwork
      simp [Card.through, Card.went, Card.leaves, Card.turned, hbegun, hone, hrunning, hrest hlast]
  case fault =>
    have hended := (hcard.keeps ((KeepsCards.cardWorks_stop hstop).trans (KeepsCards.poisonDue v (dieOf ck) c.colour k va))).modCard
      (g := fun x => x.over 0x04 k) fun _ => rfl
    have hexec : exec (.cardIssue ck) s = .next (v.cardFault ck c k va) := by
      rw [execCardIssue_works hnext hfab hbegun hwork, State.cardGoes_stop hstop]
      exact congrArg _ (State.cardFinishes_goesOn hended (Card.through_of_state (by simp [Card.over])))
    exact ⟨_, _, hexec, hended.mem, hended.id_eq, rfl, rfl, rfl⟩
  case page =>
    rw [execCardIssue_works hnext hfab hbegun hwork, State.cardGoes_waits hwaits]
    refine ⟨_, rfl, ?_⟩
    rw [State.cardFinishes_frame]
    exact State.mem_faultTokens_raisePage ..
  case row =>
    subst hw
    have hv := hcard.keeps ((KeepsCards.cardRead ..).of_done hread)
    rw [execCardIssue_works hnext hfab hbegun hwork, State.cardGoes_went (w := .rows j n) (State.cardRows_gather hread hop hin),
      State.modCard_modCard _ _ _ _ (by intro x; rfl)]
    simp only [worse_zero, Card.went_index]
    exact congrArg _ (State.cardFinishes_modCard hv (by intro x; rfl) (Card.through_of_work (by simp [Card.leaves])))
  case mcast =>
    subst hw
    rw [execCardIssue_works hnext hfab hbegun hwork, State.cardGoes_went (w := .chunk off n) (State.cardChunk_went hread)]
    refine ⟨_, rfl, fun ti hti o ho hlen _ hsp hwf hparked => ?_⟩
    rw [State.cardFinishes_frame]
    exact State.Receives.holds ho hlen c.dests ⟨hsp, hwf, hparked⟩ (.inl hti)

/-- Settles O22: a card's beginning, the parts of its work, and its end, each by the step that does it. -/
theorem cardsRunAndComplete : Obligations.CardsRunAndComplete := ⟨cardsBegin, cardsWork, cardsComplete⟩

end Sys2Proof
end

section
/-!
PROOFS. A firing under way (02_tokens.md R30, R43, R44; 10_ops_routing.md R191 to R193): what taking the operands leaves alone, and the effect
of an operator on the state once they are taken, for the firings that compute a result and for those that pass an operand on.
-/
namespace Sys2Proof.Machine

/-! The state once the operands are taken -/

theorem State.pointGrants_frame (s : State) (q : Site) (m : Match) : s.pointGrants q m = { s with tiles := (s.pointGrants q m).tiles } :=
  foldl_rel (R := fun a b : State => b = { a with tiles := b.tiles }) (fun _ => rfl) (fun _ _ _ h k => by rw [k, h]) _
    (fun _ _ => by split <;> rfl) _ _
/-- A site's grants are remembered by other tiles (R42). -/
theorem State.tile_pointGrants (s : State) (q : Site) (m : Match) : (s.pointGrants q m).tile q.tk = s.tile q.tk :=
  foldl_rel (R := fun a b : State => b.tile q.tk = a.tile q.tk) (fun _ => rfl) (fun _ _ _ h k => k.trans h) _
    (fun _ dst => by
      split
      · rfl
      next hne => exact State.tile_modTile_other _ _ (Ne.symm hne)) _ _

section
variable (s : State) (opc : Nat) (f : OpFields) (m : Match)

theorem State.taken_frame : Claims.taken s opc f m = { s with tiles := (Claims.taken s opc f m).tiles } := by
  rw [Claims.taken, State.pointGrants_frame]
  rfl
theorem State.launch?_taken (ck ctx : Nat) : (Claims.taken s opc f m).launch? ck ctx = s.launch? ck ctx := by
  rw [State.taken_frame]
  rfl
theorem State.levelsOf_taken (ck ctx : Nat) : (Claims.taken s opc f m).levelsOf ck ctx = s.levelsOf ck ctx := by
  rw [State.levelsOf, State.launch?_taken]
  rfl
theorem State.tile_taken : (Claims.taken s opc f m).tile (s.site opc f).tk =
    ((s.consume (s.site opc f).tk m.operands).started (s.site opc f)).tile (s.site opc f).tk := State.tile_pointGrants ..
theorem State.accesses_taken : ((Claims.taken s opc f m).tile (s.site opc f).tk).accesses = (s.tile (s.site opc f).tk).accesses := by
  rw [State.tile_taken, State.tile_started_consume]
theorem State.regs_taken : ((Claims.taken s opc f m).tile (s.site opc f).tk).regs = (s.tile (s.site opc f).tk).regs := by
  rw [State.tile_taken, State.tile_started_consume]
/-- The slot that fires notes the cycle, and no more. -/
theorem State.slot_taken : ((Claims.taken s opc f m).tile (s.site opc f).tk).slot (s.site opc f).key =
    { (s.tile (s.site opc f).tk).slot (s.site opc f).key with firedAt := s.cycles + 1 } := by
  rw [State.tile_taken, State.tile_started_consume]
  exact Tile.slot_modSlot_self (s.tile (s.site opc f).tk) (s.site opc f).key fun x => { x with firedAt := s.cycles + 1 }
theorem State.activeOf_taken : (Claims.taken s opc f m).activeOf (s.site opc f) m.tag = s.activeOf (s.site opc f) m.tag := by
  rw [State.activeOf, State.slot_taken]
  rfl
theorem State.nextOf_taken : (Claims.taken s opc f m).nextOf (s.site opc f) m.tag = s.nextOf (s.site opc f) m.tag := by
  rw [State.nextOf, State.slot_taken]
  rfl
theorem State.closes_taken : (Claims.taken s opc f m).closes (s.site opc f) m.tag = s.closes (s.site opc f) m.tag := by
  simp only [State.closes, State.levelsOf_taken]

end

/-! Operands that are passed on -/

section
variable {s u : State} {q : Site} {m : Match} {o : Operand} {v : Int} {t₀ t : Tag}

theorem State.withTag_range (k : State → Tag → State) (hl : s.lValue m = (u, v)) (ht : u.tagOp q.ck q.f.tagop t₀ v = none) :
    s.withTag q m t₀ k = u.faultFiring q m codeTagRange 0 := by
  simp only [State.withTag, hl, ht]
theorem State.forward_eq (is : List Nat) (hl : s.lValue m = (u, v)) (ht : u.tagOp q.ck q.f.tagop t₀ v = some t) :
    s.forward q m is o t₀ = u.output q m (q.toSome is o.entry.token.payload t) (some o) :=
  State.withTag_eq _ hl ht
theorem State.forwardPort_some {p : Port} (ho : m.at? p = some o) : s.forwardPort q m p t₀ = s.forward q m [0, 1, 2] o t₀ := by
  simp only [State.forwardPort, ho]
theorem State.forwardPort_none {p : Port} (ho : m.at? p = none) : s.forwardPort q m p t₀ = s.returnCredits q.tk m.operands := by
  simp only [State.forwardPort, ho]
/-- A predicate holds where its value is not zero (R193). -/
theorem Match.pred_iff (m : Match) (p : Port) : m.pred p = true ↔ m.value p ≠ 0 := bne_iff_ne

end

end Sys2Proof.Machine

namespace Sys2Proof.Claims
open Machine

/-! The effect of an operator -/

section
variable {s u : State} {opc : Nat} {f : OpFields} {m : Match} {t : Tag}

theorem Fires.starts {act : State → Site → Match → State} (h : Fires s opc f m) : s.fire opc f act =
    act ((Claims.taken s opc f m).noteClosed (s.site opc f) m) (s.site opc f) m := by
  obtain ⟨hbest, hbusy, hrank, hyield, hcount, hpoison⟩ := h
  rw [State.fire_starts act hbest (State.canStart_iff.mpr ⟨hbusy, hrank, hyield, hcount⟩), if_neg (by simp [hpoison])]
theorem Fires.data {act : State → Site → Match → State} (h : Fires s opc f m) (he : m.eos = false) :
    s.fire opc f act = act (Claims.taken s opc f m) (s.site opc f) m := by
  rw [h.starts, State.noteClosed_data _ _ he]
theorem Fires.fireData {act : State → Site → Match → State} (h : Fires s opc f m) (he : m.eos = false) :
    s.fireData opc f act = act (Claims.taken s opc f m) (s.site opc f) m := by
  rw [State.fireData, h.data he, if_neg (by simp [he])]
/-- A firing that computes one payload for every destination. -/
theorem Ready.fireResult (g : Match → Payload) (h : Ready s opc f m u t) :
    s.fireResult opc f g = Claims.answer s opc f m u t (g m) := by
  obtain ⟨hfires, he, v, hl, ht⟩ := h
  exact (hfires.fireData he).trans (State.withTag_eq _ hl ht)

end

end Sys2Proof.Claims
end

section
/-!
PROOFS. The lanes of a payload that is built from them (01_notation.md R23; 02_tokens.md R32).
-/
namespace Sys2Proof.Lanes

/-- The number with the fields `g` of `k` bits, field 0 lowest, as `build` sums it. -/
def packed (k : Nat) (g : Nat → Nat) (n : Nat) : Nat := (List.range n).foldl (fun acc i => acc + (g i % 2 ^ k) * 2 ^ (k * i)) 0

theorem packed_succ (k : Nat) (g : Nat → Nat) (n : Nat) : packed k g (n + 1) = packed k g n + (g n % 2 ^ k) * 2 ^ (k * n) := by
  simp only [packed, List.range_succ, List.foldl_append, List.foldl_cons, List.foldl_nil]
theorem packed_lt (k : Nat) (g : Nat → Nat) (n : Nat) : packed k g n < 2 ^ (k * n) := by
  induction n with
  | zero => simp [packed]
  | succ n ih =>
    have hfield : g n % 2 ^ k < 2 ^ k := Nat.mod_lt _ (Nat.two_pow_pos k)
    calc packed k g (n + 1) = packed k g n + (g n % 2 ^ k) * 2 ^ (k * n) := packed_succ k g n
      _ < (g n % 2 ^ k + 1) * 2 ^ (k * n) := by rw [Nat.add_mul, Nat.one_mul]; omega
      _ ≤ 2 ^ k * 2 ^ (k * n) := Nat.mul_le_mul_right _ hfield
      _ = 2 ^ (k * (n + 1)) := by rw [← Nat.pow_add, Nat.mul_succ, Nat.add_comm]
/-- Field `j` of a number that is packed from fields. -/
theorem packed_field (k : Nat) (g : Nat → Nat) {j n : Nat} (h : j < n) : packed k g n / 2 ^ (k * j) % 2 ^ k = g j % 2 ^ k := by
  induction n with
  | zero => exact absurd h (Nat.not_lt_zero j)
  | succ n ih =>
    rw [packed_succ]
    rcases Nat.lt_succ_iff_lt_or_eq.mp h with hlt | rfl
    · obtain ⟨d, rfl⟩ := Nat.exists_eq_add_of_lt hlt
      have hsplit : g (j + d + 1) % 2 ^ k * 2 ^ (k * (j + d + 1)) = 2 ^ k * (g (j + d + 1) % 2 ^ k * 2 ^ (k * d)) * 2 ^ (k * j) := by
        rw [show k * (j + d + 1) = k + k * d + k * j by ring, Nat.pow_add, Nat.pow_add]
        ring
      rw [hsplit, Nat.add_mul_div_right _ _ (Nat.two_pow_pos _), Nat.add_mul_mod_self_left, ih hlt]
    · rw [Nat.add_mul_div_right _ _ (Nat.two_pow_pos _), Nat.div_eq_of_lt (packed_lt k g j), Nat.zero_add, Nat.mod_mod]

/-- Fields that take no more than the bits of a word fit in it. -/
theorem toNat_packed {k n w : Nat} (g : Nat → Nat) (h : k * n ≤ w) : (BitVec.ofNat w (packed k g n)).toNat = packed k g n :=
  (BitVec.toNat_ofNat ..).trans (Nat.mod_eq_of_lt ((packed_lt k g n).trans_le (Nat.pow_le_pow_right Nat.two_pos h)))
theorem toNat_build {k n : Nat} (g : Nat → Nat) (h : k * n ≤ 512) : (build k n g).toNat = packed k g n := toNat_packed g h
theorem lane_ofLanes (g : Nat → Lane) {i : Nat} (h : i < 16) : lane (ofLanes g) i = g i := by
  apply BitVec.eq_of_toNat_eq
  rw [lane, BitVec.extractLsb'_toNat, Nat.shiftRight_eq_div_pow, ofLanes, toNat_build _ (by decide), packed_field 32 _ h,
    Nat.mod_eq_of_lt (g i).isLt]
@[simp] theorem masked_mask (mask : BitVec 16) (g : Nat → Lane) : (masked mask g).mask = mask := rfl
/-- Lanes computed under a mask (R32). -/
theorem lane_masked (mask : BitVec 16) (g : Nat → Lane) {i : Nat} (h : i < 16) :
    lane (masked mask g).data i = if on mask i then g i else 0 := lane_ofLanes _ h

end Sys2Proof.Lanes
end

section
/-!
PROOFS. The launches of a cluster and a tile's spilled operands that are discarded (02_tokens.md R57; 08_tile_memory.md R164 to R167): the
accesses of a tile's own engine leave every launch as it is.
-/
namespace Sys2Proof.Machine

/-- What a relation of states that composes says of an access and of what follows it, however they end. -/
theorem Mem.stateOr_bind {R : State → State → Prop} (hr : ∀ s, R s s) (ht : ∀ s t u, R s t → R t u → R s u) {α β : Type} {s : State}
    {m : Mem α} {f : State → α → Mem β} (hm : R s (m.stateOr s)) (hf : ∀ t v, R t ((f t v).stateOr t)) : R s ((m.bind f).stateOr s) := by
  cases m with
  | done t v =>
    have hft := hf t v
    show R s ((f t v).stateOr s)
    cases h : f t v with
    | busy => exact hr s
    | done | fault | page => rw [h] at hft; exact ht _ _ _ hm hft
  | fault | page | busy => exact hm

/-- A presence bit is read, then written. -/
theorem State.presence_eq (s : State) (tk : Nat) (x : Tag) (on : Bool) : s.presence tk x on =
    (s.tileRead tk x.colour (s.spillFrame x.colour tk + x.place / 8) 1 2).bind fun t r =>
      t.tileWrite tk x.colour (s.spillFrame x.colour tk + x.place / 8) [BitVec.ofNat 8 (if on then bytesNat r.1 ||| 2 ^ (x.place % 8)
        else bytesNat r.1 - (bytesNat r.1 &&& 2 ^ (x.place % 8)))] false 2 := by
  unfold State.presence
  dsimp only
  cases s.tileRead tk x.colour (s.spillFrame x.colour tk + x.place / 8) 1 2 <;> rfl

/-- Every cluster has the same launches. -/
structure KeepsLaunches (s t : State) : Prop where
  launches : ∀ k, (t.cluster k).launches = (s.cluster k).launches

namespace KeepsLaunches
variable {s t u : State}

theorem launch? (h : KeepsLaunches s t) (ck ctx : Nat) : t.launch? ck ctx = s.launch? ck ctx := by rw [State.launch?, h.launches, State.launch?]
theorem refl (s : State) : KeepsLaunches s s := ⟨fun _ => rfl⟩
theorem trans (a : KeepsLaunches s t) (b : KeepsLaunches t u) : KeepsLaunches s u := ⟨fun k => (b.launches k).trans (a.launches k)⟩
theorem ofHome (h : OnlyHome s t) : KeepsLaunches s t := ⟨fun k => by rw [(OnlyXlate.ofHome h).clusters k]⟩
theorem modTile (s : State) (tk : Nat) (g : Tile → Tile) : KeepsLaunches s (s.modTile tk g) := ⟨fun _ => rfl⟩
theorem countAccess (s : State) (ck sk a b : Nat) (c : Colour) (w : World) : KeepsLaunches s (s.countAccess ck sk a b c w) :=
  ⟨fun k => by rw [State.countAccess, State.countFrom_frame]; rfl⟩
theorem returnCredits (s : State) (tk : Nat) (ops : List Operand) : KeepsLaunches s (s.returnCredits tk ops) := ⟨s.launches_returnCredits tk ops⟩
theorem purge (s : State) (tk : Nat) (x : Token) (status fault : Nat) : KeepsLaunches s (s.purge tk x status fault) :=
  ⟨fun k => (congrArg Cluster.launches (s.cluster_returnCredit tk x.credit x.tag.colour k) :)⟩
theorem thenCount (h : KeepsLaunches s t) (ck sk a b : Nat) (c : Colour) (w : World) : KeepsLaunches s (t.countAccess ck sk a b c w) :=
  h.trans (countAccess t ck sk a b c w)

/-! A tile's copies of lines (R164 to R167) -/

theorem stashSettle (s : State) (tk : Nat) (l : StashLine) : ∀ t ∈ s.stashSettle tk l, KeepsLaunches s t := by
  have hput : ∀ (s : State) (p : Bool), KeepsLaunches s (if l.dirtyBytes p = [] then s
      else ((s.lineWrite l.sk l.pa l.key l.world (l.dirtyBytes p) p (s.tile tk).pts).1.countAccess (ckOf tk) l.sk
        (unitCount (unitsOf (l.dirtyBytes p))) 0 l.key l.world).modTile tk fun t =>
          { t with pts := maxTime t.pts (s.lineWrite l.sk l.pa l.key l.world (l.dirtyBytes p) p (s.tile tk).pts).2 }) := by
    intro s p
    split
    · exact refl s
    · exact ⟨((ofHome (OnlyHome.lineWrite ..)).thenCount ..).launches⟩
  unfold State.stashSettle
  intro t ht
  split at ht
  · obtain rfl := Option.some_inj.mp ht
    exact modTile ..
  dsimp only at ht
  split at ht
  · cases ht
  · obtain rfl := Option.some_inj.mp ht
    exact ⟨((hput s false).trans (hput _ true)).launches⟩
theorem stashRoom (s : State) (tk : Nat) : ∀ t ∈ s.stashRoom tk, KeepsLaunches s t := by
  unfold State.stashRoom
  intro t ht
  dsimp only at ht
  split at ht
  · obtain rfl := Option.some_inj.mp ht
    exact refl s
  split at ht
  · exact stashSettle _ _ _ t ht
  · obtain rfl := Option.some_inj.mp ht
    exact refl s
theorem stashUse (s : State) (tk : Nat) (l : StashLine) : KeepsLaunches s (s.stashUse tk l) := ⟨fun _ => rfl⟩
theorem tileLine (s : State) (tk : Nat) (x : Xlat) (w : World) : ∀ r ∈ s.tileLine tk x w, KeepsLaunches s r.1 := by
  unfold State.tileLine
  intro r hr
  split at hr
  · obtain rfl := Option.some_inj.mp hr
    exact stashUse ..
  split at hr
  · cases hr
  obtain ⟨t, ht, hr⟩ := Option.bind_eq_some_iff.mp hr
  obtain ⟨u, hu, rfl⟩ := Option.map_eq_some_iff.mp hr
  have hst : KeepsLaunches s t := by
    split at ht
    · exact stashSettle _ _ _ t ht
    · obtain rfl := Option.some_inj.mp ht
      exact refl s
  have hread : KeepsLaunches u (u.leaseRead x.sk x.pa x.key w (u.tile tk).pts).1 := ofHome (OnlyHome.leaseRead ..)
  have hseq : KeepsLaunches s { (u.leaseRead x.sk x.pa x.key w (u.tile tk).pts).1 with
      seq := (u.leaseRead x.sk x.pa x.key w (u.tile tk).pts).1.seq + 1 } :=
    ⟨((hst.trans (stashRoom _ _ u hu)).trans hread).launches⟩
  exact ⟨(hseq.thenCount (ckOf tk) x.sk 0 4 x.key w).launches⟩
theorem xlateWalk (s : State) (tk : Nat) (c : Colour) (va : Nat) (rd wr : Bool) : KeepsLaunches s (s.xlateWalk tk c va rd wr).1 := by
  have hx := ofHome (OnlyHome.xlate s ((s.tile tk).tlb ++ (s.cluster (ckOf tk)).l2tlb) c va rd wr)
  unfold State.xlateWalk
  dsimp only
  split
  next h =>
    rw [h] at hx
    dsimp only at hx
    split
    · exact ⟨hx.launches⟩
    · exact hx
  next h =>
    rw [h] at hx
    dsimp only at hx
    exact hx.trans ⟨State.cluster_modCluster_keeps (·.launches) (State.modTile _ tk _) (ckOf tk) fun _ => rfl⟩

/-! The accesses of a tile's own engine -/

theorem tileReadLine (s : State) (tk : Nat) (c : Colour) (va n : Nat) : KeepsLaunches s ((s.tileReadLine tk c va n).stateOr s) := by
  have hx := xlateWalk s tk c va true false
  unfold State.tileReadLine
  split
  next h =>
    rw [h] at hx
    dsimp only at hx
    split <;> exact hx
  next h =>
    rw [h] at hx
    dsimp only at hx
    split
    · exact hx
    split
    · exact refl s
    next hl => exact hx.trans (tileLine _ _ _ _ _ hl)
theorem tileWriteLine (s : State) (tk : Nat) (c : Colour) (va : Nat) (bs : List Byte) (p : Bool) :
    KeepsLaunches s ((s.tileWriteLine tk c va bs p).stateOr s) := by
  have hx := xlateWalk s tk c va false true
  unfold State.tileWriteLine
  split
  next h =>
    rw [h] at hx
    dsimp only at hx
    split <;> exact hx
  next h =>
    rw [h] at hx
    dsimp only at hx ⊢
    split
    · exact hx
    split
    · split
      · exact refl s
      · exact ⟨((hx.trans (ofHome (OnlyHome.lineWrite ..))).thenCount ..).launches⟩
    split
    · exact refl s
    next hl => exact ⟨(hx.trans (tileLine _ _ _ _ _ hl)).launches⟩
theorem tileRead (s : State) (tk : Nat) (c : Colour) (va n fuel : Nat) : KeepsLaunches s ((s.tileRead tk c va n fuel).stateOr s) := by
  induction fuel generalizing s va n with
  | zero => exact refl s
  | succ fuel ih =>
    rw [State.tileRead]
    split
    · exact refl s
    · exact Mem.stateOr_bind refl (fun _ _ _ => trans) (tileReadLine ..) fun t r =>
        Mem.stateOr_bind refl (fun _ _ _ => trans) (ih ..) fun t q => refl t
theorem tileWrite (s : State) (tk : Nat) (c : Colour) (va : Nat) (bs : List Byte) (p : Bool) (fuel : Nat) :
    KeepsLaunches s ((s.tileWrite tk c va bs p fuel).stateOr s) := by
  induction fuel generalizing s va bs with
  | zero => exact refl s
  | succ fuel ih =>
    rw [State.tileWrite]
    split
    · exact refl s
    · exact Mem.stateOr_bind refl (fun _ _ _ => trans) (tileWriteLine ..) fun t _ => ih ..
theorem presence (s : State) (tk : Nat) (x : Tag) (on : Bool) : KeepsLaunches s ((s.presence tk x on).stateOr s) := by
  rw [State.presence_eq]
  exact Mem.stateOr_bind refl (fun _ _ _ => trans) (tileRead ..) fun t r => tileWrite ..
theorem dropSpills (s : State) (tk : Nat) (which : SpillEntry → Bool) : KeepsLaunches s (s.dropSpills tk which) :=
  (modTile s tk _).trans (foldl_rel refl (fun _ _ _ => trans) _ (fun _ _ => (presence ..).trans (purge ..)) _ _)
theorem noteClosed (s : State) (q : Site) (m : Match) : KeepsLaunches s (s.noteClosed q m) := by
  unfold State.noteClosed
  split
  · exact (dropSpills ..).trans (modTile ..)
  · exact refl s

end KeepsLaunches

end Sys2Proof.Machine
end

section
/-!
PROOFS. The operators that route tokens (10_ops_routing.md R195 to R197, R200 to R203): those that compute a payload, those that pass an operand
on, and those that end one.
-/
namespace Sys2Proof.Machine

/-! The EOS of a sink (R202) -/

theorem State.launch?_modLaunch_self {s : State} {ck ctx : Nat} {l : Launch} (g : Launch → Launch) (h : s.launch? ck ctx = some l) :
    (s.modLaunch ck ctx g).launch? ck ctx = some (g l) := by
  simp only [State.modLaunch, h]
  rw [State.launch?, State.cluster_modCluster_self, Map.get?_put_self]
/-- A launch that a sink has reported to: the marks it had, and the sink's. -/
def Launch.reported (l : Launch) (mark : Nat × Nat × Nat) : Launch :=
  { l with sinkEos := if l.sinkEos.contains mark then l.sinkEos else l.sinkEos ++ [mark] }
theorem Launch.mem_reported (l : Launch) (mark : Nat × Nat × Nat) : mark ∈ (l.reported mark).sinkEos := by
  unfold Launch.reported
  by_cases h : mark ∈ l.sinkEos <;> simp [h]
/-- The mark of a sink's EOS in its launch. -/
def Site.sinkMark (q : Site) (t : Tag) : Nat × Nat × Nat := (tiOf q.tk, q.key, t.colour.toNat)
theorem execSink_data {s : State} {f : OpFields} {m : Match} (h : Claims.Fires s 0x01C f m) (he : m.eos = false) :
    exec (.sink f) s = .next ((Claims.taken s 0x01C f m).returnCredits s.actor.tk m.operands) := by
  refine congrArg Host.Outcome.next ((h.data he).trans ?_)
  simp only [he, Bool.false_and, Bool.false_eq_true, if_false]
  rfl
theorem execSink_eos {s : State} {f : OpFields} {m : Match} (h : Claims.Fires s 0x01C f m) (he : m.eos = true) (hlevel : m.tag.level = 0) :
    exec (.sink f) s = .next ((((Claims.taken s 0x01C f m).noteClosed (s.site 0x01C f) m).returnCredits s.actor.tk m.operands).modLaunch
      (ckOf s.actor.tk) m.tag.ctx.toNat fun l => l.reported ((s.site 0x01C f).sinkMark m.tag)) := by
  refine congrArg Host.Outcome.next (h.starts.trans ?_)
  simp only [he, hlevel, decide_true, Bool.and_self, if_true]
  rfl

/-! Payloads that are computed -/

theorem OpTable.index_of_mem_dests {f : OpFields} {d : Nat × Dest} (h : d ∈ OpTable.dests f) : d.1 ∈ [0, 1, 2] := by
  simp only [OpTable.dests, List.mem_append] at h
  rcases h with (h | h) | h <;> split at h <;> simp_all
/-- All three destinations are all the destinations of a word. -/
theorem Site.toSome_all (q : Site) (p : Payload) (t : Tag) : q.toSome [0, 1, 2] p t = q.toAll p t := by
  refine List.filter_eq_self.mpr fun r hr => ?_
  obtain ⟨d, hd, rfl⟩ := List.mem_map.mp hr
  exact List.contains_iff_mem.mpr (OpTable.index_of_mem_dests hd)

/-- A data firing of `eosgen` (R200): whether it closes its level, it judges once its operands are taken. -/
theorem execEosgen_data {s u : State} {f : OpFields} {m : Match} {t : Tag} {p : Payload} (h : Claims.Ready s 0x018 f m u t)
    (hp : m.payload? .l = some p) : exec (.eosgen f) s = .next (u.output (s.site 0x018 f) m ((s.site 0x018 f).toAll p t ++
      (if s.closes (s.site 0x018 f) m.tag then (s.site 0x018 f).eosAll m.tag.level
        (m.tag.closing (s.levelsOf (s.site 0x018 f).ck m.tag.ctx.toNat) m.tag.level.toNat) else [])) (m.at? .l)) := by
  obtain ⟨hfires, he, v, hl, ht⟩ := h
  refine congrArg Host.Outcome.next ((hfires.fireData he).trans ?_)
  simp only [State.withTag_eq _ hl ht, State.closes_taken, State.levelsOf_taken, hp, Option.getD_some, BitVec.ofNat_toNat, BitVec.setWidth_eq]
theorem computedTokens : Claims.ComputedTokens := by
  intro s u f m t
  refine ⟨fun h => ?const, fun h => ?repl, fun p h hp => execEosgen_data h hp, fun h => ?ojoin⟩
  case const =>
    exact ⟨_, congrArg Host.Outcome.next (h.fireResult _),
      fun hwide => ⟨Lanes.masked (m.wide .l).mask fun _ => BitVec.ofNat 32 f.imm.toNat, if_pos hwide,
        Lanes.masked_mask .., fun i hi => by rw [Lanes.lane_masked _ _ hi, Lanes.masked_mask]⟩,
      fun hnarrow => if_neg (by simp [hnarrow])⟩
  case repl =>
    exact ⟨⟨Lanes.ofLanes fun _ => replLane f.etype (m.value .l), Lanes.full⟩, congrArg Host.Outcome.next (h.fireResult _), rfl,
      fun i hi => Lanes.lane_ofLanes (fun _ => replLane f.etype (m.value .l)) hi⟩
  case ojoin =>
    refine congrArg Host.Outcome.next ((h.fireResult _).trans (congrArg _ ?_))
    simp only [List.all_eq, decide_eq_true_eq]

/-! Operands that are passed on (R195 to R197, R201, R203) -/

/-- Each of the forwarding operators hands the operand of its row to the destinations of its row. -/
theorem forwards_fireData {s : State} {f : OpFields} {m : Match} {o : Operand} :
    ∀ e ∈ Claims.forwards, Claims.Fires s e.2.1 f m → m.eos = false → m.at? (e.2.2 m).2 = some o →
      exec (e.1 f) s = .next ((Claims.taken s e.2.1 f m).forward (s.site e.2.1 f) m (e.2.2 m).1 o m.tag) := by
  simp only [Claims.forwards, List.forall_mem_cons, List.not_mem_nil, false_implies, implies_true, and_true]
  refine ⟨fun h he ho => ?pass, fun h he ho => ?steer, fun h he ho => ?merge, fun h he ho => ?amerge, fun h he ho => ?select,
    fun h he ho => ?eoswait⟩
  case steer =>
    refine congrArg Host.Outcome.next ((h.fireData he).trans ?_)
    simp only [ho, Match.pred_iff]
  case merge | select =>
    refine congrArg Host.Outcome.next ((h.fireData he).trans ?_)
    simp only [Match.pred_iff]
    exact State.forwardPort_some ho
  case pass | amerge | eoswait => exact congrArg Host.Outcome.next ((h.fireData he).trans (State.forwardPort_some ho))
theorem operandsAreForwarded : Claims.OperandsAreForwarded := by
  intro s u f m o
  refine ⟨fun e hmem q v hq h he ho hl => ?forwards, fun t p h ho hp => ?gate, fun h he => congrArg Host.Outcome.next (h.fireData he),
    fun h he ho => ?eoswait, fun h he => execSink_data h he, fun l h he hlevel hl hck => ?eos⟩
  case forwards =>
    subst hq
    rw [forwards_fireData e hmem h he ho]
    exact ⟨fun t ht => congrArg _ (State.forward_eq _ hl ht), fun ht => congrArg _ (State.withTag_range _ hl ht)⟩
  case gate =>
    obtain ⟨h, he, v, hl, ht⟩ := h
    refine ⟨fun htrue => congrArg Host.Outcome.next ((h.fireData he).trans ?_),
      fun hfalse => congrArg Host.Outcome.next ((h.fireData he).trans ?_)⟩
    · rw [hp, Option.getD_some, if_pos htrue, State.forwardPort_some ho, State.forward_eq _ hl ht, Site.toSome_all, ← ho]
      rfl
    · rw [hp, Option.getD_some, if_neg (by simp [hfalse])]
      rfl
  case eoswait => exact congrArg Host.Outcome.next ((h.fireData he).trans (State.forwardPort_none ho))
  case eos =>
    rw [hck, execSink_eos h he hlevel]
    have hkept := (KeepsLaunches.noteClosed (Claims.taken s 0x01C f m) (s.site 0x01C f) m).trans (.returnCredits _ s.actor.tk m.operands)
    have hlaunch := (hkept.launch? (ckOf s.actor.tk) m.tag.ctx.toNat).trans ((State.launch?_taken ..).trans (hck ▸ hl))
    exact ⟨_, _, rfl, State.launch?_modLaunch_self _ hlaunch, Launch.mem_reported ..⟩

end Sys2Proof.Machine

namespace Sys2Proof
open Machine

/-- Settles O30: the operators that compute a payload, then those that pass an operand on. -/
theorem tokensAreRouted : Obligations.TokensAreRouted := ⟨computedTokens, operandsAreForwarded⟩

end Sys2Proof
end

section
/-!
PROOFS. The tag operators, `lcarry` and `greord` (10_ops_routing.md R198, R199, R206): the tag that each gives, and the operand that it passes
on under it.
-/
namespace Sys2Proof.Machine

section
variable {s u : State} {f : OpFields} {m : Match} {o : Operand} {v : Int} {t x : Tag}

/-! The tag operators (R199) -/

theorem State.carryTag_some {q : Site} {p : Port} (hx : q.retag (s.levelsOf q.ck m.tag.ctx.toNat) m = some x) (ho : m.at? p = some o) :
    s.carryTag q m p = s.forward q m [0, 1, 2] o x := by
  rw [State.carryTag, hx]
  exact State.forwardPort_some ho
theorem State.carryTag_none {q : Site} {p : Port} (hx : q.retag (s.levelsOf q.ck m.tag.ctx.toNat) m = none) :
    s.carryTag q m p = s.faultFiring q m codeTagRange 0 := by
  rw [State.carryTag, hx]
/-- Each tag operator changes the tag as its row says, and passes on L, or R where a `tagcopy` has two operands. -/
theorem tagOps_carryTag : ∀ e ∈ Claims.tagOps, Claims.Fires s e.2.1 f m → m.eos = false →
    exec (e.1 f) s = .next ((Claims.taken s e.2.1 f m).carryTag (s.site e.2.1 f) m (if e.2.1 = 0x012 ∧ f.arityN = 2 then .r else .l)) := by
  simp only [Claims.tagOps, List.forall_mem_cons, List.not_mem_nil, false_implies, implies_true, and_true]
  refine ⟨fun h he => ?tagset, fun h he => ?taginc, fun h he => ?tagcopy, fun h he => ?lvpush, fun h he => ?lvpop⟩
  case tagcopy =>
    refine congrArg Host.Outcome.next ((h.fireData he).trans ?_)
    simp only [true_and]
  case lvpop =>
    refine congrArg Host.Outcome.next ((h.data he).trans ?_)
    simp only [he, Bool.false_eq_true, if_false]
    rfl
  case tagset | taginc | lvpush => exact congrArg Host.Outcome.next (h.fireData he)
theorem tagOps_retag (ls : List Nat) : ∀ e ∈ Claims.tagOps, (s.site e.2.1 f).retag ls m = e.2.2 f ls m := by
  simp only [Claims.tagOps, List.forall_mem_cons, List.not_mem_nil, false_implies, implies_true, and_true]
  exact ⟨rfl, rfl, rfl, rfl, rfl⟩
theorem execLvpop_eos (h : Claims.Fires s 0x014 f m) (he : m.eos = true) (hpl : OpTable.immField f 3 0 ≠ 0)
    (hlevel : m.tag.level.toNat = OpTable.immField f 3 0) : exec (.lvpop f) s =
      .next (((Claims.taken s 0x014 f m).noteClosed (s.site 0x014 f) m).returnCredits s.actor.tk m.operands) := by
  refine congrArg Host.Outcome.next (h.starts.trans ?_)
  simp only [he, if_true, bne_iff_ne.mpr hpl, hlevel, decide_true, Bool.and_self]
  rfl

/-! `lcarry` (R198) -/

theorem State.carryStep_taken (opc : Nat) : (Claims.taken s opc f m).carryStep (s.site opc f) m = s.carryStep (s.site opc f) m := by
  simp only [State.carryStep, State.levelsOf_taken, State.activeOf_taken]
section
variable {q : Site}
theorem State.carryStep_entry (hl : m.at? .l = some o) (hx : m.tag.push (s.levelsOf q.ck m.tag.ctx.toNat) 0 = some x) :
    s.carryStep q m = some ([0, 1], x, s.activeOf q m.tag + 1) := by
  simp only [State.carryStep, hl, hx, Option.isSome_some, if_true, Option.map_some]
/-- Behind the loop's body: round again while the predicate holds, otherwise out. -/
theorem State.carryStep_body (hl : m.at? .l = none) (hk : m.tag.level.toNat ≠ 0) : s.carryStep q m =
    if m.value .c ≠ 0 then some ([0, 1], m.tag.setIterAt (s.levelsOf q.ck m.tag.ctx.toNat) m.tag.level.toNat
        (m.tag.iterAt (s.levelsOf q.ck m.tag.ctx.toNat) m.tag.level.toNat + 1), s.activeOf q m.tag)
      else some ([2], (m.tag.setIterAt (s.levelsOf q.ck m.tag.ctx.toNat) m.tag.level.toNat 0).setLevel (m.tag.level.toNat - 1),
        s.activeOf q m.tag - 1) := by
  simp only [State.carryStep, hl, Option.isSome_none, Bool.false_eq_true, if_false, if_neg hk]
  simp only [← Match.pred_iff]
  rfl
end
/-- The three steps of `lcarry` are one word's. -/
theorem exec_lcarry {i : Instr} (h : i ∈ [Instr.lcarryEntry f, .lcarryBackEdge f, .lcarryEosRelease f]) (s : State) :
    exec i s = .next (s.fireLcarry f) := by
  simp only [List.mem_cons, List.not_mem_nil, or_false] at h
  rcases h with rfl | rfl | rfl <;> rfl
theorem State.fireLcarry_data {is : List Nat} {n : BitVec 16} (h : Claims.Fires s 0x007 f m) (he : m.eos = false)
    (hstep : s.carryStep (s.site 0x007 f) m = some (is, x, n)) (ho : (m.at? .l <|> m.at? .r) = some o)
    (hl : (Claims.taken s 0x007 f m).lValue m = (u, v)) (ht : u.tagOp (s.site 0x007 f).ck f.tagop x v = some t) : s.fireLcarry f =
      (u.setActive (s.site 0x007 f) m.tag n).output (s.site 0x007 f) m ((s.site 0x007 f).toSome is o.entry.token.payload t) (some o) := by
  rw [← State.carryStep_taken] at hstep
  refine (h.data he).trans ?_
  simp only [he, hstep, ho]
  exact State.withTag_eq _ hl ht
theorem State.fireLcarry_eosL (h : Claims.Fires s 0x007 f m) (he : m.eos = true) (ho : m.at? .l = some o) : s.fireLcarry f =
    ((Claims.taken s 0x007 f m).noteClosed (s.site 0x007 f) m).output (s.site 0x007 f) m
      (((s.site 0x007 f).eosAll m.tag.level m.tag).filter fun r => r.index = 2) (some o) := by
  refine h.starts.trans ?_
  simp only [he, ho]
theorem State.fireLcarry_eosEnds (h : Claims.Fires s 0x007 f m) (he : m.eos = true) (ho : m.at? .l = none) : s.fireLcarry f =
    ((Claims.taken s 0x007 f m).noteClosed (s.site 0x007 f) m).returnCredits s.actor.tk m.operands := by
  refine h.starts.trans ?_
  simp only [he, ho]
  rfl

/-! `greord` (R206) -/

theorem execGreord_data (h : Claims.Fires s 0x022 f m) (he : m.eos = false) (ho : m.at? .l = some o) : exec (.greord f) s =
    .next (((Claims.taken s 0x022 f m).setNext (s.site 0x022 f) m.tag (s.nextOf (s.site 0x022 f) m.tag + 1)).forward (s.site 0x022 f) m
      [0, 1, 2] o m.tag) := by
  refine congrArg Host.Outcome.next ((h.data he).trans ?_)
  simp only [he, Bool.false_eq_true, if_false, State.nextOf_taken]
  exact State.forwardPort_some ho

end

theorem tagsAreChanged : Claims.TagsAreChanged := by
  intro s u f m o v
  refine ⟨fun e hmem q ls hq hls h he ho hl => ?tagOps, fun h he hpl hlevel => execLvpop_eos h he hpl hlevel,
    fun i hi q ls k n hq hls hk hn h => ⟨fun he hl => ?carries, fun he z hz => ?ends⟩, fun t q w hq h he ho hw hl ht => ?greord⟩
  case tagOps =>
    subst hq hls
    rw [tagOps_carryTag e hmem h he]
    have hretag : ∀ {y}, e.2.2 f (s.levelsOf (s.site e.2.1 f).ck m.tag.ctx.toNat) m = y →
        (s.site e.2.1 f).retag ((Claims.taken s e.2.1 f m).levelsOf (s.site e.2.1 f).ck m.tag.ctx.toNat) m = y := fun hy => by
      rw [State.levelsOf_taken, tagOps_retag _ e hmem, hy]
    refine ⟨fun hx => congrArg _ (State.carryTag_none (hretag hx)), fun x t hx ht => congrArg _ ?_⟩
    rw [State.carryTag_some (hretag hx) ho, State.forward_eq _ hl ht]
  case carries =>
    subst hq hls hk hn
    rw [exec_lcarry hi]
    refine ⟨fun x t ho hx ht => congrArg _ ?entry, fun t hnone ho hk hc ht => congrArg _ ?again,
      fun t hnone ho hk hc _ ht => congrArg _ ?out⟩
    case entry => exact State.fireLcarry_data h he (State.carryStep_entry ho hx) (by rw [ho]; rfl) hl ht
    case again =>
      exact State.fireLcarry_data h he ((State.carryStep_body hnone hk).trans (if_pos hc)) (by rw [hnone, ho]; rfl) hl ht
    case out =>
      exact State.fireLcarry_data h he ((State.carryStep_body hnone hk).trans (if_neg (not_not_intro hc))) (by rw [hnone, ho]; rfl) hl ht
  case ends =>
    subst hq hz
    rw [exec_lcarry hi]
    exact ⟨fun ho => congrArg _ (State.fireLcarry_eosL h he ho), fun ho => congrArg _ (State.fireLcarry_eosEnds h he ho)⟩
  case greord =>
    subst hq hw
    rw [execGreord_data h he ho, State.forward_eq _ hl ht]

end Sys2Proof.Machine
end

section
/-!
PROOFS. `cfgreq` and `gcoal` (10_ops_routing.md R204, R205): the request that leaves for the fabric manager and the operand that stays, and the
chunks of a row.
-/
namespace Sys2Proof.Machine

/-! What reading L leaves alone (R30) -/

theorem State.lValue_frame (s : State) (m : Match) : (s.lValue m).1 = { s with free := (s.lValue m).1.free } := by
  unfold State.lValue
  split <;> rfl
theorem State.tile_of_lValue {s u : State} {m : Match} {v : Int} (h : s.lValue m = (u, v)) (k : Nat) : u.tile k = s.tile k := by
  rw [show u = (s.lValue m).1 by rw [h], State.lValue_frame]
  rfl

section
variable {s u : State} {f : OpFields} {m : Match} {o : Operand} {v : Int}

/-! `cfgreq` (R204) -/

/-- The request that a `cfgreq` sends to the fabric manager: its place, its tag, the word whose destinations the results go to, and a function. -/
def State.cfgRequest (s : State) (q : Site) (m : Match) : Cargo :=
  .config ⟨q.ck, q.tk, q.slot, q.plane, m.tag, ((s.tile q.tk).slot q.key).word, OpTable.immField q.f 15 0, false⟩
theorem execCfgreq_sends (h : Claims.Fires s 0x020 f m) (he : m.eos = false) (ho : m.at? .l = some o)
    (hg : ((m.payload? .g).getD .order).guardTrue = true) : ∃ w : State,
      (∀ k, w.tile k = (Claims.taken s 0x020 f m).tile k) ∧ exec (.cfgreq f) s =
        .next ((w.modTile (s.site 0x020 f).tk fun t => { t with store := Map.put t.store o.idx { o.entry with state := .cfgreq, age := 0 } }).inject
          (s.site 0x020 f).ck (.tile (tiOf (s.site 0x020 f).tk)) (portPlace unitPort) true 3 (s.cfgRequest (s.site 0x020 f) m)) := by
  refine ⟨(Claims.taken s 0x020 f m).returnCredits (s.site 0x020 f).tk (m.others o), State.tile_returnCredits _ _ _,
    congrArg Host.Outcome.next ((h.fireData he).trans ?_)⟩
  have hword : (({ (Claims.taken s 0x020 f m).tile (s.site 0x020 f).tk with
      store := Map.put ((Claims.taken s 0x020 f m).tile (s.site 0x020 f).tk).store o.idx { o.entry with state := .cfgreq, age := 0 } } :
      Tile).slot (s.site 0x020 f).key).word = ((s.tile (s.site 0x020 f).tk).slot (s.site 0x020 f).key).word :=
    (congrArg Slot.word (State.slot_taken s 0x020 f m) :)
  simp only [ho, hg, if_true, State.tile_modTile_self, State.tile_returnCredits, hword]
  rfl
theorem execCfgreq_drops (h : Claims.Fires s 0x020 f m) (he : m.eos = false) (ho : m.at? .l = some o)
    (hg : ((m.payload? .g).getD .order).guardTrue = false) :
    exec (.cfgreq f) s = .next ((Claims.taken s 0x020 f m).returnCredits s.actor.tk m.operands) := by
  refine congrArg Host.Outcome.next ((h.fireData he).trans ?_)
  simp only [ho, hg, Bool.false_eq_true, if_false]
  rfl

/-! `gcoal` (R205) -/

/-- A loop of which each turn adds one item to a list adds as many as it has turns, in their order. -/
theorem foldl_appends {σ β α : Type} (items : σ → List α) (P : β → α → Prop) (g : σ → β → σ)
    (h : ∀ s x, ∃ a, items (g s x) = items s ++ [a] ∧ P x a) (xs : List β) (s : σ) :
    ∃ new, items (xs.foldl g s) = items s ++ new ∧ List.Forall₂ P xs new := by
  induction xs generalizing s with
  | nil => exact ⟨[], by simp, .nil⟩
  | cons x xs ih =>
    obtain ⟨a, ha, hxa⟩ := h s x
    obtain ⟨new, hnew, hall⟩ := ih (g s x)
    exact ⟨a :: new, by rw [List.foldl_cons, hnew, ha, List.append_assoc, List.singleton_append], .cons hxa hall⟩

/-- The sequence number of chunk `c` of a row, as the ITER of its tag. -/
def Match.chunkTag (m : Match) (rowl c : Nat) : Tag := { m.tag with iter := BitVec.ofNat 32 (m.tag.iter.toNat * rowl + c) }
/-- The access of chunk `c` of a row: it reads the row's `c`-th unit, or is answered with zeros where no row stands in the table. -/
structure IsChunk (m : Match) (row : Option Nat) (c : Nat) (out : Tag) (a : Access) : Prop where
  opc : a.opc = 0x021
  tag : a.tag = m.tag
  out : a.out = out
  read : ∀ r, row = some r → a.addr = r + 64 * c ∧ a.phase = .reissue
  zeros : row = none → a.phase = .answered ∧ a.data = ⟨0, 0xFFFF⟩

/-- The chunks of a row with their sequence numbers and result tags, `v` being the index that TAGOP reads. -/
def State.chunks (u : State) (ck : Nat) (op : TagOp) (m : Match) (rowl : Nat) (v : Int) : List (Nat × BitVec 32 × Option Tag) :=
  (List.range rowl).map fun c => (c, BitVec.ofNat 32 (m.tag.iter.toNat * rowl + c), u.tagOp ck op (m.chunkTag rowl c) v)
theorem State.chunks_tagged {ck rowl : Nat} {op : TagOp} (h : ∀ c, c < rowl → (u.tagOp ck op (m.chunkTag rowl c) v).isSome) :
    ((u.chunks ck op m rowl v).any fun x => x.2.2 = none) = false := by
  simp only [State.chunks, List.any_map, List.any_eq_false, List.mem_range, Function.comp_apply, decide_eq_true_eq]
  exact fun c hc => Option.isSome_iff_ne_none.mp (h c hc)

theorem execGcoal_data (h : Claims.Fires s 0x021 f m) (he : m.eos = false) (hl : (Claims.taken s 0x021 f m).lValue m = (u, v))
    (htags : ∀ c, c < OpTable.immField f 10 4 → (u.tagOp (s.site 0x021 f).ck f.tagop (m.chunkTag (OpTable.immField f 10 4) c) v).isSome) :
    ∃ t, exec (.gcoal f) s = .next t ∧ ∃ new, (t.tile (s.site 0x021 f).tk).accesses = (s.tile (s.site 0x021 f).tk).accesses ++ new ∧
      List.Forall₂ (fun x a => IsChunk m ((s.tile (s.site 0x021 f).tk).gatherRow f (m.value .l)).2 x.1 (x.2.2.getD m.tag) a)
        (u.chunks (s.site 0x021 f).ck f.tagop m (OpTable.immField f 10 4) v) new := by
  have hrow : ((Claims.taken s 0x021 f m).tile (s.site 0x021 f).tk).gatherRow f (m.value .l) =
      (s.tile (s.site 0x021 f).tk).gatherRow f (m.value .l) := by
    rw [Tile.gatherRow, State.regs_taken, Tile.gatherRow]
  have hacc : (u.tile (s.site 0x021 f).tk).accesses = (s.tile (s.site 0x021 f).tk).accesses := by
    rw [State.tile_of_lValue hl, State.accesses_taken]
  refine ⟨_, congrArg Host.Outcome.next (h.fireData he), ?_⟩
  have hno := State.chunks_tagged htags
  simp only [State.chunks, Match.chunkTag] at hno ⊢
  simp only [hl, hrow, ← hacc]
  rw [if_neg (Bool.eq_false_iff.mp hno)]
  refine foldl_appends (fun t : State => (t.tile (s.site 0x021 f).tk).accesses) _ _ (fun t x => ?_) _ _
  simp only [State.newId, State.tile_modTile_self]
  refine ⟨_, rfl, { opc := rfl, tag := rfl, out := rfl, read := fun r hr => ?_, zeros := fun hr => ?_ }⟩
  · simp only [hr, Option.isSome_some, if_true, and_self]
  · simp only [hr, Option.isSome_none, Bool.false_eq_true, if_false, Lanes.full, and_self]

end

theorem requestsAndGathers : Claims.RequestsAndGathers := by
  intro s u f m o q
  refine ⟨fun hq h he ho => ⟨fun hg => ?sends, fun hg => ?drops⟩, fun rowl v hq hrowl h he ho hl htags => ?gathers⟩
  case sends =>
    subst hq
    obtain ⟨w, hw, hexec⟩ := execCfgreq_sends h he ho hg
    refine ⟨_, (MeshSource.tile (tiOf (s.site 0x020 f).tk)).flit w.cycles (portPlace unitPort) true 3 (s.cfgRequest (s.site 0x020 f) m), hexec,
      ?_, rfl, rfl, ?_, ?_⟩
    · rw [State.inject, State.cluster_modCluster_self]
      exact List.getLast?_concat
    · simp only [MeshSource.flit, State.cfgRequest, OpTable.immField, Nat.pow_zero, Nat.div_one]
      rfl
    · rw [State.inject, State.modCluster_tile, State.tile_modTile_self]
      exact Map.get?_put_self ..
  case drops =>
    subst hq
    exact execCfgreq_drops h he ho hg
  case gathers =>
    subst hq hrowl
    obtain ⟨t, hexec, new, hnew, hall⟩ := execGcoal_data h he hl htags
    rw [State.chunks, List.forall₂_map_left_iff] at hall
    obtain ⟨hlen, hget⟩ := List.forall₂_iff_get.mp hall
    rw [List.length_range] at hlen
    refine ⟨t, new, hexec, hnew, hlen.symm, fun c a ha => ?_⟩
    obtain ⟨hc, rfl⟩ := List.getElem?_eq_some_iff.mp ha
    have hchunk := hget c (by rwa [List.length_range, hlen]) hc
    obtain ⟨out, hout⟩ := Option.isSome_iff_exists.mp (htags c (hlen ▸ hc))
    simp only [List.get_eq_getElem, List.getElem_range] at hchunk
    have hresult : new[c].out = out := hchunk.out.trans (congrArg (·.getD m.tag) hout)
    exact ⟨hchunk.opc, hchunk.tag, hout.trans (congrArg some hresult.symm), fun n r hr => hchunk.read r (by rw [hr]),
      fun n hr => hchunk.zeros (by rw [hr])⟩

end Sys2Proof.Machine

namespace Sys2Proof
open Machine

/-- Settles O31: the operators that change a tag, then `cfgreq` and `gcoal`. -/
theorem tagsRequestsAndGathers : Obligations.TagsRequestsAndGathers := ⟨tagsAreChanged, requestsAndGathers⟩

end Sys2Proof
end

section
/-!
PROOFS. The narrow plane (10_ops_routing.md R207 to R210): the results of its arithmetic, comparisons and conversions, and the beat that leaves
the narrow unit in a cycle.
-/
namespace Sys2Proof.Machine

/-! Arithmetic (R207) -/

theorem narrowOps_fireWrap (s : State) (f : OpFields) : ∀ e ∈ Claims.narrowOps, exec (e.1 f) s = .next (s.fireWrap e.2.1 f (e.2.2 f)) := by
  have habs : (fun a _ => (a.natAbs : Int) : Int → Int → Int) = fun a _ => if a < 0 then -a else a := by
    funext a _
    split <;> omega
  have hshl : (fun a _ => a * (4 ^ f.sub.toNat : Nat) : Int → Int → Int) = fun a _ => a * 4 ^ f.sub.toNat := by
    funext a _
    rw [Int.natCast_pow]
    rfl
  simp only [Claims.narrowOps, List.forall_mem_cons, List.not_mem_nil, false_implies, implies_true, and_true, ← habs, ← hshl]
  exact ⟨rfl, rfl, rfl, rfl, rfl, rfl⟩

/-! Comparisons (R208) -/

/-- What a comparison sends where FLAGS.ORDER is clear: a GUARD to a G port, 1 or 0 elsewhere. -/
def Site.verdicts (q : Site) (b : Bool) (t : Tag) : List Result :=
  (OpTable.dests q.f).map fun d => ⟨d.1, d.2, if d.2.port = .g then .guard b else .narrow 4 (if b then 1 else 0) .canonical, t⟩
theorem compares_fireCompare : ∀ e ∈ Claims.compares, ∃ g : Int → Int → Bool, (∀ a b, g a b = true ↔ e.2.2 a b) ∧
    ∀ f s, exec (e.1 f) s = .next (s.fireCompare e.2.1 f g) := by
  simp only [Claims.compares, List.forall_mem_cons, List.not_mem_nil, false_implies, implies_true, and_true]
  exact ⟨⟨_, fun a b => decide_eq_true_iff, fun _ _ => rfl⟩, ⟨_, fun a b => bne_iff_ne, fun _ _ => rfl⟩,
    ⟨_, fun a b => decide_eq_true_iff, fun _ _ => rfl⟩, ⟨_, fun a b => decide_eq_true_iff, fun _ _ => rfl⟩⟩

/-! Conversions (R209) -/

theorem Num.satBits_eq (x : Int) (n : Nat) : Num.satBits x n = max (-(2 ^ (n - 1))) (min x (2 ^ (n - 1) - 1)) := by
  have hcast : ((2 ^ (n - 1) : Nat) : Int) = 2 ^ (n - 1) := by norm_num
  have hpos : (0 : Int) < 2 ^ (n - 1) := by positivity
  rw [Num.satBits, Num.sat, hcast]
  generalize (2 : Int) ^ (n - 1) = b at hpos
  split
  · omega
  · split <;> omega
/-- The lane that `bton` reads, zero where it is inactive. -/
def btonLane (v : WideVal) (i : Nat) : Nat := if Lanes.on v.mask i then (Lanes.lane v.data i).toNat else 0
/-- Numbers of one and of two places in base `b ^ k`. -/
theorem foldl_range_one (g : Nat → Nat) (b k : Nat) : (List.range 1).foldl (fun a i => a + g i * b ^ (k * i)) 0 = g 0 := by
  simp [List.range_succ]
theorem foldl_range_two (g : Nat → Nat) (b k : Nat) : (List.range 2).foldl (fun a i => a + g i * b ^ (k * i)) 0 = g 1 * b ^ k + g 0 := by
  simp [List.range_succ, Nat.add_comm]
theorem btonValue_eq (v : WideVal) {sub w digits : Nat} (h : (sub, w, digits) ∈ [(11, 8, 4), (12, 16, 8), (13, 32, 16), (14, 64, 32)]) :
    btonDigits sub = digits ∧
      btonValue sub v = Int.bmod ((List.range (max 1 (w / 32))).foldl (fun a i => a + btonLane v i * 2 ^ (32 * i)) 0 : Nat) (2 ^ w) := by
  simp only [List.mem_cons, Prod.mk.injEq, List.not_mem_nil, or_false] at h
  rcases h with ⟨rfl, rfl, rfl⟩ | ⟨rfl, rfl, rfl⟩ | ⟨rfl, rfl, rfl⟩ | ⟨rfl, rfl, rfl⟩
  · refine ⟨by decide, ?_⟩
    rw [show max 1 (8 / 32) = 1 by decide, foldl_range_one (btonLane v), btonValue, if_pos rfl]
    exact BitVec.toInt_ofNat ..
  · refine ⟨by decide, ?_⟩
    rw [show max 1 (16 / 32) = 1 by decide, foldl_range_one (btonLane v), btonValue, if_neg (by decide), if_pos rfl]
    exact BitVec.toInt_ofNat ..
  · refine ⟨by decide, ?_⟩
    rw [show max 1 (32 / 32) = 1 by decide, foldl_range_one (btonLane v), btonValue, if_neg (by decide), if_neg (by decide), if_pos rfl]
    exact BitVec.toInt_ofNat ..
  · refine ⟨by decide, ?_⟩
    rw [show max 1 (64 / 32) = 2 by decide, foldl_range_two (btonLane v), btonValue, if_neg (by decide), if_neg (by decide), if_neg (by decide)]
    exact BitVec.toInt_ofNat ..

end Sys2Proof.Machine

namespace Sys2Proof.Claims
open Machine

section
variable {s u : State} {opc : Nat} {f : OpFields} {m : Match} {t : Tag}

theorem Ready.fireString (digits : Nat) (g : Match → Int) (h : Ready s opc f m u t) : s.fireString opc f digits g =
    Claims.answer s opc f m { u with free := u.free + 1 } t (.narrow digits (g m) (.chosen u.free)) := by
  obtain ⟨hfires, he, v, hl, ht⟩ := h
  exact (hfires.fireData he).trans (State.withTag_eq _ hl ht)
theorem Ready.fireCompare (g : Int → Int → Bool) (h : Ready s opc f m u t) (horder : f.flags.order = false) : s.fireCompare opc f g =
    u.output (s.site opc f) m ((s.site opc f).verdicts (g (m.value .l) (m.value .r)) t) (m.at? .l) := by
  obtain ⟨hfires, he, v, hl, ht⟩ := h
  refine (hfires.fireData he).trans ((State.withTag_eq _ hl ht).trans ?_)
  refine congrArg (fun rs => u.output (s.site opc f) m rs (m.at? .l)) ?_
  simp only [Site.toAll, Site.verdicts, List.map_map]
  refine List.map_congr_left fun d _ => ?_
  by_cases hg : d.2.port = .g <;> simp [State.site, horder, hg]

end

end Sys2Proof.Claims

namespace Sys2Proof.Machine

/-! Beats (R210) -/

section
variable (s : State) (tk : Nat)

theorem State.narrow_sendBeat (plane vc : Nat) (e : Emission) (id beat : Nat) (k : Nat) :
    ((s.sendBeat tk plane vc e id beat).tile k).narrow = (s.tile k).narrow := by
  unfold State.sendBeat
  dsimp only
  split
  · rfl
  split
  · rfl
  rw [State.inject, State.modCluster_tile]
  split
  · exact State.tile_modTile_keeps (·.narrow) s tk (by intro t; rfl) k
  · rfl
theorem State.narrow_deliver (plane vc : Nat) (e : Emission) (k : Nat) : ((s.deliver tk plane vc e).tile k).narrow = (s.tile k).narrow := by
  unfold State.deliver
  dsimp only
  split
  · exact State.tile_modTile_keeps (·.narrow) s tk (by intro t; rfl) k
  · exact foldl_rel (R := fun a b : State => (b.tile k).narrow = (a.tile k).narrow) (fun _ => rfl) (fun _ _ _ h i => i.trans h) _
      (fun a b => a.narrow_sendBeat tk plane vc e _ b k) _ _
theorem State.narrow_emitBeat (plane id j : Nat) (e : Emission) (k : Nat) :
    ((s.emitBeat tk plane id j e).tile k).narrow = (s.tile k).narrow := by
  unfold State.emitBeat
  split
  · split
    · exact s.narrow_deliver ..
    · rfl
  · exact s.narrow_sendBeat ..
/-- What a firing sends leaves the firings in progress as they are. -/
theorem State.narrow_emitNarrow (n : NarrowFiring) (k : Nat) : ((s.emitNarrow tk n).tile k).narrow = (s.tile k).narrow :=
  foldl_rel (R := fun a b : State => (b.tile k).narrow = (a.tile k).narrow) (fun _ => rfl) (fun _ _ _ h i => i.trans h) _
    (fun a i => by
      split
      · rfl
      dsimp only
      split
      · exact a.narrow_emitBeat ..
      · rfl) _ _

end

section
variable {s : State} {tk : Nat} {n : NarrowFiring} {id : Nat} {e : Emission}

/-- The next beat of a firing with one token. -/
theorem State.emitNarrow_one (hout : n.out = [(id, e)]) (hsent : n.sent < e.token.payload.beats) :
    s.emitNarrow tk n = s.emitBeat tk n.plane id n.sent e := by
  simp [State.emitNarrow, hout, startBeat, hsent]
theorem State.flits_emitBeat {plane j dst : Nat} (hexit : s.exitAt (ckOf tk) e.token.tag.ctx.toNat (tiOf tk) e.dest = none)
    (hdst : destTile (tiOf tk) e.dest = some dst) : ((s.emitBeat tk plane id j e).cluster (ckOf tk)).flits =
      (s.cluster (ckOf tk)).flits ++ [(MeshSource.tile (tiOf tk)).flit s.cycles (dst, 4) e.dest.narrow 0
        (.token ⟨tiOf tk, e.slot, e.index⟩ plane id j e.token)] := by
  simp only [State.emitBeat, hexit, Option.isSome_none, Bool.and_false, Bool.false_eq_true, if_false, State.sendBeat, hdst]
  rw [State.inject, State.cluster_modCluster_self]
  split <;> rfl

/-- The state in which a beat of firing `i` of the narrow unit leaves. -/
def State.beatTaken (s : State) (tk i : Nat) (n : NarrowFiring) : State :=
  s.modTile tk fun t => { t with
    lastFired := t.lastFired.setIfInBounds 5 (s.cycles + 1)
    narrow := if n.sent + 1 < n.beats then t.narrow.set i { n with sent := n.sent + 1 } else t.narrow.eraseIdx i }
theorem execNarrowBeatEmit_idle (h : (s.tile tk).lastFired.getD 5 0 = s.cycles + 1 ∨ ∀ n ∈ (s.tile tk).narrow, n.ready s.cycles = false) :
    exec (.narrowBeatEmit tk) s = .next s := by
  simp only [exec, execNarrowBeatEmit]
  rcases h with h | h
  · rw [if_pos h]
  · rw [List.findIdx?_eq_none_iff.mpr h]
    split <;> rfl
/-- The oldest firing that has a beat ready sends it. -/
theorem execNarrowBeatEmit_sends {i : Nat} (hfree : (s.tile tk).lastFired.getD 5 0 ≠ s.cycles + 1) (hn : (s.tile tk).narrow[i]? = some n)
    (hready : n.ready s.cycles = true) (hfirst : ∀ j x, j < i → (s.tile tk).narrow[j]? = some x → x.ready s.cycles = false) :
    exec (.narrowBeatEmit tk) s = .next ((s.beatTaken tk i n).emitNarrow tk n) := by
  obtain ⟨hi, rfl⟩ := List.getElem?_eq_some_iff.mp hn
  have hidx : (s.tile tk).narrow.findIdx? (fun n => n.ready s.cycles) = some i :=
    List.findIdx?_eq_some_iff_getElem.mpr ⟨hi, hready, fun j hj =>
      Bool.eq_false_iff.mp (hfirst j _ hj (List.getElem?_eq_getElem (hj.trans hi)))⟩
  simp only [exec, execNarrowBeatEmit, if_neg hfree, hidx, hn]
  rfl

end

end Sys2Proof.Machine

namespace Sys2Proof
open Machine

/-- Settles O32: an equation for each kind of operator, then the beat that leaves. -/
theorem narrowResults : Obligations.NarrowResults := by
  intro s u f m t
  refine ⟨fun e hmem h => ?arithmetic, fun p h hp => ?min, fun p h hp => ?max, fun e hmem h horder => ?compare,
    fun h => congrArg Host.Outcome.next (h.fireResult _), fun h => ?saturate, fun w digits raw hsub hraw h => ?bton,
    fun tk => ⟨execNarrowBeatEmit_idle, fun i n hfree hn hready hfirst => ?beat⟩⟩
  case arithmetic => exact ⟨_, (narrowOps_fireWrap s f e hmem).trans (congrArg _ (h.fireString _ _))⟩
  case min | max => exact congrArg Host.Outcome.next ((h.fireResult _).trans (by rw [hp, Option.getD_some]))
  case compare =>
    obtain ⟨g, hg, hexec⟩ := compares_fireCompare e hmem
    refine ⟨_, (hexec f s).trans (congrArg _ (h.fireCompare g horder)), by simp [Site.verdicts, State.site, Function.comp_def], fun r hr => ?_⟩
    obtain ⟨d, hd, rfl⟩ := List.mem_map.mp hr
    refine ⟨rfl, fun h => ?_, fun h => ?_⟩
    · simp [(hg _ _).mpr h]
    · simp [Bool.eq_false_iff.mpr (mt (hg _ _).mp h)]
  case saturate =>
    rw [← Num.satBits_eq]
    exact congrArg Host.Outcome.next (h.fireResult _)
  case bton =>
    obtain ⟨hdigits, hvalue⟩ := btonValue_eq (m.wide .l) hsub
    subst hraw
    refine congrArg Host.Outcome.next ((h.fireResult _).trans ?_)
    beta_reduce
    rw [hdigits, hvalue]
    rfl
  case beat =>
    refine ⟨_, execNarrowBeatEmit_sends hfree hn hready hfirst, fun h => ?_, fun h => ?_, fun id e dst hout hsent hexit hdst => ?_⟩
    · rw [State.narrow_emitNarrow, State.beatTaken, State.tile_modTile_self, if_pos h]
    · rw [State.narrow_emitNarrow, State.beatTaken, State.tile_modTile_self, if_neg (Nat.not_lt.mpr h)]
    · rw [State.emitNarrow_one hout hsent]
      exact State.flits_emitBeat hexit hdst

end Sys2Proof
end

section
/-!
PROOFS. What the vector unit computes on payloads (02_tokens.md R32; 11_ops_vector.md R215 to R218): masks and fields that are built from
their parts, the lanes of the three lanewise shapes, and the integer functions of a lane.
-/
namespace Sys2Proof.Lanes

/-! Fields and masks -/

/-- Field `j` of a payload that is built from fields. -/
theorem field_build {k n j : Nat} (g : Nat → Nat) (hfit : k * n ≤ 512) (hj : j < n) :
    ((build k n g).extractLsb' (k * j) k).toNat = g j % 2 ^ k := by
  rw [BitVec.extractLsb'_toNat, Nat.shiftRight_eq_div_pow, toNat_build g hfit, packed_field k g hj]
theorem byte_ofBytes (g : Nat → Byte) {j : Nat} (h : j < 64) : byte (ofBytes g) j = g j :=
  BitVec.eq_of_toNat_eq ((field_build (fun i => (g i).toNat) (by decide) h).trans (Nat.mod_eq_of_lt (g j).isLt))
theorem ofMask_eq_packed (g : Nat → Bool) : ofMask g = BitVec.ofNat 16 (packed 1 (fun i => (g i).toNat) 16) := by
  unfold ofMask packed
  congr 2
  funext acc i
  cases h : g i <;> simp [h]
theorem getLsbD_ofMask (g : Nat → Bool) {i : Nat} (h : i < 16) : (ofMask g).getLsbD i = g i := by
  have hfield := packed_field 1 (fun i => (g i).toNat) h
  rw [Nat.one_mul, Nat.pow_one] at hfield
  rw [BitVec.getLsbD, Nat.testBit_eq_decide_div_mod_eq, ofMask_eq_packed, toNat_packed _ (by decide), hfield]
  cases g i <;> rfl

/-! The lanewise shapes -/

theorem lanesAre_masked {mask : BitVec 16} {g h : Nat → Lane} (hg : ∀ i, i < 16 → mask.getLsbD i = true → g i = h i) :
    Claims.LanesAre (masked mask g) mask h :=
  ⟨masked_mask .., fun i hi => (lane_masked _ _ hi).trans (ite_congr rfl (hg i hi) fun _ => rfl)⟩
theorem lanesAre_map1 {g h : Lane → Lane} (a : WideVal) (hg : ∀ x, g x = h x) :
    Claims.LanesAre (map1 g a) a.mask fun i => h (lane a.data i) := lanesAre_masked fun _ _ _ => hg _
theorem lanesAre_map2 {g h : Lane → Lane → Lane} (a b : WideVal) (hg : ∀ x y, g x y = h x y) :
    Claims.LanesAre (map2 g a b) (a.mask &&& b.mask) fun i => h (lane a.data i) (lane b.data i) := lanesAre_masked fun _ _ _ => hg _ _
theorem lanesAre_map3 {g h : Lane → Lane → Lane → Lane} (a b c : WideVal) (hg : ∀ x y z, g x y z = h x y z) :
    Claims.LanesAre (map3 g a b c) (a.mask &&& b.mask &&& c.mask) fun i => h (lane a.data i) (lane b.data i) (lane c.data i) :=
  lanesAre_masked fun _ _ _ => hg _ _ _
/-- A shift by an immediate count (R217). -/
theorem lanesAre_shift_none {g h : Lane → Nat → Lane} (sub : Nat) (a : WideVal) (hg : ∀ x k, g x k = h x k) :
    Claims.LanesAre (shift g sub a none) a.mask fun i => h (lane a.data i) sub :=
  lanesAre_map1 (g := fun x => g x sub) (h := fun x => h x sub) a fun x => hg x sub
/-- A shift by the counts in the lanes of R (R217). -/
theorem lanesAre_shift_some {g h : Lane → Nat → Lane} (sub : Nat) (a b : WideVal) (hg : ∀ x k, g x k = h x k) :
    Claims.LanesAre (shift g sub a (some b)) (a.mask &&& b.mask) fun i => h (lane a.data i) ((lane b.data i).toNat % 32) :=
  lanesAre_map2 (g := fun x y => g x (y.toNat % 32)) (h := fun x y => h x (y.toNat % 32)) a b fun x y => hg x (y.toNat % 32)

/-! The integer functions of two lanes -/

section
variable (a b : Lane)

theorem add_eq_ofInt : a + b = BitVec.ofInt 32 (a.toInt + b.toInt) := by
  rw [BitVec.ofInt_add, BitVec.ofInt_toInt, BitVec.ofInt_toInt]
theorem sub_eq_ofInt : a - b = BitVec.ofInt 32 (a.toInt - b.toInt) := by
  apply BitVec.eq_of_toInt_eq
  rw [BitVec.toInt_sub, BitVec.toInt_ofInt]
theorem mul_eq_ofInt : a * b = BitVec.ofInt 32 (a.toInt * b.toInt) := by
  rw [BitVec.ofInt_mul, BitVec.ofInt_toInt, BitVec.ofInt_toInt]
theorem addSat_eq : addSat a b = BitVec.ofInt 32 (max (-2 ^ 31) (min (a.toInt + b.toInt) (2 ^ 31 - 1))) :=
  congrArg (BitVec.ofInt 32) (Machine.Num.satBits_eq ..)
theorem subSat_eq : subSat a b = BitVec.ofInt 32 (max (-2 ^ 31) (min (a.toInt - b.toInt) (2 ^ 31 - 1))) :=
  congrArg (BitVec.ofInt 32) (Machine.Num.satBits_eq ..)
theorem mulH_eq : mulH a b = BitVec.ofInt 32 (Int.fdiv (a.toInt * b.toInt) (2 ^ 32)) :=
  congrArg (BitVec.ofInt 32) (Int.fdiv_eq_ediv_of_nonneg _ (by decide)).symm
theorem minS_eq : minS a b = BitVec.ofInt 32 (min a.toInt b.toInt) := by
  rw [minS, min_def]
  split
  · rw [if_neg (by omega), BitVec.ofInt_toInt]
  · rw [if_pos (by omega), BitVec.ofInt_toInt]
theorem maxS_eq : maxS a b = BitVec.ofInt 32 (max a.toInt b.toInt) := by
  rw [maxS, max_def_lt]
  split <;> exact (BitVec.ofInt_toInt ..).symm
theorem minU_eq : minU a b = BitVec.ofNat 32 (min a.toNat b.toNat) := by
  rw [minU, min_def]
  split
  · rw [if_neg (by omega), BitVec.ofNat_toNat, BitVec.setWidth_eq]
  · rw [if_pos (by omega), BitVec.ofNat_toNat, BitVec.setWidth_eq]
theorem maxU_eq : maxU a b = BitVec.ofNat 32 (max a.toNat b.toNat) := by
  rw [maxU, max_def_lt]
  split <;> rw [BitVec.ofNat_toNat, BitVec.setWidth_eq]
/-- The lane of a truth value that decides `p` (R218, R222). -/
theorem bool_eq_ite {v : Bool} {p : Prop} [Decidable p] (h : v = true ↔ p) : bool v = if p then 0xFFFFFFFF else 0 := by
  rw [bool]
  exact if_congr h rfl rfl

theorem shiftLeft_eq_ofNat (k : Nat) : a <<< k = BitVec.ofNat 32 (a.toNat * 2 ^ k) := by
  apply BitVec.eq_of_toNat_eq
  rw [BitVec.toNat_shiftLeft, Nat.shiftLeft_eq, BitVec.toNat_ofNat]
theorem shiftRight_eq_ofNat (k : Nat) : a >>> k = BitVec.ofNat 32 (a.toNat / 2 ^ k) := by
  apply BitVec.eq_of_toNat_eq
  rw [BitVec.toNat_ushiftRight, Nat.shiftRight_eq_div_pow, BitVec.toNat_ofNat, Nat.mod_eq_of_lt ((Nat.div_le_self ..).trans_lt a.isLt)]
theorem sshiftRight_eq_ofInt (k : Nat) : a.sshiftRight k = BitVec.ofInt 32 (Int.fdiv a.toInt (2 ^ k)) := by
  rw [BitVec.sshiftRight, Int.shiftRight_eq_div_pow, Int.fdiv_eq_ediv_of_nonneg _ (by positivity), Int.natCast_pow]
  rfl

end

end Sys2Proof.Lanes
end

section
/-!
PROOFS. FP32 patterns (04_numbers.md R75, R77; 11_ops_vector.md R219 to R221): what a pattern decodes to, that rounding gives the pattern of a
value back, and the special values of the functions, the quotient, the minimum and the maximum.
-/
namespace Sys2Proof.Fp

/-! Patterns -/

/-- The sign of a pattern. -/
def signed (b : Nat) : Bool := b / 2 ^ 31 % 2 = 1
/-- The weight of a sign in a pattern. -/
def signWeight (neg : Bool) : Nat := if neg then 2 ^ 31 else 0

theorem signWeight_xor (a b : Nat) : signWeight (xor (signed a) (signed b)) = (a / 2 ^ 31 + b / 2 ^ 31) % 2 * 2 ^ 31 := by
  rw [Nat.add_mod, signed, signed]
  rcases Nat.mod_two_eq_zero_or_one (a / 2 ^ 31) with ha | ha <;> rcases Nat.mod_two_eq_zero_or_one (b / 2 ^ 31) with hb | hb <;>
    rw [ha, hb] <;> rfl
theorem signWeight_signed {b : Nat} (h : b < 2 ^ 32) : signWeight (signed b) + b % 2 ^ 31 = b := by
  rw [signWeight, signed]
  by_cases hb : b / 2 ^ 31 % 2 = 1
  · rw [if_pos (decide_eq_true hb)]
    omega
  · rw [if_neg (by simpa using hb)]
    omega

theorem decode_f32 (b : Nat) : decode f32 b =
    if b / 2 ^ 23 % 2 ^ 8 = 255 then (if b % 2 ^ 23 = 0 then .inf (signed b) else .nan)
    else if b / 2 ^ 23 % 2 ^ 8 = 0 then .fin (signed b) (b % 2 ^ 23) (-149)
    else .fin (signed b) (2 ^ 23 + b % 2 ^ 23) ((b / 2 ^ 23 % 2 ^ 8 : Nat) - 150) := by
  have hexp : ((b / 2 ^ 23 % 2 ^ 8 : Nat) : Int) - 150 = (b / 2 ^ 23 % 2 ^ 8 : Nat) - 127 - 23 := by omega
  rw [hexp, decode]
  exact if_congr decide_eq_true_iff rfl rfl
theorem decode_f32_inf {b : Nat} (h : b % 2 ^ 31 = 0x7F800000) : decode f32 b = .inf (signed b) := by
  rw [decode_f32, if_pos (by omega), if_pos (by omega)]
theorem decode_f32_nan {b : Nat} (h : 0x7F800000 < b % 2 ^ 31) : decode f32 b = .nan := by
  rw [decode_f32, if_pos (by omega), if_neg (by omega)]
/-- A subnormal number or zero. -/
theorem decode_f32_small {b : Nat} (h : b % 2 ^ 31 < 2 ^ 23) : decode f32 b = .fin (signed b) (b % 2 ^ 31) (-149) := by
  rw [decode_f32, if_neg (by omega), if_pos (by omega), show b % 2 ^ 31 = b % 2 ^ 23 by omega]
theorem decode_f32_normal {b : Nat} (h : 2 ^ 23 ≤ b % 2 ^ 31) (hfin : b % 2 ^ 31 < 0x7F800000) :
    decode f32 b = .fin (signed b) (2 ^ 23 + b % 2 ^ 23) ((b / 2 ^ 23 % 2 ^ 8 : Nat) - 150) := by
  rw [decode_f32, if_neg (by omega), if_neg (by omega)]
theorem decode_f32_finite {b : Nat} (h : b % 2 ^ 31 < 0x7F800000) :
    ∃ m e, decode f32 b = .fin (signed b) m e ∧ (m = 0 ↔ b % 2 ^ 31 = 0) := by
  by_cases hsmall : b % 2 ^ 31 < 2 ^ 23
  · exact ⟨_, _, decode_f32_small hsmall, Iff.rfl⟩
  · exact ⟨_, _, decode_f32_normal (by omega) h, by omega⟩
/-- A pattern that is no NaN is infinite or finite. -/
theorem magnitude_le_of_not_nan {b : Nat} (h : decode f32 b ≠ .nan) : b % 2 ^ 31 ≤ 0x7F800000 :=
  Nat.le_of_not_lt fun hlt => h (decode_f32_nan hlt)

/-! Rounding -/

theorem rne_f32_zero (neg : Bool) : rne f32 (.fin neg 0 0) = signWeight neg := by cases neg <;> rfl
theorem rne_f32_inf (neg : Bool) : rne f32 (.inf neg) = signWeight neg + 0x7F800000 := rfl
/-- A significand of no more than 24 bits at its own exponent needs no rounding. -/
theorem round_f32_exact {neg : Bool} {m : Nat} {e : Int} (h : max (e + len m - 24) (-149) = e) :
    round f32 neg m e false = pack f32 neg m e := by
  have hq : max (e + len m - (f32.mb + 1)) (1 - f32.bias - f32.mb) = e := h
  rw [round, hq, if_pos le_rfl, Int.sub_self]
  simp
theorem pack_f32_small {neg : Bool} {m : Nat} (e : Int) (h : m < 2 ^ 23) : pack f32 neg m e = signWeight neg + m := if_pos h
theorem pack_f32_normal {neg : Bool} {m x : Nat} (h : 2 ^ 23 ≤ m) (hx : x < 255) :
    pack f32 neg m (x - 150) = signWeight neg + x * 2 ^ 23 + (m - 2 ^ 23) := by
  have hexp : ((x : Int) - 150 + f32.mb + f32.bias).toNat = x := by
    simp only [f32]
    omega
  refine (if_neg (Nat.not_lt.mpr h)).trans ?_
  rw [hexp]
  exact if_neg (by simp [f32]; omega)
theorem len_le {m n : Nat} (h : m < 2 ^ n) : len m ≤ n := by
  rw [len]
  split
  · exact Nat.zero_le n
  next hm => exact (Nat.log2_lt hm).mpr h
theorem len_eq {m n : Nat} (h : 2 ^ n ≤ m) (hlt : m < 2 ^ (n + 1)) : len m = n + 1 := by
  have hm : m ≠ 0 := (Nat.pos_of_neZero _ |>.trans_le h).ne'
  rw [len, if_neg hm, (Nat.log2_eq_iff hm).mpr ⟨h, hlt⟩]
/-- Rounding gives back the pattern of a value (R75, R77). -/
theorem rne_decode_f32 {b : Nat} (hb : b < 2 ^ 32) (h : decode f32 b ≠ .nan) : rne f32 (decode f32 b) = b := by
  rcases Nat.eq_or_lt_of_le (magnitude_le_of_not_nan h) with hinf | hfin
  · rw [decode_f32_inf hinf, rne_f32_inf, ← hinf, signWeight_signed hb]
  rcases Nat.lt_or_ge (b % 2 ^ 31) (2 ^ 23) with hsmall | hnormal
  · have hlen := len_le hsmall
    rw [decode_f32_small hsmall, rne, round_f32_exact (by omega), pack_f32_small _ hsmall, signWeight_signed hb]
  · have hlen : len (2 ^ 23 + b % 2 ^ 23) = 24 := len_eq (by omega) (by omega)
    rw [decode_f32_normal hnormal hfin, rne, round_f32_exact (by omega), pack_f32_normal (by omega) (by omega)]
    have := signWeight_signed hb
    omega

/-! Special values -/

/-- The special values of the five functions (R220). -/
theorem special_values : ∀ e ∈ Claims.specials, e.1 .nan = 0x7FC00000 ∧ e.1 (.inf true) = e.2.1 ∧
    (∀ b, e.2.2.1 = some b → ∀ n x, e.1 (.fin true (n + 1) x) = b) ∧ (∀ x, e.1 (.fin true 0 x) = e.2.2.2.1) ∧
    (∀ x, e.1 (.fin false 0 x) = e.2.2.2.2.1) ∧ e.1 (.inf false) = e.2.2.2.2.2 := by
  simp only [Claims.specials, List.forall_mem_cons, List.not_mem_nil, false_implies, implies_true, and_true]
  have hnan {g : Val → Nat} (h : ∀ n x, g (.fin true (n + 1) x) = 0x7FC00000) :
      ∀ b, some 0x7FC00000 = some b → ∀ n x, g (.fin true (n + 1) x) = b := fun _ hb => Option.some.inj hb ▸ h
  exact ⟨⟨rfl, rfl, nofun, fun _ => rfl, fun _ => rfl, rfl⟩, ⟨rfl, rfl, hnan fun _ _ => rfl, fun _ => rfl, fun _ => rfl, rfl⟩,
    ⟨rfl, rfl, hnan fun _ _ => rfl, fun _ => rfl, fun _ => rfl, rfl⟩, ⟨rfl, rfl, nofun, fun _ => rfl, fun _ => rfl, rfl⟩,
    ⟨rfl, rfl, hnan fun _ _ => rfl, fun _ => rfl, fun _ => rfl, rfl⟩⟩

section
variable {a b : Nat}

theorem div32_nan (h : decode f32 a = .nan ∨ decode f32 b = .nan) : div32 a b = 0x7FC00000 := by
  rw [div32]
  rcases h with h | h
  · rw [h]
    rfl
  · rw [h]
    cases decode f32 a <;> rfl
theorem minMax_nan (isMax : Bool) (h : decode f32 a = .nan ∨ decode f32 b = .nan) : minMax isMax a b = 0x7FC00000 := if_pos h
theorem minMax_false_of_lt (ha : decode f32 a ≠ .nan) (hb : decode f32 b ≠ .nan) (h : lt (decode f32 a) (decode f32 b) = true) :
    minMax false a b = a := by
  rw [minMax, if_neg (not_or.mpr ⟨ha, hb⟩), h]
  rfl
theorem minMax_true_of_lt (ha : decode f32 a ≠ .nan) (hb : decode f32 b ≠ .nan) (h : lt (decode f32 a) (decode f32 b) = true) :
    minMax true a b = b := by
  rw [minMax, if_neg (not_or.mpr ⟨ha, hb⟩), h]
  rfl
/-- Neither 0 / 0 nor ∞ / ∞ is a number. -/
theorem div32_undefined (h : (a % 2 ^ 31 = 0 ∧ b % 2 ^ 31 = 0) ∨ (a % 2 ^ 31 = 0x7F800000 ∧ b % 2 ^ 31 = 0x7F800000)) :
    div32 a b = 0x7FC00000 := by
  rw [div32]
  rcases h with ⟨ha, hb⟩ | ⟨ha, hb⟩
  · rw [decode_f32_small (by omega), decode_f32_small (by omega), ha, hb]
    rfl
  · rw [decode_f32_inf ha, decode_f32_inf hb]
    rfl
/-- A number by zero, and ∞ by a number. -/
theorem div32_infinite (ha : a % 2 ^ 31 ≤ 0x7F800000)
    (h : (a % 2 ^ 31 ≠ 0 ∧ b % 2 ^ 31 = 0) ∨ (a % 2 ^ 31 = 0x7F800000 ∧ b % 2 ^ 31 < 0x7F800000)) :
    div32 a b = (a / 2 ^ 31 + b / 2 ^ 31) % 2 * 2 ^ 31 + 0x7F800000 := by
  have hfin : b % 2 ^ 31 < 0x7F800000 := by omega
  obtain ⟨n, d, hb, hn⟩ := decode_f32_finite hfin
  rw [div32, hb, ← signWeight_xor, ← rne_f32_inf]
  rcases Nat.eq_or_lt_of_le ha with hinf | hlt
  · rw [decode_f32_inf hinf]
    rfl
  · obtain ⟨m, e, ha, hm⟩ := decode_f32_finite hlt
    have hm0 : m ≠ 0 := by omega
    rw [ha, hn.mpr (by omega), div, if_pos rfl, if_neg hm0]
/-- Zero by a number that is not zero, and a finite number by ∞. -/
theorem div32_zero (hb : b % 2 ^ 31 ≤ 0x7F800000)
    (h : (a % 2 ^ 31 = 0 ∧ b % 2 ^ 31 ≠ 0) ∨ (a % 2 ^ 31 < 0x7F800000 ∧ b % 2 ^ 31 = 0x7F800000)) :
    div32 a b = (a / 2 ^ 31 + b / 2 ^ 31) % 2 * 2 ^ 31 := by
  have hfin : a % 2 ^ 31 < 0x7F800000 := by omega
  obtain ⟨m, e, ha, hm⟩ := decode_f32_finite hfin
  rw [div32, ha, ← signWeight_xor, ← rne_f32_zero]
  rcases Nat.eq_or_lt_of_le hb with hinf | hlt
  · rw [decode_f32_inf hinf]
    rfl
  · obtain ⟨n, d, hb, hn⟩ := decode_f32_finite hlt
    have hn0 : n ≠ 0 := by omega
    rw [hb, hm.mpr (by omega)]
    exact (if_neg hn0).trans (if_pos rfl)
end

end Sys2Proof.Fp
end

section
/-!
PROOFS. The vector operators lane by lane (11_ops_vector.md R213, R215 to R222): the lane function of each operator, and the token that its
firing sends.
-/
namespace Sys2Proof.Machine

/-! Firings with one WIDE result -/

theorem Match.wide?_of_none {m : Match} {p : Port} (h : m.payload? p = none) : m.wide? p = none := by rw [Match.wide?, h, Option.map_none]
theorem Match.wide?_of_some {m : Match} {p : Port} (h : m.payload? p ≠ none) : m.wide? p = some (m.wide p) := by
  obtain ⟨x, hx⟩ := Option.ne_none_iff_exists'.mp h
  rw [Match.wide?, Match.wide, hx, Option.map_some, Option.getD_some]

/-! The tables of the operators -/

/-- The operator of each row fires with its lane function (R215, R216, R218). -/
theorem laneOps_fire : ∀ e ∈ Claims.laneOps, ∃ g : Lane → Lane → Lane, (∀ a b, g a b = e.2.2 a b) ∧
    ∀ f s, exec (e.1 f) s = .next (s.fireWide2 e.2.1 f (Lanes.map2 g)) := by
  simp only [Claims.laneOps, List.forall_mem_cons, List.not_mem_nil, false_implies, implies_true, and_true]
  exact ⟨⟨_, Lanes.add_eq_ofInt, fun _ _ => rfl⟩, ⟨_, Lanes.addSat_eq, fun _ _ => rfl⟩, ⟨_, Lanes.sub_eq_ofInt, fun _ _ => rfl⟩,
    ⟨_, Lanes.subSat_eq, fun _ _ => rfl⟩, ⟨_, Lanes.mul_eq_ofInt, fun _ _ => rfl⟩, ⟨_, Lanes.mulH_eq, fun _ _ => rfl⟩,
    ⟨_, fun _ _ => rfl, fun _ _ => rfl⟩, ⟨_, Lanes.minS_eq, fun _ _ => rfl⟩, ⟨_, Lanes.maxS_eq, fun _ _ => rfl⟩,
    ⟨_, Lanes.minU_eq, fun _ _ => rfl⟩, ⟨_, Lanes.maxU_eq, fun _ _ => rfl⟩, ⟨_, fun _ _ => rfl, fun _ _ => rfl⟩,
    ⟨_, fun _ _ => rfl, fun _ _ => rfl⟩, ⟨_, fun _ _ => rfl, fun _ _ => rfl⟩,
    ⟨_, fun _ _ => Lanes.bool_eq_ite decide_eq_true_iff, fun _ _ => rfl⟩, ⟨_, fun _ _ => Lanes.bool_eq_ite bne_iff_ne, fun _ _ => rfl⟩,
    ⟨_, fun _ _ => Lanes.bool_eq_ite BitVec.slt_iff_toInt_lt, fun _ _ => rfl⟩,
    ⟨_, fun _ _ => Lanes.bool_eq_ite BitVec.sle_iff_toInt_le, fun _ _ => rfl⟩,
    ⟨_, fun _ _ => Lanes.bool_eq_ite decide_eq_true_iff, fun _ _ => rfl⟩,
    ⟨_, fun _ _ => Lanes.bool_eq_ite decide_eq_true_iff, fun _ _ => rfl⟩⟩
theorem shifts_fire : ∀ e ∈ Claims.shifts, ∃ g : Lane → Nat → Lane, (∀ a k, g a k = e.2.2 a k) ∧
    ∀ f s, exec (e.1 f) s = .next (s.fireShift e.2.1 f g) := by
  simp only [Claims.shifts, List.forall_mem_cons, List.not_mem_nil, false_implies, implies_true, and_true]
  exact ⟨⟨_, Lanes.shiftLeft_eq_ofNat, fun _ _ => rfl⟩, ⟨_, Lanes.shiftRight_eq_ofNat, fun _ _ => rfl⟩,
    ⟨_, Lanes.sshiftRight_eq_ofInt, fun _ _ => rfl⟩⟩
/-- The operator of each row fires with its lane function (R219, R221, R222). -/
theorem floatOps_fire : ∀ e ∈ Claims.floatOps, ∃ g : Lane → Lane → Lane, (∀ a b, g a b = e.2.2 a b) ∧
    ∀ f s, exec (e.1 f) s = .next (s.fireWide2 e.2.1 f (Lanes.map2 g)) := by
  simp only [Claims.floatOps, List.forall_mem_cons, List.not_mem_nil, false_implies, implies_true, and_true]
  exact ⟨⟨_, fun _ _ => rfl, fun _ _ => rfl⟩, ⟨_, fun _ _ => rfl, fun _ _ => rfl⟩, ⟨_, fun _ _ => rfl, fun _ _ => rfl⟩,
    ⟨_, fun _ _ => rfl, fun _ _ => rfl⟩, ⟨_, fun _ _ => rfl, fun _ _ => rfl⟩, ⟨_, fun _ _ => rfl, fun _ _ => rfl⟩,
    ⟨_, fun _ _ => rfl, fun _ _ => rfl⟩, ⟨_, fun _ _ => rfl, fun _ _ => rfl⟩,
    ⟨_, fun _ _ => Lanes.bool_eq_ite Bool.or_eq_true_iff, fun _ _ => rfl⟩,
    ⟨_, fun _ _ => Lanes.bool_eq_ite (by simp [Claims.val]), fun _ _ => rfl⟩⟩
/-- Each function is RNE of its exact result on the value of the lane (R220). -/
theorem functions_fire : ∀ e ∈ Claims.functions, ∀ f s,
    exec (e.1 f) s = .next (s.fireWide1 e.2.1 f (Lanes.map1 fun a => BitVec.ofNat 32 (e.2.2 (Claims.val a)))) := by
  simp only [Claims.functions, List.forall_mem_cons, List.not_mem_nil, false_implies, implies_true, and_true]
  exact ⟨fun _ _ => rfl, fun _ _ => rfl, fun _ _ => rfl, fun _ _ => rfl, fun _ _ => rfl⟩

end Sys2Proof.Machine

namespace Sys2Proof.Claims
open Machine

section
variable {s u : State} {i : Instr} {opc : Nat} {f : OpFields} {m : Match} {t : Tag}

theorem Ready.sendsWide1 {g : WideVal → WideVal} (h : Ready s opc f m u t) (hexec : exec i s = .next (s.fireWide1 opc f g)) :
    exec i s = .next (answer s opc f m u t (.wide (g (m.wide .l)))) := hexec.trans (congrArg _ (h.fireResult _))
theorem Ready.sendsWide2 {g : WideVal → WideVal → WideVal} (h : Ready s opc f m u t) (hexec : exec i s = .next (s.fireWide2 opc f g)) :
    exec i s = .next (answer s opc f m u t (.wide (g (m.wide .l) (m.wide .r)))) := hexec.trans (congrArg _ (h.fireResult _))
theorem Ready.sendsWide3 {g : WideVal → WideVal → WideVal → WideVal} (h : Ready s opc f m u t)
    (hexec : exec i s = .next (s.fireWide3 opc f g)) :
    exec i s = .next (answer s opc f m u t (.wide (g (m.wide .l) (m.wide .r) (m.wide .c)))) := hexec.trans (congrArg _ (h.fireResult _))
theorem Ready.sendsShift {g : Lane → Nat → Lane} (h : Ready s opc f m u t) (hexec : exec i s = .next (s.fireShift opc f g)) :
    exec i s = .next (answer s opc f m u t (.wide (Lanes.shift g f.sub.toNat (m.wide .l) (m.wide? .r)))) :=
  hexec.trans (congrArg _ (h.fireResult _))

end

theorem vectorIntegerResults : VectorIntegerResults := by
  rintro s u f m t _ _ rfl rfl
  refine ⟨fun e he h => ?binary, fun h => ⟨_, h.sendsWide1 rfl, Lanes.lanesAre_map1 _ fun _ => rfl⟩, fun e he h => ?shift⟩
  case binary =>
    obtain ⟨g, hg, hexec⟩ := laneOps_fire e he
    exact ⟨_, h.sendsWide2 (hexec f s), Lanes.lanesAre_map2 _ _ hg⟩
  case shift =>
    obtain ⟨g, hg, hexec⟩ := shifts_fire e he
    refine ⟨_, h.sendsShift (hexec f s), fun hr => ?_, fun hr => ?_⟩
    · rw [Match.wide?_of_none hr]
      exact Lanes.lanesAre_shift_none _ _ hg
    · rw [Match.wide?_of_some hr]
      exact Lanes.lanesAre_shift_some _ _ _ hg

theorem vectorFloatResults : VectorFloatResults := by
  refine ⟨?lanes, Fp.special_values, ?binary⟩
  case lanes =>
    rintro s u f m t _ _ _ rfl rfl rfl
    refine ⟨fun e he h => ?_, fun h => ⟨_, h.sendsWide3 rfl, Lanes.lanesAre_map3 _ _ _ fun _ _ _ => rfl⟩,
      fun e he h => ⟨_, h.sendsWide1 (functions_fire e he f s), Lanes.lanesAre_map1 _ fun _ => rfl⟩⟩
    obtain ⟨g, hg, hexec⟩ := floatOps_fire e he
    exact ⟨_, h.sendsWide2 (hexec f s), Lanes.lanesAre_map2 _ _ hg⟩
  case binary =>
    rintro a b _ rfl
    exact ⟨fun h => ⟨Fp.div32_nan h, fun _ => Fp.minMax_nan _ h⟩,
      fun ha hb => ⟨Fp.div32_undefined, Fp.div32_infinite (Fp.magnitude_le_of_not_nan ha), Fp.div32_zero (Fp.magnitude_le_of_not_nan hb),
        fun h => ⟨Fp.minMax_false_of_lt ha hb h, Fp.minMax_true_of_lt ha hb h⟩⟩, by decide, by decide⟩

end Sys2Proof.Claims

namespace Sys2Proof

/-- Settles O33: the lane function of each operator, then the special values. -/
theorem vectorOperatorsCompute : Obligations.VectorOperatorsCompute := ⟨Claims.vectorIntegerResults, Claims.vectorFloatResults⟩

end Sys2Proof
end

section
/-!
PROOFS. The conversions of a payload (11_ops_vector.md R223 to R225): the lane, widening, part and pair shapes, and the token that each conversion
sends.
-/
namespace Sys2Proof.Lanes

/-! The lane shape -/

theorem ofNat_toNat_lane (x : Lane) : BitVec.ofNat 32 x.toNat = x := by rw [BitVec.ofNat_toNat, BitVec.setWidth_eq]
theorem fp1_cvtI32 (conv : Fp.Val → Int) (a : Lane) : fp1 (cvtI32 conv) a = BitVec.ofInt 32 (Fp.toI32 conv (Claims.val a)) :=
  ofNat_toNat_lane _
theorem fp1_cvtF32 (a : Lane) : fp1 cvtF32 a = Claims.rne (Fp.ofInt a.toInt) := by rw [fp1, cvtF32, ofNat_toNat_lane, Claims.rne]

/-! The widening shape -/

/-- Each lane of `w` is the element of `k` bits of part `p`, active with the lane that holds it (R223). -/
def Widens (k p : Nat) (conv : Nat → Nat) (a w : WideVal) : Prop := ∀ i, i < 16 →
  w.mask.getLsbD i = a.mask.getLsbD ((16 * p + i) * k / 32) ∧
    lane w.data i = if w.mask.getLsbD i then BitVec.ofNat 32 (conv (a.data.extractLsb' (k * (16 * p + i)) k).toNat) else 0

/-- Where `d` elements stand in a lane. -/
theorem widens_masked {k d : Nat} (p : Nat) (conv : Nat → Nat) (a : WideVal) (hd : ∀ e, e / d = e * k / 32) :
    Widens k p conv a (masked (ofMask fun i => on a.mask ((16 * p + i) / d)) fun i =>
      BitVec.ofNat 32 (conv (a.data.extractLsb' (k * (16 * p + i)) k).toNat)) := fun i hi =>
  ⟨by rw [masked_mask, getLsbD_ofMask _ hi, hd, on], lane_masked _ _ hi⟩
theorem widens_widen16 (p : Nat) (conv : Nat → Nat) (a : WideVal) : Widens 16 p conv a (widen16 conv p a) :=
  widens_masked p conv a fun e => by omega
theorem widens_widen8 (p : Nat) (conv : Nat → Nat) (a : WideVal) : Widens 8 p conv a (widen8 conv p a) :=
  widens_masked p conv a fun e => by omega
theorem widens_qdec (p : Nat) (a : WideVal) : Widens 4 p (fun c => Fp.rne Fp.f32 (Fp.q16n c)) a (qdec p a) :=
  widens_masked p (fun c => Fp.rne Fp.f32 (Fp.q16n c)) a fun e => by omega

/-! The part shape -/

/-- The sixteen elements of `k` bits stand at part `p` of `w`, `absent` for an inactive lane, and zero stands elsewhere (R223). -/
def Parts (k p absent : Nat) (conv : Nat → Nat) (a w : WideVal) : Prop := w.mask = 0xFFFF ∧ ∀ j, j < 512 / k →
  (w.data.extractLsb' (k * j) k).toNat = if 16 * p ≤ j ∧ j < 16 * p + 16 then
    (if a.mask.getLsbD (j - 16 * p) then conv (lane a.data (j - 16 * p)).toNat else absent) % 2 ^ k else 0

theorem parts_build {k : Nat} (p absent : Nat) {conv g : Nat → Nat} (a : WideVal) (hconv : ∀ b, g b = conv b) :
    Parts k p absent conv a ⟨build k (512 / k) fun j => if 16 * p ≤ j ∧ j < 16 * p + 16 then
      (if on a.mask (j - 16 * p) then g (lane a.data (j - 16 * p)).toNat else absent) else 0, full⟩ := by
  refine ⟨rfl, fun j hj => ?_⟩
  rw [field_build _ (Nat.mul_div_le 512 k) hj, hconv, on]
  split
  · rfl
  · exact Nat.zero_mod _
theorem parts_part8 (p : Nat) {conv g : Nat → Nat} (a : WideVal) (hconv : ∀ b, g b = conv b) : Parts 8 p 0 conv a (part8 g p a) :=
  parts_build p 0 a hconv
theorem parts_qenc (p : Nat) (a : WideVal) : Parts 4 p 7 Fp.q16nEnc a (qenc p a) := parts_build p 7 a fun _ => rfl
theorem cvtI8_eq (b : Nat) : cvtI8 b = (BitVec.ofInt 8 (max (-128) (min (BitVec.ofNat 32 b).toInt 127))).toNat :=
  congrArg (fun x => (BitVec.ofInt 8 x).toNat) (Machine.Num.satBits_eq ..)

/-! The pair shape -/

section
variable (conv : Nat → Nat → Nat) (a : WideVal) (b : Option WideVal) {j : Nat} (h : j < 16)
include h

theorem pair_low : ((pair conv a b).data.extractLsb' (16 * j) 16).toNat =
    (if a.mask.getLsbD j then conv j (lane a.data j).toNat else 0) % 2 ^ 16 := by
  rw [pair, field_build _ (by decide) (by omega), if_pos h, on]
theorem pair_high_none : ((pair conv a none).data.extractLsb' (16 * (16 + j)) 16).toNat = 0 := by
  rw [pair, field_build _ (by decide) (by omega), if_neg (by omega)]
  rfl
theorem pair_high_some (r : WideVal) : ((pair conv a (some r)).data.extractLsb' (16 * (16 + j)) 16).toNat =
    (if r.mask.getLsbD j then conv j (lane r.data j).toNat else 0) % 2 ^ 16 := by
  rw [pair, field_build _ (by decide) (by omega), if_neg (by omega)]
  simp only [Nat.add_sub_cancel_left, on]

end

end Sys2Proof.Lanes

namespace Sys2Proof.Machine

/-! The tables of the conversions -/

theorem lanewise_fire : ∀ e ∈ Claims.lanewise, ∃ g : Lane → Lane, (∀ a, g a = e.2.2 a) ∧
    ∀ f s, exec (e.1 f) s = .next (s.fireWide1 e.2.1 f (Lanes.map1 g)) := by
  simp only [Claims.lanewise, List.forall_mem_cons, List.not_mem_nil, false_implies, implies_true, and_true]
  exact ⟨⟨_, Lanes.fp1_cvtI32 _, fun _ _ => rfl⟩, ⟨_, Lanes.fp1_cvtI32 _, fun _ _ => rfl⟩, ⟨_, Lanes.fp1_cvtF32, fun _ _ => rfl⟩⟩
theorem widens_fire : ∀ e ∈ Claims.widens, ∀ f s, ∃ g : WideVal → WideVal,
    (∀ a, Lanes.Widens e.2.2.1 f.sub.toNat e.2.2.2 a (g a)) ∧ exec (e.1 f) s = .next (s.fireWide1 e.2.1 f g) := by
  simp only [Claims.widens, List.forall_mem_cons, List.not_mem_nil, false_implies, implies_true, and_true]
  exact ⟨fun _ _ => ⟨_, Lanes.widens_widen16 _ _, rfl⟩, fun _ _ => ⟨_, Lanes.widens_widen16 _ _, rfl⟩,
    fun _ _ => ⟨_, Lanes.widens_widen8 _ _, rfl⟩, fun _ _ => ⟨_, Lanes.widens_widen8 _ _, rfl⟩, fun _ _ => ⟨_, Lanes.widens_qdec _, rfl⟩⟩
theorem parts_fire : ∀ e ∈ Claims.parts, ∀ f s, ∃ g : WideVal → WideVal,
    (∀ a, Lanes.Parts e.2.2.1 f.sub.toNat e.2.2.2.1 e.2.2.2.2 a (g a)) ∧ exec (e.1 f) s = .next (s.fireWide1 e.2.1 f g) := by
  simp only [Claims.parts, List.forall_mem_cons, List.not_mem_nil, false_implies, implies_true, and_true]
  exact ⟨fun _ _ => ⟨_, fun a => Lanes.parts_part8 _ a fun _ => rfl, rfl⟩,
    fun _ _ => ⟨_, fun a => Lanes.parts_part8 _ a fun _ => rfl, rfl⟩,
    fun _ _ => ⟨_, fun a => Lanes.parts_part8 _ a Lanes.cvtI8_eq, rfl⟩, fun _ _ => ⟨_, Lanes.parts_qenc _, rfl⟩⟩
theorem pairs_fire : ∀ e ∈ Claims.pairs, ∀ f s, exec (e.1 f) s = .next (s.fireResult e.2.1 f fun m =>
    .wide (Lanes.pair (e.2.2 f.imm.toNat m.tag.iter.toNat) (m.wide .l) (m.wide? .r))) := by
  simp only [Claims.pairs, List.forall_mem_cons, List.not_mem_nil, false_implies, implies_true, and_true]
  exact ⟨fun _ _ => rfl, fun _ _ => rfl, fun _ _ => rfl⟩

end Sys2Proof.Machine

namespace Sys2Proof.Claims
open Machine

theorem vectorConversions : VectorConversions := by
  rintro s u f m t _ _ _ rfl rfl rfl
  refine ⟨fun e he h => ?lane, fun e he h => ?widening, fun e he h => ?part, fun e he h => ?pair⟩
  case lane =>
    obtain ⟨g, hg, hexec⟩ := lanewise_fire e he
    exact ⟨_, h.sendsWide1 (hexec f s), Lanes.lanesAre_map1 _ hg⟩
  case widening =>
    obtain ⟨g, hg, hexec⟩ := widens_fire e he f s
    exact ⟨_, h.sendsWide1 hexec, hg _⟩
  case part =>
    obtain ⟨g, hg, hexec⟩ := parts_fire e he f s
    exact ⟨_, h.sendsWide1 hexec, hg _⟩
  case pair =>
    refine ⟨_, (pairs_fire e he f s).trans (congrArg _ (h.fireResult _)), rfl, ?_⟩
    rintro j _ hj rfl
    refine ⟨Lanes.pair_low _ _ _ hj, ?_⟩
    by_cases hr : m.payload? .r = none
    · rw [Match.wide?_of_none hr, Lanes.pair_high_none _ _ hj, if_neg (fun h => h.1 hr), Nat.zero_mod]
    · rw [Match.wide?_of_some hr, Lanes.pair_high_some _ _ hj]
      simp only [hr, ne_eq, not_false_eq_true, true_and]

end Sys2Proof.Claims
end

section
/-!
PROOFS. Reductions, permutations and exchanges of lanes (11_ops_vector.md R226 to R229; 04_numbers.md R94), and the vector result that leaves the
unit (R214).
-/
namespace Sys2Proof.Lanes

/-! Reductions -/

theorem treeLevel_cons_cons (g : Nat → Nat → Nat) (x y : Option Nat) (xs : List (Option Nat)) :
    treeLevel g (x :: y :: xs) = Claims.node g x y :: treeLevel g xs := by cases x <;> cases y <;> rfl
theorem tree16_eq_root (g : Nat → Nat → Nat) (leaf : Nat → Option Nat) :
    tree16 g ((List.range 16).map leaf) = Claims.root g leaf 4 0 := by
  have hleaves : (List.range 16).map leaf = [leaf 0, leaf 1, leaf 2, leaf 3, leaf 4, leaf 5, leaf 6, leaf 7, leaf 8, leaf 9, leaf 10,
    leaf 11, leaf 12, leaf 13, leaf 14, leaf 15] := rfl
  rw [hleaves, tree16]
  simp only [treeLevel_cons_cons]
  rfl
theorem getLsbD_full {i : Nat} (h : i < 16) : full.getLsbD i = true := by
  rw [show full = BitVec.allOnes 16 from rfl, BitVec.getLsbD_allOnes, decide_eq_true h]
/-- The root of the tree over the lanes of a payload, inactive ones as empty leaves, as a lane (R94, R226). -/
def rootLane (g : Nat → Nat → Nat) (empty : Nat) (a : WideVal) : Lane :=
  BitVec.ofNat 32 ((Claims.root g (fun i => if a.mask.getLsbD i then some (lane a.data i).toNat else none) 4 0).getD empty)
/-- Every lane of a reduction is the root (R226). -/
theorem lanesAre_reduce (g : Nat → Nat → Nat) (empty : Nat) (a : WideVal) :
    Claims.LanesAre (reduce g empty a) 0xFFFF fun _ => rootLane g empty a := by
  refine ⟨rfl, fun i hi => ?_⟩
  rw [reduce, lane_ofLanes _ hi, tree16_eq_root]
  exact (if_pos (getLsbD_full hi)).symm
/-- A NaN becomes the canonical one, and another value keeps its pattern (R76). -/
theorem fp1_cvt_f32 (x : Lane) : fp1 (cvt Fp.f32 Fp.f32) x = if Claims.val x = .nan then 0x7FC00000 else x := by
  rw [fp1, cvt]
  split
  next h => exact congrArg (fun v => BitVec.ofNat 32 (Fp.rne Fp.f32 v)) h
  next h => rw [Fp.rne_decode_f32 x.isLt h, ofNat_toNat_lane]
theorem lanesAre_map1_of_lanesAre {a : WideVal} {mask : BitVec 16} {v : Nat → Lane} (g : Lane → Lane) (h : Claims.LanesAre a mask v) :
    Claims.LanesAre (map1 g a) mask fun i => g (v i) := by
  obtain ⟨rfl, hlanes⟩ := h
  exact lanesAre_masked fun i hi hon => by rw [hlanes i hi, if_pos hon]
theorem lanesAre_vecReduce (g : Nat → Nat → Nat) (empty : Nat) (a : WideVal) : Claims.LanesAre (Machine.vecReduce g empty a) 0xFFFF fun _ =>
    if Claims.val (rootLane g empty a) = .nan then 0x7FC00000 else rootLane g empty a := by
  simp only [← fp1_cvt_f32]
  exact lanesAre_map1_of_lanesAre _ (lanesAre_reduce g empty a)

/-! Permutations -/

section
variable (a s : WideVal) {i : Nat} (h : i < 16)
include h

theorem perm_lanes_mask : (perm 0 a s).mask.getLsbD i =
    (s.mask.getLsbD i && ((lane s.data i).getLsbD 31 || a.mask.getLsbD ((lane s.data i).toNat % 16))) := getLsbD_ofMask _ h
theorem perm_lanes_data : lane (perm 0 a s).data i = if (perm 0 a s).mask.getLsbD i then
    (if (lane s.data i).getLsbD 31 then 0 else lane a.data ((lane s.data i).toNat % 16)) else 0 := lane_masked _ _ h
/-- A selector that clears its lane (R227). -/
theorem perm_lanes_cleared (hsel : (lane s.data i).getLsbD 31 = true) :
    (perm 0 a s).mask.getLsbD i = s.mask.getLsbD i ∧ lane (perm 0 a s).data i = 0 := by
  rw [perm_lanes_data a s h, perm_lanes_mask a s h, hsel, Bool.true_or, Bool.and_true, if_pos rfl, ite_self]
  exact ⟨rfl, rfl⟩
/-- A selector that names a lane (R227). -/
theorem perm_lanes_selected (hsel : (lane s.data i).getLsbD 31 = false) :
    (perm 0 a s).mask.getLsbD i = (s.mask.getLsbD i && a.mask.getLsbD ((lane s.data i).toNat % 16)) ∧
      lane (perm 0 a s).data i = if (perm 0 a s).mask.getLsbD i then lane a.data ((lane s.data i).toNat % 16) else 0 := by
  rw [perm_lanes_data a s h, perm_lanes_mask a s h, hsel, Bool.false_or, if_neg Bool.false_ne_true]
  exact ⟨rfl, rfl⟩
theorem rot_mask (k : Nat) : (rot k a).mask.getLsbD i = a.mask.getLsbD ((i + k) % 16) := getLsbD_ofMask _ h
theorem rot_data (k : Nat) : lane (rot k a).data i = lane a.data ((i + k) % 16) := lane_ofLanes _ h
theorem move_mask (src : Nat → Nat) : (move src a).mask.getLsbD i = a.mask.getLsbD (src i) := getLsbD_ofMask _ h
theorem move_data (src : Nat → Nat) : lane (move src a).data i = lane a.data (src i) := lane_ofLanes _ h

end
section
variable (a s : WideVal) {mode : Nat} (hmode : mode ≠ 0)
include hmode

theorem perm_bytes_mask : (perm mode a s).mask = s.mask := by rw [perm, if_neg hmode]
theorem perm_bytes_data {j : Nat} (h : j < 64) : byte (perm mode a s).data j =
    if (byte s.data j).toNat ≥ 128 ∨ a.mask.getLsbD ((byte s.data j).toNat % 64 / 4) = false ∨ s.mask.getLsbD (j / 4) = false then 0
    else byte a.data ((byte s.data j).toNat % 64) := by
  rw [perm, if_neg hmode, byte_ofBytes _ h]
  refine if_congr ?_ rfl rfl
  simp only [on, Bool.or_eq_true, Bool.not_eq_true', decide_eq_true_eq]
  tauto

end

/-! Exchanges -/

/-- A payload whose lanes are exchanged as those of the keys (R229). -/
def exchanged (e : EType) (sub : Nat) (keys a : WideVal) : WideVal := move (cxFrom e sub keys) a
/-- Whether the pair of lanes `i` and `i + 2^J` is out of order (R229). -/
def outOfOrder (e : EType) (sub : Nat) (a : WideVal) (i : Nat) : Bool :=
  if xor (i / 2 ^ (sub / 4 % 8) % 2 = 0 || sub / 4 % 8 = 4) (sub ≥ 128) then keyLt e a a (i + 2 ^ (sub % 4)) i
  else keyLt e a a i (i + 2 ^ (sub % 4))

theorem choice_eq_ite (up x y : Bool) : (up && x || !up && y) = if up then x else y := by cases up <;> simp

section
variable (e : EType) {sub : Nat} (a : WideVal) {i : Nat} (h : i / 2 ^ (sub % 4) % 2 = 0)
include h

theorem cxFrom_low : cxFrom e sub a i = if outOfOrder e sub a i then i + 2 ^ (sub % 4) else i := by
  rw [cxFrom, outOfOrder, if_pos h, if_pos rfl, choice_eq_ite]
theorem cxFrom_high : cxFrom e sub a (i + 2 ^ (sub % 4)) = if outOfOrder e sub a i then i else i + 2 ^ (sub % 4) := by
  have hpos := Nat.two_pow_pos (sub % 4)
  have hhigh : (i + 2 ^ (sub % 4)) / 2 ^ (sub % 4) % 2 ≠ 0 := by
    rw [Nat.add_div_right _ hpos]
    omega
  rw [cxFrom, outOfOrder, if_neg hhigh, Nat.add_sub_cancel, if_neg (show i + 2 ^ (sub % 4) ≠ i by omega), choice_eq_ite]

end

end Sys2Proof.Lanes

namespace Sys2Proof.Machine

/-- The operator of each row sends the root of the lanes of L, the FP32 ones in its canonical form (R76, R226). -/
theorem reductions_fire : ∀ e ∈ Claims.reductions, ∃ g : WideVal → WideVal,
    (∀ a, Claims.LanesAre (g a) 0xFFFF fun _ => if e.2.1 ≠ 0x11B ∧ Claims.val (Lanes.rootLane e.2.2.1 e.2.2.2 a) = .nan then 0x7FC00000
      else Lanes.rootLane e.2.2.1 e.2.2.2 a) ∧
    ∀ f s, exec (e.1 f) s = .next (s.fireWide1 e.2.1 f g) := by
  simp only [Claims.reductions, List.forall_mem_cons, List.not_mem_nil, false_implies, implies_true, and_true, ne_eq,
    show (0x118 : Nat) ≠ 0x11B by decide, show (0x119 : Nat) ≠ 0x11B by decide, show (0x11A : Nat) ≠ 0x11B by decide,
    not_true, not_false_eq_true, true_and, false_and, if_false]
  exact ⟨⟨_, Lanes.lanesAre_vecReduce _ _, fun _ _ => rfl⟩, ⟨_, Lanes.lanesAre_vecReduce _ _, fun _ _ => rfl⟩,
    ⟨_, Lanes.lanesAre_vecReduce _ _, fun _ _ => rfl⟩, ⟨_, Lanes.lanesAre_reduce _ _, fun _ _ => rfl⟩⟩

/-! The exchange of keys and companions -/

/-- The results of `vcx`: the companion goes to DEST1 where there is one, the keys elsewhere (R229). -/
def Site.exchangeResults (q : Site) (keys : Payload) (comp : Option Payload) (t : Tag) : List Result :=
  (q.toAll keys t).map fun r => if r.index = 1 then { r with payload := comp.getD keys } else r

section
variable (q : Site) (keys : Payload) (comp : Option Payload) (t : Tag)

theorem Site.dests_exchangeResults : ((q.exchangeResults keys comp t).map fun x => (x.index, x.dest)) = OpTable.dests q.f := by
  rw [exchangeResults, toAll, List.map_map, List.map_map]
  refine (List.map_congr_left fun d _ => ?_).trans (List.map_id _)
  dsimp only [Function.comp]
  split <;> rfl
theorem Site.of_mem_exchangeResults {x : Result} (hx : x ∈ q.exchangeResults keys comp t) (horder : q.f.flags.order = false) :
    x.tag = t ∧ x.payload = if x.index = 1 then comp.getD keys else keys := by
  simp only [exchangeResults, toAll, List.map_map, horder] at hx
  obtain ⟨d, -, rfl⟩ := List.mem_map.mp hx
  by_cases hd : d.1 = 1
  · simp [hd]
  · simp [hd]

end

/-! Results that leave the vector unit (R214) -/

/-- The earlier of two results; of one cycle, the one that started first. -/
def earlier (b : Option VectorResult) (v : VectorResult) : Option VectorResult :=
  match b with
  | none => some v
  | some x => if v.due < x.due then some v else b

theorem mem_earlier {b : Option VectorResult} {v x : VectorResult} (h : x ∈ earlier b v) : x ∈ b ∨ x = v := by
  cases b with
  | none => exact .inr (Option.some.inj h).symm
  | some y =>
    rw [earlier] at h
    split at h
    · exact .inr (Option.some.inj h).symm
    · exact .inl h
theorem earlier_of_not_lt {v x : VectorResult} (h : ¬ v.due < x.due) : earlier (some x) v = some x := if_neg h
theorem earlier_of_least {b : Option VectorResult} {v : VectorResult} (hb : ∀ x ∈ b, v.due < x.due ∨ x = v) : earlier b v = some v := by
  cases b with
  | none => rfl
  | some x =>
    rcases hb x rfl with h | rfl
    · exact if_pos h
    · exact earlier_of_not_lt (Nat.lt_irrefl _)

/-- The result that every other one follows is the earliest. -/
theorem foldl_earlier {v : VectorResult} (vs : List VectorResult) (b : Option VectorResult) (hb : ∀ x ∈ b, v.due < x.due ∨ x = v)
    (hvs : ∀ x ∈ vs, v.due < x.due ∨ x = v) (hv : b = some v ∨ v ∈ vs) : vs.foldl earlier b = some v := by
  induction vs generalizing b with
  | nil => simpa using hv
  | cons y ys ih =>
    obtain ⟨hy, hys⟩ := List.forall_mem_cons.mp hvs
    refine ih _ (fun x hx => ?_) hys ?_
    · rcases mem_earlier hx with hx | rfl
      · exact hb x hx
      · exact hy
    · rcases hv with rfl | hv
      · exact .inl (earlier_of_not_lt (by rcases hy with h | rfl <;> omega))
      rcases List.mem_cons.mp hv with rfl | hv
      · exact .inl (earlier_of_least hb)
      · exact .inr hv

theorem execVectorResultEmit_earliest {s : State} {tk : Nat} {v : VectorResult} (h : (s.tile tk).vector.foldl earlier none = some v)
    (hdue : v.due ≤ s.cycles) : exec (.vectorResultEmit tk) s =
      .next ((s.modTile tk fun x => { x with vector := x.vector.erase v }).deliverAll tk v.plane 0 v.out) := by
  have hfirst : exec (.vectorResultEmit tk) s = match (s.tile tk).vector.foldl earlier none with
      | none => .next s
      | some v => if s.cycles < v.due then .next s
        else .next ((s.modTile tk fun t => { t with vector := t.vector.erase v }).deliverAll tk v.plane 0 v.out) := rfl
  rw [hfirst, h]
  exact if_neg (Nat.not_lt.mpr hdue)

end Sys2Proof.Machine

namespace Sys2Proof.Claims
open Machine

section
variable {s u : State} {f : OpFields} {m : Match} {t : Tag}

theorem Ready.exchanges (h : Ready s 0x122 f m u t) : exec (.vcx f) s = .next (u.output (s.site 0x122 f) m
    ((s.site 0x122 f).exchangeResults (.wide (Lanes.exchanged f.etype f.sub.toNat (m.wide .l) (m.wide .l)))
      ((m.wide? .r).map fun r => .wide (Lanes.exchanged f.etype f.sub.toNat (m.wide .l) r)) t) (m.at? .l)) := by
  obtain ⟨hfires, he, v, hl, ht⟩ := h
  refine congrArg Host.Outcome.next ((hfires.data he).trans ((if_neg (by simp [he])).trans ?_))
  exact State.withTag_eq _ hl ht

end

/-- What SUB names: the distance, the block and the direction (R229). -/
theorem outOfOrder_eq {e : EType} {sub : BitVec 8} {a : WideVal} {i j k : Nat} {up : Bool} (hsub : sub.toNat % 32 = 4 * k + j) (hj : j < 4)
    (hup : up = (if (i / 2 ^ k % 2 = 0 ∨ k = 4) = (sub.getLsbD 7 = true) then false else true)) :
    Lanes.outOfOrder e sub.toNat a i = if up then Lanes.keyLt e a a (i + 2 ^ j) i else Lanes.keyLt e a a i (i + 2 ^ j) := by
  have hdist : sub.toNat % 4 = j := by omega
  have hblock : sub.toNat / 4 % 8 = k := by omega
  have hdesc : sub.getLsbD 7 = decide (sub.toNat ≥ 128) := by
    have := sub.isLt
    rw [BitVec.getLsbD, Nat.testBit_eq_decide_div_mod_eq, decide_eq_decide]
    omega
  have hdir : xor (decide (i / 2 ^ k % 2 = 0) || decide (k = 4)) (decide (sub.toNat ≥ 128)) = up := by
    rw [hup, ← Bool.decide_or, hdesc]
    by_cases hd : sub.toNat ≥ 128 <;> by_cases hb : i / 2 ^ k % 2 = 0 ∨ k = 4 <;> simp [hd, hb]
  rw [Lanes.outOfOrder, hdist, hblock, hdir]

/-- The upper lane of a pair is one of the sixteen. -/
theorem add_distance_lt {i j : Nat} (hi : i < 16) (hj : j < 4) (hlow : i / 2 ^ j % 2 = 0) : i + 2 ^ j < 16 := by
  interval_cases j <;> omega
/-- The two lanes of a pair with their mask bits, exchanged where the keys are out of order (R229). -/
theorem exchanged_pair {e : EType} {sub : BitVec 8} {keys : WideVal} {i j k : Nat} {up : Bool} (hsub : sub.toNat % 32 = 4 * k + j)
    (hj : j < 4) (hi : i < 16) (hlow : i / 2 ^ j % 2 = 0)
    (hup : up = (if (i / 2 ^ k % 2 = 0 ∨ k = 4) = (sub.getLsbD 7 = true) then false else true)) (x : WideVal)
    {y : WideVal} {q : Nat} {swap : Bool} (hy : y = Lanes.exchanged e sub.toNat keys x) (hq : q = i + 2 ^ j)
    (hswap : swap = if up then Lanes.keyLt e keys keys q i else Lanes.keyLt e keys keys i q) :
    Lanes.lane y.data i = Lanes.lane x.data (if swap then q else i) ∧ Lanes.lane y.data q = Lanes.lane x.data (if swap then i else q) ∧
      y.mask.getLsbD i = x.mask.getLsbD (if swap then q else i) ∧ y.mask.getLsbD q = x.mask.getLsbD (if swap then i else q) := by
  have hhigh : q < 16 := hq ▸ add_distance_lt hi hj hlow
  have horder : swap = Lanes.outOfOrder e sub.toNat keys i := by rw [hswap, hq, outOfOrder_eq hsub hj hup]
  obtain rfl : sub.toNat % 4 = j := by omega
  have hfromLow : Lanes.cxFrom e sub.toNat keys i = if swap then q else i := by rw [horder, hq, Lanes.cxFrom_low e keys hlow]
  have hfromHigh : Lanes.cxFrom e sub.toNat keys q = if swap then i else q := by rw [horder, hq, Lanes.cxFrom_high e keys hlow]
  rw [hy, Lanes.exchanged, Lanes.move_data _ hi, Lanes.move_data _ hhigh, Lanes.move_mask _ hi, Lanes.move_mask _ hhigh, hfromLow, hfromHigh]
  exact ⟨rfl, rfl, rfl, rfl⟩

theorem vectorMoves : VectorMoves := by
  rintro s u f m t _ _ rfl rfl
  refine ⟨fun e he h => ?reduction, fun h => ⟨_, h.sendsWide2 rfl, fun hsub i sel hi hsel => ?permLanes, fun hsub => ?permBytes⟩,
    fun h => ⟨_, h.sendsWide1 rfl, fun i hi => ⟨Lanes.rot_mask _ hi _, Lanes.rot_data _ hi _⟩⟩,
    fun j k hsub hj hjk hk _ h => ?exchange, fun tk v hv hdue hleast => ?emit⟩
  case reduction =>
    obtain ⟨g, hg, hexec⟩ := reductions_fire e he
    exact ⟨_, h.sendsWide1 (hexec f s), fun _ hroot => hroot ▸ hg _⟩
  case permLanes =>
    subst hsel
    have hmode : f.sub.toNat = 0 := congrArg BitVec.toNat hsub
    rw [hmode]
    exact ⟨Lanes.perm_lanes_cleared _ _ hi, Lanes.perm_lanes_selected _ _ hi⟩
  case permBytes =>
    have hmode : f.sub.toNat ≠ 0 := fun h => hsub (BitVec.eq_of_toNat_eq h)
    refine ⟨Lanes.perm_bytes_mask _ _ hmode, ?_⟩
    rintro j _ hj rfl
    exact Lanes.perm_bytes_data _ _ hmode hj
  case exchange =>
    refine ⟨_, Lanes.exchanged f.etype f.sub.toNat (m.wide .l) (m.wide .l),
      Lanes.exchanged f.etype f.sub.toNat (m.wide .l) (m.wide .r), h.exchanges, Site.dests_exchangeResults ..,
      fun horder x hx => ?payloads, ?lanes⟩
    case payloads =>
      obtain ⟨htag, hpayload⟩ := Site.of_mem_exchangeResults _ _ _ _ hx horder
      refine ⟨htag, hpayload.trans ?_⟩
      by_cases hr : m.payload? .r = none
      · rw [Match.wide?_of_none hr, Option.map_none, Option.getD_none, ite_self, if_neg fun h => h.2 hr]
      · rw [Match.wide?_of_some hr, Option.map_some, Option.getD_some, ← apply_ite Payload.wide]
        exact congrArg Payload.wide (if_congr (and_iff_left hr).symm rfl rfl)
    case lanes =>
      intro i q up swap hi hlow hq hup hswap x y hxy
      have hy : y = Lanes.exchanged f.etype f.sub.toNat (m.wide .l) x := by
        simp only [List.mem_cons, Prod.mk.injEq, List.not_mem_nil, or_false] at hxy
        rcases hxy with ⟨rfl, rfl⟩ | ⟨rfl, rfl⟩ <;> rfl
      exact exchanged_pair hsub hj hi hlow hup x hy hq hswap
  case emit => exact execVectorResultEmit_earliest (foldl_earlier _ _ nofun hleast (.inr hv)) hdue

end Sys2Proof.Claims

namespace Sys2Proof

/-- Settles O34: the shapes of the conversions, then the moves and the result that leaves. -/
theorem vectorConversionsAndMoves : Obligations.VectorConversionsAndMoves := ⟨Claims.vectorConversions, Claims.vectorMoves⟩

end Sys2Proof
end

section
/-!
PROOFS. A firing of the memory unit (12_ops_memory.md R235, R236): what the taking of its operands leaves as it was, and which way it goes.
-/
namespace Sys2Proof.Machine

/-! The state of a firing under way -/

/-- Nothing differs but the count of free values, and of the tiles what taking operands and granting entries change. -/
structure Begins (s u : State) : Prop where
  frame : u = { s with tiles := u.tiles, free := u.free }
  tile : ∀ k, u.tile k = { s.tile k with
    store := (u.tile k).store, slots := (u.tile k).slots, lastFired := (u.tile k).lastFired, latch := (u.tile k).latch
    resume := (u.tile k).resume, grantFrom := (u.tile k).grantFrom }

namespace Begins
variable {s t u : State}

theorem refl (s : State) : Begins s s := ⟨rfl, fun _ => rfl⟩
theorem trans (a : Begins s t) (b : Begins t u) : Begins s u := ⟨by rw [b.frame, a.frame], fun k => by rw [b.tile, a.tile]⟩
theorem modTile (s : State) (tk : Nat) {g : Tile → Tile} (h : ∀ x, g x = { x with
    store := (g x).store, slots := (g x).slots, lastFired := (g x).lastFired, latch := (g x).latch, resume := (g x).resume
    grantFrom := (g x).grantFrom }) : Begins s (s.modTile tk g) := by
  refine ⟨rfl, fun k => ?_⟩
  by_cases hk : k = tk
  · subst hk; rw [State.tile_modTile_self]; exact h _
  · rw [State.tile_modTile_other _ _ hk]
theorem lValue (s : State) (m : Match) : Begins s (s.lValue m).1 := by
  unfold State.lValue
  split
  · exact refl s
  · exact refl s
  · exact ⟨rfl, fun _ => rfl⟩
theorem started (s : State) (q : Site) : Begins s (s.started q) := modTile s q.tk fun _ => rfl
theorem pointGrants (s : State) (q : Site) (m : Match) : Begins s (s.pointGrants q m) :=
  foldl_rel refl (fun _ _ _ => trans) _ (fun a dst => by
    split
    · exact refl a
    · exact modTile a dst fun _ => rfl) _ _
theorem taken (s : State) (opc : Nat) (f : OpFields) (m : Match) : Begins s (Claims.taken s opc f m) :=
  ((modTile s _ fun _ => rfl).trans (started _ _)).trans (pointGrants _ _ _)
theorem of_lValue {opc : Nat} {f : OpFields} {m : Match} {v : Int} (h : (Claims.taken s opc f m).lValue m = (u, v)) : Begins s u := by
  have := (taken s opc f m).trans (lValue (Claims.taken s opc f m) m)
  rwa [h] at this
theorem of_ready {opc : Nat} {f : OpFields} {m : Match} {t : Tag} (h : Claims.Ready s opc f m u t) : Begins s u := by
  obtain ⟨-, -, v, hl, -⟩ := h
  exact of_lValue hl

/-! What an operator reads of it -/

variable (h : Begins s u) (k : Nat)
include h

theorem cycles : u.cycles = s.cycles := by rw [h.frame]
theorem dram : u.dram = s.dram := by rw [h.frame]
theorem dies : u.dies = s.dies := by rw [h.frame]
theorem nextId : u.nextId = s.nextId := by rw [h.frame]
theorem releases : u.releases = s.releases := by rw [h.frame]
theorem colour (c : Colour) : u.colour c = s.colour c := by rw [h.frame]; rfl
theorem launch? (ck ctx : Nat) : u.launch? ck ctx = s.launch? ck ctx := by rw [h.frame]; rfl
theorem leafCheck (c : Colour) (level e va : Nat) (rd wr : Bool) : u.leafCheck c level e va rd wr = s.leafCheck c level e va rd wr := by
  rw [h.frame]; rfl
theorem accesses : (u.tile k).accesses = (s.tile k).accesses := by rw [h.tile k]
theorem walks : (u.tile k).walks = (s.tile k).walks := by rw [h.tile k]
theorem stash : (u.tile k).stash = (s.tile k).stash := by rw [h.tile k]
theorem touched : (u.tile k).touched = (s.tile k).touched := by rw [h.tile k]
theorem scratch : (u.tile k).scratch = (s.tile k).scratch := by rw [h.tile k]
theorem tlb : (u.tile k).tlb = (s.tile k).tlb := by rw [h.tile k]
theorem regs : (u.tile k).regs = (s.tile k).regs := by rw [h.tile k]
theorem xlateTile (tk : Nat) (c : Colour) (va : Nat) (rd wr : Bool) : u.xlateTile tk c va rd wr = s.xlateTile tk c va rd wr := by
  simp only [State.xlateTile, h.colour, h.tlb, h.leafCheck]
theorem groupAddr (q : Site) : u.groupAddr q = s.groupAddr q := by rw [State.groupAddr, h.regs, State.groupAddr]
theorem liveObject (w : World) (x : Handle) : u.liveObject w x = s.liveObject w x := by rw [h.frame]; rfl
theorem touchNow : u.touchNow = s.touchNow := by rw [h.frame]; rfl

end Begins

end Sys2Proof.Machine

namespace Sys2Proof.Claims
open Machine

/-! Which way a firing of data goes -/

section
variable {s u : State} {opc : Nat} {f : OpFields} {m : Match} {t : Tag} {act : State → Site → Match → Tag → State}

/-- A firing of data takes its operands, unless a walk comes first. -/
theorem Fires.fireMem_data (h : Claims.Fires s opc f m) (he : m.eos = false) : s.fireMem opc f act =
    if suppressed opc m then
      if f.flags.order then
        ((Claims.taken s opc f m).tagOr (s.site opc f) m).1.output (s.site opc f) m
          ((s.site opc f).toAll .order ((Claims.taken s opc f m).tagOr (s.site opc f) m).2) (m.at? .l)
      else (Claims.taken s opc f m).returnCredits s.actor.tk m.operands
    else if opc = 0x170 then
      act ((Claims.taken s opc f m).tagOr (s.site opc f) m).1 (s.site opc f) m ((Claims.taken s opc f m).tagOr (s.site opc f) m).2
    else if s.needsWalk (s.site opc f) m then
      ((s.started (s.site opc f)).pointGrants (s.site opc f) m).modTile s.actor.tk fun t =>
        { t with
          walks := t.walks ++ [⟨s.actor.slot, m.tag, (s.lookedUp (s.site opc f) m).getD 0, memWrites opc⟩]
          store := t.store.map fun (e : Nat × Entry) =>
            if (m.operands.map (·.idx)).contains e.1 then (e.1, { e.2 with state := .walking }) else e }
    else (Claims.taken s opc f m).withTag (s.site opc f) m m.tag fun s' t => act s' (s.site opc f) m t := by
  obtain ⟨hbest, hbusy, hrank, hyield, hcount, hpoison⟩ := h
  have hstart : s.canStart (s.site opc f) m = true := State.canStart_iff.mpr ⟨hbusy, hrank, hyield, hcount⟩
  simp only [State.fireMem, hbest, hstart, he, hpoison, State.consume_after_grants, State.noteClosed_data _ _ he]
  rfl

theorem Ready.tagOr (h : Claims.Ready s opc f m u t) : (Claims.taken s opc f m).tagOr (s.site opc f) m = (u, t) := by
  obtain ⟨-, -, v, hl, ht⟩ := h
  simp only [State.tagOr, hl]
  exact congrArg (u, ·.getD m.tag) ht

section
variable (h : Claims.Accesses s opc f m)
include h

theorem Accesses.fireMem_starts (hopc : opc ≠ 0x170) (hw : s.needsWalk (s.site opc f) m = false) : s.fireMem opc f act =
    (Claims.taken s opc f m).withTag (s.site opc f) m m.tag fun s' t => act s' (s.site opc f) m t := by
  obtain ⟨hf, he, hs⟩ := h
  rw [hf.fireMem_data he, if_neg (by simp [hs]), if_neg hopc, if_neg (by simp [hw])]
/-- A firing whose access happens, under its result tag. -/
theorem Accesses.fireMem_eq (hr : Claims.Ready s opc f m u t) (hw : s.needsWalk (s.site opc f) m = false)
    (hopc : opc ≠ 0x170 := by decide) : s.fireMem opc f act = act u (s.site opc f) m t := by
  obtain ⟨-, -, v, hl, ht⟩ := hr
  rw [h.fireMem_starts hopc hw]
  exact State.withTag_eq _ hl ht

end

end

end Sys2Proof.Claims
end

section
/-!
PROOFS. A firing's access joins the outstanding table of its tile (12_ops_memory.md R235): what it holds, and what issuing it leaves as it was.
-/
namespace Sys2Proof.Machine

/-- The access of a firing of the word at a site: its data operands are the firing's, and L's credit stays with it. -/
structure Access.IsOf (a : Access) (q : Site) (m : Match) (t : Tag) : Prop where
  opc : a.opc = q.opc
  slot : a.slot = q.slot
  fields : a.fields = q.f
  tag : a.tag = m.tag
  out : a.out = t
  r : a.r = m.payload? .r
  c : a.c = m.payload? .c
  poison : a.poison = m.poison
  credit : a.credit = (m.at? .l).bind (·.entry.token.credit)

/-- A change of the newest access, where no other has its number. -/
theorem map_newest {l : List Access} {a : Access} (g : Access → Access) (h : ∀ b ∈ l, b.id ≠ a.id) :
    ((l ++ [a]).map fun b => if b.id = a.id then g b else b) = l ++ [g a] := by
  rw [List.map_append, List.map_congr_left fun b hb => if_neg (h b hb), List.map_id', List.map_singleton, if_pos rfl]

end Sys2Proof.Machine

namespace Sys2Proof.Claims
open Machine

section
variable {s v w : State} {opc : Nat} {f : OpFields} {m : Match} {t : Tag} {a : Access}

theorem outstanding_iff : Outstanding s w opc f m t a ↔
    (w.tile s.actor.tk).accesses = (s.tile s.actor.tk).accesses ++ [a] ∧ a.IsOf (s.site opc f) m t :=
  and_congr_right fun _ => ⟨fun ⟨h1, h2, h3, h4, h5, h6, h7, h8, h9⟩ => ⟨h1, h2, h3, h4, h5, h6, h7, h8, h9⟩,
    fun ⟨h1, h2, h3, h4, h5, h6, h7, h8, h9⟩ => ⟨h1, h2, h3, h4, h5, h6, h7, h8, h9⟩⟩
theorem Outstanding.changed {g : Access → Access} (h : Outstanding s v opc f m t a) (hnew : ∀ b ∈ (s.tile s.actor.tk).accesses, b.id ≠ a.id)
    (hw : (w.tile s.actor.tk).accesses = (v.tile s.actor.tk).accesses.map fun b => if b.id = a.id then g b else b)
    (hg : (g a).IsOf (s.site opc f) m t) : Outstanding s w opc f m t (g a) := by
  obtain ⟨hv, -⟩ := outstanding_iff.mp h
  exact outstanding_iff.mpr ⟨by rw [hw, hv, map_newest g hnew], hg⟩

end

end Sys2Proof.Claims

namespace Sys2Proof.Machine

/-- State `u` issues the access `a` at address `addr`, and is then `v`: credits have gone back, the destinations hold entries, and the
access is the newest of its tile. -/
structure Issues (u : State) (q : Site) (m : Match) (t : Tag) (addr : Nat) (v : State) (a : Access) : Prop where
  frame : v = { u with tiles := v.tiles, clusters := v.clusters, nextId := v.nextId }
  tile : ∀ k, v.tile k = { u.tile k with reserved := (v.tile k).reserved, accesses := (v.tile k).accesses }
  accesses : (v.tile q.tk).accesses = (u.tile q.tk).accesses ++ [a]
  isOf : a.IsOf q m t
  id : a.id = u.nextId
  addr : a.addr = addr
  phase : a.phase = .sent
  ok : a.ok = true

theorem State.issueAccess_issues (u : State) (q : Site) (m : Match) (t : Tag) (addr : Nat) :
    ∃ v a, Issues u q m t addr v a ∧ ∀ k, u.issueAccess q m t addr k = k v a := by
  refine ⟨_, _, ⟨?frame, fun k => ?tile, ?accesses, ⟨rfl, rfl, rfl, rfl, rfl, rfl, rfl, rfl, rfl⟩, rfl, rfl, rfl, rfl⟩, fun k => rfl⟩
  case frame => rw [State.holdAll_frame, State.returnCredits_frame]; rfl
  case accesses => rw [State.tile_modTile_self, State.tile_holdAll, State.tile_returnCredits]; rfl
  case tile =>
    by_cases hk : k = q.tk
    · rw [hk, State.tile_modTile_self, State.tile_holdAll, State.tile_returnCredits]; rfl
    · rw [State.tile_modTile_other _ _ hk, State.tile_holdAll, State.tile_returnCredits]; rfl

/-! The access in the table of its tile, and once it has changed there -/

namespace Issues
variable {s u v w : State} {opc addr : Nat} {f : OpFields} {m : Match} {t : Tag} {a : Access} {g : Access → Access}
variable (h : Issues u (s.site opc f) m t addr v a)
include h

theorem outstanding (ha : (u.tile s.actor.tk).accesses = (s.tile s.actor.tk).accesses) : Claims.Outstanding s v opc f m t a :=
  Claims.outstanding_iff.mpr ⟨by rw [← ha]; exact h.accesses, h.isOf⟩
theorem newest (hid : u.nextId = s.nextId) (hfresh : Claims.FreshId s) : ∀ b ∈ (s.tile s.actor.tk).accesses, b.id ≠ a.id := fun b hb =>
  Nat.ne_of_lt (by rw [h.id, hid]; exact hfresh b hb)
theorem outstanding_answer (ha : (u.tile s.actor.tk).accesses = (s.tile s.actor.tk).accesses) (hid : u.nextId = s.nextId)
    (hfresh : Claims.FreshId s) (hg : (g a).IsOf (s.site opc f) m t) :
    Claims.Outstanding s (v.answer s.actor.tk a.id g) opc f m t { g a with phase := .answered, since := v.cycles + 1 } :=
  (h.outstanding ha).changed (g := fun b => { g b with phase := .answered, since := v.cycles + 1 }) (h.newest hid hfresh)
    (by rw [State.answer, State.tile_modTile_self]) { hg with }
theorem mem : a ∈ (v.tile s.actor.tk).accesses := by
  rw [show (v.tile s.actor.tk).accesses = _ from h.accesses]
  exact List.mem_append_right _ (List.mem_singleton_self a)
theorem mem_changed (hw : (w.tile s.actor.tk).accesses = (v.tile s.actor.tk).accesses.map fun b => if b.id = a.id then g b else b) :
    g a ∈ (w.tile s.actor.tk).accesses := by
  rw [hw]
  exact List.mem_map.mpr ⟨a, h.mem, if_pos rfl⟩
theorem issued_changed (hw : (w.tile s.actor.tk).accesses = (v.tile s.actor.tk).accesses.map fun b => if b.id = a.id then g b else b)
    (hg : (g a).IsOf (s.site opc f) m t) (haddr : (g a).addr = a.addr) : Claims.Issued s w opc f t addr :=
  ⟨g a, h.mem_changed hw, hg.opc, hg.fields, hg.out, haddr.trans h.addr⟩
theorem issued_answer (hg : (g a).IsOf (s.site opc f) m t) (haddr : (g a).addr = a.addr) :
    Claims.Issued s (v.answer s.actor.tk a.id g) opc f t addr :=
  h.issued_changed (g := fun b => { g b with phase := .answered, since := v.cycles + 1 }) (by rw [State.answer, State.tile_modTile_self])
    { hg with } haddr

end Issues

end Sys2Proof.Machine
end

section
/-!
PROOFS. The operators that access the address L + IMM32 (12_ops_memory.md R233 to R236): the checks of the address in their order, the walk, and
the access that a firing starts.
-/
namespace Sys2Proof.Machine

/-! The checks of an address (R233, R234) -/

/-- The opcodes of the address operators, `ldg` apart. -/
def addressOpc (opc : Nat) : Prop := (0x140 ≤ opc ∧ opc ≤ 0x149) ∨ (0x150 ≤ opc ∧ opc ≤ 0x152) ∨ (0x160 ≤ opc ∧ opc ≤ 0x167)
theorem addressOps_opc : ∀ e ∈ Claims.addressOps, addressOpc e.2 := by
  simp [Claims.addressOps, addressOpc]
theorem addressOps_fireAddr (f : OpFields) (s : State) : ∀ e ∈ Claims.addressOps, exec (e.1 f) s = .next (s.fireAddr e.2 f) := by
  simp only [Claims.addressOps, List.forall_mem_cons, List.not_mem_nil, false_implies, implies_true, and_true]
  exact ⟨rfl, rfl, rfl, rfl, rfl, rfl, rfl, rfl, rfl, rfl, rfl, rfl, rfl, rfl, rfl, rfl, rfl, rfl, rfl, rfl, rfl⟩

theorem inWindow_iff {va : Nat} (h : va < 2 ^ 47) : inWindow va = true ↔ windowBase ≤ va := by
  simp only [inWindow, windowBase, decide_eq_true_eq]
  omega
theorem inWindow_eq_false {va : Nat} (h : va < windowBase) : inWindow va = false := by
  simp only [inWindow, decide_eq_false_iff_not, windowBase] at h ⊢
  omega

section
variable {opc va : Nat}

theorem memAlign_of_addressOpc (h : addressOpc opc) : memAlign opc = if opc = 0x142 ∨ opc = 0x146 then 1
    else if opc = 0x143 ∨ opc = 0x147 then 2 else if opc = 0x144 ∨ opc = 0x148 then 4 else if opc = 0x145 ∨ opc = 0x149 then 8 else 64 := by
  have hldg : opc ≠ 0x158 := by rintro rfl; simp [addressOpc] at h
  simp only [memAlign, if_neg hldg]
theorem addrCheck_range {a : Int} (h : a < 0 ∨ 2 ^ 47 ≤ a) : addrCheck opc a = .error 0x14 := if_pos h
theorem addrCheck_natCast (h : va < 2 ^ 47) : addrCheck opc va =
    if (0x150 ≤ opc && opc ≤ 0x152 && !inWindow va) || (opc = 0x158 && inWindow va) then .error 0x1C
    else if va % memAlign opc != 0 then .error 0x1B else .ok va := by
  have hrange : ¬ ((va : Int) < 0 ∨ (va : Int) ≥ 2 ^ 47) := by omega
  simp only [addrCheck, if_neg hrange, Int.toNat_natCast]
theorem addrCheck_space (h : va < windowBase) (hopc : 0x150 ≤ opc ∧ opc ≤ 0x152) : addrCheck opc va = .error 0x1C := by
  rw [addrCheck_natCast (h.trans (by decide)), inWindow_eq_false h]
  simp [hopc]
/-- A full/empty operator stays in the window (R234). -/
theorem spaceOk_of_addressOpc (h : addressOpc opc) (hva : va < 2 ^ 47) (hspace : ¬ (0x150 ≤ opc ∧ opc ≤ 0x152 ∧ va < windowBase)) :
    ((0x150 ≤ opc && opc ≤ 0x152 && !inWindow va) || (opc = 0x158 && inWindow va)) = false := by
  have hldg : opc ≠ 0x158 := by rintro rfl; simp [addressOpc] at h
  by_cases hwindow : windowBase ≤ va
  · simp [(inWindow_iff hva).mpr hwindow, hldg]
  · have hfe : ¬ (0x150 ≤ opc ∧ opc ≤ 0x152) := fun hfe => hspace ⟨hfe.1, hfe.2, by omega⟩
    simpa [hldg, inWindow_eq_false (Nat.lt_of_not_le hwindow)] using hfe
theorem addrCheck_align (h : addressOpc opc) (hva : va < 2 ^ 47) (hspace : ¬ (0x150 ≤ opc ∧ opc ≤ 0x152 ∧ va < windowBase))
    (halign : va % memAlign opc ≠ 0) : addrCheck opc va = .error 0x1B := by
  simp [addrCheck_natCast hva, spaceOk_of_addressOpc h hva hspace, halign]
theorem addrCheck_ok (h : addressOpc opc) (hva : va < 2 ^ 47) (hspace : ¬ (0x150 ≤ opc ∧ opc ≤ 0x152 ∧ va < windowBase))
    (halign : va % memAlign opc = 0) : addrCheck opc va = .ok va := by
  simp [addrCheck_natCast hva, spaceOk_of_addressOpc h hva hspace, halign]

end

/-! What the tile's TLB looks up (R235) -/

section
variable {s : State} {opc : Nat} {f : OpFields} {m : Match}

theorem memAddr_of_addressOpc (h : addressOpc opc) : memAddr (s.site opc f) m = m.value .l + f.imm.toInt := by
  have hldg : opc ≠ 0x158 := by rintro rfl; simp [addressOpc] at h
  exact congrArg (m.value .l + ·) (if_neg hldg)
theorem State.needsWalk_of_lookedUp_none {q : Site} (h : s.lookedUp q m = none) : s.needsWalk q m = false := by
  simp only [State.needsWalk, h]
theorem State.lookedUp_error {q : Site} {k : Nat} (h : addrCheck q.opc (memAddr q m) = .error k) : s.lookedUp q m = none := by
  simp only [State.lookedUp, h, ite_self]
theorem State.lookedUp_window {q : Site} {va : Nat} (h : addrCheck q.opc (memAddr q m) = .ok va) (hwin : inWindow va = true)
    (hldg : q.opc ≠ 0x158) : s.lookedUp q m = none := by
  simp only [State.lookedUp, h, if_neg hldg, hwin, if_true, ite_self]
theorem State.lookedUp_page {va : Nat} (hopc : addressOpc opc) (hs : suppressed opc m = false) (he : m.eos = false)
    (h : addrCheck opc (memAddr (s.site opc f) m) = .ok va) (hwin : inWindow va = false) : s.lookedUp (s.site opc f) m = some va := by
  have haddr : addrOp opc = true := by
    simp only [addressOpc] at hopc
    simp only [addrOp, Bool.or_eq_true, Bool.and_eq_true, decide_eq_true_eq]
    omega
  have hldg : opc ≠ 0x158 := by rintro rfl; simp [addressOpc] at hopc
  have hgate : (!addrOp opc || m.eos || suppressed opc m) = false := by simp [haddr, he, hs]
  simp only [State.lookedUp, show (s.site opc f).opc = opc from rfl, hgate, Bool.false_eq_true, if_false, h, if_neg hldg, hwin]

end

end Sys2Proof.Machine

namespace Sys2Proof.Claims
open Machine

/-! A firing whose access happens -/

namespace Accesses
variable {s u : State} {opc va : Nat} {f : OpFields} {m : Match} {t : Tag}
variable (h : Accesses s opc f m) (hopc : addressOpc opc)
include h hopc

theorem fireAddr_fault {k : Nat} (hr : Ready s opc f m u t) (hcheck : addrCheck opc (memAddr (s.site opc f) m) = .error k) :
    s.fireAddr opc f = u.faultFiring (s.site opc f) m k (memAddr (s.site opc f) m % (2 ^ 64 : Nat)).toNat := by
  have hfence : opc ≠ 0x170 := by rintro rfl; simp [addressOpc] at hopc
  rw [State.fireAddr, h.fireMem_eq hr (State.needsWalk_of_lookedUp_none (State.lookedUp_error hcheck)) hfence]
  simp only [hcheck]
/-- The access starts where its address is in the scratchpad window, or its page is mapped for it. -/
theorem fireAddr_starts (hr : Ready s opc f m u t) (hcheck : addrCheck opc (memAddr (s.site opc f) m) = .ok va)
    (hgoes : inWindow va = true ∨ s.needsWalk (s.site opc f) m = false ∧
      ∃ x, s.xlateTile s.actor.tk m.tag.colour va (memReads opc) (memWrites opc) = .ok x) :
    ∃ v a, Issues u (s.site opc f) m t va v a ∧ s.fireAddr opc f = v.startAccess s.actor.tk a := by
  have hfence : opc ≠ 0x170 := by rintro rfl; simp [addressOpc] at hopc
  have hldg : opc ≠ 0x158 := by rintro rfl; simp [addressOpc] at hopc
  obtain ⟨v, a, hissues, heq⟩ := u.issueAccess_issues (s.site opc f) m t va
  refine ⟨v, a, hissues, ?_⟩
  rcases hgoes with hwin | ⟨hw, x, hx⟩
  · rw [State.fireAddr, h.fireMem_eq hr (State.needsWalk_of_lookedUp_none (State.lookedUp_window hcheck hwin hldg)) hfence]
    simp only [hcheck, hwin, if_true, heq]
    rfl
  · have hu : u.xlateTile (s.site opc f).tk m.tag.colour va (memReads opc) (memWrites opc) = .ok x :=
      ((Begins.of_ready hr).xlateTile ..).trans hx
    rw [State.fireAddr, h.fireMem_eq hr hw hfence]
    simp only [hcheck, hu, heq, ite_self]
    rfl
theorem fireAddr_unmapped {k : Nat} (hr : Ready s opc f m u t) (hcheck : addrCheck opc (memAddr (s.site opc f) m) = .ok va)
    (hwin : inWindow va = false) (hw : s.needsWalk (s.site opc f) m = false)
    (hx : s.xlateTile s.actor.tk m.tag.colour va (memReads opc) (memWrites opc) = .error k) :
    s.fireAddr opc f = (u.tilePoison s.actor.tk m.tag.colour k va).faultFiring (s.site opc f) m k va := by
  have hfence : opc ≠ 0x170 := by rintro rfl; simp [addressOpc] at hopc
  have hu : u.xlateTile (s.site opc f).tk m.tag.colour va (memReads opc) (memWrites opc) = .error k :=
    ((Begins.of_ready hr).xlateTile ..).trans hx
  rw [State.fireAddr, h.fireMem_eq hr hw hfence]
  simp only [hcheck, hwin, hu, Bool.false_eq_true, if_false]
  rfl
/-- A TLB miss starts a walk, and the operands stay in the store (R235). -/
theorem fireAddr_walks (hcheck : addrCheck opc (memAddr (s.site opc f) m) = .ok va) (hwin : inWindow va = false)
    (hw : s.needsWalk (s.site opc f) m = true) : s.fireAddr opc f =
      ((s.started (s.site opc f)).pointGrants (s.site opc f) m).modTile s.actor.tk fun t =>
        { t with
          walks := t.walks ++ [⟨s.actor.slot, m.tag, va, memWrites opc⟩]
          store := t.store.map fun (e : Nat × Entry) =>
            if (m.operands.map (·.idx)).contains e.1 then (e.1, { e.2 with state := .walking }) else e } := by
  have hfence : opc ≠ 0x170 := by rintro rfl; simp [addressOpc] at hopc
  obtain ⟨hf, he, hs⟩ := h
  rw [State.fireAddr, hf.fireMem_data he, if_neg (by simp [hs]), if_neg hfence, if_pos hw, State.lookedUp_page hopc hs he hcheck hwin]
  rfl

end Accesses

end Sys2Proof.Claims
end

section
/-!
PROOFS. The operators that access the address L + IMM32 (12_ops_memory.md R233 to R236): an access of the scratchpad window goes to its bank, and
which way each operator goes.
-/
namespace Sys2Proof.Machine

/-! An access in the scratchpad window (R161, R233) -/

theorem State.expectAck_frame (s : State) (ck ctx : Nat) : s.expectAck ck ctx = { s with clusters := (s.expectAck ck ctx).clusters } :=
  State.modLaunch_frame ..
theorem State.tile_expectAck (s : State) (ck ctx k : Nat) : (s.expectAck ck ctx).tile k = s.tile k := State.tile_modLaunch ..
theorem State.dram_expectAck (s : State) (ck ctx : Nat) : (s.expectAck ck ctx).dram = s.dram := by rw [State.expectAck_frame]
theorem State.accesses_setPhase (s : State) (tk id : Nat) (p : AccessPhase) : ((s.setPhase tk id p).tile tk).accesses =
    (s.tile tk).accesses.map fun b => if b.id = id then { b with phase := p } else b := by
  rw [State.setPhase, State.tile_modTile_self]
theorem State.scratch_setPhase (s : State) (tk id : Nat) (p : AccessPhase) (k : Nat) :
    ((s.setPhase tk id p).tile k).scratch = (s.tile k).scratch := by
  rw [State.setPhase, State.tile_modTile_keeps Tile.scratch]
  exact fun _ => rfl

/-- It waits at its own tile's bank, or that of no tile, and leaves for another tile's. -/
theorem State.startAccess_window (s : State) (tk : Nat) {a : Access} (hwin : inWindow a.addr = true) (hc : a.fields.flags.commit = false) :
    ∃ v : State, (∀ k, v.tile k = s.tile k) ∧ v.dram = s.dram ∧ s.startAccess tk a =
      if a.addr % 2 ^ 24 / 2 ^ 16 = tiOf tk then v.setPhase tk a.id .bank else v.sendRemote tk a := by
  refine ⟨if memWrites a.opc || a.opc = 0x152 then s.expectAck (ckOf tk) a.tag.ctx.toNat else s, fun k => ?tile, ?dram, ?eq⟩
  case tile =>
    split
    · exact State.tile_expectAck ..
    · rfl
  case dram =>
    split
    · exact State.dram_expectAck ..
    · rfl
  case eq => simp only [State.startAccess, hwin, hc, Bool.false_and, Bool.false_eq_true, if_true, if_false]
theorem State.startAccess_bank (s : State) (tk : Nat) {a : Access} (hwin : inWindow a.addr = true) (hc : a.fields.flags.commit = false) :
    ∃ p, ((s.startAccess tk a).tile tk).accesses = ((s.tile tk).accesses.map fun b => if b.id = a.id then { b with phase := p } else b) ∧
      Claims.GoesToBank (s.startAccess tk a) tk { a with phase := p } ∧ (s.startAccess tk a).dram = s.dram ∧
      ∀ k, ((s.startAccess tk a).tile k).scratch = (s.tile k).scratch := by
  obtain ⟨v, htile, hdram, heq⟩ := s.startAccess_window tk hwin hc
  rw [heq]
  have hphase : ∀ p, ((v.setPhase tk a.id p).tile tk).accesses =
      ((s.tile tk).accesses.map fun b => if b.id = a.id then { b with phase := p } else b) ∧
      ∀ k, ((v.setPhase tk a.id p).tile k).scratch = (s.tile k).scratch := fun p =>
    ⟨by rw [State.accesses_setPhase, htile], fun k => by rw [State.scratch_setPhase, htile]⟩
  by_cases hown : a.addr % 2 ^ 24 / 2 ^ 16 = tiOf tk
  · rw [if_pos hown]
    exact ⟨.bank, (hphase _).1, ⟨fun _ => rfl, fun hother => absurd hown hother⟩, hdram, (hphase _).2⟩
  rw [if_neg hown, State.sendRemote]
  by_cases htile : a.addr % 2 ^ 24 / 2 ^ 16 < 192
  · rw [if_pos htile]
    refine ⟨.sent, (hphase _).1, ⟨fun h => ?_, fun _ _ => ⟨rfl, ?_⟩⟩, hdram, (hphase _).2⟩
    · exact absurd h (not_or.mpr ⟨hown, Nat.not_le.mpr htile⟩)
    · rw [State.flits_inject, List.getLast?_concat]
      rfl
  · rw [if_neg htile]
    exact ⟨.bank, (hphase _).1, ⟨fun _ => rfl, fun _ hgrid => absurd hgrid htile⟩, hdram, (hphase _).2⟩

end Sys2Proof.Machine

namespace Sys2Proof.Claims
open Machine

/-! The firings -/

theorem memoryOperatorsIssue : MemoryOperatorsIssue := by
  rintro ⟨i, opc⟩ hmem s u f m _ a n rfl ha hn
  have hopc : addressOpc opc := addressOps_opc _ hmem
  have hfence : opc ≠ 0x170 := by rintro rfl; simp [addressOpc] at hopc
  have hexec := addressOps_fireAddr f s _ hmem
  have haddr : memAddr (s.site opc f) m = a := (memAddr_of_addressOpc hopc).trans ha.symm
  simp only [← memAlign_of_addressOpc hopc] at hn
  simp only at hexec ⊢
  subst hn
  rw [hexec]
  refine ⟨fun hf he hs => ⟨fun horder => ?guard, fun t horder hr => ?order⟩,
    fun h => ⟨fun v hw hl ht => ?tagRange, fun t hr ha => ?range, ?_⟩⟩
  case guard => rw [State.fireAddr, hf.fireMem_data he, if_pos hs, if_neg (by simp [horder])]
  case order =>
    rw [State.fireAddr, hf.fireMem_data he, if_pos hs, if_pos horder, hr.tagOr]
    rfl
  case tagRange =>
    rw [State.fireAddr, h.fireMem_starts hfence hw]
    exact congrArg Host.Outcome.next (State.withTag_range _ hl ht)
  case range =>
    rw [h.fireAddr_fault hopc hr (addrCheck_range (haddr.symm ▸ ha)), haddr]
    rfl
  rintro va rfl hva
  have hword : ((va : Int) % (2 ^ 64 : Nat)).toNat = va := by omega
  have hfault : ∀ {t k}, Ready s opc f m u t → addrCheck opc va = .error k → s.fireAddr opc f = u.faultFiring (s.site opc f) m k va := by
    intro t k hr hcheck
    rw [h.fireAddr_fault hopc hr (haddr.symm ▸ hcheck), haddr, hword]
  refine ⟨fun t hr h1 h2 hspace => ?space, fun t hr hspace halign => ?align, fun halign hwindow hc hfresh t hr => ?window,
    fun halign hpage hspace => ⟨fun hw => ?walk, fun k t hw hx hr => ?unmapped, fun x t hw hx hr => ?page⟩⟩
  case space => rw [hfault hr (addrCheck_space hspace ⟨h1, h2⟩)]
  case align => rw [hfault hr (addrCheck_align hopc hva hspace halign)]
  case window =>
    have hcheck : addrCheck opc va = .ok va := addrCheck_ok hopc hva (fun hfe => by omega) halign
    have hwin : inWindow va = true := (inWindow_iff hva).mpr hwindow
    obtain ⟨v, x, hissues, heq⟩ := h.fireAddr_starts hopc hr (haddr.symm ▸ hcheck) (.inl hwin)
    have hbegins := Begins.of_ready hr
    obtain ⟨p, haccesses, hbank, hdram, hscratch⟩ :=
      v.startAccess_bank s.actor.tk (a := x) (hissues.addr ▸ hwin) (hissues.isOf.fields ▸ hc)
    refine ⟨_, { x with phase := p }, congrArg Host.Outcome.next heq, ?_, hissues.addr, hbank, ?_, fun k => ?_⟩
    · exact (hissues.outstanding (hbegins.accesses _)).changed (hissues.newest hbegins.nextId hfresh) haccesses { hissues.isOf with }
    · rw [hdram, hissues.frame, ← hbegins.dram]
    · rw [hscratch, hissues.tile k, ← hbegins.scratch]
  all_goals
    have hcheck : addrCheck opc va = .ok va := addrCheck_ok hopc hva (fun hfe => hspace ⟨hfe.1, hfe.2.1⟩) halign
    have hwin : inWindow va = false := inWindow_eq_false hpage
  case walk =>
    have hbegins := (Begins.started s (s.site opc f)).trans (Begins.pointGrants _ (s.site opc f) m)
    have hstore : (((s.started (s.site opc f)).pointGrants (s.site opc f) m).tile s.actor.tk).store = (s.tile s.actor.tk).store := by
      rw [show s.actor.tk = (s.site opc f).tk from rfl, State.tile_pointGrants, State.started, State.tile_modTile_self]
      rfl
    refine ⟨_, congrArg Host.Outcome.next (h.fireAddr_walks hopc (haddr.symm ▸ hcheck) hwin hw), ?_, ?_, ?_, hbegins.dram⟩ <;>
      rw [show (s.site opc f).tk = s.actor.tk from rfl, State.tile_modTile_self]
    · exact congrArg (· ++ _) (hbegins.walks _)
    · simp only [hstore, List.contains_iff_mem]
    · exact hbegins.accesses _
  case unmapped => rw [h.fireAddr_unmapped hopc hr (haddr.symm ▸ hcheck) hwin hw hx]; rfl
  case page =>
    obtain ⟨v, y, hissues, heq⟩ := h.fireAddr_starts hopc hr (haddr.symm ▸ hcheck) (.inr ⟨hw, x, hx⟩)
    have hbegins := Begins.of_ready hr
    refine ⟨v, y, congrArg Host.Outcome.next heq, hissues.outstanding (hbegins.accesses _), hissues.addr, hissues.phase, ?_⟩
    rw [hissues.frame, ← hbegins.dram]

end Sys2Proof.Claims
end

section
/-!
PROOFS. An access whose page is mapped goes to its line (12_ops_memory.md R238, R241; 08_tile_memory.md R165, R166): the request that it posts, or
the copy in the stash that answers it.
-/
namespace Sys2Proof.Machine

/-! A request enters the mesh -/

theorem State.posts_post (s : State) {tk : Nat} {r : Request} (hr : r.src = .tile tk) :
    Claims.Posts (s.post r) tk { r with stamp := s.nextId } := by
  obtain ⟨v, hv⟩ : ∃ v : State, s.post r = v.inject (ckOf tk) (.tile (tiOf tk)) (portPlace (sliceExit tk r.sk)) false 0
      (.request { r with stamp := s.nextId }) := by
    simp only [State.post, hr]
    exact ⟨_, rfl⟩
  rw [hv]
  exact ⟨_, by rw [State.flits_inject, List.getLast?_concat], rfl, rfl, rfl, rfl, rfl⟩
theorem KeepsAccesses.slices {tk : Nat} {s t : State} (h : KeepsAccesses tk s t) : t.slices = s.slices := by rw [h.rest]
theorem KeepsAccesses.memory {tk : Nat} {s t : State} (h : KeepsAccesses tk s t) : t.dram = s.dram ∧ t.slices = s.slices :=
  ⟨h.dram, h.slices⟩

/-! The access that an answer names -/

theorem phase_of_mem_map {l : List Access} {id : Nat} {g : Access → Access} {p : AccessPhase} (hg : ∀ x, (g x).phase = p) {b : Access}
    (hb : b ∈ l.map fun x => if x.id = id then g x else x) (h : b.id = id) : b.phase = p := by
  obtain ⟨x, -, rfl⟩ := List.mem_map.mp hb
  by_cases hx : x.id = id
  · rw [if_pos hx, hg]
  · rw [if_neg hx] at h
    exact absurd h hx
theorem State.phase_answer {s : State} {tk id : Nat} {g : Access → Access} {b : Access} (hb : b ∈ ((s.answer tk id g).tile tk).accesses)
    (h : b.id = id) : b.phase = .answered := by
  rw [State.answer, State.tile_modTile_self] at hb
  exact phase_of_mem_map (g := fun x => { g x with phase := .answered, since := s.cycles + 1 }) (fun _ => rfl) hb h
/-- A load that is none of `gcoal` has all its bytes with its line. -/
theorem State.phase_load' {s : State} {tk id off : Nat} {d : BitVec 2048} {p : BitVec 4} {b : Access}
    (hb : b ∈ ((s.load' tk id d p off).tile tk).accesses) (h : b.id = id) (hopc : b.opc ≠ 0x021) : b.phase = .answered := by
  rw [State.load', State.tile_modTile_self] at hb
  obtain ⟨x, -, rfl⟩ := List.mem_map.mp hb
  by_cases hx : x.id = id
  · rw [if_pos hx] at hopc ⊢
    by_cases hgather : x.opc = 0x021
    · rw [if_pos hgather] at hopc
      exact absurd hgather hopc
    · rw [if_neg hgather]
      rfl
  · rw [if_neg hx] at h
    exact absurd h hx
theorem State.stash_answer (s : State) (tk id : Nat) (g : Access → Access) (k : Nat) :
    ((s.answer tk id g).tile k).stash = (s.tile k).stash := by
  rw [State.answer, State.tile_modTile_keeps Tile.stash]
  exact fun _ => rfl

/-! A copy in the stash (R165, R166) -/

theorem Tile.mem_of_stashHit {t : Tile} {pa : Nat} {key : Colour} {l : StashLine} (h : t.stashHit pa key = some l) : l ∈ t.stash := by
  unfold Tile.stashHit at h
  split at h
  · next hline =>
    split at h
    · exact Option.some.inj h ▸ List.mem_of_find?_eq_some hline
    · cases h
  · cases h
theorem Tile.mem_setStash {t : Tile} {l x : StashLine} (hl : l ∈ t.stash) (hpa : l.pa = x.pa) : x ∈ (t.setStash x).stash :=
  List.mem_map.mpr ⟨l, hl, if_pos hpa⟩
theorem State.tile_stashUse (s : State) (tk : Nat) (l : StashLine) :
    (s.stashUse tk l).tile tk = (s.tile tk).setStash { l with used := s.seq } :=
  State.tile_modTile_self s tk fun t => t.setStash { l with used := s.seq }
theorem State.mem_stash_use {s : State} {tk : Nat} {l x : StashLine} (hl : l ∈ (s.tile tk).stash) (hpa : l.pa = x.pa) :
    { x with used := s.seq } ∈ (((s.modTile tk fun t => t.setStash x).stashUse tk x).tile tk).stash := by
  have hset : x ∈ ((s.modTile tk fun t => t.setStash x).tile tk).stash := by
    rw [State.tile_modTile_self]
    exact Tile.mem_setStash hl hpa
  rw [State.tile_stashUse]
  exact Tile.mem_setStash hset rfl

/-! The ways of an access -/

section
variable {s : State} {tk : Nat} {a : Access} {x : Xlat}
variable (hdev : x.device = false)
include hdev

theorem State.accessLine_load (h : isAtomic a.opc = false) (hst : a.isStore = false) : s.accessLine tk a x =
    match if a.isHandle then none else (s.tile tk).stashHit x.pa x.key with
    | some l => (s.stashUse tk l).load' tk a.id l.data l.poison (x.pa % 256)
    | none => (s.stashDrop tk a.tag.ctx.toNat x.pa).post
        (a.request tk x (s.colour a.tag.colour).world (s.tile tk).pts .read true false) := by
  simp only [State.accessLine, hdev, h, hst, Bool.false_eq_true, if_false] <;> rfl

variable (hc : a.fields.flags.commit = false)
include hc

theorem State.accessLine_atomic (h : isAtomic a.opc = true) : s.accessLine tk a x = (s.stashDrop tk a.tag.ctx.toNat x.pa).post
    (a.request tk x (s.colour a.tag.colour).world (s.tile tk).pts (.atomic a.opc a.rWide a.cWide? a.poison) true true) := by
  simp only [State.accessLine, hdev, hc, h, if_true, Bool.false_eq_true, if_false]
theorem State.accessLine_store (h : isAtomic a.opc = false) (hst : a.isStore = true) : s.accessLine tk a x =
    if localScope (a.scope x.scope) && (s.tile tk).stashCap != 0 && !a.isHandle then
      match if a.isHandle then none else (s.tile tk).stashHit x.pa x.key with
      | some l => ((s.modTile tk fun t => t.setStash (l.merge (a.storeBytes (x.pa % 256)) a.poison)).stashUse tk
          (l.merge (a.storeBytes (x.pa % 256)) a.poison)).answer tk a.id fun a => a
      | none => ((s.stashDrop tk a.tag.ctx.toNat x.pa).expectAck (ckOf tk) a.tag.ctx.toNat).post
          (a.request tk x (s.colour a.tag.colour).world (s.tile tk).pts .read true false)
    else ((s.stashDrop tk a.tag.ctx.toNat x.pa).post (a.request tk x (s.colour a.tag.colour).world (s.tile tk).pts
      (.write (a.storeBytes (x.pa % 256)) a.poison) false true)).answer tk a.id fun a => a := by
  simp only [State.accessLine, hdev, hc, h, hst, if_true, Bool.false_eq_true, if_false] <;> rfl
/-- No byte of memory changes before a slice performs the access. -/
theorem State.accessLine_memory : (s.accessLine tk a x).dram = s.dram ∧ (s.accessLine tk a x).slices = s.slices := by
  have hdrop := KeepsAccesses.stashDrop (tk := tk) s a.tag.ctx.toNat x.pa
  by_cases hat : isAtomic a.opc
  · rw [State.accessLine_atomic hdev hc hat]
    exact (hdrop.trans (.post _ rfl)).memory
  rw [Bool.not_eq_true] at hat
  by_cases hst : a.isStore
  · rw [State.accessLine_store hdev hc hat hst]
    split
    · split
      · exact ⟨rfl, rfl⟩
      · exact ((hdrop.trans (.modLaunch ..)).trans (.post _ rfl)).memory
    · exact (hdrop.trans (.post _ rfl)).memory
  · rw [State.accessLine_load hdev hat (Bool.not_eq_true _ ▸ hst)]
    split
    · exact ⟨rfl, rfl⟩
    · exact (hdrop.trans (.post _ rfl)).memory

end

end Sys2Proof.Machine

namespace Sys2Proof.Claims
open Machine

theorem accessesGoHome : AccessesGoHome := by
  intro s tk a x hdev hc
  refine ⟨_, rfl, (State.accessLine_memory hdev hc).1, (State.accessLine_memory hdev hc).2, fun hat => ?atomic,
    fun hat hst => ⟨fun l hh hopc hl => ?loadHit, fun hmiss => ?load⟩, fun hat hst hscope hcap hh => ?store, fun hat hst hthrough => ?written⟩
  case atomic =>
    rw [State.accessLine_atomic hdev hc hat]
    exact ⟨_, State.posts_post _ rfl, rfl, rfl, rfl, rfl, rfl⟩
  case loadHit =>
    rw [State.accessLine_load hdev hat hst, if_neg (by simp [hh]), hl]
    exact ⟨rfl, fun b hb hid hopcs => State.phase_load' hb hid (hopcs ▸ hopc)⟩
  case load =>
    have hnone : (if a.isHandle then none else (s.tile tk).stashHit x.pa x.key) = none := by
      rcases hmiss with hh | hl
      · exact if_pos hh
      · rw [hl, ite_self]
    rw [State.accessLine_load hdev hat hst, hnone]
    exact ⟨_, State.posts_post _ rfl, rfl, rfl, rfl, rfl, rfl, rfl⟩
  case store =>
    have hlocal : (localScope (a.scope x.scope) && (s.tile tk).stashCap != 0 && !a.isHandle) = true := by simp [hscope, hcap, hh]
    rw [State.accessLine_store hdev hc hat hst, if_pos hlocal, if_neg (by simp [hh])]
    refine ⟨fun l hl => ?_, fun hl => ?_⟩
    · rw [hl]
      refine ⟨rfl, ⟨{ l.merge (a.storeBytes (x.pa % 256)) a.poison with used := s.seq }, ?_, rfl, rfl⟩,
        fun b hb hid => State.phase_answer hb hid⟩
      rw [State.stash_answer]
      exact State.mem_stash_use (Tile.mem_of_stashHit hl) rfl
    · rw [hl]
      exact ⟨_, State.posts_post _ rfl, rfl, rfl, rfl⟩
  case written =>
    have hlocal : ¬ (localScope (a.scope x.scope) && (s.tile tk).stashCap != 0 && !a.isHandle) = true := by
      rcases hthrough with h | h | h <;> simp [h]
    rw [State.accessLine_store hdev hc hat hst, if_neg hlocal]
    obtain ⟨g, hg⟩ := (s.stashDrop tk a.tag.ctx.toNat x.pa).posts_post (tk := tk)
      (r := a.request tk x (s.colour a.tag.colour).world (s.tile tk).pts (.write (a.storeBytes (x.pa % 256)) a.poison) false true) rfl
    exact ⟨_, ⟨g, hg⟩, rfl, rfl, rfl, rfl, fun b hb hid => State.phase_answer hb hid⟩

end Sys2Proof.Claims

namespace Sys2Proof
open Machine

/-- Settles O35: the checks of an address in their order, the walk and the start of an access, then its way from a mapped page to its line. -/
theorem memoryOperatorsReachHome : Obligations.MemoryOperatorsReachHome := ⟨Claims.memoryOperatorsIssue, Claims.accessesGoHome⟩

end Sys2Proof
end

section
/-!
PROOFS. A tile's release for one of its accesses (07_network.md R155; 12_ops_memory.md R242, R247): the write-backs keep the operand store and the
outstanding accesses, and the access then waits for probes, or goes on.
-/
namespace Sys2Proof.Machine

/-! What a write-back leaves alone (R165 to R167) -/

section
variable (s : State) (tk : Nat)

theorem State.store_touches (sk : Nat) : ((s.touches (.tile tk) sk).tile tk).store = (s.tile tk).store := by
  rw [State.touches, State.tile_modTile_self]
theorem State.store_post {r : Request} (hr : r.src = .tile tk) : ((s.post r).tile tk).store = (s.tile tk).store := by
  have hsend : ∀ u : State, u.tile tk = s.tile tk → (((if r.kind = .read then u else u.touches (.tile tk) r.sk).inject (ckOf tk)
      (.tile (tiOf tk)) (portPlace (sliceExit tk r.sk)) false 0 (.request { r with stamp := s.nextId })).tile tk).store = (s.tile tk).store := by
    intro u hu
    rw [State.tile_inject]
    split
    · rw [hu]
    · rw [State.store_touches, hu]
  rcases hack : r.ack with _ | ⟨ck, ctx⟩
  · simp only [hr, hack] at hsend
    simp only [State.post, hr, hack]
    exact hsend _ rfl
  · simp only [hr, hack] at hsend
    simp only [State.post, hr, hack]
    exact hsend _ (State.tile_expectAck ..)
theorem State.store_stashBackFor (ack : Option (Nat × Nat)) (l : StashLine) :
    ((s.stashBackFor tk ack l).tile tk).store = (s.tile tk).store := by
  have hsend : ∀ (s : State) (p : Bool), ((if l.dirtyBytes p = [] then s
      else s.post { src := .tile tk, sk := l.sk, pa := l.pa, off := 0, colour := l.key, key := l.key, world := l.world
                    kind := .write (l.dirtyBytes p) p, pts := (s.tile tk).pts, scope := scopePkg, answer := none, stamp := 0
                    ack := ack, va := none }).tile tk).store = (s.tile tk).store := by
    intro s p
    split
    · rfl
    · exact State.store_post s tk rfl
  unfold State.stashBackFor
  split
  · rfl
  · rw [State.tile_modTile_self]
    exact (hsend _ true).trans (hsend s false)
theorem State.store_stashDrop (ctx pa : Nat) : ((s.stashDrop tk ctx pa).tile tk).store = (s.tile tk).store := by
  unfold State.stashDrop
  split
  · rfl
  · rw [State.tile_modTile_self]
    exact State.store_stashBackFor ..
theorem State.store_stashBackAll (ctx : Nat) : ((s.stashBackAll tk ctx).tile tk).store = (s.tile tk).store :=
  foldl_rel (R := fun s u : State => (u.tile tk).store = (s.tile tk).store) (fun _ => rfl) (fun _ _ _ h k => k.trans h) _
    (fun u l => State.store_stashBackFor u tk _ l) _ s
theorem KeepsAccesses.stashBackAll (ctx : Nat) : KeepsAccesses tk s (s.stashBackAll tk ctx) :=
  foldl_rel (.refl tk) (fun _ _ _ => .trans) _ (fun u l => .stashBackFor u _ l) _ s

/-- A tile with an empty stash writes nothing back. -/
theorem State.stashBackAll_of_empty (h : (s.tile tk).stash = []) (ctx : Nat) : s.stashBackAll tk ctx = s := by
  rw [State.stashBackAll, h, List.foldl_nil]
theorem State.stashDrop_of_empty (h : (s.tile tk).stash = []) (ctx pa : Nat) : s.stashDrop tk ctx pa = s := by
  simp only [State.stashDrop, Tile.stashLine, h, List.find?_nil]

end

/-! The release (R155) -/

/-- The state of a tile whose release for an access waits for the probes `ps`. -/
def State.probing (s : State) (tk id : Nat) (ps : List ProbeTarget) : State :=
  ({ s with
    nextId := s.nextId + 1
    releases := s.releases ++ [{ id := s.nextId, stamp := s.nextId, src := .tile tk, access := some id, probes := ps }] } : State).modTile tk
      fun t => { t with touched := 0, accesses := t.accesses.map fun b => if b.id = id then { b with phase := .fence } else b }

theorem State.releases_probing (s : State) (tk id : Nat) (ps : List ProbeTarget) : ∃ r : Release,
    (s.probing tk id ps).releases = s.releases ++ [r] ∧ r.src = .tile tk ∧ r.access = some id ∧ r.probes = ps := ⟨_, rfl, rfl, rfl, rfl⟩
theorem State.touched_probing (s : State) (tk id : Nat) (ps : List ProbeTarget) : ((s.probing tk id ps).tile tk).touched = 0 := by
  rw [State.probing, State.tile_modTile_self]
theorem State.accesses_probing (s : State) (tk id : Nat) (ps : List ProbeTarget) : ((s.probing tk id ps).tile tk).accesses =
    (s.tile tk).accesses.map fun b => if b.id = id then { b with phase := .fence } else b := by
  rw [State.probing, State.tile_modTile_self]
  rfl
theorem State.store_probing (s : State) (tk id : Nat) (ps : List ProbeTarget) :
    ((s.probing tk id ps).tile tk).store = (s.tile tk).store := by
  rw [State.probing, State.tile_modTile_self]
  rfl
theorem State.phase_probing {s : State} {tk id : Nat} {ps : List ProbeTarget} {b : Access}
    (hb : b ∈ ((s.probing tk id ps).tile tk).accesses) (h : b.id = id) : b.phase = .fence :=
  phase_of_mem_map (g := fun x => { x with phase := .fence }) (fun _ => rfl) (State.accesses_probing s tk id ps ▸ hb) h

section
variable (s : State) (tk : Nat) (a : Access)

theorem State.releaseTile_eq {z : State} (hz : s.stashBackAll tk a.tag.ctx.toNat = z) : s.releaseTile tk a =
    if probesOf (dieOf (ckOf tk)) (z.tile tk).touched = [] && !(z.tile tk).accesses.any (fun b => b.id != a.id && b.bankWrite)
    then z.released tk a else z.probing tk a.id (probesOf (dieOf (ckOf tk)) (z.tile tk).touched) := by
  subst hz
  rfl
theorem State.tile_askGroup : (s.askGroup tk a).tile tk = { s.tile tk with
    accesses := (s.tile tk).accesses.map fun b => if b.id = a.id then { b with phase := .group } else b } := by
  rw [State.askGroup, State.tile_inject, State.tile_modTile_self]
/-- With a probe to send, the release waits. -/
theorem State.releaseTile_waits {z : State} (hz : s.stashBackAll tk a.tag.ctx.toNat = z)
    (hps : probesOf (dieOf (ckOf tk)) (z.tile tk).touched ≠ []) :
    s.releaseTile tk a = z.probing tk a.id (probesOf (dieOf (ckOf tk)) (z.tile tk).touched) := by
  rw [State.releaseTile_eq s tk a hz, if_neg (by simp [hps])]
/-- With no probe to send and no write at a bank, the access goes on. -/
theorem State.releaseTile_goesOn {z : State} (hz : s.stashBackAll tk a.tag.ctx.toNat = z)
    (hps : probesOf (dieOf (ckOf tk)) (z.tile tk).touched = [])
    (hbank : ∀ b ∈ (z.tile tk).accesses, b.id ≠ a.id → b.bankWrite = false) : s.releaseTile tk a = z.released tk a := by
  have hany : (z.tile tk).accesses.any (fun b => b.id != a.id && b.bankWrite) = false := by
    rw [List.any_eq_false]
    intro b hb hw
    rw [Bool.and_eq_true, bne_iff_ne] at hw
    exact absurd hw.2 (by simp [hbank b hb hw.1])
  rw [State.releaseTile_eq s tk a hz, if_pos (by simp [hps, hany])]

/-- Whichever way it goes, the operands stay in the store and the access stays outstanding. -/
theorem State.releaseTile_keeps : (s.releaseTile tk a).dram = s.dram ∧ ((s.releaseTile tk a).tile tk).store = (s.tile tk).store ∧
    ∃ (p : AccessPhase) (n : Access → Nat), ((s.releaseTile tk a).tile tk).accesses =
      (s.tile tk).accesses.map fun b => if b.id = a.id then { b with phase := p, since := n b } else b := by
  have hkeeps := KeepsAccesses.stashBackAll s tk a.tag.ctx.toNat
  have hstore := State.store_stashBackAll s tk a.tag.ctx.toNat
  rw [State.releaseTile_eq s tk a rfl, State.released]
  split
  · split
    · refine ⟨hkeeps.dram, ?_, .group, Access.since, ?_⟩ <;> rw [State.tile_askGroup]
      · exact hstore
      · rw [hkeeps.accesses]
    · have hacquire := KeepsAccesses.stashBackAll (s.stashBackAll tk a.tag.ctx.toNat) tk a.tag.ctx.toNat
      refine ⟨hacquire.dram.trans hkeeps.dram, ?_, .answered,
          fun _ => ((s.stashBackAll tk a.tag.ctx.toNat).stashAcquire tk a.tag.ctx.toNat).cycles + 1, ?_⟩ <;>
        rw [State.answer, State.tile_modTile_self, State.stashAcquire, State.tile_modTile_self]
      · exact (State.store_stashBackAll ..).trans hstore
      · rw [hacquire.accesses, hkeeps.accesses]
  · refine ⟨hkeeps.dram, ?_, .fence, Access.since, ?_⟩
    · rw [State.store_probing, hstore]
    · rw [State.accesses_probing, hkeeps.accesses]

end

end Sys2Proof.Machine
end

section
/-!
PROOFS. `ldg` and `fence.s` (12_ops_memory.md R242, R247): the access that each issues, and the release of its tile.
-/
namespace Sys2Proof.Machine

/-! The operands of an `ldg` stay in the store (log 112) -/

/-- The access `a` of an `ldg` stands in the table, and its operands stand in the store in FAULT state. -/
def State.groupWaits (s : State) (tk : Nat) (a : Access) (ops : List Operand) : State :=
  s.modTile tk fun t => { t.setAccess a with
    store := ops.foldl (fun st o =>
      Map.put st o.idx { o.entry with state := .group a.id, age := 0, token := { o.entry.token with credit := none } }) t.store }

theorem get?_foldl_put (g : Operand → Entry) (p : Entry → Prop) (hg : ∀ o, p (g o)) (ops : List Operand) (st : Map Entry) (i : Nat)
    (h : (∃ e, Map.get? st i = some e ∧ p e) ∨ ∃ o ∈ ops, o.idx = i) :
    ∃ e, Map.get? (ops.foldl (fun st o => Map.put st o.idx (g o)) st) i = some e ∧ p e := by
  induction ops generalizing st with
  | nil => exact h.resolve_right fun ⟨o, ho, _⟩ => absurd ho List.not_mem_nil
  | cons x xs ih =>
    refine ih _ ?_
    by_cases hx : i = x.idx
    · exact .inl ⟨g x, by rw [hx, Map.get?_put_self], hg x⟩
    · rw [Map.get?_put_other _ _ hx]
      refine h.imp_right fun ⟨o, ho, hoi⟩ => ⟨o, ?_, hoi⟩
      exact (List.mem_cons.mp ho).resolve_left fun hox => hx (by rw [← hoi, hox])

section
variable (s : State) (tk : Nat) (a : Access) (ops : List Operand)

theorem State.accesses_groupWaits :
    ((s.groupWaits tk a ops).tile tk).accesses = (s.tile tk).accesses.map fun b => if b.id = a.id then a else b := by
  rw [State.groupWaits, State.tile_modTile_self]
  rfl
theorem State.store_groupWaits {o : Operand} (ho : o ∈ ops) :
    ∃ e, Map.get? ((s.groupWaits tk a ops).tile tk).store o.idx = some e ∧ e.state = .group a.id := by
  rw [State.groupWaits, State.tile_modTile_self]
  exact get?_foldl_put _ (fun e => e.state = .group a.id) (fun _ => rfl) ops _ _ (.inr ⟨o, ho, rfl⟩)
theorem State.stash_groupWaits : ((s.groupWaits tk a ops).tile tk).stash = (s.tile tk).stash := by
  rw [State.groupWaits, State.tile_modTile_self]
  rfl
theorem State.touched_groupWaits : ((s.groupWaits tk a ops).tile tk).touched = (s.tile tk).touched := by
  rw [State.groupWaits, State.tile_modTile_self]
  rfl

end

/-! The stash's copy of an `ldg`'s line (R166) -/

section
variable (s : State) (tk : Nat) (t : Tag) (va : Nat)

theorem State.groupDrop_eq : s.groupDrop tk t va = s ∨ ∃ pa, s.groupDrop tk t va = s.stashDrop tk t.ctx.toNat pa := by
  unfold State.groupDrop
  split
  · exact .inr ⟨_, rfl⟩
  · exact .inl rfl
theorem KeepsAccesses.groupDrop : KeepsAccesses tk s (s.groupDrop tk t va) := by
  rcases s.groupDrop_eq tk t va with h | ⟨pa, h⟩
  · rw [h]
    exact .refl tk s
  · rw [h]
    exact .stashDrop ..
theorem State.store_groupDrop : ((s.groupDrop tk t va).tile tk).store = (s.tile tk).store := by
  rcases s.groupDrop_eq tk t va with h | ⟨pa, h⟩
  · rw [h]
  · rw [h, State.store_stashDrop]
theorem State.groupDrop_of_empty (h : (s.tile tk).stash = []) : s.groupDrop tk t va = s := by
  rcases s.groupDrop_eq tk t va with hd | ⟨pa, hd⟩
  · exact hd
  · rw [hd, State.stashDrop_of_empty s tk h]

end

theorem addrCheck_ldg {va : Nat} (hva : va < windowBase) (halign : va % 256 = 0) : addrCheck 0x158 va = .ok va := by
  rw [addrCheck_natCast (hva.trans (by decide)), inWindow_eq_false hva]
  simp [memAlign, halign]

/-- The state of an `ldg` whose access has been issued in `v` and whose tile has made its release (R242). -/
def State.ldgReleases (v : State) (tk : Nat) (m : Match) (va : Nat) (a : Access) : State :=
  ((v.groupWaits tk a m.operands).groupDrop tk m.tag va).releaseTile tk a

section
variable (v : State) (tk : Nat) (m : Match) (va : Nat) (a : Access)

theorem State.dram_ldgReleases : (v.ldgReleases tk m va a).dram = v.dram :=
  (State.releaseTile_keeps ..).1.trans (KeepsAccesses.groupDrop ..).dram
theorem State.store_ldgReleases {o : Operand} (ho : o ∈ m.operands) :
    ∃ e, Map.get? ((v.ldgReleases tk m va a).tile tk).store o.idx = some e ∧ e.state = .group a.id := by
  rw [State.ldgReleases, (State.releaseTile_keeps ..).2.1, State.store_groupDrop]
  exact State.store_groupWaits v tk a m.operands ho
theorem State.accesses_ldgReleases : ∃ (p : AccessPhase) (n : Nat), ((v.ldgReleases tk m va a).tile tk).accesses =
    (v.tile tk).accesses.map fun b => if b.id = a.id then { a with phase := p, since := n } else b := by
  obtain ⟨-, -, p, n, h⟩ := ((v.groupWaits tk a m.operands).groupDrop tk m.tag va).releaseTile_keeps tk a
  refine ⟨p, n a, ?_⟩
  rw [State.ldgReleases, h, (KeepsAccesses.groupDrop ..).accesses, State.accesses_groupWaits, List.map_map]
  refine List.map_congr_left fun b _ => ?_
  by_cases hb : b.id = a.id
  · simp only [Function.comp_apply, if_pos hb, if_true]
  · simp only [Function.comp_apply, if_neg hb]

variable (hstash : (v.tile tk).stash = [])
include hstash

theorem State.stashBackAll_groupWaits : (v.groupWaits tk a m.operands).stashBackAll tk a.tag.ctx.toNat = v.groupWaits tk a m.operands :=
  State.stashBackAll_of_empty _ tk ((State.stash_groupWaits ..).trans hstash) _
theorem State.ldgReleases_of_empty : v.ldgReleases tk m va a = (v.groupWaits tk a m.operands).releaseTile tk a := by
  rw [State.ldgReleases, State.groupDrop_of_empty _ tk m.tag va ((State.stash_groupWaits ..).trans hstash)]
theorem State.ldgReleases_waits (hps : probesOf (dieOf (ckOf tk)) (v.tile tk).touched ≠ []) : v.ldgReleases tk m va a =
    (v.groupWaits tk a m.operands).probing tk a.id (probesOf (dieOf (ckOf tk)) (v.tile tk).touched) := by
  rw [State.ldgReleases_of_empty v tk m va a hstash, State.releaseTile_waits _ tk a (v.stashBackAll_groupWaits tk m a hstash),
    State.touched_groupWaits]
  rwa [State.touched_groupWaits]
theorem State.ldgReleases_asks (hopc : a.opc = 0x158) (hps : probesOf (dieOf (ckOf tk)) (v.tile tk).touched = [])
    (hbank : ∀ b ∈ (v.tile tk).accesses, b.id ≠ a.id → b.bankWrite = false) :
    v.ldgReleases tk m va a = (v.groupWaits tk a m.operands).askGroup tk a := by
  rw [State.ldgReleases_of_empty v tk m va a hstash, State.releaseTile_goesOn _ tk a (v.stashBackAll_groupWaits tk m a hstash),
    State.released, if_pos hopc]
  · rwa [State.touched_groupWaits]
  · rw [State.accesses_groupWaits]
    intro b hb hid
    obtain ⟨x, hx, rfl⟩ := List.mem_map.mp hb
    by_cases hxa : x.id = a.id
    · rw [if_pos hxa] at hid
      exact absurd rfl hid
    · rw [if_neg hxa]
      exact hbank x hx hxa

end

end Sys2Proof.Machine

namespace Sys2Proof.Claims
open Machine

section
variable {s u : State} {f : OpFields} {m : Match} {t : Tag}

/-- The access of an `ldg` whose line and descriptor keep their rules: it holds the descriptor's physical address. -/
theorem Accesses.execLdg (h : Accesses s 0x158 f m) {va : Nat} {x : Xlat} (hva : m.value .l = va) (hlow : va < windowBase)
    (halign : va % 256 = 0) (hdlow : s.groupAddr (s.site 0x158 f) < windowBase) (hdalign : s.groupAddr (s.site 0x158 f) % 256 = 0)
    (hw : s.needsWalk (s.site 0x158 f) m = false)
    (hx : s.xlateTile s.actor.tk m.tag.colour (s.groupAddr (s.site 0x158 f)) true false = .ok x) (hr : Ready s 0x158 f m u t) :
    ∃ v a b, Issues u (s.site 0x158 f) m t va v a ∧ b.IsOf (s.site 0x158 f) m t ∧ b.id = a.id ∧ b.addr = va ∧ b.object = some x.pa ∧
      exec (.ldg f) s = .next (v.ldgReleases s.actor.tk m va b) := by
  have haddr : memAddr (s.site 0x158 f) m = va := (Int.add_zero _).trans hva
  have hbegins := Begins.of_ready hr
  have hu : u.xlateTile (s.site 0x158 f).tk m.tag.colour (s.groupAddr (s.site 0x158 f)) true false = .ok x :=
    (hbegins.xlateTile ..).trans hx
  obtain ⟨v, a, hissues, heq⟩ := u.issueAccess_issues (s.site 0x158 f) m t va
  refine ⟨v, a, { a with object := some x.pa }, hissues, { hissues.isOf with }, rfl, hissues.addr, rfl, ?_⟩
  rw [show exec (.ldg f) s = Machine.execLdg f s from rfl, Machine.execLdg, h.fireMem_eq hr hw]
  simp only [haddr, addrCheck_ldg hlow halign, hbegins.groupAddr, addrCheck_ldg hdlow hdalign, hu, heq]
  rfl
/-- The access of a `fence.s`, which has the operand's tag where TAGOP gives none. -/
theorem Accesses.execFenceS (h : Accesses s 0x170 f m) {v : Int} (hl : (Claims.taken s 0x170 f m).lValue m = (u, v))
    (ht : t = (u.tagOp (s.site 0x170 f).ck f.tagop m.tag v).getD m.tag) : ∃ w a, Issues u (s.site 0x170 f) m t 0 w a ∧
      exec (.fenceS f) s =
        .next (if localScope (OpTable.scopeBits f) then w.answer s.actor.tk a.id id else w.releaseTile s.actor.tk a) := by
  obtain ⟨hf, he, hs⟩ := h
  have htag : (Claims.taken s 0x170 f m).tagOr (s.site 0x170 f) m = (u, t) := by
    simp only [State.tagOr, hl]
    exact congrArg (u, ·) ht.symm
  obtain ⟨w, a, hissues, heq⟩ := u.issueAccess_issues (s.site 0x170 f) m t 0
  refine ⟨w, a, hissues, ?_⟩
  rw [show exec (.fenceS f) s = Machine.execFenceS f s from rfl, Machine.execFenceS, hf.fireMem_data he, if_neg (by simp [hs]),
    if_pos rfl, htag]
  simp only [heq]
  rfl

end

/-- Where no earlier access of the tile writes at a bank, none but the newest may. -/
theorem no_bankWrite_of_outstanding {s v : State} {opc : Nat} {f : OpFields} {m : Match} {t : Tag} {a : Access} (h : Outstanding s v opc f m t a)
    (hbank : ∀ b ∈ (s.tile s.actor.tk).accesses, b.bankWrite = false) :
    ∀ b ∈ (v.tile s.actor.tk).accesses, b.id ≠ a.id → b.bankWrite = false := by
  obtain ⟨haccesses, -⟩ := h
  rw [haccesses]
  intro b hb hid
  rcases List.mem_append.mp hb with hold | hnew
  · exact hbank b hold
  · exact absurd (by rw [List.mem_singleton.mp hnew]) hid

theorem groupsAndFences : GroupsAndFences := by
  rintro s u f m t q tk _ htk hfresh
  refine ⟨?ldg, ?fence⟩
  case ldg =>
    rintro rfl rfl va _ x hva rfl hlow halign hdlow hdalign h hw hx hr
    subst htk
    obtain ⟨v, a, b, hissues, hisOf, hid, haddr, hobject, heq⟩ := h.execLdg hva hlow halign hdlow hdalign hw hx hr
    have hbegins := Begins.of_ready hr
    have hv := hissues.tile s.actor.tk
    have hstash : (v.tile s.actor.tk).stash = (s.tile s.actor.tk).stash := by rw [hv, ← hbegins.stash]
    have htouched : (v.tile s.actor.tk).touched = (s.tile s.actor.tk).touched := by rw [hv, ← hbegins.touched]
    have hreleases : v.releases = s.releases := by rw [hissues.frame, ← hbegins.releases]
    have hissued := hissues.outstanding (hbegins.accesses _)
    obtain ⟨p, n, haccesses⟩ := v.accesses_ldgReleases s.actor.tk m va b
    have hout : Outstanding s (v.ldgReleases s.actor.tk m va b) 0x158 f m t { b with phase := p, since := n } :=
      hissued.changed (g := fun _ => { b with phase := p, since := n }) (hissues.newest hbegins.nextId hfresh)
        (by simp only [haccesses, hid]) { hisOf with }
    have hmem : { b with phase := p, since := n } ∈ ((v.ldgReleases s.actor.tk m va b).tile s.actor.tk).accesses := by
      rw [hout.1]
      exact List.mem_append_right _ (List.mem_singleton_self _)
    refine ⟨_, _, heq, hout, haddr, hobject, ?_, fun o ho => v.store_ldgReleases _ m va b ho, fun hempty hps hbank => ?asks,
      fun hempty hps => ?waits⟩
    · rw [State.dram_ldgReleases, hissues.frame, ← hbegins.dram]
    case asks =>
      have hasks := v.ldgReleases_asks s.actor.tk m va b (hstash.trans hempty) hisOf.opc (htouched ▸ hps)
        (hid ▸ no_bankWrite_of_outstanding hissued hbank)
      rw [hasks] at hmem ⊢
      refine ⟨?_, _, (congrArg List.getLast? (State.flits_inject ..)).trans List.getLast?_concat, rfl, rfl, ?_⟩
      · rw [State.tile_askGroup] at hmem
        exact phase_of_mem_map (g := fun b => { b with phase := .group }) (fun _ => rfl) hmem rfl
      · simp only [MeshSource.flit, hobject, haddr, hisOf.fields, hisOf.tag]
        rfl
    case waits =>
      have hwaits := v.ldgReleases_waits s.actor.tk m va b (hstash.trans hempty) (htouched ▸ hps)
      rw [htouched] at hwaits
      rw [hwaits] at hmem ⊢
      refine ⟨State.phase_probing hmem rfl, State.touched_probing .., ?_⟩
      rw [← hreleases]
      exact State.releases_probing ..
  case fence =>
    rintro v rfl rfl h hl ht
    subst htk
    obtain ⟨w, a, hissues, heq⟩ := h.execFenceS hl ht
    have hbegins := Begins.of_lValue hl
    have hw := hissues.tile s.actor.tk
    have hissued := hissues.outstanding (hbegins.accesses _)
    refine ⟨w, a, hissued, by rw [hw, ← hbegins.stash], by rw [hw, ← hbegins.touched], by rw [hissues.frame, ← hbegins.releases],
      fun hlocal => ?here, fun hwide z hz => ?_⟩
    case here => rw [heq, if_pos hlocal]
    have hback : w.stashBackAll s.actor.tk a.tag.ctx.toNat = z := by rw [hissues.isOf.tag, hz]
    rw [heq, if_neg (by simp [hwide])]
    refine ⟨fun hps hbank => ?acquires, fun hps => ⟨_, congrArg Host.Outcome.next (State.releaseTile_waits w s.actor.tk a hback hps),
      State.touched_probing .., State.releases_probing .., fun b hb hid => State.phase_probing hb hid⟩⟩
    case acquires =>
      have hkeeps := KeepsAccesses.stashBackAll w s.actor.tk a.tag.ctx.toNat
      rw [hback] at hkeeps
      rw [State.releaseTile_goesOn w s.actor.tk a hback hps (hkeeps.accesses ▸ no_bankWrite_of_outstanding hissued hbank), State.released,
        if_neg (by simp [hissues.isOf.opc, State.site]), hissues.isOf.tag]
      rfl

end Sys2Proof.Claims
end

section
/-!
PROOFS. The handle operators (12_ops_memory.md R243 to R246): what an access through the object table changes there, and the access that each
operator issues.
-/
namespace Sys2Proof.Machine

/-! An entry of the object table is written -/

theorem State.tile_poke (s : State) (pa : Nat) (bs : List Byte) (k : Nat) : (s.poke pa bs).tile k = s.tile k := by
  rw [State.tile, State.ticks, State.poke_tiles, State.poke_cycles, State.tile, State.ticks]

section
variable (s : State) (d i : Nat) (e : ObjectEntry)

theorem State.object_setObject : (s.setObject d i e).object d i = e := by
  rw [State.setObject, State.object, State.die, State.poke_dies]
  change Map.get ((s.modDie d _).die d).objects i ObjectEntry.reset = e
  rw [State.die_modDie_self]
  exact Map.get_put_self ..
theorem State.setObject_nextId : (s.setObject d i e).nextId = s.nextId := State.poke_nextId ..
theorem State.tile_setObject (k : Nat) : (s.setObject d i e).tile k = s.tile k := State.tile_poke (s.modDie d _) ..

end

/-! An access issued after the entry of its object has changed -/

namespace Issues
variable {s u v : State} {opc addr : Nat} {f : OpFields} {m : Match} {t : Tag} {a : Access}

theorem dies {q : Site} (h : Issues u q m t addr v a) : v.dies = u.dies := by rw [h.frame]
theorem object {q : Site} (h : Issues u q m t addr v a) (d i : Nat) : v.object d i = u.object d i := by
  rw [State.object, State.die, h.dies, State.object, State.die]

section
variable {d i : Nat} {e : ObjectEntry} (h : Issues (u.setObject d i e) (s.site opc f) m t addr v a) (hu : Begins s u)
include h

theorem object_entry : v.object d i = e := (h.object d i).trans (State.object_setObject ..)

include hu

theorem outstanding_entry : Claims.Outstanding s v opc f m t a :=
  h.outstanding ((congrArg Tile.accesses (State.tile_setObject ..)).trans (hu.accesses _))
theorem newest_entry (hfresh : Claims.FreshId s) : ∀ b ∈ (s.tile s.actor.tk).accesses, b.id ≠ a.id :=
  h.newest ((State.setObject_nextId ..).trans hu.nextId) hfresh
theorem outstanding_answer_entry (hfresh : Claims.FreshId s) {g : Access → Access} (hg : (g a).IsOf (s.site opc f) m t) :
    Claims.Outstanding s (v.answer s.actor.tk a.id g) opc f m t { g a with phase := .answered, since := v.cycles + 1 } :=
  h.outstanding_answer ((congrArg Tile.accesses (State.tile_setObject ..)).trans (hu.accesses _))
    ((State.setObject_nextId ..).trans hu.nextId) hfresh hg

end

end Issues

/-- No handle operator looks an address up before it issues (R231). -/
theorem State.needsWalk_of_not_addrOp {s : State} {q : Site} (h : addrOp q.opc = false) (m : Match) : s.needsWalk q m = false :=
  State.needsWalk_of_lookedUp_none (by simp [State.lookedUp, h])

end Sys2Proof.Machine

namespace Sys2Proof.Claims
open Machine

section
variable {s u : State} {opc : Nat} {f : OpFields} {m : Match} {t : Tag} {p : Port} {h : Handle} {w : World} {off : Int} {o : ObjectEntry}
variable (hh : handleOf m = h) (hw : (s.colour m.tag.colour).world = w)

/-! `ldh.v` and `sth.v` (R244) -/

section
variable (hopc : opc = 0x159 ∨ opc = 0x15A) (ha : Accesses s opc f m) (hr : Ready s opc f m u t)
  (hoff : handleOff (s.site opc f) (m.payload? p) = off)
include hh hw hopc ha hr hoff

theorem Accesses.fireHandle_eq : s.fireHandle opc f p =
    if off % 64 != 0 then u.faultFiring (s.site opc f) m codeAlign (off % (2 ^ 64 : Nat)).toNat
    else if h.low != 0 || !h.strong then u.faultFiring (s.site opc f) m codeHandleForm 0
    else
      match s.liveObject w h with
      | none => u.faultFiring (s.site opc f) m codeObjStale 0
      | some e =>
        if off < 0 ∨ off + 64 > ((2 ^ 14 * e.size : Nat) : Int) then u.faultFiring (s.site opc f) m codeObjRange 0
        else (u.touchObject h e).issueAccess (s.site opc f) m t (e.base + off.toNat) fun v a => v.startAccess s.actor.tk a := by
  have hwalk : s.needsWalk (s.site opc f) m = false := State.needsWalk_of_not_addrOp (by rcases hopc with rfl | rfl <;> rfl) m
  have hbegins := Begins.of_ready hr
  rw [State.fireHandle, ha.fireMem_eq hr hwalk (by rcases hopc with rfl | rfl <;> decide)]
  simp only [hbegins.colour, hbegins.liveObject, hh, hw, hoff] <;> rfl
theorem Accesses.fireHandle_starts (halign : off % 64 = 0) (hlow : h.low = 0) (hstrong : h.strong = true) (ho : s.liveObject w h = some o)
    (hge : 0 ≤ off) (hle : off + 64 ≤ 2 ^ 14 * o.size) : ∃ v a,
      Issues (u.setObject h.die h.index { o with touch := s.touchNow }) (s.site opc f) m t (o.base + off.toNat) v a ∧
      s.fireHandle opc f p = v.startAccess s.actor.tk a := by
  have hrange : ¬ (off < 0 ∨ off + 64 > ((2 ^ 14 * o.size : Nat) : Int)) := by omega
  obtain ⟨v, a, hissues, heq⟩ := State.issueAccess_issues (u.setObject h.die h.index { o with touch := s.touchNow }) (s.site opc f) m t
    (o.base + off.toNat)
  refine ⟨v, a, hissues, ?_⟩
  rw [ha.fireHandle_eq hh hw hopc hr hoff]
  simp only [halign, hlow, hstrong, ho, if_neg hrange, State.touchObject, (Begins.of_ready hr).touchNow, heq, bne_self_eq_false,
    Bool.not_true, Bool.or_self, Bool.false_eq_true, if_false]

end

/-! `ldw.v` (R245) -/

section
variable (ha : Accesses s 0x15B f m) (hr : Ready s 0x15B f m u t) (hoff : handleOff (s.site 0x15B f) (m.payload? .r) = off)
variable (halign : off % 64 = 0) (hlow : h.low = 0)
include hh hw ha hr hoff halign hlow

theorem Accesses.execLdwV_gone (ho : s.liveObject w h = none) : ∃ v a, Issues u (s.site 0x15B f) m t 0 v a ∧
    exec (.ldwV f) s = .next (v.answer s.actor.tk a.id fun a => { a with ok := false }) := by
  have hbegins := Begins.of_ready hr
  obtain ⟨v, a, hissues, heq⟩ := u.issueAccess_issues (s.site 0x15B f) m t 0
  refine ⟨v, a, hissues, ?_⟩
  rw [show exec (.ldwV f) s = Machine.execLdwV f s from rfl, Machine.execLdwV,
    ha.fireMem_eq hr (State.needsWalk_of_not_addrOp rfl m)]
  simp only [hbegins.colour, hbegins.liveObject, hh, hw, hoff, halign, hlow, ho, heq, bne_self_eq_false, Bool.false_eq_true, if_false]
  rfl
/-- A live object is pinned, and the access names it. -/
theorem Accesses.execLdwV_live (ho : s.liveObject w h = some o) (hge : 0 ≤ off) (hle : off + 64 ≤ 2 ^ 14 * o.size) :
    ∃ v a b, Issues (u.setObject h.die h.index { o with pin := o.pin + 1, touch := s.touchNow }) (s.site 0x15B f) m t (o.base + off.toNat)
        v a ∧ b.IsOf (s.site 0x15B f) m t ∧ b.id = a.id ∧ b.addr = a.addr ∧ b.pinned = true ∧
      exec (.ldwV f) s = .next ((v.modTile s.actor.tk fun t => t.setAccess b).startAccess s.actor.tk b) := by
  have hbegins := Begins.of_ready hr
  have hrange : ¬ (off < 0 ∨ off + 64 > ((2 ^ 14 * o.size : Nat) : Int)) := by omega
  obtain ⟨v, a, hissues, heq⟩ := State.issueAccess_issues (u.setObject h.die h.index { o with pin := o.pin + 1, touch := s.touchNow })
    (s.site 0x15B f) m t (o.base + off.toNat)
  refine ⟨v, a, { a with object := some (2 ^ 21 * h.die + h.index), pinned := true }, hissues, { hissues.isOf with }, rfl, rfl, rfl, ?_⟩
  rw [show exec (.ldwV f) s = Machine.execLdwV f s from rfl, Machine.execLdwV,
    ha.fireMem_eq hr (State.needsWalk_of_not_addrOp rfl m)]
  simp only [hbegins.colour, hbegins.liveObject, hbegins.touchNow, hh, hw, hoff, halign, hlow, ho, if_neg hrange, heq, bne_self_eq_false,
    Bool.false_eq_true, if_false]
  rfl

end

/-! `hup` (R246) -/

section
variable (ha : Accesses s 0x168 f m) (hr : Ready s 0x168 f m u t) (hlow : h.low = 0)
include hh hw ha hr hlow

/-- The handle comes back as it is, strong or of an object that is gone. -/
theorem Accesses.execHup_same (ho : h.strong = true ∨ s.liveObject w h = none) : ∃ v a, Issues u (s.site 0x168 f) m t 0 v a ∧
    exec (.hup f) s = .next (v.answer s.actor.tk a.id fun a => { a with value := m.value .l, ok := h.strong }) := by
  have hbegins := Begins.of_ready hr
  obtain ⟨v, a, hissues, heq⟩ := u.issueAccess_issues (s.site 0x168 f) m t 0
  refine ⟨v, a, hissues, ?_⟩
  rw [show exec (.hup f) s = Machine.execHup f s from rfl, Machine.execHup, ha.fireMem_eq hr (State.needsWalk_of_not_addrOp rfl m)]
  simp only [hbegins.colour, hbegins.liveObject, hh, hw, hlow, heq, bne_self_eq_false, Bool.false_eq_true, if_false]
  cases hs : h.strong
  · simp only [ho.resolve_left (by simp [hs]), Bool.false_eq_true, if_false]
    rfl
  · simp only [if_true]
    rfl
section
variable (hweak : h.strong = false) (ho : s.liveObject w h = some o)
include hweak ho

theorem Accesses.execHup_full (hfull : o.strong = 65535) : exec (.hup f) s = .next (u.faultFiring (s.site 0x168 f) m codeObjCount 0) := by
  have hbegins := Begins.of_ready hr
  rw [show exec (.hup f) s = Machine.execHup f s from rfl, Machine.execHup, ha.fireMem_eq hr (State.needsWalk_of_not_addrOp rfl m)]
  simp only [hbegins.colour, hbegins.liveObject, hh, hw, hlow, hweak, ho, if_pos hfull, bne_self_eq_false, Bool.false_eq_true, if_false]
theorem Accesses.execHup_strong (hroom : o.strong ≠ 65535) : ∃ v a,
    Issues (u.setObject h.die h.index { o with strong := o.strong + 1, touch := s.touchNow }) (s.site 0x168 f) m t 0 v a ∧
    exec (.hup f) s = .next (v.answer s.actor.tk a.id fun a =>
      { a with value := (BitVec.ofNat 64 { h with strong := true }.toNat).toInt, ok := true }) := by
  have hbegins := Begins.of_ready hr
  obtain ⟨v, a, hissues, heq⟩ := State.issueAccess_issues (u.setObject h.die h.index { o with strong := o.strong + 1, touch := s.touchNow })
    (s.site 0x168 f) m t 0
  refine ⟨v, a, hissues, ?_⟩
  rw [show exec (.hup f) s = Machine.execHup f s from rfl, Machine.execHup, ha.fireMem_eq hr (State.needsWalk_of_not_addrOp rfl m)]
  simp only [hbegins.colour, hbegins.liveObject, hbegins.touchNow, hh, hw, hlow, hweak, ho, if_neg hroom, heq, bne_self_eq_false,
    Bool.false_eq_true, if_false]
  rfl

end

end

/-! `hrel` (R246) -/

section
variable (ha : Accesses s 0x169 f m) (hr : Ready s 0x169 f m u t) (hlow : h.low = 0)
include hh hw ha hr hlow

theorem Accesses.execHrel_stale (ho : s.liveObject w h = none) (hstrong : h.strong = true) :
    exec (.hrel f) s = .next (u.faultFiring (s.site 0x169 f) m codeObjStale 0) := by
  have hbegins := Begins.of_ready hr
  rw [show exec (.hrel f) s = Machine.execHrel f s from rfl, Machine.execHrel, ha.fireMem_eq hr (State.needsWalk_of_not_addrOp rfl m)]
  simp only [hbegins.colour, hbegins.liveObject, hh, hw, hlow, ho, if_pos hstrong, bne_self_eq_false, Bool.false_eq_true, if_false]
theorem Accesses.execHrel_gone (ho : s.liveObject w h = none) (hweak : h.strong = false) : ∃ v a, Issues u (s.site 0x169 f) m t 0 v a ∧
    exec (.hrel f) s = .next (v.answer s.actor.tk a.id id) := by
  have hbegins := Begins.of_ready hr
  obtain ⟨v, a, hissues, heq⟩ := u.issueAccess_issues (s.site 0x169 f) m t 0
  refine ⟨v, a, hissues, ?_⟩
  rw [show exec (.hrel f) s = Machine.execHrel f s from rfl, Machine.execHrel, ha.fireMem_eq hr (State.needsWalk_of_not_addrOp rfl m)]
  simp only [hbegins.colour, hbegins.liveObject, hh, hw, hlow, ho, hweak, heq, bne_self_eq_false, Bool.false_eq_true, if_false]
  rfl
section
variable (ho : s.liveObject w h = some o)
include ho

theorem Accesses.execHrel_empty (hn : (if h.strong then o.strong else o.weak) = 0) :
    exec (.hrel f) s = .next (u.faultFiring (s.site 0x169 f) m codeObjCount 0) := by
  have hbegins := Begins.of_ready hr
  rw [show exec (.hrel f) s = Machine.execHrel f s from rfl, Machine.execHrel, ha.fireMem_eq hr (State.needsWalk_of_not_addrOp rfl m)]
  simp only [hbegins.colour, hbegins.liveObject, hh, hw, hlow, ho, State.dropRef, if_pos hn, bne_self_eq_false, Bool.false_eq_true,
    if_false]
theorem Accesses.execHrel_drops (hn : (if h.strong then o.strong else o.weak) ≠ 0) : ∃ v a,
    Issues (u.setCounts h.die h.index
      (if h.strong then { o with strong := o.strong - 1, touch := s.touchNow } else { o with weak := o.weak - 1, touch := s.touchNow }))
      (s.site 0x169 f) m t 0 v a ∧ exec (.hrel f) s = .next (v.answer s.actor.tk a.id id) := by
  have hbegins := Begins.of_ready hr
  obtain ⟨v, a, hissues, heq⟩ := State.issueAccess_issues (u.setCounts h.die h.index
    (if h.strong then { o with strong := o.strong - 1, touch := s.touchNow } else { o with weak := o.weak - 1, touch := s.touchNow }))
    (s.site 0x169 f) m t 0
  refine ⟨v, a, hissues, ?_⟩
  rw [show exec (.hrel f) s = Machine.execHrel f s from rfl, Machine.execHrel, ha.fireMem_eq hr (State.needsWalk_of_not_addrOp rfl m)]
  simp only [hbegins.colour, hbegins.liveObject, hbegins.touchNow, hh, hw, hlow, ho, State.dropRef, if_neg hn, bne_self_eq_false,
    Bool.false_eq_true, if_false]
  cases hs : h.strong <;> simp only [hs, if_true, Bool.false_eq_true, if_false] at heq ⊢ <;> rw [heq] <;> rfl

end

end

end

end Sys2Proof.Claims
end

section
/-!
PROOFS. The handle operators (12_ops_memory.md R243 to R246): their faults in order, and the entry that each leaves in the object table.
-/
namespace Sys2Proof.Machine

/-- Unless the last reference goes, only the entry changes (R364). -/
theorem State.setCounts_of_kept (s : State) (d i : Nat) {e : ObjectEntry} (h : ¬ (e.strong = 0 ∧ e.weak = 0)) :
    s.setCounts d i e = s.setObject d i e := by
  simp only [State.setCounts, if_neg h]
/-- The entry that has given back one of `n` references of a kind. -/
theorem not_last_reference {o : ObjectEntry} {strong : Bool} {now : BitVec 32} (h : (if strong then o.strong else o.weak) > 1 ∨
    (if strong then o.weak else o.strong) ≠ 0) {e : ObjectEntry} (he : e =
      if strong then { o with strong := o.strong - 1, touch := now } else { o with weak := o.weak - 1, touch := now }) :
    ¬ (e.strong = 0 ∧ e.weak = 0) := by
  subst he
  rintro ⟨h1, h2⟩
  cases strong
  all_goals
    simp only [if_true, Bool.false_eq_true, if_false] at h h1 h2
    rcases h with h | h
    · bv_omega
    · contradiction

end Sys2Proof.Machine

namespace Sys2Proof.Claims
open Machine

theorem handleOperators : HandleOperators := by
  rintro s u f m t h w off _ rfl hh hw hfresh
  have hh : handleOf m = h := hh.symm
  have hw := hw.symm
  refine ⟨?access, ?ldw, ?hup, ?hrel⟩
  case access =>
    rintro ⟨i, opc, p⟩ he hoff ha bad hr rfl
    obtain ⟨hopc, hexec⟩ : (opc = 0x159 ∨ opc = 0x15A) ∧ exec i s = .next (s.fireHandle opc f p) := by
      rcases List.mem_cons.mp he with he | he
      · cases he; exact ⟨.inl rfl, rfl⟩
      · cases List.mem_singleton.mp he; exact ⟨.inr rfl, rfl⟩
    have hoff : handleOff (s.site opc f) (m.payload? p) = off := hoff.symm
    have heq := ha.fireHandle_eq hh hw hopc hr hoff
    simp only at ha hr ⊢
    rw [hexec]
    refine ⟨fun halign => ?align, fun halign hform => ?form, fun halign hlow hstrong => ⟨fun ho => ?stale,
      fun o ho => ⟨fun hrange => ?range, fun hge hle => ?starts⟩⟩⟩
    case align =>
      rw [heq, if_pos (by simpa using halign)]
      rfl
    case form =>
      rw [heq, if_neg (by simp [halign]), if_pos (by simpa using hform)]
      rfl
    case stale =>
      rw [heq, if_neg (by simp [halign]), if_neg (by simp [hlow, hstrong]), ho]
      rfl
    case range =>
      rw [heq, if_neg (by simp [halign]), if_neg (by simp [hlow, hstrong]), ho]
      exact congrArg Host.Outcome.next (if_pos (by push_cast; exact hrange))
    case starts =>
      obtain ⟨v, a, hissues, hstart⟩ := ha.fireHandle_starts hh hw hopc hr hoff halign hlow hstrong ho hge hle
      exact ⟨v, a, congrArg Host.Outcome.next hstart, hissues.outstanding_entry (Begins.of_ready hr), hissues.addr, hissues.object_entry⟩
  case ldw =>
    intro hoff halign hlow ha hr
    have hbegins := Begins.of_ready hr
    have hoff : handleOff (s.site 0x15B f) (m.payload? .r) = off := hoff.symm
    refine ⟨fun ho => ?_, fun o ho hge hle => ?_⟩
    · obtain ⟨v, a, hissues, heq⟩ := ha.execLdwV_gone hh hw hr hoff halign hlow ho
      exact ⟨_, _, heq, hissues.outstanding_answer (hbegins.accesses _) hbegins.nextId hfresh { hissues.isOf with }, rfl, rfl⟩
    · obtain ⟨v, a, b, hissues, hisOf, hid, haddr, hpin, heq⟩ := ha.execLdwV_live hh hw hr hoff halign hlow ho hge hle
      refine ⟨_, b, heq, (hissues.outstanding_entry hbegins).changed (g := fun _ => b) (hissues.newest_entry hbegins hfresh) ?_ hisOf,
        haddr.trans hissues.addr, hpin, hissues.object_entry⟩
      rw [State.tile_modTile_self, Tile.setAccess, hid]
  case hup =>
    intro hlow ha hr
    have hbegins := Begins.of_ready hr
    refine ⟨fun ho => ?_, fun o hweak ho => ⟨fun hfull => ha.execHup_full hh hw hr hlow hweak ho hfull, fun hroom => ?_⟩⟩
    · obtain ⟨v, a, hissues, heq⟩ := ha.execHup_same hh hw hr hlow ho
      exact ⟨_, _, heq, hissues.outstanding_answer (hbegins.accesses _) hbegins.nextId hfresh { hissues.isOf with }, rfl, rfl, rfl,
        hissues.dies.trans hbegins.dies⟩
    · obtain ⟨v, a, hissues, heq⟩ := ha.execHup_strong hh hw hr hlow hweak ho hroom
      exact ⟨_, _, heq, hissues.outstanding_answer_entry hbegins hfresh { hissues.isOf with }, rfl, rfl, rfl, hissues.object_entry⟩
  case hrel =>
    intro hlow ha hr
    have hbegins := Begins.of_ready hr
    refine ⟨fun ho => ⟨fun hstrong => ha.execHrel_stale hh hw hr hlow ho hstrong, fun hweak => ?_⟩,
      fun o _ ho hn => ⟨fun hnone => ha.execHrel_empty hh hw hr hlow ho (hn ▸ hnone), fun hkept hsome => ?_⟩⟩
    · obtain ⟨v, a, hissues, heq⟩ := ha.execHrel_gone hh hw hr hlow ho hweak
      exact ⟨_, _, heq, hissues.outstanding_answer (hbegins.accesses _) hbegins.nextId hfresh hissues.isOf, rfl,
        hissues.dies.trans hbegins.dies⟩
    · subst hn
      obtain ⟨v, a, hissues, heq⟩ := ha.execHrel_drops hh hw hr hlow ho hsome
      rw [State.setCounts_of_kept u _ _ (not_last_reference hkept rfl)] at hissues
      refine ⟨_, _, heq, hissues.outstanding_answer_entry hbegins hfresh hissues.isOf, rfl, hissues.object_entry.trans ?_⟩
      cases h.strong <;> rfl

end Sys2Proof.Claims

namespace Sys2Proof
open Machine

/-- Settles O36: the access of an `ldg` or `fence.s` and its tile's release, then the handle operators with the entry of their object. -/
theorem groupsFencesAndHandles : Obligations.GroupsFencesAndHandles := ⟨Claims.groupsAndFences, Claims.handleOperators⟩

end Sys2Proof
end

section
/-!
PROOFS. The memory operators complete (12_ops_memory.md R233 to R247): each leaves the access that it issued outstanding.
-/
namespace Sys2Proof.Claims
open Machine

/-- The access as it was issued is the one that the step starts. -/
theorem Starts.of_issues {s u v : State} {i : Instr} {opc addr : Nat} {f : OpFields} {m : Match} {t : Tag} {a : Access}
    (h : Issues u (s.site opc f) m t addr v a) (heq : exec i s = .next (v.startAccess s.actor.tk a)) : Starts i s opc f t addr :=
  ⟨v, a, heq, h.mem, h.isOf.opc, h.isOf.fields, h.isOf.out, h.addr⟩

theorem memoryOperatorsComplete : MemoryOperatorsComplete := by
  rintro s u f m t h w off va hh hw
  have hh : handleOf m = h := hh.symm
  have hw := hw.symm
  refine ⟨?address, ?ldg, ?handles, ?gone, ?hup, ?hrel, ?fence⟩
  case address =>
    rintro ⟨i, opc⟩ hmem ha hva halign hacc hr hgoes
    have hopc : addressOpc opc := addressOps_opc _ hmem
    have haddr : memAddr (s.site opc f) m = va := (memAddr_of_addressOpc hopc).trans ha
    simp only [← memAlign_of_addressOpc hopc] at halign hgoes ⊢
    have hcheck : addrCheck opc va = .ok va := by
      refine addrCheck_ok hopc hva (fun ⟨h1, h2, hlow⟩ => ?_) halign
      rcases hgoes with hwindow | ⟨hspace, -⟩
      · exact absurd hlow (Nat.not_lt.mpr hwindow)
      · exact hspace ⟨h1, h2⟩
    obtain ⟨v, a, hissues, heq⟩ := hacc.fireAddr_starts hopc hr (haddr.symm ▸ hcheck)
      (hgoes.imp (inWindow_iff hva).mpr And.right)
    exact .of_issues hissues ((addressOps_fireAddr f s _ hmem).trans (congrArg Host.Outcome.next heq))
  case ldg =>
    rintro _ x hva rfl hlow halign hdlow hdalign hacc hwalk hx hr
    obtain ⟨v, a, b, hissues, hisOf, hid, haddr, -, heq⟩ := hacc.execLdg hva hlow halign hdlow hdalign hwalk hx hr
    obtain ⟨p, n, haccesses⟩ := v.accesses_ldgReleases s.actor.tk m va b
    exact ⟨_, heq, hissues.issued_changed (g := fun _ => { b with phase := p, since := n }) (by simp only [haccesses, hid])
      { hisOf with } (haddr.trans hissues.addr.symm)⟩
  case handles =>
    rintro ⟨i, opc, p⟩ he o hsum halign hlow hstrong ho hge hle hacc hr
    have hoff : handleOff (s.site opc f) (m.payload? p) = off := hsum.symm
    clear hsum
    rcases List.mem_cons.mp he with he | he
    · cases he
      obtain ⟨v, a, hissues, heq⟩ := hacc.fireHandle_starts hh hw (.inl rfl) hr hoff halign hlow (hstrong (by simp)) ho hge hle
      exact .of_issues hissues (congrArg Host.Outcome.next heq)
    rcases List.mem_cons.mp he with he | he
    · cases he
      obtain ⟨v, a, hissues, heq⟩ := hacc.fireHandle_starts hh hw (.inr rfl) hr hoff halign hlow (hstrong (by simp)) ho hge hle
      exact .of_issues hissues (congrArg Host.Outcome.next heq)
    · cases List.mem_singleton.mp he
      obtain ⟨v, a, b, hissues, hisOf, hid, haddr, -, heq⟩ := hacc.execLdwV_live hh hw hr hoff halign hlow ho hge hle
      refine ⟨_, b, heq, hissues.mem_changed (g := fun _ => b) ?_, hisOf.opc, hisOf.fields, hisOf.out, haddr.trans hissues.addr⟩
      rw [State.tile_modTile_self, Tile.setAccess, hid]
  case gone =>
    intro hlow hoff halign ho hacc hr
    obtain ⟨v, a, hissues, heq⟩ := hacc.execLdwV_gone hh hw hr hoff.symm halign hlow ho
    exact ⟨_, heq, hissues.issued_answer { hissues.isOf with } rfl⟩
  case hup =>
    intro hlow hacc hr hroom
    by_cases hsame : h.strong = true ∨ s.liveObject w h = none
    · obtain ⟨v, a, hissues, heq⟩ := hacc.execHup_same hh hw hr hlow hsame
      exact ⟨_, heq, hissues.issued_answer { hissues.isOf with } rfl⟩
    · obtain ⟨hweak, hlive⟩ := not_or.mp hsame
      obtain ⟨o, ho⟩ := Option.ne_none_iff_exists'.mp hlive
      have hweak := Bool.not_eq_true _ ▸ hweak
      obtain ⟨v, a, hissues, heq⟩ := hacc.execHup_strong hh hw hr hlow hweak ho (hroom o hweak ho)
      exact ⟨_, heq, hissues.issued_answer { hissues.isOf with } rfl⟩
  case hrel =>
    intro o hlow hacc hr ho hsome
    obtain ⟨v, a, hissues, heq⟩ := hacc.execHrel_drops hh hw hr hlow ho hsome
    exact ⟨_, heq, hissues.issued_answer hissues.isOf rfl⟩
  case fence =>
    intro _ hacc hl ht
    obtain ⟨v, a, hissues, heq⟩ := hacc.execFenceS hl ht
    refine ⟨_, heq, ?_⟩
    split
    · exact hissues.issued_answer hissues.isOf rfl
    · obtain ⟨-, -, p, n, haccesses⟩ := v.releaseTile_keeps s.actor.tk a
      exact hissues.issued_changed (g := fun b => { b with phase := p, since := n b }) haccesses { hissues.isOf with } rfl

end Sys2Proof.Claims
end

section
/-!
PROOFS. Firings of the cell array (13_ops_matrix.md R253 to R261, R268): what they read while they are under way, and how long the array is busy.
-/
namespace Sys2Proof.Machine

/-! What the operators read of a firing under way -/

namespace Begins
variable {s u : State} (h : Begins s u) (k : Nat)
include h

theorem spk : (u.tile k).spk = (s.tile k).spk := by rw [h.tile k]
theorem tsWorld : (u.tile k).tsWorld = (s.tile k).tsWorld := by rw [h.tile k]
theorem kvCfg (f : OpFields) : (u.tile k).kvCfg f = (s.tile k).kvCfg f := by rw [Tile.kvCfg, h.regs, Tile.kvCfg]
theorem word32 (a : Nat) : (u.tile k).word32 a = (s.tile k).word32 a := by rw [Tile.word32, h.scratch, Tile.word32]
theorem word64 (a : Nat) : (u.tile k).word64 a = (s.tile k).word64 a := by rw [Tile.word64, h.scratch, Tile.word64]
theorem bufferCount (a : Nat) : (u.tile k).bufferCount a = (s.tile k).bufferCount a := by simp only [Tile.bufferCount, h.word32]
theorem bufferBroken (a : Nat) : (u.tile k).bufferBroken a = (s.tile k).bufferBroken a := by
  simp only [Tile.bufferBroken, h.bufferCount, h.word64]
theorem bufferEntry (a : Nat) : (u.tile k).bufferEntry a = (s.tile k).bufferEntry a := by simp only [Tile.bufferEntry, h.word64]
theorem entryAt (a n : Nat) : (u.tile k).entryAt a n = (s.tile k).entryAt a n := by simp only [Tile.entryAt, h.bufferEntry, h.bufferCount]
theorem kvSeq (d : Nat) : (u.tile k).kvSeq d = (s.tile k).kvSeq d := by simp only [Tile.kvSeq, h.word32]
theorem spCheck (ck : Nat) (c : Colour) (a n : Nat) : u.spCheck ck c a n = s.spCheck ck c a n := by
  simp only [State.spCheck, h.colour, h.spk, h.tsWorld]
theorem bufferCheck (q : Site) (c : Colour) (p : Pair) : u.bufferCheck q c p = s.bufferCheck q c p := by
  simp only [State.bufferCheck, h.spCheck, h.bufferBroken]
theorem sourceOf (q : Site) (c : Colour) (mode reg : Nat) : u.sourceOf q c mode reg = s.sourceOf q c mode reg := by
  simp only [State.sourceOf, h.regs, h.bufferCheck, h.entryAt, h.word32]
theorem extentFault (q : Site) (c : Colour) (r : Region) (n steps : Nat) : u.extentFault q c r n steps = s.extentFault q c r n steps := by
  simp only [State.extentFault, h.spCheck]
theorem kvCheck (c : Colour) (g : KvCfg) (n : Nat) : u.kvCheck k c g n = s.kvCheck k c g n := by
  simp only [State.kvCheck, h.colour, h.spk, h.tsWorld]

end Begins

/-! A firing in progress (R253) -/

theorem State.cycles_poisonRead (s : State) (q : Site) (m : Match) (bad : Bool) : (s.poisonRead q m bad).cycles = s.cycles := by
  unfold State.poisonRead
  split <;> rfl
theorem State.cycles_foldl_modRegs {β : Type} (tk : Nat) (g : State → β → FabRegs → FabRegs) (l : List β) (s : State) :
    (l.foldl (fun s b => s.modRegs tk (g s b)) s).cycles = s.cycles := by
  induction l generalizing s with
  | nil => rfl
  | cons b r ih => exact ih _
theorem State.array_arrayStart (s : State) (q : Site) (m : Match) (rs : List Result) (poison : Bool) (busy : Nat)
    (last : ArrayFiring → ArrayFiring) : ∃ a : ArrayFiring, ((s.arrayStart q m rs poison busy last).tile q.tk).array = some (last a) ∧
      a.lastBusy = s.cycles + busy - 1 := by
  refine ⟨_, by rw [State.arrayStart, State.tile_modTile_self], ?_⟩
  exact congrArg (· + busy - 1) (State.cycles_returnCredits ..)

end Sys2Proof.Machine

namespace Sys2Proof.Claims
open Machine

section
variable {s u w : State} {opc : Nat} {f : OpFields} {m : Match} {t : Tag}

theorem Ready.fireCells {act : State → Site → Match → Tag → State} (h : Ready s opc f m u t) :
    s.fireCells opc f act = act u (s.site opc f) m t := by
  obtain ⟨hfires, he, v, hl, ht⟩ := h
  rw [State.fireCells, hfires.data he, if_neg (by simp [he])]
  exact State.withTag_eq _ hl ht

theorem Busy.arrayStart (hc : w.cycles = s.cycles) (rs : List Result) (poison : Bool) (busy : Nat) {last : ArrayFiring → ArrayFiring}
    (hlast : ∀ a, (last a).lastBusy = a.lastBusy) : Busy s (w.arrayStart (s.site opc f) m rs poison busy last) busy := by
  obtain ⟨a, harray, hbusy⟩ := w.array_arrayStart (s.site opc f) m rs poison busy last
  exact ⟨last a, harray, by rw [hlast, hbusy, hc]⟩

/-! `mma` (R256 to R258) -/

theorem mmas_fireMma (f : OpFields) (s : State) : ∀ e ∈ mmas, exec (e.1 f) s = .next (s.fireMma e.2 f) := by
  simp only [mmas, List.forall_mem_cons, List.not_mem_nil, false_implies, implies_true, and_true]
  exact ⟨rfl, rfl, rfl, rfl, rfl, rfl⟩
theorem Ready.fireMma (h : Ready s opc f m u t) {a b : Option Region}
    (ha : s.sourceOf (s.site opc f) m.tag.colour (OpTable.immField f 17 16) (OpTable.immField f 15 12) = .ok a)
    (hb : s.sourceOf (s.site opc f) m.tag.colour (OpTable.immField f 11 10) (OpTable.immField f 9 6) = .ok b)
    (hfa : (a.bind fun r => s.extentFault (s.site opc f) m.tag.colour r (rowBytes (mmaFormat opc true)) (OpTable.immField f 27 24 + 1)) = none)
    (hfb : (b.bind fun r => s.extentFault (s.site opc f) m.tag.colour r (rowBytes (mmaFormat opc false)) (OpTable.immField f 27 24 + 1)) =
      none) : Busy s (s.fireMma opc f) (mmaBusy opc (OpTable.immField f 27 24 + 1)) := by
  have hbegins := Begins.of_ready h
  rw [State.fireMma, h.fireCells]
  simp only [hbegins.sourceOf, hbegins.extentFault, ha, hb, hfa, hfb, Option.orElse_none]
  refine Busy.arrayStart ?_ _ _ _ fun _ => rfl
  rw [State.cycles_poisonRead, ← hbegins.cycles]
  refine (State.cycles_foldl_modRegs ..).trans ?_
  split <;> rfl

/-! The other operators of the array (R259 to R261, R268) -/

theorem Ready.accrd_row (h : Ready s 0x18A f m u t) (hmode : OpTable.immField f 9 8 ≠ 2) : ∃ v, exec (.accrd f) s = .next v ∧ Busy s v 1 := by
  refine ⟨_, congrArg Host.Outcome.next h.fireCells, ?_⟩
  simp only [if_neg hmode]
  exact Busy.arrayStart (Begins.of_ready h).cycles _ _ _ fun _ => rfl
theorem Ready.accrd_buffer (h : Ready s 0x18A f m u t) (hmode : OpTable.immField f 9 8 = 2) {x : Nat}
    (hx : s.bufferCheck (s.site 0x18A f) m.tag.colour ((s.tile s.actor.tk).regs.pair (OpTable.immField f 13 10)) = .ok x)
    (hsize : 1024 ≤ ((s.tile s.actor.tk).bufferEntry x).1)
    (hfits : (s.tile s.actor.tk).entryAt x ((s.tile s.actor.tk).word32 x) + 1024 ≤ 4096 * (s.tile s.actor.tk).spk.toNat) :
    ∃ v, exec (.accrd f) s = .next v ∧ Busy s v 16 := by
  have hbegins := Begins.of_ready h
  refine ⟨_, congrArg Host.Outcome.next h.fireCells, ?_⟩
  simp only [if_pos hmode, hbegins.regs, hbegins.bufferCheck, hbegins.bufferEntry, hbegins.entryAt, hbegins.word32, hbegins.spk,
    show (s.site 0x18A f).tk = s.actor.tk from rfl, hx, if_neg (Nat.not_lt.mpr hsize), if_neg (Nat.not_lt.mpr hfits)]
  exact Busy.arrayStart hbegins.cycles _ _ _ fun _ => rfl
theorem Ready.ascan (h : Ready s 0x198 f m u t) {g : KvCfg} (hg : (s.tile s.actor.tk).kvCfg f = g) (hok : g.ok = true)
    (hscan : scanOk (m.wide .c) = true) (hcheck : s.kvCheck s.actor.tk m.tag.colour g (scanSeq (m.wide .c)) = .ok ()) {k : KvSeq}
    (hk : (s.tile s.actor.tk).kvSeq (g.desc (scanSeq (m.wide .c))) = k) {slots : List Nat}
    (hslots : (visible g k (m.wide .c)).map (fun p => p / g.tiles) = slots)
    (hheld : ∀ n ∈ slots, n < k.cap ∧ k.slot n + 256 ≤ 4096 * (s.tile s.actor.tk).spk.toNat) :
    ∃ v, exec (.ascan f) s = .next v ∧ Busy s v (4 + 8 * ((slots.length + 15) / 16)) := by
  have hbegins := Begins.of_ready h
  have hcap : (slots.any fun n => n ≥ k.cap) = false := List.any_eq_false.mpr fun n hn => by simpa using (hheld n hn).1
  have hspk : (slots.any fun n => k.slot n + 256 > 4096 * (s.tile s.actor.tk).spk.toNat) = false :=
    List.any_eq_false.mpr fun n hn => by simpa using (hheld n hn).2
  refine ⟨_, congrArg Host.Outcome.next h.fireCells, ?_⟩
  simp only [show (s.site 0x198 f).tk = s.actor.tk from rfl, hbegins.kvCfg, hbegins.kvCheck, hbegins.kvSeq, hbegins.spk, hg, hok, hscan, hcheck, hk,
    hslots, hcap, hspk, Bool.not_true, Bool.false_eq_true, if_false]
  exact Busy.arrayStart ((State.cycles_poisonRead ..).trans hbegins.cycles) _ _ _ fun _ => rfl

end

end Sys2Proof.Claims
end

section
/-!
PROOFS. Attention, KV operators and the end of an array firing (13_ops_matrix.md R253, R265 to R270): the access of each KV operator, the groups
that `ared` and `anorm` send, and the array that falls free.
-/
namespace Sys2Proof.Machine

/-! Deliveries leave the array alone (R253) -/

section
variable {α : Type} (π : Tile → α) (hc : ∀ x c, π { x with commits := c } = π x) (hs : ∀ x c, π { x with sent := c } = π x)
include hs

/-- A reading of every tile that the counts of sent tokens do not enter. -/
theorem State.tile_sendBeat_keeps (s : State) (tk plane vc : Nat) (e : Emission) (id beat k : Nat) :
    π ((s.sendBeat tk plane vc e id beat).tile k) = π (s.tile k) := by
  unfold State.sendBeat
  dsimp only
  split
  · rfl
  split
  · rfl
  rw [State.tile_inject]
  split
  · exact State.tile_modTile_keeps π s tk (fun x => hs x _) k
  · rfl
include hc
theorem State.tile_deliver_keeps (s : State) (tk plane vc : Nat) (e : Emission) (k : Nat) :
    π ((s.deliver tk plane vc e).tile k) = π (s.tile k) := by
  unfold State.deliver
  dsimp only
  split
  · exact State.tile_modTile_keeps π s tk (fun x => hc x _) k
  · exact foldl_rel (R := fun a b : State => π (b.tile k) = π (a.tile k)) (fun _ => rfl) (fun _ _ _ h i => i.trans h) _
      (fun a b => a.tile_sendBeat_keeps π hs tk plane vc e _ b k) _ _
theorem State.tile_deliverAll_keeps (s : State) (tk plane vc : Nat) (es : List Emission) (k : Nat) :
    π ((s.deliverAll tk plane vc es).tile k) = π (s.tile k) :=
  foldl_rel (R := fun a b : State => π (b.tile k) = π (a.tile k)) (fun _ => rfl) (fun _ _ _ h i => i.trans h) _
    (fun a e => a.tile_deliver_keeps π hc hs tk plane vc e k) es s

end

theorem State.array_deliverAll (s : State) (tk plane vc : Nat) (es : List Emission) (k : Nat) :
    ((s.deliverAll tk plane vc es).tile k).array = (s.tile k).array :=
  s.tile_deliverAll_keeps Tile.array (fun _ _ => rfl) (fun _ _ => rfl) tk plane vc es k
theorem State.array_arrayOut (s : State) (tk : Nat) (a : ArrayFiring) (k : Nat) : ((s.arrayOut tk a).tile k).array = (s.tile k).array := by
  unfold State.arrayOut
  split
  · exact State.array_deliverAll ..
  · exact (State.tile_modTile_keeps Tile.array _ tk (by intro x; rfl) k).trans (State.array_deliverAll ..)
theorem Tile.array_foldl_advanceWord (hs : List Nat) (t : Tile) : (hs.foldl (fun t h => t.advanceWord (h + 4)) t).array = t.array := by
  induction hs generalizing t with
  | nil => rfl
  | cons h r ih => exact (ih _).trans rfl
/-- With no groups under way, nothing but the firing in progress can end. -/
theorem State.trailOut_of_empty (s : State) (tk : Nat) (h : (s.tile tk).trail = []) :
    s.trailOut tk = s.modTile tk fun t => { t with trail := t.trail.filter fun v => !decide (v.due ≤ s.cycles) } := by
  simp only [State.trailOut, h, List.filter_nil, List.foldl_nil]
/-- The array is free once its firing has ended (R253). -/
theorem State.array_execArrayFiringEnd (s : State) (n : Nat) {a : ArrayFiring} (ha : (s.tile n).array = some a) (htrail : (s.tile n).trail = [])
    (hlast : a.lastBusy < s.cycles) : ∃ v, exec (.arrayFiringEnd n) s = .next v ∧ (v.tile n).array = none := by
  rw [show exec (.arrayFiringEnd n) s = Machine.execArrayFiringEnd n s from rfl, Machine.execArrayFiringEnd, s.trailOut_of_empty n htrail]
  simp only [State.tile_modTile_self, ha]
  refine ⟨_, if_neg (Nat.not_le.mpr hlast), ?_⟩
  rw [State.array_arrayOut, State.tile_modTile_self, Tile.array_foldl_advanceWord]
  split <;> split <;> rfl

/-! Groups of results (R269, R270) -/

theorem Site.length_groups (q : Site) (ps : List WideVal) (tag : Nat → Tag) :
    (q.groups ps tag).length = ps.length * (OpTable.dests q.f).length := by
  simp [Site.groups, Nat.mul_comm]

end Sys2Proof.Machine

namespace Sys2Proof.Claims
open Machine

section
variable {s u : State} {opc : Nat} {f : OpFields} {m : Match} {t : Tag}

theorem Ready.ared (h : Ready s 0x199 f m u t) : exec (.ared f) s = .next (u.output (s.site 0x199 f) m ((s.site 0x199 f).groups
    ((Triple.ofOps (m.every .l)).merge (Triple.ofOps (m.every .r))).group fun _ => t) (m.at? .l)) := by
  obtain ⟨hfires, he, v, hl, ht⟩ := h
  refine congrArg Host.Outcome.next ((hfires.data he).trans ((if_neg (by simp [he])).trans ?_))
  exact State.withTag_eq _ hl ht

/-- Every one of the eight results of an `anorm` has a tag, one level deeper (R270). -/
theorem Fires.anorm (h : Fires s 0x19A f m) (he : m.eos = false) {v : Int} (hl : (Claims.taken s 0x19A f m).lValue m = (u, v)) {tags : Nat → Tag}
    (htags : ∀ (c : Nat) x, c < 8 → m.tag.push (s.levelsOf (s.site 0x19A f).ck m.tag.ctx.toNat) c = some x →
      u.tagOp (s.site 0x19A f).ck f.tagop x v = some (tags c))
    (hlevel : m.tag.level.toNat < (s.levelsOf (s.site 0x19A f).ck m.tag.ctx.toNat).length - 1) :
    ∃ rs : List Result, exec (.anorm f) s = .next (u.output (s.site 0x19A f) m rs (m.at? .l)) ∧ rs.length = 8 * (OpTable.dests f).length := by
  have htag : ∀ c < 8, ((m.tag.push (s.levelsOf (s.site 0x19A f).ck m.tag.ctx.toNat) (c : Nat)).bind fun t =>
      u.tagOp (s.site 0x19A f).ck f.tagop t v) = some (tags c) := by
    intro c hc
    obtain ⟨x, hx⟩ : ∃ x, m.tag.push (s.levelsOf (s.site 0x19A f).ck m.tag.ctx.toNat) (c : Nat) = some x :=
      ⟨_, by rw [Tag.push, lastLevel, if_neg (Nat.not_le.mpr hlevel)]⟩
    rw [hx, Option.bind_some, htags c x hc hx]
  have hall : ((List.range 8).map fun (c : Nat) => (m.tag.push (s.levelsOf (s.site 0x19A f).ck m.tag.ctx.toNat) c).bind fun t =>
      u.tagOp (s.site 0x19A f).ck f.tagop t v) = (List.range 8).map fun c => some (tags c) :=
    List.map_congr_left fun c hc => htag c (List.mem_range.mp hc)
  have hnone : (((List.range 8).map fun c => some (tags c)).any fun t => t = none) = false := by simp
  have hexec : exec (.anorm f) s = .next (s.fire 0x19A f _) := rfl
  rw [hexec, h.data he]
  simp only [he, Bool.false_eq_true, if_false, hl, State.levelsOf_taken, hall, hnone]
  exact ⟨_, rfl, Site.length_groups ..⟩

/-! The KV operators (R264 to R267) -/

/-- A KV operator whose step has a result leaves its access answered. -/
theorem Accesses.fireKv (h : Accesses s opc f m) (hr : Ready s opc f m u t) (hopc : addrOp opc = false) (hfence : opc ≠ 0x170)
    (hcheck : s.kvCheck s.actor.tk m.tag.colour ((s.tile s.actor.tk).kvCfg f) (kvSeq opc (m.value .l)) = .ok ())
    {act : State → Site → Match → KvCfg → Nat → Except Nat (State × (Access → Access))}
    (hact : ∃ (u' : State) (ans : Access → Access), act u (s.site opc f) m ((s.tile s.actor.tk).kvCfg f) (m.value .l % (2 ^ 64 : Nat)).toNat =
      .ok (u', ans) ∧ ∀ a, (ans a).opc = a.opc ∧ (ans a).out = a.out) {i : Instr} (hexec : exec i s = .next (s.fireKv opc f act)) :
    ∃ (v : State) (x : Access), exec i s = .next v ∧ x ∈ (v.tile s.actor.tk).accesses ∧ x.opc = opc ∧ x.out = t := by
  have hbegins := Begins.of_ready hr
  obtain ⟨u', ans, hact, hans⟩ := hact
  obtain ⟨v, a, hissues, heq⟩ := u'.issueAccess_issues (s.site opc f) m t 0
  refine ⟨v.answer s.actor.tk a.id ans, { ans a with phase := .answered, since := v.cycles + 1 }, ?_,
    hissues.mem_changed (g := fun b => { ans b with phase := .answered, since := v.cycles + 1 }) (by rw [State.answer, State.tile_modTile_self]),
    (hans a).1.trans hissues.isOf.opc, (hans a).2.trans hissues.isOf.out⟩
  rw [hexec, State.fireKv, h.fireMem_eq hr (State.needsWalk_of_not_addrOp hopc m) hfence]
  simp only [show (s.site opc f).tk = s.actor.tk from rfl, hbegins.kvCfg, hbegins.kvCheck, hcheck, hact, heq]

section
variable {g : KvCfg} (hg : (s.tile s.actor.tk).kvCfg f = g) {w : Nat} (hw : (m.value .l % 2 ^ 64).toNat = w)
include hg hw

/-- An append to a position that the tile owns and that has a slot. -/
theorem Accesses.kvapp (h : Accesses s 0x1A0 f m) (hr : Ready s 0x1A0 f m u t)
    (hcheck : s.kvCheck s.actor.tk m.tag.colour g (kvSeq 0x1A0 (m.value .l)) = .ok ()) {k : KvSeq}
    (hk : (s.tile s.actor.tk).kvSeq (g.desc (w / 2 ^ 26 % 64)) = k) (howner : w % 2 ^ 24 % g.tiles = g.ridx)
    (hcap : w % 2 ^ 24 / g.tiles < k.cap) (hspk : k.slot (w % 2 ^ 24 / g.tiles) + 256 ≤ 4096 * (s.tile s.actor.tk).spk.toNat) :
    ∃ (v : State) (x : Access), exec (.kvapp f) s = .next v ∧ x ∈ (v.tile s.actor.tk).accesses ∧ x.opc = 0x1A0 ∧ x.out = t := by
  have hbegins := Begins.of_ready hr
  refine h.fireKv hr rfl (by decide) (hg.symm ▸ hcheck) ?_ rfl
  simp only [hg, show (m.value .l % (2 ^ 64 : Nat)).toNat = w from hw, show (s.site 0x1A0 f).tk = s.actor.tk from rfl, hbegins.kvSeq, hbegins.spk, hk,
    kvPos, howner, if_neg (Nat.not_le.mpr hcap), if_neg (Nat.not_lt.mpr hspk), bne_self_eq_false, Bool.false_eq_true, if_false]
  split
  · exact ⟨_, _, rfl, fun _ => ⟨rfl, rfl⟩⟩
  · exact ⟨_, _, rfl, fun _ => ⟨rfl, rfl⟩⟩
theorem Accesses.kvseq (h : Accesses s 0x1A1 f m) (hr : Ready s 0x1A1 f m u t)
    (hcheck : s.kvCheck s.actor.tk m.tag.colour g (kvSeq 0x1A1 (m.value .l)) = .ok ()) {r : KvSeq × Bool}
    (hstep : kvSeqStep g (s.tile s.actor.tk).spk.toNat w ((s.tile s.actor.tk).kvSeq (g.desc (w / 2 ^ 56 % 64))) = .ok r) {i : Instr}
    (hexec : exec i s = .next (s.fireKvseq f)) :
    ∃ (v : State) (x : Access), exec i s = .next v ∧ x ∈ (v.tile s.actor.tk).accesses ∧ x.opc = 0x1A1 ∧ x.out = t := by
  have hbegins := Begins.of_ready hr
  refine h.fireKv hr rfl (by decide) (hg.symm ▸ hcheck) ?_ hexec
  simp only [hg, show (m.value .l % (2 ^ 64 : Nat)).toNat = w from hw, show (s.site 0x1A1 f).tk = s.actor.tk from rfl, hbegins.kvSeq, hbegins.spk,
    hstep]
  exact ⟨_, _, rfl, fun _ => ⟨rfl, rfl⟩⟩
theorem Accesses.kvtrim (h : Accesses s 0x1A2 f m) (hr : Ready s 0x1A2 f m u t)
    (hcheck : s.kvCheck s.actor.tk m.tag.colour g (kvSeq 0x1A2 (m.value .l)) = .ok ()) (hhigh : w / 2 ^ 62 = 0)
    (hzero : w / 2 ^ 32 % 2 ^ 22 = 0) (hlen : w / 2 ^ 54 % 2 = 1 ∨ w % 2 ^ 32 = 0) :
    ∃ (v : State) (x : Access), exec (.kvtrim f) s = .next v ∧ x ∈ (v.tile s.actor.tk).accesses ∧ x.opc = 0x1A2 ∧ x.out = t := by
  have hform : (w / 2 ^ 62 != 0 || w / 2 ^ 32 % 2 ^ 22 != 0 || (!decide (w / 2 ^ 54 % 2 = 1) && w % 2 ^ 32 != 0)) = false := by
    rw [hhigh, hzero]
    rcases hlen with h | h <;> rw [h] <;> simp
  refine h.fireKv hr rfl (by decide) (hg.symm ▸ hcheck) ?_ rfl
  simp only [hg, show (m.value .l % (2 ^ 64 : Nat)).toNat = w from hw, hform, Bool.false_eq_true, if_false]
  exact ⟨_, _, rfl, fun _ => ⟨rfl, rfl⟩⟩

end

end

theorem arrayOperatorsComplete : ArrayOperatorsComplete := by
  rintro s u f m t _ g w rfl hg hw
  have hg := hg.symm
  have hw := hw.symm
  refine ⟨?mma, ?busy, fun hmode h => h.accrd_row hmode, ?accrd, ?ascan, fun h => h.ared,
    fun v tags h he hl htags hlevel => h.anorm he hl htags hlevel, ?kvapp, ?kvseq,
    fun hcheck hhigh hzero hlen hacc h => hacc.kvtrim hg hw h hcheck hhigh hzero hlen,
    fun n a ha htrail hlast => s.array_execArrayFiringEnd n ha htrail hlast⟩
  case mma =>
    rintro e he _ a b rfl h ha hb hfa hfb
    exact ⟨_, mmas_fireMma f s e he, h.fireMma ha hb hfa hfb⟩
  case busy =>
    simp only [List.forall_mem_cons, List.not_mem_nil, false_implies, implies_true, and_true]
    refine ⟨fun h => ?_, fun h => ?_, fun h => ?_, fun h => ?_⟩
    all_goals exact ⟨_, congrArg Host.Outcome.next h.fireCells, Busy.arrayStart (by exact (Begins.of_ready h).cycles) _ _ _ fun _ => rfl⟩
  case accrd =>
    rintro x _ _ hmode rfl hx hsize rfl hfits h
    exact h.accrd_buffer hmode hx hsize hfits
  case ascan =>
    rintro _ _ k slots rfl hok hscan hcheck rfl hk hslots hheld h
    exact h.ascan hg hok hscan hcheck hk.symm hslots.symm hheld
  case kvapp =>
    rintro k _ hcheck hk rfl howner hcap hspk hacc h
    exact hacc.kvapp hg hw h hcheck hk.symm howner hcap hspk
  case kvseq =>
    intro i hi r hcheck hstep hacc h
    refine hacc.kvseq hg hw h hcheck hstep ?_
    simp only [List.mem_cons, List.not_mem_nil, or_false] at hi
    rcases hi with rfl | rfl | rfl | rfl <;> rfl

end Sys2Proof.Claims

namespace Sys2Proof
open Machine

/-- Settles O60: the access that each memory operator leaves outstanding, then the array's busy cycles, the results of `ared` and `anorm` and the
answers of the KV operators. -/
theorem memoryAndArrayOperatorsComplete : Obligations.MemoryAndArrayOperatorsComplete :=
  ⟨Claims.memoryOperatorsComplete, Claims.arrayOperatorsComplete⟩

end Sys2Proof
end

section
/-!
PROOFS. A firing in progress of the cell array (13_ops_matrix.md R253): the results that it holds, and what its start leaves as it was.
-/
namespace Sys2Proof.Machine

theorem State.emissions_results (s : State) (q : Site) (rs : List Result) (cr : Option Credit) (p : Bool) :
    ((s.emissions q rs cr p).map fun e => (e.index, e.dest, e.token.payload, e.token.tag)) =
      rs.map fun r => (r.index, r.dest, r.payload, { r.tag with slot := r.dest.slot, port := portCode r.dest.port }) := by
  cases rs <;> simp [State.emissions, State.emission]
theorem State.tile_poisonRead (s : State) (q : Site) (m : Match) (bad : Bool) (k : Nat) : (s.poisonRead q m bad).tile k = s.tile k := by
  unfold State.poisonRead
  split <;> rfl

section
variable (s : State) (q : Site) (m : Match) (rs : List Result) (poison : Bool) (busy : Nat) (last : ArrayFiring → ArrayFiring)

/-- The firing that a start puts in progress, before `last` completes its record. -/
theorem State.arrayStart_firing : ∃ a : ArrayFiring, ((s.arrayStart q m rs poison busy last).tile q.tk).array = some (last a) ∧
    a.lastBusy = s.cycles + busy - 1 ∧ (a.out.map fun e => (e.index, e.dest, e.token.payload, e.token.tag)) =
      rs.map fun r => (r.index, r.dest, r.payload, { r.tag with slot := r.dest.slot, port := portCode r.dest.port }) := by
  refine ⟨_, by rw [State.arrayStart, State.tile_modTile_self], ?_, State.emissions_results ..⟩
  exact congrArg (· + busy - 1) (State.cycles_returnCredits ..)
/-- A reading of every tile that neither its reservations nor the firing in progress enter. -/
theorem State.tile_arrayStart_keeps {α : Type} (π : Tile → α) (hr : ∀ x c, π { x with reserved := c } = π x)
    (ha : ∀ x a, π { x with array := a } = π x) (k : Nat) : π ((s.arrayStart q m rs poison busy last).tile k) = π (s.tile k) := by
  rw [State.arrayStart, State.tile_modTile_keeps π _ _ (fun x => ha x _), State.tile_holdAll, hr, State.tile_returnCredits]
theorem State.regs_arrayStart (k : Nat) : ((s.arrayStart q m rs poison busy last).tile k).regs = (s.tile k).regs :=
  s.tile_arrayStart_keeps q m rs poison busy last Tile.regs (fun _ _ => rfl) (fun _ _ => rfl) k
theorem State.scratch_arrayStart (k : Nat) : ((s.arrayStart q m rs poison busy last).tile k).scratch = (s.tile k).scratch :=
  s.tile_arrayStart_keeps q m rs poison busy last Tile.scratch (fun _ _ => rfl) (fun _ _ => rfl) k

end

end Sys2Proof.Machine

namespace Sys2Proof.Claims
open Machine

section
variable {s u w : State} {opc : Nat} {f : OpFields} {m : Match} {t : Tag}

/-- A start with one result for every destination, whose record `last` completes. -/
theorem Working.arrayStart (hc : w.cycles = s.cycles) {rs : List Result} {p : Nat → Payload}
    (hrs : rs = (OpTable.dests f).map fun d => ⟨d.1, d.2, if f.flags.order then .order else p d.1, t⟩) (poison : Bool) (busy : Nat)
    {last : ArrayFiring → ArrayFiring} (hlast : ∀ a, (last a).lastBusy = a.lastBusy ∧ (last a).out = a.out) :
    ∃ a, Working s (w.arrayStart (s.site opc f) m rs poison busy last) f t busy p (last a) := by
  obtain ⟨a, harray, hbusy, hout⟩ := w.arrayStart_firing (s.site opc f) m rs poison busy last
  obtain ⟨hlastBusy, hlastOut⟩ := hlast a
  refine ⟨a, harray, by rw [hlastBusy, hbusy, hc], ?_⟩
  rw [hlastOut, hout, hrs, List.map_map]
  rfl

/-! The accumulators of the acting tile -/

variable {g h : Nat → Nat → Nat → Lane}

theorem Cells.congr (hw : Cells s w g) (hgh : ∀ n i j, n < 4 → i < 16 → j < 16 → g n i j = h n i j) : Cells s w h := by
  obtain ⟨hcells, hscratch⟩ := hw
  exact ⟨fun n i j hn hi hj => (hcells n i j hn hi hj).trans (hgh n i j hn hi hj), hscratch⟩
theorem Cells.poisonRead (hw : Cells s w g) (q : Site) (bad : Bool) : Cells s (w.poisonRead q m bad) g := by
  simpa only [Cells, State.tile_poisonRead] using hw
theorem Cells.arrayStart (hw : Cells s w g) (q : Site) (rs : List Result) (poison : Bool) (busy : Nat) (last : ArrayFiring → ArrayFiring) :
    Cells s (w.arrayStart q m rs poison busy last) g := by
  simpa only [Cells, State.regs_arrayStart, State.scratch_arrayStart] using hw
theorem Cells.of_begins (hb : Begins s u) : Cells s u (s.tile s.actor.tk).regs.cell :=
  ⟨fun n i j _ _ _ => by rw [hb.regs], hb.scratch⟩

end

end Sys2Proof.Claims

namespace Sys2Proof.Machine

/-! The elements of an accumulator -/

/-- One of the writes of `FabRegs.setCells`. -/
def putCell (n : Nat) (g : Nat → Nat → Option Lane) (acc : Map Lane) (x : Nat) : Map Lane :=
  match g (x / 16) (x % 16) with
  | some v => Map.put acc (256 * n + x) v
  | none => acc

theorem FabRegs.acc_setCells (r : FabRegs) (n : Nat) (g : Nat → Nat → Option Lane) :
    (r.setCells n g).acc = (List.range 256).foldl (putCell n g) r.acc := by
  unfold FabRegs.setCells
  generalize List.range 256 = l
  rfl
theorem get_putCell_self (n : Nat) (g : Nat → Nat → Option Lane) (acc : Map Lane) (x : Nat) :
    Map.get (putCell n g acc x) (256 * n + x) 0 = (g (x / 16) (x % 16)).getD (Map.get acc (256 * n + x) 0) := by
  unfold putCell
  cases g (x / 16) (x % 16) with
  | none => rfl
  | some v => exact Map.get_put_self _ _ _ _
theorem get_putCell_other (n : Nat) (g : Nat → Nat → Option Lane) (acc : Map Lane) {key x : Nat} (h : key ≠ 256 * n + x) :
    Map.get (putCell n g acc x) key 0 = Map.get acc key 0 := by
  unfold putCell
  cases g (x / 16) (x % 16) with
  | none => rfl
  | some v => exact Map.get_put_other _ _ _ h
/-- The element that a key names, after the first `x` elements of accumulator `n` are written. -/
theorem get_foldl_putCell (n : Nat) (g : Nat → Nat → Option Lane) (acc : Map Lane) (key x : Nat) :
    Map.get ((List.range x).foldl (putCell n g) acc) key 0 =
      if 256 * n ≤ key ∧ key < 256 * n + x then (g ((key - 256 * n) / 16) ((key - 256 * n) % 16)).getD (Map.get acc key 0)
      else Map.get acc key 0 := by
  induction x with
  | zero => rw [if_neg (by omega)]; rfl
  | succ x ih =>
    rw [List.range_succ, List.foldl_append, List.foldl_cons, List.foldl_nil]
    by_cases hkey : key = 256 * n + x
    · subst hkey
      rw [if_neg (by omega)] at ih
      rw [if_pos (by omega), Nat.add_sub_cancel_left, get_putCell_self, ih]
    · have hrange : (256 * n ≤ key ∧ key < 256 * n + (x + 1)) ↔ (256 * n ≤ key ∧ key < 256 * n + x) := by omega
      rw [if_congr hrange rfl rfl, ← ih, get_putCell_other _ _ _ hkey]
theorem FabRegs.cell_setCells (r : FabRegs) (n : Nat) (g : Nat → Nat → Option Lane) (k : Nat) {i j : Nat} (hi : i < 16) (hj : j < 16) :
    (r.setCells n g).cell k i j = if k = n then (g i j).getD (r.cell k i j) else r.cell k i j := by
  simp only [FabRegs.cell, FabRegs.acc_setCells, get_foldl_putCell]
  by_cases hk : k = n
  · subst hk
    rw [if_pos (by omega), if_pos rfl, show (256 * k + 16 * i + j - 256 * k) / 16 = i by omega,
      show (256 * k + 16 * i + j - 256 * k) % 16 = j by omega]
  · rw [if_neg (by omega), if_neg hk]
theorem State.regs_modRegs_self (s : State) (tk : Nat) (g : FabRegs → FabRegs) : ((s.modRegs tk g).tile tk).regs = g (s.tile tk).regs := by
  rw [State.modRegs, State.tile_modTile_self]
theorem State.scratch_modRegs (s : State) (tk : Nat) (g : FabRegs → FabRegs) (k : Nat) :
    ((s.modRegs tk g).tile k).scratch = (s.tile k).scratch := s.tile_modTile_keeps Tile.scratch tk (by intro x; rfl) k

end Sys2Proof.Machine

namespace Sys2Proof.Claims
open Machine

section
variable {s u : State} {opc : Nat} {f : OpFields} {m : Match} {t : Tag}

/-- An operator writes elements of an accumulator. -/
theorem Cells.setCells (hb : Begins s u) (n : Nat) (g : FabRegs → Nat → Nat → Option Lane) :
    Cells s (u.modRegs s.actor.tk fun r => r.setCells n (g r)) fun k i j =>
      if k = n then (g (s.tile s.actor.tk).regs i j).getD ((s.tile s.actor.tk).regs.cell k i j) else (s.tile s.actor.tk).regs.cell k i j :=
  ⟨fun k i j _ hi hj => by rw [State.regs_modRegs_self, hb.regs, FabRegs.cell_setCells _ _ _ _ hi hj],
    fun k => (State.scratch_modRegs ..).trans (hb.scratch k)⟩

/-- A firing that writes elements of an accumulator and sends L on (R259, R260). -/
theorem Ready.writes_cells (hr : Ready s opc f m u t) {i : Instr} {n : Nat} {g : FabRegs → Nat → Nat → Option Lane} {busy : Nat}
    (hexec : exec i s = .next ((u.modRegs s.actor.tk fun r => r.setCells n (g r)).emitL (s.site opc f) m t false busy id))
    {h : Nat → Nat → Nat → Lane} (hgh : ∀ k i j, (if k = n then (g (s.tile s.actor.tk).regs i j).getD ((s.tile s.actor.tk).regs.cell k i j)
      else (s.tile s.actor.tk).regs.cell k i j) = h k i j) : ∃ (w : State) (a : ArrayFiring), exec i s = .next w ∧
        Working s w f t busy (fun _ => (m.payload? .l).getD .order) a ∧ Cells s w h := by
  have hbegins := Begins.of_ready hr
  have hcells := (Cells.setCells hbegins n g).congr fun k i j _ _ _ => hgh k i j
  obtain ⟨a, ha⟩ := Working.arrayStart (s := s) (w := u.modRegs s.actor.tk fun r => r.setCells n (g r)) (opc := opc) (f := f) (m := m) (t := t)
    (p := fun _ => (m.payload? .l).getD .order) hbegins.cycles rfl false busy (last := id) fun _ => ⟨rfl, rfl⟩
  exact ⟨_, a, hexec, ha, hcells.arrayStart ..⟩

end

end Sys2Proof.Claims
end

section
/-!
PROOFS. The operators on accumulators and `xsort` (13_ops_matrix.md R259 to R261): their arithmetic, the rows that go to a buffer, and the
stable sort.
-/
namespace Sys2Proof.Fp

/-- A pattern is read in its 32 bits. -/
theorem decode_f32_mod (b : Nat) : decode f32 (b % 2 ^ 32) = decode f32 b := by
  simp only [decode_f32, signed, show b % 2 ^ 32 / 2 ^ 23 % 2 ^ 8 = b / 2 ^ 23 % 2 ^ 8 by omega, show b % 2 ^ 32 % 2 ^ 23 = b % 2 ^ 23 by omega,
    show b % 2 ^ 32 / 2 ^ 31 % 2 = b / 2 ^ 31 % 2 by omega]

end Sys2Proof.Fp

namespace Sys2Proof.Claims
open Machine

theorem val_rne (x : Fp.Val) : Claims.val (Claims.rne x) = Fp.decode Fp.f32 (Fp.rne Fp.f32 x) :=
  (congrArg _ (BitVec.toNat_ofNat ..)).trans (Fp.decode_f32_mod _)
/-- The term that `scalc` adds to an element (R259). -/
theorem scalc_element (old acc sup code : Lane) : BitVec.ofNat 32 (Fp.add32 old.toNat (Fp.mul32 acc.toNat (scalcScale sup code))) =
    Claims.rne (Fp.sum [Claims.val old, Claims.val (Claims.rne (Fp.mul (Claims.val acc)
      (Claims.val (Claims.rne (Fp.mul (Claims.val sup) (.fin false (code.toNat % 256 + 1) (-8)))))))]) := by
  simp only [val_rne]
  rfl

end Sys2Proof.Claims

namespace Sys2Proof.Lanes

/-- Byte b of a payload lies in lane b / 4 (01_notation.md R23). -/
theorem byte_eq_lane (w : Wide) (b : Nat) : byte w b = (lane w (b / 4)).extractLsb' (8 * (b % 4)) 8 := by
  ext k hk
  have hlane : 8 * (b % 4) + k < 32 := by omega
  simp [byte, lane, hlane, show 32 * (b / 4) + (8 * (b % 4) + k) = 8 * b + k by omega]

/-! The stable sort (R261) -/

/-- Lane i stands before lane j in a stable sort: equal lanes keep their order. -/
def Precedes (le : Nat → Nat → Bool) (i j : Nat) : Prop := le i j = true ∧ (le j i = true → i < j)

section
variable (le : Nat → Nat → Bool)

theorem perm_insertBy (x : Nat) (l : List Nat) : (insertBy le x l).Perm (x :: l) := by
  induction l with
  | nil => exact .refl _
  | cons y l ih =>
    rw [insertBy]
    split
    · exact .refl _
    · exact (ih.cons y).trans (.swap x y l)
theorem perm_sortBy (l : List Nat) : (sortBy le l).Perm l := by
  induction l with
  | nil => exact .refl _
  | cons x l ih => exact (perm_insertBy le x _).trans (ih.cons x)

variable {le} (htotal : ∀ i j, le i j = true ∨ le j i = true) (htrans : ∀ i j k, le i j = true → le j k = true → le i k = true)
include htotal htrans

theorem pairwise_insertBy {x : Nat} {l : List Nat} (hx : ∀ y ∈ l, x < y) (hl : l.Pairwise (Precedes le)) :
    (insertBy le x l).Pairwise (Precedes le) := by
  induction l with
  | nil => exact List.pairwise_singleton _ x
  | cons y l ih =>
    obtain ⟨hy, hl'⟩ := List.pairwise_cons.mp hl
    rw [insertBy]
    split
    next hxy =>
      refine List.pairwise_cons.mpr ⟨fun z hz => ⟨?_, fun _ => hx z hz⟩, hl⟩
      rcases List.mem_cons.mp hz with rfl | hz
      · exact hxy
      · exact htrans _ _ _ hxy (hy z hz).1
    next hxy =>
      refine List.pairwise_cons.mpr ⟨fun z hz => ?_, ih (fun z hz => hx z (List.mem_cons_of_mem y hz)) hl'⟩
      rcases List.mem_cons.mp ((perm_insertBy le x l).mem_iff.mp hz) with rfl | hz
      · exact ⟨(htotal z y).resolve_left hxy, fun h => absurd h hxy⟩
      · exact hy z hz
theorem pairwise_sortBy {l : List Nat} (hl : l.Pairwise (· < ·)) : (sortBy le l).Pairwise (Precedes le) := by
  induction l with
  | nil => exact .nil
  | cons x l ih =>
    obtain ⟨hx, hl⟩ := List.pairwise_cons.mp hl
    exact pairwise_insertBy htotal htrans (fun y hy => hx y ((perm_sortBy le l).mem_iff.mp hy)) (ih hl)

end

section
variable (e : EType) (desc : Bool) (a : WideVal)

/-- The active lanes in their order: by key, and equal keys by lane number. -/
theorem sortList_order {x y i j : Nat} (hxy : x < y) (hi : (sortList e desc a)[x]? = some i) (hj : (sortList e desc a)[y]? = some j) :
    (if desc then key e (lane a.data j) < key e (lane a.data i) else key e (lane a.data i) < key e (lane a.data j)) ∨
      (key e (lane a.data i) = key e (lane a.data j) ∧ i < j) := by
  have hsorted : (sortList e desc a).Pairwise (Precedes fun i j =>
      if desc then key e (lane a.data j) ≤ key e (lane a.data i) else key e (lane a.data i) ≤ key e (lane a.data j)) := by
    refine pairwise_sortBy (fun i j => ?_) (fun i j k hij hjk => ?_) (List.pairwise_lt_range.filter _)
    all_goals
      cases desc
      all_goals
        simp only [Bool.false_eq_true, if_false, if_true, decide_eq_true_eq] at *
        omega
  obtain ⟨hx, rfl⟩ := List.getElem?_eq_some_iff.mp hi
  obtain ⟨hy, rfl⟩ := List.getElem?_eq_some_iff.mp hj
  obtain ⟨hle, htie⟩ := List.pairwise_iff_getElem.mp hsorted x y hx hy hxy
  cases desc
  all_goals
    simp only [Bool.false_eq_true, if_false, if_true, decide_eq_true_eq] at *
    omega
/-- Where the keys and the lane numbers stand (R261). -/
theorem xsort_lanes {x : Nat} (hx : x < 16) : (xsort e desc a).1.mask.getLsbD x = decide (x < (sortList e desc a).length) ∧
    (xsort e desc a).2.mask.getLsbD x = decide (x < (sortList e desc a).length) ∧
    lane (xsort e desc a).1.data x = ((sortList e desc a)[x]?.map fun i => lane a.data i).getD 0 ∧
    lane (xsort e desc a).2.data x = ((sortList e desc a)[x]?.map fun i => BitVec.ofNat 32 i).getD 0 := by
  have hmask : (ofMask fun r => r < (sortList e desc a).length).getLsbD x = decide (x < (sortList e desc a).length) := getLsbD_ofMask _ hx
  refine ⟨hmask, hmask, (lane_masked _ _ hx).trans ?_, (lane_masked _ _ hx).trans ?_⟩
  all_goals
    rw [on, hmask]
    by_cases h : x < (sortList e desc a).length
    · simp [h]
    · simp [h]

end

end Sys2Proof.Lanes

namespace Sys2Proof.Machine

/-! The rows that `accrd` writes to a buffer (R260) -/

theorem getElem?_flatMap_range {α : Type} {g : Nat → List α} {k : Nat} (hg : ∀ i, (g i).length = k) {n i b : Nat} (hi : i < n) (hb : b < k) :
    ((List.range n).flatMap g)[k * i + b]? = (g i)[b]? := by
  have hlength : ∀ n, ((List.range n).flatMap g).length = k * n := fun n => by simp [List.length_flatMap, hg, Nat.mul_comm]
  induction n with
  | zero => exact absurd hi (Nat.not_lt_zero i)
  | succ n ih =>
    rw [List.range_succ, List.flatMap_append, List.flatMap_singleton]
    rcases Nat.lt_succ_iff_lt_or_eq.mp hi with hlt | rfl
    · have hmul : k * (i + 1) ≤ k * n := Nat.mul_le_mul_left k hlt
      rw [Nat.mul_succ] at hmul
      rw [List.getElem?_append_left (by rw [hlength]; omega), ih hlt]
    · rw [List.getElem?_append_right (by rw [hlength]; omega), hlength, Nat.add_sub_cancel_left]
theorem length_pairsAt (off : Nat) (bs : List Byte) : (pairsAt off bs).length = bs.length := by
  induction bs generalizing off with
  | nil => rfl
  | cons b bs ih => simp [pairsAt, ih]
theorem getElem?_pairsAt (off : Nat) (bs : List Byte) (n : Nat) : (pairsAt off bs)[n]? = bs[n]?.map fun b => (off + n, b) := by
  induction bs generalizing off n with
  | nil => rfl
  | cons b bs ih =>
    cases n with
    | zero => rfl
    | succ n => simp [pairsAt, ih, Nat.add_assoc, Nat.add_comm 1]
theorem FabRegs.byte_row (r : FabRegs) (n i : Nat) {b : Nat} (hb : b < 64) :
    Lanes.byte (r.row n i).data b = (r.cell n i (b / 4)).extractLsb' (8 * (b % 4)) 8 := by
  rw [Lanes.byte_eq_lane, FabRegs.row, Lanes.lane_ofLanes _ (by omega)]
/-- The bytes of a whole accumulator, for an entry that begins at `a`. -/
def FabRegs.entryPairs (r : FabRegs) (n a : Nat) : List (Nat × Byte) :=
  (List.range 16).flatMap fun i => pairsAt (a + 64 * i) ((List.range 64).map fun b => Lanes.byte (r.row n i).data b)
theorem FabRegs.getElem?_entryPairs (r : FabRegs) (n a : Nat) {i b : Nat} (hi : i < 16) (hb : b < 64) : (r.entryPairs n a)[64 * i + b]? =
    some (a + 64 * i + b, (r.cell n i (b / 4)).extractLsb' (8 * (b % 4)) 8) := by
  rw [FabRegs.entryPairs, getElem?_flatMap_range (fun i => by simp [length_pairsAt]) hi hb, getElem?_pairsAt, List.getElem?_map, List.getElem?_range hb,
    Option.map_some, Option.map_some, FabRegs.byte_row _ _ _ hb]

end Sys2Proof.Machine

namespace Sys2Proof.Claims
open Machine

section
variable {s u : State} {f : OpFields} {m : Match} {t : Tag}

theorem Ready.scalc (h : Ready s 0x188 f m u t) : ∃ (w : State) (a : ArrayFiring), exec (.scalc f) s = .next w ∧
    Working s w f t 16 (fun _ => (m.payload? .l).getD .order) a ∧ Cells s w fun n i j =>
      if n = OpTable.immField f 3 2 ∧ (m.wide .l).mask.getLsbD i = true ∧ (m.wide .r).mask.getLsbD i = true then
        Claims.rne (Fp.sum [Claims.val ((s.tile s.actor.tk).regs.cell n i j), Claims.val (Claims.rne (Fp.mul
          (Claims.val ((s.tile s.actor.tk).regs.cell (OpTable.immField f 1 0) i j)) (Claims.val (Claims.rne (Fp.mul
            (Claims.val (Lanes.lane (m.wide .l).data i)) (.fin false ((Lanes.lane (m.wide .r).data i).toNat % 256 + 1) (-8)))))))])
      else (s.tile s.actor.tk).regs.cell n i j := by
  refine h.writes_cells (i := .scalc f) (n := OpTable.immField f 3 2) (g := fun x i j =>
    if Lanes.on (m.wide .l).mask i && Lanes.on (m.wide .r).mask i then
      some (BitVec.ofNat 32 (Fp.add32 (x.cell (OpTable.immField f 3 2) i j).toNat (Fp.mul32 (x.cell (OpTable.immField f 1 0) i j).toNat
        (scalcScale (Lanes.lane (m.wide .l).data i) (Lanes.lane (m.wide .r).data i)))))
    else none) ((congrArg Host.Outcome.next h.fireCells).trans rfl) fun n i j => ?_
  simp only [scalc_element, ← Bool.and_eq_true]
  by_cases hn : n = OpTable.immField f 3 2
  · subst hn
    by_cases hon : ((m.wide .l).mask.getLsbD i && (m.wide .r).mask.getLsbD i) = true
    · simp [Lanes.on, hon]
    · simp [Lanes.on, hon]
  · simp [hn]
theorem Ready.accz (h : Ready s 0x189 f m u t) : ∃ (w : State) (a : ArrayFiring), exec (.accz f) s = .next w ∧
    Working s w f t 1 (fun _ => (m.payload? .l).getD .order) a ∧
    Cells s w fun n i j => if n = OpTable.immField f 1 0 then 0 else (s.tile s.actor.tk).regs.cell n i j :=
  h.writes_cells (i := .accz f) (n := OpTable.immField f 1 0) (g := fun _ _ _ => some 0) ((congrArg Host.Outcome.next h.fireCells).trans rfl)
    fun _ _ _ => rfl
theorem Ready.accwr (h : Ready s 0x18B f m u t) : ∃ (w : State) (a : ArrayFiring), exec (.accwr f) s = .next w ∧
    Working s w f t 1 (fun _ => (m.payload? .l).getD .order) a ∧ Cells s w fun n i j =>
      if n = OpTable.immField f 1 0 ∧ i = OpTable.immField f 7 4 ∧ (m.wide .l).mask.getLsbD j = true then Lanes.lane (m.wide .l).data j
      else (s.tile s.actor.tk).regs.cell n i j := by
  refine h.writes_cells (i := .accwr f) (n := OpTable.immField f 1 0) (g := fun _ i j =>
    if i = OpTable.immField f 7 4 && Lanes.on (m.wide .l).mask j then some (Lanes.lane (m.wide .l).data j) else none)
    ((congrArg Host.Outcome.next h.fireCells).trans rfl) fun n i j => ?_
  by_cases hn : n = OpTable.immField f 1 0
  · by_cases hij : i = OpTable.immField f 7 4 ∧ (m.wide .l).mask.getLsbD j = true
    · simp [hn, hij, Lanes.on]
    · simp [hn, hij, Lanes.on]
  · simp [hn]

/-- A firing that reads the array's registers and no more. -/
theorem Ready.reads_cells {opc : Nat} {i : Instr} (h : Ready s opc f m u t) {rs : List Result} {p : Nat → Payload} {busy : Nat}
    {last : ArrayFiring → ArrayFiring} (hexec : exec i s = .next (u.arrayStart (s.site opc f) m rs false busy last))
    (hrs : rs = (OpTable.dests f).map fun d => ⟨d.1, d.2, if f.flags.order then .order else p d.1, t⟩)
    (hlast : ∀ a, (last a).lastBusy = a.lastBusy ∧ (last a).out = a.out) : ∃ (w : State) (a : ArrayFiring), exec i s = .next w ∧
      Working s w f t busy p (last a) ∧ Cells s w (s.tile s.actor.tk).regs.cell := by
  have hbegins := Begins.of_ready h
  obtain ⟨a, ha⟩ := Working.arrayStart (s := s) hbegins.cycles hrs false busy hlast
  exact ⟨_, a, hexec, ha, (Cells.of_begins hbegins).arrayStart ..⟩
theorem Ready.accrd_row_sends (h : Ready s 0x18A f m u t) (hmode : OpTable.immField f 9 8 ≠ 2) :
    ∃ (w : State) (a : ArrayFiring) (v : WideVal), exec (.accrd f) s = .next w ∧ Working s w f t 1 (fun _ => .wide v) a ∧
      Cells s w (s.tile s.actor.tk).regs.cell ∧ v.mask = 0xFFFF ∧ ∀ j, j < 16 → Lanes.lane v.data j =
        (s.tile s.actor.tk).regs.cell (OpTable.immField f 1 0) (if OpTable.immField f 9 8 = 1 then
          ((m.payload? .l).getD .order).value.toNat % 16 else OpTable.immField f 7 4) j := by
  obtain ⟨w, a, hexec, ha, hcells⟩ := h.reads_cells (i := .accrd f) (last := id) (p := fun _ => .wide ((u.tile s.actor.tk).regs.row
    (OpTable.immField f 1 0) (if OpTable.immField f 9 8 = 1 then ((m.payload? .l).getD .order).value.toNat % 16 else OpTable.immField f 7 4)))
    ((congrArg Host.Outcome.next h.fireCells).trans (congrArg Host.Outcome.next (if_neg hmode))) rfl fun _ => ⟨rfl, rfl⟩
  refine ⟨w, a, _, hexec, ha, hcells, rfl, fun j hj => ?_⟩
  rw [FabRegs.row, Lanes.lane_ofLanes _ hj, (Begins.of_ready h).regs]
theorem Ready.accrd_buffer_rows (h : Ready s 0x18A f m u t) (hmode : OpTable.immField f 9 8 = 2) {x : Nat}
    (hx : s.bufferCheck (s.site 0x18A f) m.tag.colour ((s.tile s.actor.tk).regs.pair (OpTable.immField f 13 10)) = .ok x)
    (hsize : 1024 ≤ ((s.tile s.actor.tk).bufferEntry x).1) {entry : Nat}
    (hentry : entry = (s.tile s.actor.tk).entryAt x ((s.tile s.actor.tk).word32 x))
    (hfits : entry + 1024 ≤ 4096 * (s.tile s.actor.tk).spk.toNat) : ∃ (w : State) (a : ArrayFiring), exec (.accrd f) s = .next w ∧
      Working s w f t 16 (fun _ => (m.payload? .l).getD .order) a ∧ a.prod = some x ∧ Cells s w (s.tile s.actor.tk).regs.cell ∧
      ∀ i b, i < 16 → b < 64 → a.rows[64 * i + b]? = some (entry + 64 * i + b,
        ((s.tile s.actor.tk).regs.cell (OpTable.immField f 1 0) i (b / 4)).extractLsb' (8 * (b % 4)) 8) := by
  have hbegins := Begins.of_ready h
  obtain ⟨w, a, hexec, ha, hcells⟩ := h.reads_cells (i := .accrd f) (busy := 16) (p := fun _ => (m.payload? .l).getD .order)
    (last := fun y => { y with prod := some x, rows := (s.tile s.actor.tk).regs.entryPairs (OpTable.immField f 1 0) entry })
    (by
      refine (congrArg Host.Outcome.next h.fireCells).trans ?_
      simp only [if_pos hmode, hbegins.regs, hbegins.bufferCheck, hbegins.bufferEntry, hbegins.entryAt, hbegins.word32, hbegins.spk,
        show (s.site 0x18A f).tk = s.actor.tk from rfl, hx, if_neg (Nat.not_lt.mpr hsize), ← hentry, if_neg (Nat.not_lt.mpr hfits)]
      rfl) rfl fun _ => ⟨rfl, rfl⟩
  exact ⟨w, _, hexec, ha, rfl, hcells, fun i b hi hb => FabRegs.getElem?_entryPairs _ _ _ hi hb⟩
theorem Ready.xsort_sends (h : Ready s 0x190 f m u t) (horder : f.flags.order = false) : ∃ (w : State) (a : ArrayFiring),
    exec (.xsort f) s = .next w ∧ Working s w f t 10 (fun i => .wide (if i = 1 then
        (Lanes.xsort f.etype (OpTable.immField f 0 0 = 1) (m.wide .l)).2
      else (Lanes.xsort f.etype (OpTable.immField f 0 0 = 1) (m.wide .l)).1)) a ∧ Cells s w (s.tile s.actor.tk).regs.cell := by
  obtain ⟨w, a, hexec, ha, hcells⟩ := h.reads_cells (i := .xsort f) (last := id) (p := fun i => .wide (if i = 1 then
      (Lanes.xsort f.etype (OpTable.immField f 0 0 = 1) (m.wide .l)).2 else (Lanes.xsort f.etype (OpTable.immField f 0 0 = 1) (m.wide .l)).1))
    (congrArg Host.Outcome.next h.fireCells) (by
      simp only [Site.toAll, List.map_map, show (s.site 0x190 f).f = f from rfl, horder, Bool.false_eq_true, if_false]
      refine List.map_congr_left fun d _ => ?_
      by_cases hd : d.1 = 1
      · simp only [Function.comp, hd, if_true]
        rfl
      · simp only [Function.comp, hd, if_false]
        rfl) fun _ => ⟨rfl, rfl⟩
  exact ⟨w, a, hexec, ha, hcells⟩

end

end Sys2Proof.Claims
end

section
/-!
PROOFS. `mma` (13_ops_matrix.md R254 to R258; 04_numbers.md R90 to R92): one step into an element, what the steps read, and the accumulator
after all of them.
-/
namespace Sys2Proof.Machine

/-! One step into an element (R90 to R92) -/

theorem length_rowElements (fmt : Nat) (bs : List Byte) : (rowElements fmt bs).length = 64 := by simp [rowElements]
theorem State.length_operandRow (s : State) (q : Site) (src : Option Region) (fmt reg t : Nat) {i : Nat} (hi : i < 16) :
    ((s.operandRows q src fmt reg t).getD i []).length = 64 := by
  cases src with
  | none =>
    simp only [State.operandRows, List.getD_eq_getElem?_getD, List.getElem?_replicate, hi, if_true, Option.getD_some, length_rowElements]
  | some r => simp [State.operandRows, hi, length_rowElements]

/-- An exact product as the sum takes it: that of integers has no signed zero (R90). -/
def productTerm (opc : Nat) (v : Fp.Val) : Fp.Val :=
  match opc, v with
  | 0x184, .fin _ 0 e => .fin false 0 e
  | _, v => v

theorem productTerm_int (v : Fp.Val) : productTerm 0x184 v = intProduct v := by
  rcases v with _ | _ | ⟨neg, m, e⟩
  · rfl
  · rfl
  · cases m with
    | zero => simp [productTerm, intProduct]
    | succ m => simp [productTerm, intProduct]
theorem productTerm_other {opc : Nat} (h : opc ≠ 0x184) (v : Fp.Val) : productTerm opc v = v := by
  unfold productTerm
  split
  · exact absurd rfl h
  · rfl
theorem product_eq (opc : Nat) (a b : List Fp.Val) (c : Lane) : Claims.product opc a b c =
    if opc = 0x185 then BitVec.ofNat 32 (Fp.rne Fp.f32 (Fp.sum ((products a b).map (productTerm opc))))
    else BitVec.ofNat 32 ((List.range (64 / if opc = 0x183 then 8 else 16)).foldl (fun x g => Fp.add32 x (Fp.rne Fp.f32 (Fp.sum
      ((((products a b).map (productTerm opc)).drop ((if opc = 0x183 then 8 else 16) * g)).take (if opc = 0x183 then 8 else 16))))) c.toNat) := rfl
/-- The groups of 64 products, each rounded once and then added in order. -/
theorem foldl_groupSums (n : Nat) {ps : List Fp.Val} (hps : ps.length = 64) (c : Nat) : (groupSums n ps).foldl Fp.add32 c =
    (List.range (64 / n)).foldl (fun x g => Fp.add32 x (Fp.rne Fp.f32 (Fp.sum ((ps.drop (n * g)).take n)))) c := by
  rw [groupSums, hps, List.foldl_map]
theorem mmaCell_eq_product (opc : Nat) {a b : List Fp.Val} (ha : a.length = 64) (hb : b.length = 64) (c : Lane) :
    BitVec.ofNat 32 (mmaCell opc a b c.toNat) = Claims.product opc a b c := by
  have hlength : (products a b).length = 64 := by simp [products, ha, hb]
  rw [product_eq, mmaCell]
  by_cases hint : opc = 0x184
  · subst hint
    rw [if_neg (by decide), if_pos rfl, if_neg (by decide), if_neg (by decide), List.map_congr_left fun v _ => productTerm_int v,
      foldl_groupSums _ ((List.length_map _).trans hlength)]
  · rw [List.map_congr_left fun v _ => productTerm_other hint v, List.map_id', if_neg hint, foldl_groupSums _ hlength]
    split <;> rfl

/-! What the steps read and write (R256, R258) -/

/-- The vector registers of a tile and the scratchpads are the same. -/
structure SameSources (tk : Nat) (z w : State) : Prop where
  v : (w.tile tk).regs.v = (z.tile tk).regs.v
  scratch : ∀ k, (w.tile k).scratch = (z.tile k).scratch

theorem SameSources.operandRows {q : Site} {z w : State} (h : SameSources q.tk z w) (src : Option Region) (fmt reg t : Nat) :
    w.operandRows q src fmt reg t = z.operandRows q src fmt reg t := by
  cases src with
  | none => simp only [State.operandRows, FabRegs.rowOf, h.v]
  | some r => simp only [State.operandRows, State.granule, Tile.spRead, h.scratch]
theorem FabRegs.v_setCells (r : FabRegs) (n : Nat) (g : Nat → Nat → Option Lane) : (r.setCells n g).v = r.v := by
  unfold FabRegs.setCells
  generalize List.range 256 = l
  rfl
theorem SameSources.modRegs {tk : Nat} {z w : State} (h : SameSources tk z w) {g : FabRegs → FabRegs} (hg : ∀ r, (g r).v = r.v) :
    SameSources tk z (w.modRegs tk g) :=
  ⟨by rw [State.regs_modRegs_self, hg, h.v], fun k => (State.scratch_modRegs ..).trans (h.scratch k)⟩

/-- The accumulator of an `mma` (R258). -/
def Site.acc (q : Site) : Nat := OpTable.immField q.f 23 22
/-- Row i of A and row j of B at step k of an `mma`, as a state holds them. -/
def State.rowA (s : State) (q : Site) (a : Option Region) (k i : Nat) : List Fp.Val :=
  (s.operandRows q a (mmaFormat q.opc true) (OpTable.immField q.f 15 12) k).getD i []
def State.rowB (s : State) (q : Site) (b : Option Region) (k j : Nat) : List Fp.Val :=
  (s.operandRows q b (mmaFormat q.opc false) (OpTable.immField q.f 9 6) k).getD j []
/-- The state after LD and Z of an `mma` (R254, R258). -/
def State.mmaLoaded (s : State) (q : Site) (m : Match) : State :=
  let s := s.modRegs q.tk fun r => loadRegs r q m
  if OpTable.immField q.f 21 21 = 1 then s.modRegs q.tk fun r => r.setCells q.acc fun _ _ => some 0 else s
/-- The state after a step of an `mma` (R258). -/
def State.mmaStep (q : Site) (a b : Option Region) (s : State) (k : Nat) : State :=
  let ra := (s.operandRows q a (mmaFormat q.opc true) (OpTable.immField q.f 15 12) k).toArray
  let rb := (s.operandRows q b (mmaFormat q.opc false) (OpTable.immField q.f 9 6) k).toArray
  s.modRegs q.tk fun r => r.setCells q.acc fun i j => some (BitVec.ofNat 32 (mmaCell q.opc (ra.getD i []) (rb.getD j []) (r.cell q.acc i j).toNat))

section
variable {q : Site} (a b : Option Region)

theorem State.cell_mmaStep (s : State) (k n : Nat) {i j : Nat} (hi : i < 16) (hj : j < 16) :
    ((s.mmaStep q a b k).tile q.tk).regs.cell n i j = if n = q.acc then
      Claims.product q.opc (s.rowA q a k i) (s.rowB q b k j) ((s.tile q.tk).regs.cell q.acc i j) else (s.tile q.tk).regs.cell n i j := by
  have hrow (l : List (List Fp.Val)) (n : Nat) : l.toArray.getD n [] = l.getD n [] := by
    rw [Array.getD_eq_getD_getElem?, List.getElem?_toArray, List.getD_eq_getElem?_getD]
  rw [State.mmaStep, State.regs_modRegs_self, FabRegs.cell_setCells _ _ _ _ hi hj, Option.getD_some, hrow, hrow,
    mmaCell_eq_product _ (State.length_operandRow _ _ _ _ _ _ hi) (State.length_operandRow _ _ _ _ _ _ hj)]
  rfl
theorem SameSources.mmaStep {z w : State} (h : SameSources q.tk z w) (k : Nat) : SameSources q.tk z (w.mmaStep q a b k) := by
  unfold State.mmaStep
  exact h.modRegs fun r => r.v_setCells ..
theorem State.cycles_foldl_mmaStep (steps : List Nat) (s : State) : (steps.foldl (State.mmaStep q a b) s).cycles = s.cycles :=
  foldl_rel (R := fun s t : State => t.cycles = s.cycles) (fun _ => rfl) (fun _ _ _ h i => i.trans h) (State.mmaStep q a b)
    (fun _ _ => rfl) steps s
/-- The accumulator after some steps: the products are added in the order of the steps. -/
theorem SameSources.foldl_mmaStep {z w : State} (h : SameSources q.tk z w) (steps : List Nat) :
    SameSources q.tk z (steps.foldl (State.mmaStep q a b) w) ∧ ∀ n i j, i < 16 → j < 16 →
      ((steps.foldl (State.mmaStep q a b) w).tile q.tk).regs.cell n i j = if n = q.acc then
        steps.foldl (fun c k => Claims.product q.opc (z.rowA q a k i) (z.rowB q b k j) c) ((w.tile q.tk).regs.cell q.acc i j)
      else (w.tile q.tk).regs.cell n i j := by
  induction steps generalizing w with
  | nil => exact ⟨h, fun n i j _ _ => by by_cases hn : n = q.acc <;> simp [hn]⟩
  | cons k steps ih =>
    obtain ⟨hsame, hcells⟩ := ih (w := w.mmaStep q a b k) (h.mmaStep a b k)
    refine ⟨hsame, fun n i j hi hj => (hcells n i j hi hj).trans ?_⟩
    rw [State.cell_mmaStep _ _ _ _ _ hi hj, State.cell_mmaStep _ _ _ _ _ hi hj, if_pos rfl]
    simp only [State.rowA, State.rowB, h.operandRows, List.foldl_cons]
    by_cases hn : n = q.acc <;> simp [hn]

end

theorem FabRegs.acc_loadRegs (r : FabRegs) (q : Site) (m : Match) : (loadRegs r q m).acc = r.acc := by
  unfold loadRegs
  dsimp only
  split_ifs <;> rfl
theorem FabRegs.cell_loadRegs (r : FabRegs) (q : Site) (m : Match) (n i j : Nat) : (loadRegs r q m).cell n i j = r.cell n i j := by
  rw [FabRegs.cell, FabRegs.acc_loadRegs, FabRegs.cell]
theorem State.cell_mmaLoaded (s : State) (q : Site) (m : Match) (n : Nat) {i j : Nat} (hi : i < 16) (hj : j < 16) :
    ((s.mmaLoaded q m).tile q.tk).regs.cell n i j =
      if n = q.acc ∧ OpTable.immField q.f 21 21 = 1 then 0 else (s.tile q.tk).regs.cell n i j := by
  unfold State.mmaLoaded
  dsimp only
  by_cases hz : OpTable.immField q.f 21 21 = 1
  · rw [if_pos hz, State.regs_modRegs_self, FabRegs.cell_setCells _ _ _ _ hi hj, State.regs_modRegs_self, FabRegs.cell_loadRegs]
    simp [hz]
  · rw [if_neg hz, State.regs_modRegs_self, FabRegs.cell_loadRegs]
    simp [hz]
/-- Z writes no register that the steps read. -/
theorem Begins.sameSources_mmaLoaded {s u : State} (h : Begins s u) (q : Site) (m : Match) :
    SameSources q.tk (s.modRegs q.tk fun r => loadRegs r q m) (u.mmaLoaded q m) := by
  have hload : SameSources q.tk (s.modRegs q.tk fun r => loadRegs r q m) (u.modRegs q.tk fun r => loadRegs r q m) :=
    ⟨by simp only [State.regs_modRegs_self, h.regs], fun k => by simp only [State.scratch_modRegs, h.scratch]⟩
  unfold State.mmaLoaded
  dsimp only
  split
  · exact hload.modRegs fun r => r.v_setCells ..
  · exact hload

/-- The first fault of the extents of A and B (R256). -/
def State.mmaFault (s : State) (q : Site) (c : Colour) (a b : Option Region) : Option Nat :=
  (a.bind fun r => s.extentFault q c r (rowBytes (mmaFormat q.opc true)) (OpTable.immField q.f 27 24 + 1)).orElse fun _ =>
    b.bind fun r => s.extentFault q c r (rowBytes (mmaFormat q.opc false)) (OpTable.immField q.f 27 24 + 1)
/-- The headers of the buffers that an `mma` reads (R257). -/
def usedBuffers (a b : Option Region) : List Nat := ((a.bind (·.header)).toList ++ (b.bind (·.header)).toList).foldl NatSet.insert []
theorem mem_usedBuffers {a b : Option Region} {h : Nat} : h ∈ usedBuffers a b ↔ ∃ r, (a = some r ∨ b = some r) ∧ r.header = some h := by
  rw [usedBuffers, NatSet.mem_inserts]
  simp [Option.bind_eq_some_iff, or_and_right, exists_or]


/-- The state after all steps of an `mma` (R258). -/
def State.mmaPerformed (s : State) (q : Site) (m : Match) (a b : Option Region) : State :=
  (List.range (OpTable.immField q.f 27 24 + 1)).foldl (State.mmaStep q a b) (s.mmaLoaded q m)
/-- The accumulators after an `mma` that began in `s` and read the rows of `z`. -/
def State.mmaCells (s : State) (q : Site) (a b : Option Region) (z : State) (n i j : Nat) : Lane :=
  if n ≠ q.acc then (s.tile q.tk).regs.cell n i j
  else (List.range (OpTable.immField q.f 27 24 + 1)).foldl (fun c k => Claims.product q.opc (z.rowA q a k i) (z.rowB q b k j) c)
    (if OpTable.immField q.f 21 21 = 1 then 0 else (s.tile q.tk).regs.cell q.acc i j)

section
variable {s u : State} (h : Begins s u) (q : Site) (m : Match) (a b : Option Region)
include h

theorem Begins.cycles_mmaPerformed : (u.mmaPerformed q m a b).cycles = s.cycles := by
  refine (State.cycles_foldl_mmaStep ..).trans (Eq.trans ?_ h.cycles)
  unfold State.mmaLoaded
  dsimp only
  split <;> rfl
theorem Begins.sameSources_mmaPerformed : SameSources q.tk (s.modRegs q.tk fun r => loadRegs r q m) (u.mmaPerformed q m a b) :=
  ((h.sameSources_mmaLoaded q m).foldl_mmaStep a b _).1
theorem Begins.cell_mmaPerformed (n : Nat) {i j : Nat} (hi : i < 16) (hj : j < 16) : ((u.mmaPerformed q m a b).tile q.tk).regs.cell n i j =
    s.mmaCells q a b (s.modRegs q.tk fun r => loadRegs r q m) n i j := by
  obtain ⟨-, hcells⟩ := (h.sameSources_mmaLoaded q m).foldl_mmaStep a b (List.range (OpTable.immField q.f 27 24 + 1))
  rw [State.mmaPerformed, hcells n i j hi hj, State.cell_mmaLoaded _ _ _ _ hi hj, State.cell_mmaLoaded _ _ _ _ hi hj, h.regs, State.mmaCells]
  by_cases hn : n = q.acc
  · simp [hn]
  · simp [hn]

end

end Sys2Proof.Machine

namespace Sys2Proof.Claims
open Machine

section
variable {s u : State} {opc : Nat} {f : OpFields} {m : Match} {t : Tag}

theorem Ready.fireMma_source (h : Ready s opc f m u t) {k : Nat}
    (hsource : s.sourceOf (s.site opc f) m.tag.colour (OpTable.immField f 17 16) (OpTable.immField f 15 12) = .error k ∨
      (∃ a, s.sourceOf (s.site opc f) m.tag.colour (OpTable.immField f 17 16) (OpTable.immField f 15 12) = .ok a) ∧
        s.sourceOf (s.site opc f) m.tag.colour (OpTable.immField f 11 10) (OpTable.immField f 9 6) = .error k) :
    s.fireMma opc f = u.faultFiring (s.site opc f) m k 0 := by
  rw [State.fireMma, h.fireCells]
  simp only [(Begins.of_ready h).sourceOf]
  rcases hsource with ha | ⟨⟨a, ha⟩, hb⟩
  · simp only [ha]
  · simp only [ha, hb]

section
variable (h : Ready s opc f m u t) {a b : Option Region}
  (ha : s.sourceOf (s.site opc f) m.tag.colour (OpTable.immField f 17 16) (OpTable.immField f 15 12) = .ok a)
  (hb : s.sourceOf (s.site opc f) m.tag.colour (OpTable.immField f 11 10) (OpTable.immField f 9 6) = .ok b)
include h ha hb

theorem Ready.fireMma_extent {k : Nat} (hbad : s.mmaFault (s.site opc f) m.tag.colour a b = some k) :
    s.fireMma opc f = u.faultFiring (s.site opc f) m k 0 := by
  have hbegins := Begins.of_ready h
  simp only [State.mmaFault, show (s.site opc f).opc = opc from rfl, show (s.site opc f).f = f from rfl] at hbad
  rw [State.fireMma, h.fireCells]
  simp only [hbegins.sourceOf, hbegins.extentFault, ha, hb, hbad]
variable (hbad : s.mmaFault (s.site opc f) m.tag.colour a b = none)
include hbad
/-- An `mma` whose sources keep their rules. -/
theorem Ready.fireMma_eq : ∃ poison, s.fireMma opc f = ((u.mmaPerformed (s.site opc f) m a b).poisonRead (s.site opc f) m poison).emitL
    (s.site opc f) m t poison (mmaBusy opc (OpTable.immField f 27 24 + 1)) fun x => { x with cons := usedBuffers a b } := by
  have hbegins := Begins.of_ready h
  simp only [State.mmaFault, show (s.site opc f).opc = opc from rfl, show (s.site opc f).f = f from rfl] at hbad
  rw [State.fireMma, h.fireCells]
  simp only [hbegins.sourceOf, hbegins.extentFault, ha, hb, hbad]
  exact ⟨_, rfl⟩
theorem Ready.fireMma_products {z : State} (hz : z = s.modRegs s.actor.tk fun r => loadRegs r (s.site opc f) m) :
    ∃ (w : State) (x : ArrayFiring), s.fireMma opc f = w ∧
      Working s w f t (mmaBusy opc (OpTable.immField f 27 24 + 1)) (fun _ => (m.payload? .l).getD .order) x ∧
      (∀ h, h ∈ x.cons ↔ ∃ r, (a = some r ∨ b = some r) ∧ r.header = some h) ∧
      (w.tile s.actor.tk).regs.v = (z.tile s.actor.tk).regs.v ∧ Cells s w (s.mmaCells (s.site opc f) a b z) := by
  subst hz
  have hbegins := Begins.of_ready h
  obtain ⟨poison, heq⟩ := h.fireMma_eq ha hb hbad
  have hsame := hbegins.sameSources_mmaPerformed (s.site opc f) m a b
  have hcells : Cells s (u.mmaPerformed (s.site opc f) m a b)
      (s.mmaCells (s.site opc f) a b (s.modRegs s.actor.tk fun r => loadRegs r (s.site opc f) m)) :=
    ⟨fun n i j _ hi hj => hbegins.cell_mmaPerformed (s.site opc f) m a b n hi hj,
      fun k => (hsame.scratch k).trans (State.scratch_modRegs ..)⟩
  obtain ⟨x, hx⟩ := Working.arrayStart (s := s) (w := (u.mmaPerformed (s.site opc f) m a b).poisonRead (s.site opc f) m poison) (m := m) (t := t)
    (p := fun _ => (m.payload? .l).getD .order) ((State.cycles_poisonRead ..).trans (hbegins.cycles_mmaPerformed ..)) rfl poison
    (mmaBusy opc (OpTable.immField f 27 24 + 1)) (last := fun x => { x with cons := usedBuffers a b }) fun _ => ⟨rfl, rfl⟩
  refine ⟨_, _, heq, hx, fun _ => mem_usedBuffers, ?_, (hcells.poisonRead ..).arrayStart ..⟩
  rw [State.emitL, State.regs_arrayStart, State.tile_poisonRead]
  exact hsame.v

end

end

theorem matrixProducts : MatrixProducts := by
  rintro e he s u f m t _ _ _ _ _ z rfl rfl rfl rfl rfl hz hready _ _ rfl rfl
  rw [mmas_fireMma f s e he]
  refine ⟨fun k hk => congrArg Host.Outcome.next (hready.fireMma_source hk), fun a b ha hb bad hbad => ?_⟩
  subst hbad
  refine ⟨fun k hk => congrArg Host.Outcome.next (hready.fireMma_extent ha hb hk), fun hnone => ?_⟩
  obtain ⟨w, x, heq, hwork, hcons, hv, hcells⟩ := hready.fireMma_products ha hb hnone hz
  exact ⟨w, x, congrArg Host.Outcome.next heq, hwork, hcons, hv, hcells⟩

end Sys2Proof.Claims
end

section
/-!
PROOFS. The end of a firing of the cell array (13_ops_matrix.md R253, R257, R260, R268): what it writes, and the tokens that leave.
-/
namespace Sys2Proof.Machine

/-- What the end of a firing does to its tile: its rows are written and the buffers' pointers advance. -/
def ArrayFiring.ended (a : ArrayFiring) (t : Tile) : Tile :=
  let t := { t with array := none }
  let t := if a.rows = [] then t else t.spWrite a.rows false
  let t := match a.prod with | some h => t.advanceWord h | none => t
  a.cons.foldl (fun t h => t.advanceWord (h + 4)) t

section
variable (a : ArrayFiring) (t : Tile)

theorem ArrayFiring.array_ended : (a.ended t).array = none := by
  rw [ArrayFiring.ended, Tile.array_foldl_advanceWord]
  split <;> split <;> rfl
theorem ArrayFiring.trail_ended : (a.ended t).trail = t.trail := by
  have hadvance : ∀ (hs : List Nat) (t : Tile), (hs.foldl (fun t h => t.advanceWord (h + 4)) t).trail = t.trail := fun hs =>
    foldl_rel (R := fun a b : Tile => b.trail = a.trail) (fun _ => rfl) (fun _ _ _ h i => i.trans h)
      (fun t h => t.advanceWord (h + 4)) (fun _ _ => rfl) hs
  rw [ArrayFiring.ended, hadvance]
  split <;> split <;> rfl
/-- Without buffers, the rows alone are written. -/
theorem ArrayFiring.scratch_ended_rows (hcons : a.cons = []) (hprod : a.prod = none) :
    (a.ended t).scratch = Memory.writePairs t.scratch 0 a.rows := by
  simp only [ArrayFiring.ended, hcons, hprod, List.foldl_nil]
  split
  next h => rw [h]; rfl
  next => rfl
/-- A buffer that was read advances its pointer CONS (R257). -/
theorem ArrayFiring.scratch_ended_cons {h : Nat} (hcons : a.cons = [h]) (hprod : a.prod = none) (hrows : a.rows = []) :
    (a.ended t).scratch = Memory.writePairs t.scratch 0 (pairsAt (h + 4) (natBytes 4 (t.word32 (h + 4) + 1))) := by
  simp only [ArrayFiring.ended, hcons, hprod, hrows, List.foldl_cons, List.foldl_nil, if_true]
  rfl

end

section
variable (s : State) (n : Nat)

/-- The state once a firing has ended, before its results leave. -/
def State.arrayEnded (a : ArrayFiring) : State := (s.trailOut n).modTile n a.ended
theorem State.execArrayFiringEnd_ends {a : ArrayFiring} (ha : (s.tile n).array = some a) (htrail : (s.tile n).trail = [])
    (hlast : a.lastBusy < s.cycles) : exec (.arrayFiringEnd n) s = .next ((s.arrayEnded n a).arrayOut n a) := by
  rw [show exec (.arrayFiringEnd n) s = Machine.execArrayFiringEnd n s from rfl, Machine.execArrayFiringEnd, State.arrayEnded,
    s.trailOut_of_empty n htrail]
  simp only [State.tile_modTile_self, ha]
  exact if_neg (Nat.not_le.mpr hlast)
theorem State.arrayEnded_frame (a : ArrayFiring) (htrail : (s.tile n).trail = []) :
    s.arrayEnded n a = { s with tiles := (s.arrayEnded n a).tiles } := by
  rw [State.arrayEnded, s.trailOut_of_empty n htrail]
  rfl
theorem State.tile_arrayEnded (a : ArrayFiring) (htrail : (s.tile n).trail = []) : (s.arrayEnded n a).tile n = a.ended (s.tile n) := by
  rw [State.arrayEnded, s.trailOut_of_empty n htrail, State.tile_modTile_self, State.tile_modTile_self]
  exact congrArg a.ended (by rw [htrail, List.filter_nil, ← htrail])
theorem State.tile_arrayEnded_other (a : ArrayFiring) (htrail : (s.tile n).trail = []) {k : Nat} (hk : k ≠ n) :
    (s.arrayEnded n a).tile k = s.tile k := by
  rw [State.arrayEnded, s.trailOut_of_empty n htrail, State.tile_modTile_other _ _ hk, State.tile_modTile_other _ _ hk]

end

/-- The groups of nine of an `ascan` leave one a cycle: the first now, the others later (R268). -/
theorem State.arrayOut_groups (s : State) (n : Nat) {a : ArrayFiring} (hscan : a.scanOf ≠ none) {per : Nat} (hlength : a.out.length = 9 * per) :
    s.arrayOut n a = (s.deliverAll n a.plane 0 ((List.range per).filterMap fun j => a.out[9 * j]?)).modTile n fun t =>
      { t with trail := t.trail ++ (List.range 8).map fun i =>
        ⟨a.plane, s.cycles + 1 + i, (List.range per).filterMap fun j => a.out[9 * j + i + 1]?⟩ } := by
  rw [State.arrayOut, if_neg (by simpa using hscan)]
  simp only [hlength, Nat.mul_div_cancel_left per (show 0 < 9 by decide)]
  rfl

end Sys2Proof.Machine

namespace Sys2Proof.Claims
open Machine

theorem accumulatorOperators : AccumulatorOperators := by
  rintro s u f m t _ _ _ rfl rfl rfl _ rfl
  refine ⟨fun h => h.scalc, fun h => h.accz, fun h => h.accwr, fun hmode h => h.accrd_row_sends hmode, ?_, fun horder h => ?_,
    fun tk a ha htrail hscan hlast => ?_⟩
  · rintro x _ hmode rfl hx hsize entry hentry hfits h
    exact h.accrd_buffer_rows hmode hx hsize hentry hfits
  · obtain ⟨w, a, hexec, hwork, hcells⟩ := h.xsort_sends horder
    refine ⟨w, a, _, _, Lanes.sortList f.etype (OpTable.immField f 0 0 = 1) (m.wide .l), hexec, hwork, hcells, Lanes.perm_sortBy _ _,
      fun x y i j hxy hi hj ki kj hki hkj => ?_, fun x hx => ?_⟩
    · subst hki hkj
      simpa using Lanes.sortList_order _ _ _ hxy hi hj
    · obtain ⟨hkeys, hidx, hkey, hlane⟩ := Lanes.xsort_lanes f.etype (OpTable.immField f 0 0 = 1) (m.wide .l) hx
      refine ⟨hkeys, hidx, hkey.trans ?_, hlane.trans ?_⟩
      all_goals cases (Lanes.sortList f.etype (OpTable.immField f 0 0 = 1) (m.wide .l))[x]? <;> rfl
  · refine ⟨s.arrayEnded tk a, (s.execArrayFiringEnd_ends tk ha htrail hlast).trans ?_, ?_, s.arrayEnded_frame tk a htrail,
      fun k hk => s.tile_arrayEnded_other tk a htrail hk, fun hcons hprod => ?_, fun x hcons hprod hrows => ?_⟩
    · rw [State.arrayOut, hscan]
      rfl
    · rw [s.tile_arrayEnded tk a htrail, ArrayFiring.array_ended]
    · rw [s.tile_arrayEnded tk a htrail, a.scratch_ended_rows _ hcons hprod]
    · rw [s.tile_arrayEnded tk a htrail, a.scratch_ended_cons _ hcons hprod hrows]

end Sys2Proof.Claims

namespace Sys2Proof
open Machine

/-- Settles O39: the products of an `mma`, step after step, then the operators on accumulators and the end of their firings. -/
theorem cellArrayComputes : Obligations.CellArrayComputes := ⟨Claims.matrixProducts, Claims.accumulatorOperators⟩

end Sys2Proof
end

section
/-!
PROOFS. Attention (13_ops_matrix.md R268 to R270; 04_numbers.md R95, R96): the groups of results, their tags, and the tokens of a group that
leave one a cycle.
-/
namespace Sys2Proof.Machine

/-! Groups of results -/

theorem map_getD_range {α β : Type} (l : List α) (d : α) (g : α → β) : ((List.range l.length).map fun i => g (l.getD i d)) = l.map g := by
  apply List.ext_getElem
  · simp
  · intro i h1 h2
    simp [List.getElem_map] at h1 ⊢
    simp [h1]
/-- Every destination gets each payload of a group, in order (R268). -/
theorem Site.groups_payloads (q : Site) (ps : List WideVal) (tag : Nat → Tag) : ((q.groups ps tag).map fun r => (r.index, r.payload)) =
    (OpTable.dests q.f).flatMap fun y => ps.map fun v => (y.1, Payload.wide v) := by
  simp only [Site.groups, List.map_flatMap, List.map_map, Function.comp_def]
  exact congrArg (List.flatMap · _) (funext fun y => map_getD_range ps _ fun v => (y.1, Payload.wide v))
/-- A group of `n` payloads under tags of their own. -/
theorem Site.groups_results (q : Site) (n : Nat) (p : Nat → WideVal) {tag tags : Nat → Tag} (htags : ∀ i < n, tag i = tags i) :
    ((q.groups ((List.range n).map p) tag).map fun r => (r.index, r.payload, r.tag)) =
      (OpTable.dests q.f).flatMap fun y => (List.range n).map fun c => (y.1, Payload.wide (p c), tags c) := by
  simp only [Site.groups, List.map_flatMap, List.map_map, Function.comp_def, List.length_map, List.length_range]
  refine congrArg (List.flatMap · _) (funext fun y => List.map_congr_left fun i hi => ?_)
  have hi := List.mem_range.mp hi
  rw [htags i hi]
  simp [hi]

/-! What a scan reads of a firing under way -/

theorem Begins.scoreKey {s u : State} (h : Begins s u) (k d : Nat) (x : KvSeq) (query : List Fp.Val) (qs slot : Nat) :
    (u.tile k).scoreKey d x query qs slot = (s.tile k).scoreKey d x query qs slot := by
  simp only [Tile.scoreKey, h.scratch, h.word32]

/-! The tokens of groups (R268) -/

theorem State.scratch_deliverAll (s : State) (tk plane vc : Nat) (es : List Emission) (k : Nat) :
    ((s.deliverAll tk plane vc es).tile k).scratch = (s.tile k).scratch :=
  s.tile_deliverAll_keeps Tile.scratch (fun _ _ => rfl) (fun _ _ => rfl) tk plane vc es k
theorem State.trail_deliverAll (s : State) (tk plane vc : Nat) (es : List Emission) (k : Nat) :
    ((s.deliverAll tk plane vc es).tile k).trail = (s.tile k).trail :=
  s.tile_deliverAll_keeps Tile.trail (fun _ _ => rfl) (fun _ _ => rfl) tk plane vc es k
/-- The end of an `ascan`: eight of its nine tokens to each destination are still to leave. -/
theorem State.execArrayFiringEnd_scan (s : State) (n : Nat) {a : ArrayFiring} {per : Nat} (ha : (s.tile n).array = some a)
    (htrail : (s.tile n).trail = []) (hscan : a.scanOf ≠ none) (hlength : a.out.length = 9 * per) (hlast : a.lastBusy < s.cycles)
    (hrows : a.rows = []) (hprod : a.prod = none) (hcons : a.cons = []) : ∃ w : State, exec (.arrayFiringEnd n) s = .next w ∧
      (w.tile n).array = none ∧ (w.tile n).scratch = (s.tile n).scratch ∧ (w.tile n).trail = (List.range 8).map fun i =>
        ⟨a.plane, s.cycles + 1 + i, (List.range per).filterMap fun j => a.out[9 * j + i + 1]?⟩ := by
  refine ⟨_, s.execArrayFiringEnd_ends n ha htrail hlast, ?_, ?_, ?_⟩
  · rw [State.array_arrayOut, s.tile_arrayEnded n a htrail, a.array_ended]
  · rw [State.arrayOut_groups _ _ hscan hlength, State.tile_modTile_self]
    refine (State.scratch_deliverAll ..).trans ?_
    rw [s.tile_arrayEnded n a htrail, a.scratch_ended_rows _ hcons hprod, hrows]
    rfl
  · rw [State.arrayOut_groups _ _ hscan hlength, State.tile_modTile_self, State.trail_deliverAll, s.tile_arrayEnded n a htrail,
      a.trail_ended, htrail, List.nil_append, s.arrayEnded_frame n a htrail]
/-- One token of a group is due, and no firing is in progress. -/
theorem State.execArrayFiringEnd_trail (s : State) (n : Nat) {x : VectorResult} (ha : (s.tile n).array = none) (htrail : (s.tile n).trail = [x])
    (hdue : x.due ≤ s.cycles) : exec (.arrayFiringEnd n) s =
      .next ((s.modTile n fun t => { t with trail := [] }).deliverAll n x.plane 0 x.out) := by
  have hout : s.trailOut n = (s.modTile n fun t => { t with trail := [] }).deliverAll n x.plane 0 x.out := by
    have hleft : (s.modTile n fun t => { t with trail := t.trail.filter fun v => !decide (v.due ≤ s.cycles) }) =
        s.modTile n fun t => { t with trail := [] } := by
      simp [State.modTile, htrail, hdue]
    simp [State.trailOut, htrail, hdue, hleft]
  have harray : ((s.trailOut n).tile n).array = none := by
    rw [hout, State.array_deliverAll, State.tile_modTile_self]
    exact ha
  rw [show exec (.arrayFiringEnd n) s = Machine.execArrayFiringEnd n s from rfl, Machine.execArrayFiringEnd]
  simp only [harray]
  rw [hout]

end Sys2Proof.Machine

namespace Sys2Proof.Claims
open Machine

section
variable {s u : State} {f : OpFields} {m : Match} {t : Tag}

theorem Ready.ascan_malformed (h : Ready s 0x198 f m u t)
    (hbad : ((s.tile s.actor.tk).kvCfg f).ok = false ∨ scanOk (m.wide .c) = false) :
    exec (.ascan f) s = .next (u.faultFiring (s.site 0x198 f) m codeKvForm 0) := by
  refine (congrArg Host.Outcome.next h.fireCells).trans ?_
  simp only [show (s.site 0x198 f).tk = s.actor.tk from rfl, (Begins.of_ready h).kvCfg]
  cases hok : ((s.tile s.actor.tk).kvCfg f).ok with
  | false => rfl
  | true =>
    have hscan := hbad.resolve_left (by simp [hok])
    simp [hscan]
theorem Ready.ascan_refused (h : Ready s 0x198 f m u t) {k : Nat} (hok : ((s.tile s.actor.tk).kvCfg f).ok = true)
    (hscan : scanOk (m.wide .c) = true)
    (hcheck : s.kvCheck s.actor.tk m.tag.colour ((s.tile s.actor.tk).kvCfg f) (scanSeq (m.wide .c)) = .error k) :
    exec (.ascan f) s = .next (u.faultFiring (s.site 0x198 f) m k 0) := by
  have hbegins := Begins.of_ready h
  refine (congrArg Host.Outcome.next h.fireCells).trans ?_
  simp only [show (s.site 0x198 f).tk = s.actor.tk from rfl, hbegins.kvCfg, hbegins.kvCheck, hok, hscan, hcheck, Bool.not_true,
    Bool.false_eq_true, if_false]
/-- A scan of the visible keys, which all have slots. -/
theorem Ready.ascan_scores (h : Ready s 0x198 f m u t) {g : KvCfg} (hg : (s.tile s.actor.tk).kvCfg f = g) (hok : g.ok = true)
    (hscan : scanOk (m.wide .c) = true) (hcheck : s.kvCheck s.actor.tk m.tag.colour g (scanSeq (m.wide .c)) = .ok ()) {k : KvSeq}
    (hk : (s.tile s.actor.tk).kvSeq (g.desc (scanSeq (m.wide .c))) = k) {slots : List Nat}
    (hslots : (visible g k (m.wide .c)).map (fun p => p / g.tiles) = slots)
    (hheld : ∀ n ∈ slots, n < k.cap ∧ k.slot n + 256 ≤ 4096 * (s.tile s.actor.tk).spk.toNat) : ∃ (w : State) (a : ArrayFiring),
      exec (.ascan f) s = .next w ∧ (w.tile s.actor.tk).array = some a ∧
      a.lastBusy = s.cycles + (4 + 8 * ((slots.length + 15) / 16)) - 1 ∧ a.scanOf = some (scanSeq (m.wide .c)) ∧
      (a.out.map fun e => (e.index, e.token.payload)) = (OpTable.dests f).flatMap (fun y => (Triple.score (slots.map fun n =>
        (s.tile s.actor.tk).scoreKey (g.desc (scanSeq (m.wide .c))) k (queryOf (m.wide .l) (m.wide .r))
          (Lanes.lane (m.wide .c).data 4).toNat n)).group.map fun v => (y.1, Payload.wide v)) ∧
      ∀ j, (w.tile j).scratch = (s.tile j).scratch := by
  have hbegins := Begins.of_ready h
  have hcap : (slots.any fun n => n ≥ k.cap) = false := List.any_eq_false.mpr fun n hn => by simpa using (hheld n hn).1
  have hspk : (slots.any fun n => k.slot n + 256 > 4096 * (s.tile s.actor.tk).spk.toNat) = false :=
    List.any_eq_false.mpr fun n hn => by simpa using (hheld n hn).2
  obtain ⟨bad, hexec⟩ : ∃ bad, exec (.ascan f) s = .next ((u.poisonRead (s.site 0x198 f) m bad).arrayStart (s.site 0x198 f) m
      ((s.site 0x198 f).groups (Triple.score (slots.map fun n => (s.tile s.actor.tk).scoreKey (g.desc (scanSeq (m.wide .c))) k
        (queryOf (m.wide .l) (m.wide .r)) (Lanes.lane (m.wide .c).data 4).toNat n)).group fun _ => t) bad
      (4 + 8 * ((slots.length + 15) / 16)) fun x => { x with scanOf := some (scanSeq (m.wide .c)) }) := by
    rw [show exec (.ascan f) s = .next (s.fireCells 0x198 f _) from rfl, h.fireCells]
    simp only [show (s.site 0x198 f).tk = s.actor.tk from rfl, hbegins.kvCfg, hbegins.kvCheck, hbegins.kvSeq, hbegins.spk, hbegins.scoreKey, hg, hok,
      hscan, hcheck, hk, hslots, hcap, hspk, Bool.not_true, Bool.false_eq_true, if_false]
    exact ⟨_, rfl⟩
  obtain ⟨a, harray, hbusy, hout⟩ := (u.poisonRead (s.site 0x198 f) m bad).arrayStart_firing (s.site 0x198 f) m _ bad _ _
  refine ⟨_, _, hexec, harray, by rw [hbusy, State.cycles_poisonRead, hbegins.cycles], rfl, ?_, fun j => ?_⟩
  · have hpayloads := congrArg (List.map fun e : Nat × Dest × Payload × Tag => (e.1, e.2.2.1)) hout
    rw [List.map_map, List.map_map] at hpayloads
    exact hpayloads.trans (Site.groups_payloads ..)
  · rw [State.scratch_arrayStart, State.tile_poisonRead, hbegins.scratch]

/-! The tags of an `anorm` (R270) -/

section
variable {v : Int} (h : Fires s 0x19A f m) (he : m.eos = false) (hl : (Claims.taken s 0x19A f m).lValue m = (u, v))
include h he hl

/-- The eight quotients of an `anorm` leave under tags one level deeper, where every one of them has a tag. -/
theorem Fires.anorm_eq : exec (.anorm f) s = .next (
    if ((List.range 8).map fun (c : Nat) => (m.tag.push (s.levelsOf (s.site 0x19A f).ck m.tag.ctx.toNat) c).bind fun t =>
      u.tagOp (s.site 0x19A f).ck f.tagop t v).any fun t => t = none then u.faultFiring (s.site 0x19A f) m codeTagRange 0
    else u.output (s.site 0x19A f) m ((s.site 0x19A f).groups ((List.range 8).map fun c =>
        lanesOf (((Triple.ofOps (m.every .l)).norm.drop (16 * c)).take 16)) fun i =>
      ((((List.range 8).map fun (c : Nat) => (m.tag.push (s.levelsOf (s.site 0x19A f).ck m.tag.ctx.toNat) c).bind fun t =>
        u.tagOp (s.site 0x19A f).ck f.tagop t v)[i]?).bind id).getD m.tag) (m.at? .l)) := by
  refine congrArg Host.Outcome.next ((h.data he).trans ?_)
  simp only [he, Bool.false_eq_true, if_false, hl, State.levelsOf_taken]
theorem Fires.anorm_deepest (hlevel : m.tag.level.toNat ≥ (s.levelsOf (s.site 0x19A f).ck m.tag.ctx.toNat).length - 1) :
    exec (.anorm f) s = .next (u.faultFiring (s.site 0x19A f) m codeTagRange 0) := by
  have hpush : ∀ c : Nat, m.tag.push (s.levelsOf (s.site 0x19A f).ck m.tag.ctx.toNat) c = none := fun c => if_pos hlevel
  rw [h.anorm_eq he hl, if_pos (by simp [hpush])]
theorem Fires.anorm_sends {tags : Nat → Tag}
    (htags : ∀ (c : Nat) x, c < 8 → m.tag.push (s.levelsOf (s.site 0x19A f).ck m.tag.ctx.toNat) c = some x →
      u.tagOp (s.site 0x19A f).ck f.tagop x v = some (tags c))
    (hlevel : m.tag.level.toNat < (s.levelsOf (s.site 0x19A f).ck m.tag.ctx.toNat).length - 1) :
    ∃ rs, exec (.anorm f) s = .next (u.output (s.site 0x19A f) m rs (m.at? .l)) ∧ (rs.map fun r => (r.index, r.payload, r.tag)) =
      (OpTable.dests f).flatMap fun y => (List.range 8).map fun c =>
        (y.1, Payload.wide (lanesOf (((Triple.ofOps (m.every .l)).norm.drop (16 * c)).take 16)), tags c) := by
  have hall : ((List.range 8).map fun (c : Nat) => (m.tag.push (s.levelsOf (s.site 0x19A f).ck m.tag.ctx.toNat) c).bind fun t =>
      u.tagOp (s.site 0x19A f).ck f.tagop t v) = (List.range 8).map fun c => some (tags c) := by
    refine List.map_congr_left fun c hc => ?_
    obtain ⟨x, hx⟩ : ∃ x, m.tag.push (s.levelsOf (s.site 0x19A f).ck m.tag.ctx.toNat) (c : Nat) = some x := ⟨_, if_neg (Nat.not_le.mpr hlevel)⟩
    rw [hx, Option.bind_some, htags c x (List.mem_range.mp hc) hx]
  refine ⟨_, (h.anorm_eq he hl).trans (congrArg _ (if_neg (by simp [hall]))), Site.groups_results _ 8 _ fun i hi => ?_⟩
  simp [hall, hi]

end

end

theorem attentionOperators : AttentionOperators := by
  rintro s u f m t _ rfl
  refine ⟨?scan, fun a n per ha htrail hscan hlength hlast hrows hprod hcons =>
      s.execArrayFiringEnd_scan n ha htrail hscan hlength hlast hrows hprod hcons,
    fun n x ha htrail hdue => s.execArrayFiringEnd_trail n ha htrail hdue, fun h => h.ared, ?norm⟩
  case scan =>
    rintro g _ _ rfl hg rfl
    subst hg
    refine ⟨fun h => ⟨fun hbad => h.ascan_malformed hbad, fun k hok hscan hcheck => h.ascan_refused hok hscan hcheck⟩, ?_⟩
    rintro _ k slots _ hok hscan hcheck rfl hk hslots hheld h rfl
    exact h.ascan_scores rfl hok hscan hcheck hk.symm hslots.symm hheld
  case norm =>
    rintro _ v tags rfl h he hl
    exact ⟨fun hlevel => h.anorm_deepest he hl hlevel, fun htags hlevel => h.anorm_sends he hl htags hlevel⟩

end Sys2Proof.Claims
end

section
/-!
PROOFS. The KV operators (13_ops_matrix.md R262 to R267): their checks, what each writes of a tile's scratchpad, and the answer of its access.
-/
namespace Sys2Proof.Machine

/-! What the writes of a KV operator change -/

theorem Tile.scratch_spWrite (t : Tile) (ps : List (Nat × Byte)) (p : Bool) : (t.spWrite ps p).scratch = Memory.writePairs t.scratch 0 ps := rfl
theorem Tile.accesses_spWrite (t : Tile) (ps : List (Nat × Byte)) (p : Bool) : (t.spWrite ps p).accesses = t.accesses := rfl

section
variable {x y : Tile} (hs : x.scratch = y.scratch)
include hs

theorem Tile.word32_congr (a : Nat) : x.word32 a = y.word32 a := by rw [Tile.word32, hs, Tile.word32]
/-- A write's bytes do not depend on the poison. -/
theorem Tile.scratch_spWrite_congr (ps : List (Nat × Byte)) (p p' : Bool) : (x.spWrite ps p).scratch = (y.spWrite ps p').scratch := by
  rw [Tile.scratch_spWrite, Tile.scratch_spWrite, hs]
theorem Tile.scratch_clearHeaders_congr (d : Nat) (which : Nat → Bool) : (x.clearHeaders d which).scratch = (y.clearHeaders d which).scratch := by
  unfold Tile.clearHeaders
  induction List.range 3 generalizing x y with
  | nil => exact hs
  | cons i l ih =>
    refine ih ?_
    dsimp only
    split
    · exact Tile.scratch_spWrite_congr hs ..
    · exact hs
theorem Tile.kvSeq_congr (d : Nat) : x.kvSeq d = y.kvSeq d := by simp only [Tile.kvSeq, Tile.word32_congr hs]
theorem Tile.scratch_kvAppend_congr (hk : x.spk = y.spk) (g : KvCfg) (w : Nat) (v : WideVal) (p : Bool) :
    (x.kvAppend g w v p).1.scratch = (y.kvAppend g w v p).1.scratch := by
  simp only [Tile.kvAppend, Tile.kvSeq_congr hs, Tile.word32_congr hs, hk]
  by_cases hroom : kvPos w / g.tiles ≥ (y.kvSeq (g.desc (w / 2 ^ 26 % 64))).cap ∨
      (y.kvSeq (g.desc (w / 2 ^ 26 % 64))).slot (kvPos w / g.tiles) + 256 > 4096 * y.spk.toNat
  · rw [if_pos hroom, if_pos hroom]
    exact hs
  · rw [if_neg hroom, if_neg hroom]
    refine Tile.scratch_spWrite_congr ?_ _ _ _
    exact Tile.scratch_spWrite_congr hs _ _ _

end

section
variable (t : Tile)

theorem Tile.clearHeaders_none (d : Nat) {which : Nat → Bool} (h : ∀ i, which i = false) : t.clearHeaders d which = t := by
  simp [Tile.clearHeaders, h]
theorem Tile.accesses_clearHeaders (d : Nat) (which : Nat → Bool) : (t.clearHeaders d which).accesses = t.accesses :=
  foldl_rel (R := fun a b : Tile => b.accesses = a.accesses) (fun _ => rfl) (fun _ _ _ h i => i.trans h) _ (fun t i => by
    split
    · exact t.accesses_spWrite ..
    · rfl) _ _
theorem Tile.accesses_kvAppend (g : KvCfg) (w : Nat) (v : WideVal) (p : Bool) : (t.kvAppend g w v p).1.accesses = t.accesses := by
  simp only [Tile.kvAppend]
  split
  · rfl
  · rw [Tile.accesses_spWrite, Tile.accesses_spWrite]

end

/-! The step of `kvseq` on a control granule (R266) -/

section
variable (g : KvCfg) (spk : Nat) {w op base cap n : Nat} (k : KvSeq)
variable (hw : w = op * 2 ^ 62 + base * 2 ^ 40 + cap * 2 ^ 32 + n) (hbase : base < 2 ^ 16) (hcap : cap < 256) (hn : n < 2 ^ 32)
include hw hbase hcap hn

/-- The fields of a control word. -/
theorem kvseq_fields : w / 2 ^ 62 % 4 = op % 4 ∧ w / 2 ^ 40 % 2 ^ 16 = base ∧ w / 2 ^ 32 % 256 = cap ∧ w % 2 ^ 32 = n := by omega
theorem kvSeqStep_read (hop : op = 0) (h0 : base = 0) (h1 : cap = 0) (h2 : n = 0) : kvSeqStep g spk w k = .ok (k, false) := by
  obtain ⟨hopField, hbaseField, hcapField, hlowField⟩ := kvseq_fields hw hbase hcap hn
  subst hop h0 h1 h2
  simp only [kvSeqStep, hopField, hbaseField, hcapField, hlowField]
  simp
theorem kvSeqStep_open (hop : op = 1) (h0 : n = 0) (halign : base % 256 = 0) (h1 : 1 ≤ cap) (h192 : cap ≤ 192)
    (hfits : base + 256 * cap ≤ 4096 * spk) : kvSeqStep g spk w k = .ok (⟨base, cap, 0, 0⟩, true) := by
  obtain ⟨hopField, hbaseField, hcapField, hlowField⟩ := kvseq_fields hw hbase hcap hn
  subst hop h0
  simp only [kvSeqStep, hopField, hbaseField, hcapField, hlowField]
  simp [halign, Nat.ne_of_gt h1, Nat.not_lt.mpr h192, Nat.not_lt.mpr hfits]
theorem kvSeqStep_advance (hop : op = 2) (h0 : base = 0) (h1 : cap = 0) (hlen : k.len + n < 2 ^ 32) : kvSeqStep g spk w k =
    if g.cnt (k.len + n + k.nd) ≤ k.cap then .ok ({ k with len := k.len + n }, false) else .error codeKvRange := by
  obtain ⟨hopField, hbaseField, hcapField, hlowField⟩ := kvseq_fields hw hbase hcap hn
  subst hop h0 h1
  simp only [kvSeqStep, hopField, hbaseField, hcapField, hlowField, ge_iff_le, Nat.not_le.mpr hlen, if_false]
  simp
theorem kvSeqStep_draft (hop : op = 3) (h0 : base = 0) (h1 : cap = 0) (h64 : n ≤ 64) (hfits : g.cnt (k.len + n) ≤ k.cap) :
    kvSeqStep g spk w k = .ok ({ k with nd := n }, false) := by
  obtain ⟨hopField, hbaseField, hcapField, hlowField⟩ := kvseq_fields hw hbase hcap hn
  subst hop h0 h1
  simp only [kvSeqStep, hopField, hbaseField, hcapField, hlowField]
  simp [Nat.not_lt.mpr h64, hfits]

end

end Sys2Proof.Machine

namespace Sys2Proof.Claims
open Machine

/-! A KV operator that fires (R264) -/

section
variable {s u : State} {opc : Nat} {f : OpFields} {m : Match} {t : Tag} {g : KvCfg} {w : Nat} {i : Instr}
variable {act : State → Site → Match → KvCfg → Nat → Except Nat (State × (Access → Access))}
variable (h : Accesses s opc f m) (hr : Ready s opc f m u t) (hopc : addrOp opc = false) (hfence : opc ≠ 0x170)
  (hexec : exec i s = .next (s.fireKv opc f act)) (hg : g = (s.tile s.actor.tk).kvCfg f)
include h hr hopc hfence hexec hg

theorem Accesses.execKv_refused {k : Nat} (hcheck : s.kvCheck s.actor.tk m.tag.colour g (kvSeq opc (m.value .l)) = .error k) :
    exec i s = .next (u.faultFiring (s.site opc f) m k 0) := by
  subst hg
  have hbegins := Begins.of_ready hr
  rw [hexec, State.fireKv, h.fireMem_eq hr (State.needsWalk_of_not_addrOp hopc m) hfence]
  simp only [show (s.site opc f).tk = s.actor.tk from rfl, hbegins.kvCfg, hbegins.kvCheck, hcheck]

variable (hw : w = (m.value .l % 2 ^ 64).toNat) (hcheck : s.kvCheck s.actor.tk m.tag.colour g (kvSeq opc (m.value .l)) = .ok ())
include hw hcheck

theorem Accesses.execKv_faults {k : Nat} (hact : act u (s.site opc f) m g w = .error k) :
    exec i s = .next (u.faultFiring (s.site opc f) m k 0) := by
  subst hg hw
  have hbegins := Begins.of_ready hr
  rw [hexec, State.fireKv, h.fireMem_eq hr (State.needsWalk_of_not_addrOp hopc m) hfence]
  simp only [show (s.site opc f).tk = s.actor.tk from rfl, hbegins.kvCfg, hbegins.kvCheck, hcheck]
  rw [show act u (s.site opc f) m _ (m.value .l % (2 ^ 64 : Nat)).toNat = _ from hact]
/-- The operator's effect on its tile has a result: its access is answered. -/
theorem Accesses.execKv_answers (hfresh : FreshId s) {x : Tile} {ans : Access → Access}
    (hact : act u (s.site opc f) m g w = .ok (u.modTile s.actor.tk fun _ => x, ans))
    (hx : x.accesses = (u.tile s.actor.tk).accesses) (hans : ∀ a : Access, a.IsOf (s.site opc f) m t → (ans a).IsOf (s.site opc f) m t) :
    ∃ (v : State) (y : Access), exec i s = .next v ∧ Outstanding s v opc f m t y ∧ y.phase = .answered ∧
      (∃ a n, y = { ans a with phase := .answered, since := n }) ∧ (v.tile s.actor.tk).scratch = x.scratch ∧
      ∀ j, j ≠ s.actor.tk → (v.tile j).scratch = (s.tile j).scratch := by
  subst hg hw
  have hbegins := Begins.of_ready hr
  obtain ⟨v, a, hissues, heq⟩ := (u.modTile s.actor.tk fun _ => x).issueAccess_issues (s.site opc f) m t 0
  have haccesses : ((u.modTile s.actor.tk fun _ => x).tile s.actor.tk).accesses = (s.tile s.actor.tk).accesses := by
    rw [State.tile_modTile_self, hx, hbegins.accesses]
  have hscratch : ∀ j, ((v.answer s.actor.tk a.id ans).tile j).scratch = ((u.modTile s.actor.tk fun _ => x).tile j).scratch := fun j => by
    rw [State.answer, State.tile_modTile_keeps Tile.scratch _ _ (by intro x; rfl), hissues.tile]
  refine ⟨v.answer s.actor.tk a.id ans, { ans a with phase := .answered, since := v.cycles + 1 }, ?_,
    hissues.outstanding_answer haccesses hbegins.nextId hfresh (hans a hissues.isOf), rfl, ⟨a, _, rfl⟩, ?_, fun j hj => ?_⟩
  · rw [hexec, State.fireKv, h.fireMem_eq hr (State.needsWalk_of_not_addrOp hopc m) hfence]
    simp only [show (s.site opc f).tk = s.actor.tk from rfl, hbegins.kvCfg, hbegins.kvCheck, hcheck]
    rw [show act u (s.site opc f) m _ (m.value .l % (2 ^ 64 : Nat)).toNat = _ from hact]
    exact congrArg Host.Outcome.next (heq _)
  · rw [hscratch, State.tile_modTile_self]
  · rw [hscratch, State.tile_modTile_other _ _ hj, hbegins.scratch]

end

/-! The operators -/

section
variable {s u : State} {f : OpFields} {m : Match} {t : Tag} {g : KvCfg} {w : Nat}

/-- The KV operators are firings of `State.fireKv`. -/
theorem kvOps_fireKv (f : OpFields) (s : State) : ∀ e ∈ [(Instr.kvapp f, 0x1A0), (.kvseqRead f, 0x1A1), (.kvseqOpen f, 0x1A1),
    (.kvseqAdvance f, 0x1A1), (.kvseqDraft f, 0x1A1), (.kvtrim f, 0x1A2)], (∃ act, exec e.1 s = .next (s.fireKv e.2 f act)) ∧
      addrOp e.2 = false ∧ e.2 ≠ 0x170 := by
  simp only [List.forall_mem_cons, List.not_mem_nil, false_implies, implies_true, and_true]
  refine ⟨?_, ?_, ?_, ?_, ?_, ?_⟩
  all_goals exact ⟨⟨_, rfl⟩, rfl, by decide⟩
theorem kvseqs_fireKvseq (f : OpFields) (s : State) : ∀ i ∈ [Instr.kvseqRead f, .kvseqOpen f, .kvseqAdvance f, .kvseqDraft f],
    exec i s = .next (s.fireKvseq f) := by
  simp only [List.forall_mem_cons, List.not_mem_nil, false_implies, implies_true, and_true]
  exact ⟨rfl, rfl, rfl, rfl⟩

section
variable (hg : g = (s.tile s.actor.tk).kvCfg f) (hw : w = (m.value .l % 2 ^ 64).toNat)
include hg hw

/-! `kvapp` (R265) -/

section
variable (h : Accesses s 0x1A0 f m) (hr : Ready s 0x1A0 f m u t)
  (hcheck : s.kvCheck s.actor.tk m.tag.colour g (kvSeq 0x1A0 (m.value .l)) = .ok ())
include h hr hcheck

theorem Accesses.kvapp_foreign (howner : w % 2 ^ 24 % g.tiles ≠ g.ridx) :
    exec (.kvapp f) s = .next (u.faultFiring (s.site 0x1A0 f) m codeKvOwner 0) := by
  refine h.execKv_faults hr rfl (by decide) rfl hg hw hcheck ?_
  exact if_pos (by simpa [kvPos] using howner)
variable (howner : w % 2 ^ 24 % g.tiles = g.ridx)
include howner
theorem Accesses.kvapp_beyond (hcap : ((s.tile s.actor.tk).kvSeq (g.desc (w / 2 ^ 26 % 64))).cap ≤ w % 2 ^ 24 / g.tiles) :
    exec (.kvapp f) s = .next (u.faultFiring (s.site 0x1A0 f) m codeKvRange 0) := by
  refine h.execKv_faults hr rfl (by decide) rfl hg hw hcheck ?_
  simp only [show (s.site 0x1A0 f).tk = s.actor.tk from rfl, (Begins.of_ready hr).kvSeq, kvPos, howner, bne_self_eq_false, Bool.false_eq_true,
    if_false]
  exact if_pos hcap
theorem Accesses.kvapp_appends (hfresh : FreshId s) (hcap : w % 2 ^ 24 / g.tiles < ((s.tile s.actor.tk).kvSeq (g.desc (w / 2 ^ 26 % 64))).cap)
    (hspk : ((s.tile s.actor.tk).kvSeq (g.desc (w / 2 ^ 26 % 64))).slot (w % 2 ^ 24 / g.tiles) + 256 ≤
      4096 * (s.tile s.actor.tk).spk.toNat) (hcommit : f.flags.commit = false) : ∃ (v : State) (y : Access), exec (.kvapp f) s = .next v ∧
      Outstanding s v 0x1A0 f m t y ∧ y.phase = .answered ∧
      (v.tile s.actor.tk).scratch = ((s.tile s.actor.tk).kvAppend g w (m.wide .r) m.poison).1.scratch ∧
      ∀ j, j ≠ s.actor.tk → (v.tile j).scratch = (s.tile j).scratch := by
  have hbegins := Begins.of_ready hr
  obtain ⟨v, y, heq, hout, hphase, -, hscratch, hothers⟩ := h.execKv_answers hr rfl (by decide) (i := .kvapp f) rfl hg hw hcheck hfresh
    (x := ((u.tile s.actor.tk).kvAppend g w (m.wide .r) m.poison).1)
    (ans := fun a => { a with memPoison := ((u.tile s.actor.tk).kvAppend g w (m.wide .r) m.poison).2 }) (by
      simp only [show (s.site 0x1A0 f).tk = s.actor.tk from rfl, hbegins.kvSeq, hbegins.spk, kvPos, howner, hcommit, if_neg (Nat.not_le.mpr hcap),
        if_neg (Nat.not_lt.mpr hspk), bne_self_eq_false, Bool.false_eq_true, if_false])
    (Tile.accesses_kvAppend ..) fun a ha => { ha with }
  exact ⟨v, y, heq, hout, hphase,
    hscratch.trans (Tile.scratch_kvAppend_congr (hbegins.scratch _) (hbegins.spk _) ..), hothers⟩

end

/-! `kvseq` (R266) -/

section
variable {i : Instr} (hexec : exec i s = .next (s.fireKvseq f)) (h : Accesses s 0x1A1 f m) (hr : Ready s 0x1A1 f m u t)
  (hcheck : s.kvCheck s.actor.tk m.tag.colour g (kvSeq 0x1A1 (m.value .l)) = .ok ())
include hexec h hr hcheck

theorem Accesses.kvseq_faults {c : Nat} (hstep : kvSeqStep g (s.tile s.actor.tk).spk.toNat w
    ((s.tile s.actor.tk).kvSeq (g.desc (w / 2 ^ 56 % 64))) = .error c) : exec i s = .next (u.faultFiring (s.site 0x1A1 f) m c 0) := by
  have hbegins := Begins.of_ready hr
  refine h.execKv_faults hr rfl (by decide) hexec hg hw hcheck ?_
  simp only [show (s.site 0x1A1 f).tk = s.actor.tk from rfl, hbegins.kvSeq, hbegins.spk, hstep]
theorem Accesses.kvseq_answers (hfresh : FreshId s) {k : KvSeq} {o : Bool} (hstep : kvSeqStep g (s.tile s.actor.tk).spk.toNat w
    ((s.tile s.actor.tk).kvSeq (g.desc (w / 2 ^ 56 % 64))) = .ok (k, o)) : ∃ (v : State) (y : Access), exec i s = .next v ∧
      Outstanding s v 0x1A1 f m t y ∧ y.phase = .answered ∧ y.value = k.len + 2 ^ 32 * k.nd ∧
      (w / 2 ^ 62 % 4 = 0 → (v.tile s.actor.tk).scratch = (s.tile s.actor.tk).scratch) ∧
      (w / 2 ^ 62 % 4 ≠ 0 → o = false → (v.tile s.actor.tk).scratch =
        Memory.writePairs (s.tile s.actor.tk).scratch 0 (pairsAt (g.desc (w / 2 ^ 56 % 64)) k.bytes)) := by
  have hbegins := Begins.of_ready hr
  obtain ⟨v, y, heq, hout, hphase, ⟨a, n, hy⟩, hscratch, -⟩ := h.execKv_answers hr rfl (by decide) hexec hg hw hcheck hfresh
    (x := if w / 2 ^ 62 % 4 = 0 then u.tile s.actor.tk else ((u.tile s.actor.tk).spWrite (pairsAt (g.desc (w / 2 ^ 56 % 64)) k.bytes)
      (((u.tile s.actor.tk).spRead (g.desc (w / 2 ^ 56 % 64)) 16).2 && !o)).clearHeaders (g.desc (w / 2 ^ 56 % 64)) fun _ => o)
    (ans := fun a => { a with value := k.len + 2 ^ 32 * k.nd, memPoison := ((u.tile s.actor.tk).spRead (g.desc (w / 2 ^ 56 % 64)) 16).2 && !o })
    (by
      simp only [show (s.site 0x1A1 f).tk = s.actor.tk from rfl, hbegins.kvSeq, hbegins.spk, hstep])
    (by
      split
      · rfl
      · rw [Tile.accesses_clearHeaders, Tile.accesses_spWrite]) fun a ha => { ha with }
  refine ⟨v, y, heq, hout, hphase, by rw [hy], fun hread => ?_, fun hread ho => ?_⟩
  · rw [hscratch, if_pos hread, hbegins.scratch]
  · subst ho
    rw [hscratch, if_neg hread, Tile.clearHeaders_none _ _ fun _ => rfl, Tile.scratch_spWrite, hbegins.scratch]

end

/-! `kvtrim` (R267) -/

section
variable (h : Accesses s 0x1A2 f m) (hr : Ready s 0x1A2 f m u t)
  (hcheck : s.kvCheck s.actor.tk m.tag.colour g (kvSeq 0x1A2 (m.value .l)) = .ok ())
include h hr hcheck

theorem Accesses.kvtrim_malformed
    (hform : w / 2 ^ 62 ≠ 0 ∨ w / 2 ^ 32 % 2 ^ 22 ≠ 0 ∨ (¬ w / 2 ^ 54 % 2 = 1 ∧ w % 2 ^ 32 ≠ 0)) :
    exec (.kvtrim f) s = .next (u.faultFiring (s.site 0x1A2 f) m codeKvForm 0) := by
  refine h.execKv_faults hr rfl (by decide) rfl hg hw hcheck (if_pos ?_)
  simpa [or_assoc] using hform
theorem Accesses.kvtrim_trims (hfresh : FreshId s) (hhigh : w / 2 ^ 62 = 0) (hzero : w / 2 ^ 32 % 2 ^ 22 = 0)
    (hlen : w / 2 ^ 54 % 2 = 1 ∨ w % 2 ^ 32 = 0) {k : KvSeq}
    (hk : k = { (s.tile s.actor.tk).kvSeq (g.desc (w / 2 ^ 56 % 64)) with
      nd := if w / 2 ^ 55 % 2 = 1 then 0 else ((s.tile s.actor.tk).kvSeq (g.desc (w / 2 ^ 56 % 64))).nd
      len := if w / 2 ^ 54 % 2 = 1 then min ((s.tile s.actor.tk).kvSeq (g.desc (w / 2 ^ 56 % 64))).len (w % 2 ^ 32)
        else ((s.tile s.actor.tk).kvSeq (g.desc (w / 2 ^ 56 % 64))).len }) : ∃ (v : State) (y : Access), exec (.kvtrim f) s = .next v ∧
      Outstanding s v 0x1A2 f m t y ∧ y.phase = .answered ∧ (v.tile s.actor.tk).scratch =
        (((s.tile s.actor.tk).spWrite (pairsAt (g.desc (w / 2 ^ 56 % 64)) k.bytes) false).clearHeaders (g.desc (w / 2 ^ 56 % 64))
          fun i => decide (64 * i ≥ g.cnt (k.len + k.nd))).scratch := by
  have hbegins := Begins.of_ready hr
  have hform : (w / 2 ^ 62 != 0 || w / 2 ^ 32 % 2 ^ 22 != 0 || (!decide (w / 2 ^ 54 % 2 = 1) && w % 2 ^ 32 != 0)) = false := by
    rw [hhigh, hzero]
    rcases hlen with h | h <;> rw [h] <;> simp
  obtain ⟨v, y, heq, hout, hphase, -, hscratch, -⟩ := h.execKv_answers hr rfl (by decide) (i := .kvtrim f) rfl hg hw hcheck hfresh
    (x := ((u.tile s.actor.tk).spWrite (pairsAt (g.desc (w / 2 ^ 56 % 64)) k.bytes)
      ((u.tile s.actor.tk).spRead (g.desc (w / 2 ^ 56 % 64)) 16).2).clearHeaders (g.desc (w / 2 ^ 56 % 64))
        fun i => decide (64 * i ≥ g.cnt (k.len + k.nd)))
    (ans := fun a => { a with memPoison := ((u.tile s.actor.tk).spRead (g.desc (w / 2 ^ 56 % 64)) 16).2 })
    (by
      subst hk
      simp only [show (s.site 0x1A2 f).tk = s.actor.tk from rfl, hbegins.kvSeq, hform, Bool.false_eq_true, if_false])
    (by rw [Tile.accesses_clearHeaders, Tile.accesses_spWrite]) fun a ha => { ha with }
  exact ⟨v, y, heq, hout, hphase, hscratch.trans
    (Tile.scratch_clearHeaders_congr (Tile.scratch_spWrite_congr (hbegins.scratch _) ..) ..)⟩

end

end

end

theorem kvOperators : KvOperators := by
  rintro s u f m t g w _ rfl hg hw hfresh
  refine ⟨?refused, ?kvapp, ?kvseq, ?step, ?kvtrim⟩
  case refused =>
    intro e he k h hr hcheck
    obtain ⟨⟨act, hexec⟩, hopc, hfence⟩ := kvOps_fireKv f s e he
    exact h.execKv_refused hr hopc hfence hexec hg hcheck
  case kvapp =>
    rintro _ _ hcheck rfl rfl h hr
    exact ⟨h.kvapp_foreign hg hw hr hcheck, h.kvapp_beyond hg hw hr hcheck,
      fun howner hcap hspk hcommit => h.kvapp_appends hg hw hr hcheck howner hfresh hcap hspk hcommit⟩
  case kvseq =>
    rintro i hi _ r rfl hstep hcheck h hr
    subst hstep
    have hexec := kvseqs_fireKvseq f s i hi
    exact ⟨fun c hc => h.kvseq_faults hg hw hexec hr hcheck hc, fun k o hk => h.kvseq_answers hg hw hexec hr hcheck hfresh hk⟩
  case step =>
    intro op base cap n spk k hw hbase hcap hn
    exact ⟨kvSeqStep_read g spk k hw hbase hcap hn, kvSeqStep_open g spk k hw hbase hcap hn,
      fun hop h0 h1 hlen hfits => (kvSeqStep_advance g spk k hw hbase hcap hn hop h0 h1 hlen).trans (if_pos hfits),
      kvSeqStep_draft g spk k hw hbase hcap hn,
      fun hop h0 h1 hlen hfull => (kvSeqStep_advance g spk k hw hbase hcap hn hop h0 h1 hlen).trans (if_neg (Nat.not_le.mpr hfull))⟩
  case kvtrim =>
    rintro _ _ _ rfl rfl rfl hcheck h hr
    refine ⟨h.kvtrim_malformed hg hw hr hcheck, fun hhigh hzero hlen => ?_⟩
    obtain ⟨v, y, hexec, hout, hphase, hscratch⟩ := h.kvtrim_trims hg hw hr hcheck hfresh hhigh hzero hlen rfl
    exact ⟨v, y, _, hexec, hout, hphase, rfl, hscratch⟩

end Sys2Proof.Claims

namespace Sys2Proof
open Machine

/-- Settles O40: attention's operators with the tokens of their groups, then the KV operators with the control granule that each leaves. -/
theorem attentionAndKvOperatorsCompute : Obligations.AttentionAndKvOperatorsCompute := ⟨Claims.attentionOperators, Claims.kvOperators⟩

end Sys2Proof
end
